-- ==== Sys2Proof/Word.lean ====
section
/-! DEFINITION. The plain words of the model: bytes, handles, times, access paths and the operands that more than one command carries. -/
set_option Elab.async false
namespace Sys2Proof

/-- One byte. -/
abbrev Byte := BitVec 8
/-- A run of bytes, lowest address first (R14). -/
abbrev Bytes := List Byte
/-- A unit handle (R15, R21); 0xFFFF is no unit. -/
abbrev Handle := BitVec 16
/-- A valid time of R17 as one number, in units of 2^-16 ns since the PTP epoch. -/
abbrev Time := Nat
/-- A 96-bit time field as it stands in memory (R17); it may be invalid (R18). -/
abbrev TimeWord := BitVec 96
/-- A 48-bit device address (R305). -/
abbrev Addr := Nat

/-- The three access paths of the control window (R437); `kennel` is the mirror. -/
inductive WinPath where
  | cozor | smbus | kennel
deriving DecidableEq, Repr, Inhabited

/-- Where a command came from and where its response goes: a mailbox (R447) or a junction bank (R440). -/
inductive Path where
  | mailbox (m : Fin 64)
  | junction (p : WinPath)
deriving DecidableEq, Repr, Inhabited

/-- A command as the unit manager or the management junction sees it (R452, R440): who asked, its
sequence number, the unit it addresses and its argument bytes, laid out as its verb's table states. -/
structure Cmd where
  path : Path
  seq : BitVec 32
  unit : Handle
  args : Bytes
deriving DecidableEq, Repr, Inhabited

/-- The two supplies that the supervisor watches (R528); also the `rail` code of EV_SUPPLY (R609). -/
inductive Supply where
  | main | aux
deriving DecidableEq, Repr, Inhabited

/-- One sample as a reader of a sample ring sees it: its components and whether it is valid (R72). -/
structure Sample where
  i : Int
  q : Int
  valid : Bool
deriving DecidableEq, Repr, Inhabited

/-- The estimates of one slice, in 1/256 of the trim's own step (R88, R94, R95). -/
structure SliceErr where
  offset : Int
  gain : Int
  delay : Int
  bw : Int
deriving DecidableEq, Repr, Inhabited

/-- Which of the two kinds of work a transform pack runs. -/
inductive WorkKind where
  | xform | chan
deriving DecidableEq, Repr, Inhabited

/-- What a producer offers to a ring (R339): an entry already laid out, the outputs of a
down-conversion channel, or the words of an envelope stream. -/
inductive Offer where
  | entry (bytes : Bytes)
  | narrowband (channel : Handle)
  | envelope (envId : Fin 64)
deriving DecidableEq, Repr, Inhabited

/-- What one bank access does (R308, R313). -/
inductive AccOp where
  | read (n : Nat)
  | write (data : Bytes)
deriving DecidableEq, Repr, Inhabited

/-- What the check symbols of a word show when it is read (R275, R309). -/
inductive Ecc where
  | clean | corrected | uncorrectable
deriving DecidableEq, Repr, Inhabited

/-- One access to a bank port (R308): who, where, what, and what the check code shows. -/
structure BankAcc where
  who : Handle
  addr : Addr
  op : AccOp
  ecc : Ecc := .clean
deriving DecidableEq, Repr, Inhabited

/-- A request waiting at a channel scheduler of the store (R280, R281). -/
structure StoreReq where
  /-- R279: rank of the port -/
  rank : Nat
  /-- R279: ingest port 0 to 7; 0 for the other ports -/
  sub : Fin 8
  /-- R280: reference cycle of arrival -/
  arrived : Nat
  /-- R272: store address -/
  addr : Addr
  write : Bool
  /-- R279: accesses of the real-time burst that it opens; 1 for a single access -/
  burst : Nat
  /-- R280: counted in the port's LATE, which the controller notes -/
  late : Bool := false
deriving DecidableEq, Repr, Inhabited

/-- A PTP message received on PTP_PORT (R401), as the fields that the device reads. Times t1 and t4 come
from the message; t2 is the hardware timestamp of its arrival. All are in 2^-16 ns since the epoch. -/
inductive PtpMsg where
  | announce (domain : Nat) (identity : BitVec 64) (port : Nat) (rank : List Nat) (utcOffset logAnnounce : Int)
  | sync (domain : Nat) (identity : BitVec 64) (port : Nat) (sequence : Nat) (twoStep : Bool) (logSync : Int) (t1 t2 correction : Int)
  | followUp (domain : Nat) (identity : BitVec 64) (port : Nat) (sequence : Nat) (t1 correction : Int)
  | delayResp (domain : Nat) (identity : BitVec 64) (port : Nat) (sequence : Nat) (requester : BitVec 64) (logDelay : Int) (t4 correction : Int)
  | other
deriving DecidableEq, Repr, Inhabited

/-- A DisplayPort AUX reply (R250). -/
inductive AuxReply where
  | ack (data : Bytes)
  | defer
  | nack
deriving DecidableEq, Repr, Inhabited

end Sys2Proof
end

