-- ==== Sys2Proof/Syntax.lean ====
section
/-! DEFINITION. The commands of the block, one constructor per row of spec/opcode_table.json. A verb carries a Cmd; an event row carries the facts that the spec takes from the world. -/
set_option Elab.async false
namespace Sys2Proof

/-- A command waiting at the block (spec/95_what_each_step_holds.md). -/
inductive Instr where
  /-- VIN_AUX_RISE (R504). -/
  | vinAuxRise (straps : BitVec 8) (mv : Nat)
  /-- P_RESET (R512). -/
  | pReset (mv : Nat)
  /-- MGMT_FW_VERIFIED (R510). -/
  | mgmtFwVerified
  /-- MAIN_RAILS_UP (R525). -/
  | mainRailsUp (railOk : BitVec 10)
  /-- KENNEL_BOOT (R504). -/
  | kennelBoot
  /-- STORE_TRAINED (R504). -/
  | storeTrained (stackOk : BitVec 4)
  /-- CONVERTERS_CAL (R504). -/
  | convertersCal (tePass : BitVec 72) (scsLock : BitVec 2)
  /-- BRINGUP_READY (R507). -/
  | bringupReady
  /-- STAGE_TIMEOUT (R505). -/
  | stageTimeout (unit : Handle)
  /-- LINK_IMAGE_POLL (R511). -/
  | linkImagePoll
  /-- LINK_IMAGE_TIMEOUT (R511). -/
  | linkImageTimeout
  /-- DEV_RESET_BEGIN (R512). -/
  | devResetBegin
  /-- RESET_N_LOW (R513). -/
  | resetNLow
  /-- RESET_N_RISE (R513). -/
  | resetNRise
  /-- MAIN_OFF_ELAPSED (R512). -/
  | mainOffElapsed
  /-- SUPPLY_SAMPLE (R528). -/
  | supplySample (main aux : Nat)
  /-- SUPPLY_RECOVER (R529). -/
  | supplyRecover (rail : Supply)
  /-- VIN_MAIN_RETURN (R508). -/
  | vinMainReturn
  /-- RAIL_OUT (R527). -/
  | railOut (rail : Fin 10) (mv : Nat)
  /-- RAIL_OUT_REMOVE (R527). -/
  | railOutRemove (rail : Fin 10)
  /-- THERMAL_READ (R533). -/
  | thermalRead (tj : Vector Int 8)
  /-- THERMAL_COOLED (R534). -/
  | thermalCooled
  /-- KENNEL_REPORT (R516). -/
  | kennelReport
  /-- KENNEL_HANG (R516). -/
  | kennelHang
  /-- PWR_CYCLE_MAIN (R543). -/
  | pwrCycleMain (c : Cmd)
  /-- PWR_SET_STATE_ACTIVE (R517). -/
  | pwrSetStateActive (c : Cmd)
  /-- PWR_SET_STATE_QUIET (R517). -/
  | pwrSetStateQuiet (c : Cmd)
  /-- PWR_SET_STATE_STANDBY (R517). -/
  | pwrSetStateStandby (c : Cmd)
  /-- POWER_TRANSITION_DONE (R517). -/
  | powerTransitionDone
  /-- PWR_CONFIGURE (R542). -/
  | pwrConfigure (c : Cmd)
  /-- PWR_STATUS (R544). -/
  | pwrStatus (c : Cmd)
  /-- MJ_GO (R440). -/
  | mjGo (p : WinPath)
  /-- JUNCTION_SERVE (R29). -/
  | junctionServe
  /-- DEV_RESET_WRITE (R445). -/
  | devResetWrite (p : WinPath) (v : BitVec 32)
  /-- WHISTLE_WRITE (R450). -/
  | whistleWrite (m : Fin 64) (v : BitVec 32)
  /-- BOX_DATA_LAST_WORD_READ (R444). -/
  | boxDataLastWordRead (p : WinPath)
  /-- WINDOW_LATCH_READ (R439). -/
  | windowLatchRead (p : WinPath) (off : BitVec 12)
  /-- REGISTER_WRITE (R7). -/
  | registerWrite (p : WinPath) (off : BitVec 12) (v : BitVec 32)
  /-- SMBUS_WRITE_WORD (R464). -/
  | smbusWriteWord (v : BitVec 16) (pecOk : Bool)
  /-- SMBUS_BLOCK_READ (R464). -/
  | smbusBlockRead (n : Nat)
  /-- SMBUS_BLOCK_WRITE (R464). -/
  | smbusBlockWrite (data : Bytes) (pecOk : Bool)
  /-- MAILBOX_TAKE_COMMAND (R454). -/
  | mailboxTakeCommand
  /-- INTERIM_RESPONSE_DUE (R455). -/
  | interimResponseDue (m : Fin 64) (seq : BitVec 32)
  /-- UNIT_REINIT (R459). -/
  | unitReinit (c : Cmd)
  /-- UNIT_STATE (R459). -/
  | unitState (c : Cmd)
  /-- UNIT_LIST (R459). -/
  | unitList (c : Cmd)
  /-- DEV_RESET (R462). -/
  | devReset (c : Cmd)
  /-- DEV_EVENT_ROUTE (R462). -/
  | devEventRoute (c : Cmd)
  /-- DEV_CONFIGURE (R462). -/
  | devConfigure (c : Cmd)
  /-- DEV_STATUS (R462). -/
  | devStatus (c : Cmd)
  /-- PACK_CREATE (R37). -/
  | packCreate (c : Cmd)
  /-- PACK_ADD (R33). -/
  | packAdd (c : Cmd)
  /-- PACK_REMOVE (R33). -/
  | packRemove (c : Cmd)
  /-- PACK_DISSOLVE (R50). -/
  | packDissolve (c : Cmd)
  /-- PACK_LIST (R187). -/
  | packList (c : Cmd)
  /-- PACK_STATUS (R188). -/
  | packStatus (c : Cmd)
  /-- PACK_SELFTEST (R180). -/
  | packSelftest (c : Cmd)
  /-- SELFTEST_DONE (R180). -/
  | selftestDone (e : Fin 72) (pass : Bool) (test : BitVec 32)
  /-- POOL_SELFTEST_TIMER (R180). -/
  | poolSelftestTimer
  /-- DECLARE_ENGINE_DEAD (R174). -/
  | declareEngineDead (e : Fin 72)
  /-- PROMOTE_SPARE (R176). -/
  | promoteSpare (pack : Handle)
  /-- ISSUE_WORK_ITEM (R173). -/
  | issueWorkItem (pack : Handle)
  /-- WORK_ITEM_COMPLETE (R173). -/
  | workItemComplete (e : Fin 72) (item : Fin 2)
  /-- ENGINE_STORE_WRITE (R175). -/
  | engineStoreWrite (e : Fin 88) (pack : Handle) (slot : Nat) (epoch : BitVec 32) (addr : Addr) (data : Bytes)
  /-- RATE_LOCK_UPDATE (R168). -/
  | rateLockUpdate (rates : List (Handle × Nat))
  /-- V_FAB_RAISE_DONE (R169). -/
  | vFabRaiseDone
  /-- INPUT_CONFIGURE (R85). -/
  | inputConfigure (c : Cmd)
  /-- INPUT_SET_ATTEN (R85). -/
  | inputSetAtten (c : Cmd)
  /-- INPUT_ARRANGE (R82). -/
  | inputArrange (c : Cmd)
  /-- INPUT_STATUS (R86). -/
  | inputStatus (c : Cmd)
  /-- ATTEN_APPLY (R79). -/
  | attenApply (i : Fin 8)
  /-- SETTLE_SPAN_END (R80). -/
  | settleSpanEnd (i : Fin 8)
  /-- STREAM_SWITCH (R81). -/
  | streamSwitch (i : Fin 8) (origin : Nat)
  /-- INGEST_BLOCK (R69). -/
  | ingestBlock (i : Fin 8) (codes ahead : List Int)
  /-- OVERLOAD_EXIT (R75). -/
  | overloadExit (i : Fin 8)
  /-- SKID_DRAIN (R290). -/
  | skidDrain (i : Fin 8)
  /-- CAL_CONFIGURE (R108). -/
  | calConfigure (c : Cmd)
  /-- CAL_FOREGROUND (R102). -/
  | calForeground (c : Cmd)
  /-- CAL_STATUS (R109). -/
  | calStatus (c : Cmd)
  /-- CAL_READ_TRIMS (R108). -/
  | calReadTrims (c : Cmd)
  /-- CAL_UPDATE_PERIOD_END (R92), with the boundary of R100 at which the period ends. -/
  | calUpdatePeriodEnd (i : Fin 8) (boundary : Time)
  /-- FOREGROUND_START (R102). -/
  | foregroundStart (i : Fin 8)
  /-- FOREGROUND_ITERATION (R102). -/
  | foregroundIteration (i : Fin 8) (errs : List SliceErr)
  /-- FOREGROUND_END (R102). -/
  | foregroundEnd (i : Fin 8)
  /-- DDC_CONFIGURE (R131). -/
  | ddcConfigure (c : Cmd)
  /-- DDC_TUNE (R117). -/
  | ddcTune (c : Cmd)
  /-- DDC_SET_THRESHOLD (R137). -/
  | ddcSetThreshold (c : Cmd)
  /-- DDC_SYNC (R132). -/
  | ddcSync (c : Cmd)
  /-- DDC_ENGINE (R137). -/
  | ddcEngine (c : Cmd)
  /-- DDC_QUERY (R138). -/
  | ddcQuery (c : Cmd)
  /-- DDC_STATUS (R139). -/
  | ddcStatus (c : Cmd)
  /-- DDC_RETUNE_APPLY (R117). -/
  | ddcRetuneApply (ch : Fin 128)
  /-- DDC_RESTART (R130). -/
  | ddcRestart (ch : Fin 128)
  /-- SYNC_RESET (R133). -/
  | syncReset (e : Fin 8)
  /-- DDC_THRESH_AVERAGE (R136). -/
  | ddcThreshAverage (ch : Fin 128)
  /-- CHAN_CREATE (R149). -/
  | chanCreate (c : Cmd)
  /-- CHAN_BUNDLE (R145). -/
  | chanBundle (c : Cmd)
  /-- CHAN_UNBUNDLE (R145). -/
  | chanUnbundle (c : Cmd)
  /-- CHAN_START (R147). -/
  | chanStart (c : Cmd)
  /-- CHAN_STOP (R149). -/
  | chanStop (c : Cmd)
  /-- CHAN_DELETE (R149). -/
  | chanDelete (c : Cmd)
  /-- CHAN_STATUS (R149). -/
  | chanStatus (c : Cmd)
  /-- BUNDLE_TAKE_EFFECT (R145). -/
  | bundleTakeEffect (id : Fin 64) (first : Nat)
  /-- CHAN_FRAME_CLOSE (R351). -/
  | chanFrameClose (id : Fin 64) (first : Nat)
  /-- XFORM_CREATE (R185). -/
  | xformCreate (c : Cmd)
  /-- XFORM_LOAD_WINDOW (R153). -/
  | xformLoadWindow (c : Cmd)
  /-- XFORM_START (R163). -/
  | xformStart (c : Cmd)
  /-- XFORM_STOP (R185). -/
  | xformStop (c : Cmd)
  /-- XFORM_DELETE (R185). -/
  | xformDelete (c : Cmd)
  /-- XFORM_QUERY (R185). -/
  | xformQuery (c : Cmd)
  /-- XFORM_STATUS (R186). -/
  | xformStatus (c : Cmd)
  /-- STOP_COMPLETE (R185). -/
  | stopComplete (unit : Handle) (id : Nat)
  /-- TRIG_DEFINE (R224). -/
  | trigDefine (c : Cmd)
  /-- TRIG_LOAD_MASK (R195). -/
  | trigLoadMask (c : Cmd)
  /-- TRIG_ARM (R205). -/
  | trigArm (c : Cmd)
  /-- TRIG_DISARM (R224). -/
  | trigDisarm (c : Cmd)
  /-- TRIG_FORCE (R220). -/
  | trigForce (c : Cmd)
  /-- TRIG_SIGNAL (R224). -/
  | trigSignal (c : Cmd)
  /-- TRIG_DELETE (R224). -/
  | trigDelete (c : Cmd)
  /-- TRIG_STATUS (R224). -/
  | trigStatus (c : Cmd)
  /-- TRIGGER_ELEMENT (R200). -/
  | triggerElement (e t : Fin 16) (at_ : Time)
  /-- TIMER_DUE (R190). -/
  | timerDue (e t : Fin 16) (cond : Fin 4)
  /-- SEQ_WINDOW_EXPIRE (R200). -/
  | seqWindowExpire (e t : Fin 16)
  /-- HOLDOFF_END (R201). -/
  | holdoffEnd (e t : Fin 16)
  /-- SPAN_COMPLETE (R212). -/
  | spanComplete (record : BitVec 32) (span : Nat)
  /-- PIN_COPY_COMPLETE (R209). -/
  | pinCopyComplete (record : BitVec 32) (span : Nat)
  /-- REC_RING_POLICY (R225). -/
  | recRingPolicy (c : Cmd)
  /-- REC_RELEASE (R211). -/
  | recRelease (c : Cmd)
  /-- REC_ENVELOPE (R213). -/
  | recEnvelope (c : Cmd)
  /-- REC_ENV_STOP (R225). -/
  | recEnvStop (c : Cmd)
  /-- REC_STATUS (R225). -/
  | recStatus (c : Cmd)
  /-- ENV_FRAME_CLOSE (R352). -/
  | envFrameClose (id : Fin 64)
  /-- MEAS_DEFINE (R226). -/
  | measDefine (c : Cmd)
  /-- MEAS_RUN (R226). -/
  | measRun (c : Cmd)
  /-- MEAS_STATUS (R226). -/
  | measStatus (c : Cmd)
  /-- MEAS_COMPLETE (R218). -/
  | measComplete (e : Fin 16)
  /-- DENS_CONFIGURE (R267). -/
  | densConfigure (c : Cmd)
  /-- DENS_LOAD_COLOURS (R238). -/
  | densLoadColours (c : Cmd)
  /-- DENS_START (R239). -/
  | densStart (c : Cmd)
  /-- DENS_STOP (R240). -/
  | densStop (c : Cmd)
  /-- DENS_CLEAR (R240). -/
  | densClear (c : Cmd)
  /-- DENS_STATUS (R267). -/
  | densStatus (c : Cmd)
  /-- DENS_FRAME_COMPLETE (R233). -/
  | densFrameComplete (a : Fin 8)
  /-- OCC_CONFIGURE (R267). -/
  | occConfigure (c : Cmd)
  /-- OCC_CHANNEL (R244). -/
  | occChannel (c : Cmd)
  /-- OCC_START (R241). -/
  | occStart (c : Cmd)
  /-- OCC_STOP (R267). -/
  | occStop (c : Cmd)
  /-- OCC_STATUS (R267). -/
  | occStatus (c : Cmd)
  /-- OCC_SLOT_COMPLETE (R242). -/
  | occSlotComplete (a : Fin 8)
  /-- DISP_TIMING (R257). -/
  | dispTiming (c : Cmd)
  /-- DISP_LAYER (R257). -/
  | dispLayer (c : Cmd)
  /-- DISP_COMMIT (R258). -/
  | dispCommit (c : Cmd)
  /-- DISP_ENABLE (R252). -/
  | dispEnable (c : Cmd)
  /-- DISP_AUX (R250). -/
  | dispAux (c : Cmd)
  /-- DISP_STATUS (R269). -/
  | dispStatus (c : Cmd)
  /-- AUX_REPLY_TIMEOUT (R250). -/
  | auxReplyTimeout
  /-- HPD_IN_FALL (R249). -/
  | hpdInFall
  /-- HPD_UNPLUG (R249). -/
  | hpdUnplug
  /-- HPD_IN_RISE (R249). -/
  | hpdInRise
  /-- DP_TRAIN_STEP (R252): the try passed, and the voltage swing and pre-emphasis that the sink asks for. -/
  | dpTrainStep (pass : Bool) (want : Fin 4 × Fin 4)
  /-- VERTICAL_BLANK (R257). -/
  | verticalBlank
  /-- FRAME_START (R259). -/
  | frameStart
  /-- LAYER_UNDERRUN (R260). -/
  | layerUnderrun (l : Fin 4) (line : Nat)
  /-- STORE_CONFIGURE (R303). -/
  | storeConfigure (c : Cmd)
  /-- STORE_SET_RATE (R292). -/
  | storeSetRate (c : Cmd)
  /-- STORE_RATE_CHANGE_DONE (R293). -/
  | storeRateChangeDone (failStep pauseNs : Nat)
  /-- STORE_PORT (R303). -/
  | storePort (c : Cmd)
  /-- STORE_RETRAIN (R289). -/
  | storeRetrain (c : Cmd)
  /-- STORE_RETRAIN_DONE (R289). -/
  | storeRetrainDone (st : Fin 4) (failed : BitVec 16)
  /-- STORE_STATUS (R304). -/
  | storeStatus (c : Cmd)
  /-- STORE_PORT_STATUS (R303). -/
  | storePortStatus (c : Cmd)
  /-- STORE_ACCESS_ISSUE (R281). -/
  | storeAccessIssue (ch : Fin 64) (arrivals : List StoreReq) (ecc : Ecc)
  /-- PER_BANK_REFRESH (R285). -/
  | perBankRefresh (ch : Fin 64)
  /-- STACK_TEMP_READ (R284). -/
  | stackTempRead (st : Fin 4) (temp : Int)
  /-- RETRAIN_PAUSE (R287). -/
  | retrainPause (ch : Fin 64)
  /-- SCRUB_READ (R278). -/
  | scrubRead (ch : Fin 64) (ecc : Ecc)
  /-- STORE_WAKE (R296). -/
  | storeWake
  /-- STORE_DOZE (R296). -/
  | storeDoze
  /-- BANK_HANDOVER (R312). -/
  | bankHandover (c : Cmd)
  /-- HANDOVER_DRAIN_DONE (R312). -/
  | handoverDrainDone (b : Fin 32)
  /-- BANK_POWER (R316). -/
  | bankPower (c : Cmd)
  /-- BANK_FILL (R318). -/
  | bankFill (c : Cmd)
  /-- BANK_FILL_DONE (R318). -/
  | bankFillDone (b : Fin 32)
  /-- BANK_STATUS (R321). -/
  | bankStatus (c : Cmd)
  /-- BANK_ACCESS (R311). -/
  | bankAccess (b : Fin 32) (port0 port1 : Option BankAcc)
  /-- FETCH_START (R323). -/
  | fetchStart (c : Cmd)
  /-- FETCH_CONFIGURE (R331). -/
  | fetchConfigure (c : Cmd)
  /-- FETCH_ABORT (R333). -/
  | fetchAbort (c : Cmd)
  /-- FETCH_CLEAR_ABANDON (R329). -/
  | fetchClearAbandon (c : Cmd)
  /-- FETCH_CLEAR_RETRY (R329). -/
  | fetchClearRetry (c : Cmd)
  /-- FETCH_STATUS (R334). -/
  | fetchStatus (c : Cmd)
  /-- FETCH_BEAT (R325). -/
  | fetchBeat
  /-- RING_CREATE (R363). -/
  | ringCreate (c : Cmd)
  /-- RING_DELETE (R363). -/
  | ringDelete (c : Cmd)
  /-- RING_MODIFY (R363). -/
  | ringModify (c : Cmd)
  /-- RING_CONSUME (R363). -/
  | ringConsume (c : Cmd)
  /-- RING_STATUS (R363). -/
  | ringStatus (c : Cmd)
  /-- RING_PUBLISH (R339). -/
  | ringPublish (ring : Nat) (o : Offer)
  /-- STREAM_START (R364). -/
  | streamStart (c : Cmd)
  /-- STREAM_STOP (R361). -/
  | streamStop (c : Cmd)
  /-- STREAM_STATUS (R364). -/
  | streamStatus (c : Cmd)
  /-- STREAM_SEND_PACKET (R359). -/
  | streamSendPacket (ring : Nat)
  /-- SYNTH_SET_RATE (R380). -/
  | synthSetRate (c : Cmd)
  /-- SCS_RATE_CHANGE_DONE (R380). -/
  | scsRateChangeDone (d : Fin 2)
  /-- SYNTH_CONFIGURE (R393). -/
  | synthConfigure (c : Cmd)
  /-- SYNTH_ALIGN (R378). -/
  | synthAlign (c : Cmd)
  /-- SYNTH_SPREAD (R388). -/
  | synthSpread (c : Cmd)
  /-- SYNTH_AXS_SET (R383). -/
  | synthAxsSet (c : Cmd)
  /-- SYNTH_AXS_STORE (R384). -/
  | synthAxsStore (c : Cmd)
  /-- SYNTH_AXS_HOP (R384). -/
  | synthAxsHop (c : Cmd)
  /-- SYNTH_AXS_RAMP_LOAD (R385). -/
  | synthAxsRampLoad (c : Cmd)
  /-- SYNTH_AXS_RAMP_RUN (R385). -/
  | synthAxsRampRun (c : Cmd)
  /-- SYNTH_REFERENCE (R393). -/
  | synthReference (c : Cmd)
  /-- SYNTH_STATUS (R394). -/
  | synthStatus (c : Cmd)
  /-- AXS_SEARCH_DONE (R383). -/
  | axsSearchDone (ok : Bool)
  /-- AXS_HOP_APPLY (R384). -/
  | axsHopApply
  /-- AXS_RAMP_STEP (R385). -/
  | axsRampStep
  /-- AXS_RETUNE_APPLY (R383). -/
  | axsRetuneApply
  /-- REFIN_LOST (R368). -/
  | refinLost
  /-- REFIN_QUALIFIED (R370). -/
  | refinQualified (jumpPs : Int)
  /-- REFIN_QUALIFY_FAIL (R369). -/
  | refinQualifyFail
  /-- REALIGN_DONE (R370). -/
  | realignDone
  /-- LOOP_LOCK_CHANGE (R373). -/
  | loopLockChange (l : Fin 26) (locked : Bool)
  /-- LOOP_ACQUIRE_RETRY (R373). -/
  | loopAcquireRetry (l : Fin 26)
  /-- SYNTH_FAULT (R390). -/
  | synthFault (l : Fin 26)
  /-- SCS_MARKER (R375). -/
  | scsMarker (d : Fin 2) (coarse fine : Nat)
  /-- SYNC_IN_EDGE (R378). -/
  | syncInEdge (offsetPs : Int)
  /-- TIME_CONFIGURE (R417). -/
  | timeConfigure (c : Cmd)
  /-- TIME_SET (R417). -/
  | timeSet (c : Cmd)
  /-- TIME_ADJUST (R417). -/
  | timeAdjust (c : Cmd)
  /-- TIME_READ (R417). -/
  | timeRead (c : Cmd)
  /-- TIME_STATUS (R417). -/
  | timeStatus (c : Cmd)
  /-- TIME_SET_TIMEOUT (R417). -/
  | timeSetTimeout
  /-- PTP_MESSAGE (R401). -/
  | ptpMessage (m : PtpMsg)
  /-- PTP_DELAY_REQ_SEND (R401). -/
  | ptpDelayReqSend (t3 : Int)
  /-- PTP_SOURCE_TIMEOUT (R400). -/
  | ptpSourceTimeout
  /-- L1_SYNC_CHANGE (R402). -/
  | l1SyncChange (up : Bool)
  /-- PPS_IN_EDGE (R403). -/
  | ppsInEdge (coarse fine : Nat)
  /-- PPS_IN_MISSING (R403). -/
  | ppsInMissing
  /-- PPS_OUT_PULSE (R404). -/
  | ppsOutPulse
  /-- HOLDOVER_EXPIRED (R396). -/
  | holdoverExpired
  /-- ETH_CONFIGURE (R417). -/
  | ethConfigure (c : Cmd)
  /-- ETH_VITA_CREATE (R410). -/
  | ethVitaCreate (c : Cmd)
  /-- ETH_VITA_DELETE (R417). -/
  | ethVitaDelete (c : Cmd)
  /-- ETH_STATUS (R417). -/
  | ethStatus (c : Cmd)
  /-- ETH_FRAME_RECEIVED (R408). -/
  | ethFrameReceived (p : Fin 16) (frame : Bytes)
  /-- ETH_LINK_CHANGE (R416). -/
  | ethLinkChange (p : Fin 16) (up : Bool)
  /-- VITA_SEND (R411). -/
  | vitaSend (id : Fin 64)
  /-- VITA_CONTEXT (R413). -/
  | vitaContext (id : Fin 64)
  /-- TDC_CONFIGURE (R434). -/
  | tdcConfigure (c : Cmd)
  /-- TDC_ARM (R434). -/
  | tdcArm (c : Cmd)
  /-- TDC_DISARM (R434). -/
  | tdcDisarm (c : Cmd)
  /-- TDC_READ (R429). -/
  | tdcRead (c : Cmd)
  /-- TDC_SELFCAL (R431). -/
  | tdcSelfcal (c : Cmd)
  /-- TDC_STATUS (R434). -/
  | tdcStatus (c : Cmd)
  /-- TDC_ARM_TIME (R425). -/
  | tdcArmTime (ch : Fin 4)
  /-- TIN_EDGE (R420). -/
  | tinEdge (ch : Fin 10) (falling : Bool) (coarse fine : Nat)
  /-- TDC_GATE_END (R427). -/
  | tdcGateEnd (ch : Fin 4)
  /-- TDC_INTERVAL_OVERFLOW (R426). -/
  | tdcIntervalOverflow (ch : Fin 4)
  /-- TDC_FIFO_DRAIN (R428). -/
  | tdcFifoDrain (ch : Fin 4)
  /-- TDC_AUTO_CAL (R431). -/
  | tdcAutoCal (tempMoved : Bool)
  /-- TDC_SELFCAL_PAIR_DONE (R431). -/
  | tdcSelfcalPairDone (lsb : Nat) (ofs : Int)
  /-- TDC_SELFCAL_DONE (R431). -/
  | tdcSelfcalDone
  /-- LINK_BOND (R500). -/
  | linkBond (c : Cmd)
  /-- LINK_RETRAIN (R497). -/
  | linkRetrain (c : Cmd)
  /-- LINK_APERTURE (R489). -/
  | linkAperture (c : Cmd)
  /-- LINK_READAPT (R494). -/
  | linkReadapt (c : Cmd)
  /-- LINK_STATUS (R503). -/
  | linkStatus (c : Cmd)
  /-- LINK_LANE_STATUS (R503). -/
  | linkLaneStatus (c : Cmd)
  /-- L_RESET (R497). -/
  | lReset (b : Fin 8) (cause : Fin 8)
  /-- CAP (R475). -/
  | cap (lane : Fin 144) (blk : Bytes)
  /-- CAP_ACK (R475). -/
  | capAck (lane : Fin 144) (blk : Bytes)
  /-- LANE_MAP_TIMEOUT (R475). -/
  | laneMapTimeout (b : Fin 8)
  /-- STEP (R475). -/
  | step (b : Fin 8)
  /-- STEP_ACK (R475). -/
  | stepAck (lane : Fin 144) (blk : Bytes)
  /-- PRBS_CHECK_DONE (R476). -/
  | prbsCheckDone (b : Fin 8) (found : List (Fin 144 × Nat × Nat))
  /-- RESULT (R476). -/
  | result (lane : Fin 144) (blk : Bytes)
  /-- RESULT_TIMEOUT (R476). -/
  | resultTimeout (b : Fin 8)
  /-- BOND_UP (R475). -/
  | bondUp (b : Fin 8)
  /-- ALIGN (R479). -/
  | align (lane : Fin 144) (blk : Bytes)
  /-- ALIGN_MARKER_SEND (R479). -/
  | alignMarkerSend (b : Fin 8)
  /-- WIDTH (R493). -/
  | width (lane : Fin 144) (blk : Bytes)
  /-- WIDTH_ACK (R493). -/
  | widthAck (lane : Fin 144) (blk : Bytes)
  /-- SLEEP (R495). -/
  | sleep (lane : Fin 144) (blk : Bytes)
  /-- RETRAIN (R497). -/
  | retrain (lane : Fin 144) (blk : Bytes)
  /-- FLIT_RECEIVED (R482). -/
  | flitReceived (b : Fin 8) (flit : Bytes) (badCodewords : Nat)
  /-- ACK_SEND_DUE (R482). -/
  | ackSendDue (b : Fin 8)
  /-- REPLAY_TIMEOUT (R483). -/
  | replayTimeout (b : Fin 8)
  /-- WIN_RD (R485). -/
  | winRd (b : Fin 8) (tag : BitVec 16) (addr : Nat) (rlen : Nat)
  /-- WIN_WR (R485). -/
  | winWr (b : Fin 8) (tag : BitVec 16) (addr : Nat) (data : Bytes)
  /-- MEM_RD (R488). -/
  | memRd (b : Fin 8) (tag : BitVec 16) (addr : Nat) (rlen : Nat)
  /-- MEM_WR (R488). -/
  | memWr (b : Fin 8) (addr : Nat) (data : Bytes)
  /-- WHISTLE (R487). -/
  | whistle (b : Fin 8) (m : Fin 64) (v : BitVec 32)
  /-- CREDIT (R490). -/
  | credit (b : Fin 8) (incs : Vector (BitVec 16) 4)
  /-- MEM_RD_COMPLETION (R486). -/
  | memRdCompletion (b : Fin 8) (tag : BitVec 16) (status : Nat) (data : Bytes)
  /-- CPL_TIMEOUT (R486). -/
  | cplTimeout (b : Fin 8) (tag : BitVec 16)
  /-- CREDIT_RETURN_DUE (R490). -/
  | creditReturnDue (b : Fin 8)
  /-- FOM_CHECK (R478). -/
  | fomCheck (lane : Fin 144) (fom : BitVec 8)
  /-- READAPT_TIMER (R494). -/
  | readaptTimer (lane : Fin 144)
  /-- LANE_READAPT_DONE (R494). -/
  | laneReadaptDone (lane : Fin 144) (errors fom : Nat)
  /-- IDLE_SLEEP (R495). -/
  | idleSleep (b : Fin 8)
  /-- TRANSMITTER_WAKE (R496). -/
  | transmitterWake (b : Fin 8)
  /-- DAC_CONFIGURE (R555). -/
  | dacConfigure (c : Cmd)
  /-- DAC_WRITE (R548). -/
  | dacWrite (c : Cmd)
  /-- DAC_STROBE (R548). -/
  | dacStrobe (c : Cmd)
  /-- DAC_SCHEDULE (R549). -/
  | dacSchedule (c : Cmd)
  /-- DAC_SET_CLEAR (R553). -/
  | dacSetClear (c : Cmd)
  /-- DAC_RELEASE (R552). -/
  | dacRelease (c : Cmd)
  /-- DAC_STATUS (R568). -/
  | dacStatus (c : Cmd)
  /-- LOAD_G_FALL (R548). -/
  | loadGFall (g : Fin 3) (lowNs : Nat)
  /-- DAC_CLR_N_CHANGE (R552). -/
  | dacClrNChange (low : Bool)
  /-- DAC_UPDATE_TICK (R549). -/
  | dacUpdateTick
  /-- LEASH_STEP (R550). -/
  | leashStep (ch : Fin 12)
  /-- DAC_CLAMP_END (R555). -/
  | dacClampEnd (ch : Fin 12)
  /-- DAC_REFERENCE_FAULT (R552). -/
  | dacReferenceFault (out : Bool)
  /-- DAC_OVERCURRENT (R552). -/
  | dacOvercurrent (ch : Fin 12) (current : Int)
  /-- DAC_HEADROOM (R547). -/
  | dacHeadroom (ch : Fin 12) (mv : Nat)
  /-- DAC_POWER_UP (R554). -/
  | dacPowerUp
  /-- HKADC_CONFIGURE (R569). -/
  | hkadcConfigure (c : Cmd)
  /-- HKADC_LOAD_SEQ (R569). -/
  | hkadcLoadSeq (c : Cmd)
  /-- HKADC_START (R569). -/
  | hkadcStart (c : Cmd)
  /-- HKADC_STOP (R569). -/
  | hkadcStop (c : Cmd)
  /-- HKADC_READ (R569). -/
  | hkadcRead (c : Cmd)
  /-- HKADC_STATUS (R569). -/
  | hkadcStatus (c : Cmd)
  /-- HK_CONVERSION (R559). -/
  | hkConversion (modB : Bool) (data : Int)
  /-- HK_SYSTEM_WINDOW (R561). -/
  | hkSystemWindow (readings : Vector Nat 13)
  /-- HK_FIFO_DRAIN (R562). -/
  | hkFifoDrain
  /-- THERM_CONFIGURE (R570). -/
  | thermConfigure (c : Cmd)
  /-- THERM_START (R564). -/
  | thermStart (c : Cmd)
  /-- THERM_STOP (R570). -/
  | thermStop (c : Cmd)
  /-- THERM_SETPOINT (R570). -/
  | thermSetpoint (c : Cmd)
  /-- THERM_STATUS (R570). -/
  | thermStatus (c : Cmd)
  /-- THERM_TICK (R563). -/
  | thermTick (l : Fin 8)
  /-- SEC_ATTEST (R580). -/
  | secAttest (c : Cmd)
  /-- SEC_CERT (R579). -/
  | secCert (c : Cmd)
  /-- SEC_UPDATE (R577). -/
  | secUpdate (c : Cmd)
  /-- SEC_ROLLBACK_COMMIT (R576). -/
  | secRollbackCommit (c : Cmd)
  /-- SEC_KEY_ENROL_OWNER (R588). -/
  | secKeyEnrolOwner (c : Cmd)
  /-- SEC_KEY_REVOKE_VENDOR (R588). -/
  | secKeyRevokeVendor (c : Cmd)
  /-- SEC_KEY_SET_OWNER_ENFORCE (R588). -/
  | secKeySetOwnerEnforce (c : Cmd)
  /-- SEC_KEY_REVOKE_OWNER (R588). -/
  | secKeyRevokeOwner (c : Cmd)
  /-- SEC_DEBUG_CHALLENGE (R581). -/
  | secDebugChallenge (c : Cmd)
  /-- SEC_DEBUG_UNLOCK_TOKEN (R581). -/
  | secDebugUnlockToken (c : Cmd)
  /-- SEC_DEBUG_RELOCK (R581). -/
  | secDebugRelock (c : Cmd)
  /-- DEBUG_CHALLENGE_EXPIRE (R581). -/
  | debugChallengeExpire
  /-- SEC_STATUS (R588). -/
  | secStatus (c : Cmd)
  /-- BOX_STATUS (R589). -/
  | boxStatus (c : Cmd)
  /-- BOX_READ (R589). -/
  | boxRead (c : Cmd)
  /-- BOX_EXPORT (R587). -/
  | boxExport (c : Cmd)
  /-- BOX_SIGN_PART0 (R589). -/
  | boxSignPart0 (c : Cmd)
  /-- BOX_SIGN_PART1 (R589). -/
  | boxSignPart1 (c : Cmd)
  /-- BOX_NOTE (R589). -/
  | boxNote (c : Cmd)
  /-- BOX_ENTRY_WRITE (R584). -/
  | boxEntryWrite
  /-- MAINT_CONFIGURE (R603). -/
  | maintConfigure (c : Cmd)
  /-- MAINT_STATUS (R605). -/
  | maintStatus (c : Cmd)
  /-- MAINT_CANCEL (R604). -/
  | maintCancel (c : Cmd)
  /-- MAINT_TICK (R599). -/
  | maintTick
  /-- MAINT_OVERRUN (R601). -/
  | maintOverrun (ticket : Nat)
  /-- LANE_LOCK_LOST (R492). -/
  | laneLockLost (lane : Fin 144)
  /-- RECEIVER_ADAPTED (R475). -/
  | receiverAdapted (b : Fin 8)
  /-- SEC_UPDATE_DONE (R577). -/
  | secUpdateDone
  /-- BOX_SIGNING_DONE (R585). -/
  | boxSigningDone
  /-- AUX_REPLY (R250). -/
  | auxReply (r : AuxReply)
  /-- FETCH_BOND_DOWN_TIMEOUT (R327). -/
  | fetchBondDownTimeout (ch : Fin 32)
  /-- HK_INTERVAL_FRAME_CLOSE (R353). -/
  | hkIntervalFrameClose (unit : Handle)
  /-- SYNTH_ALIGN_APPLY (R378). -/
  | synthAlignApply (d : Fin 2)
deriving DecidableEq, Repr

end Sys2Proof
end

