-- ==== Sys2Proof/Decode.lean ====
section
/-! DEFINITION. The command that a word spells by the opcode table's bits. The table gives no row any bits, so a word spells none. -/
set_option Elab.async false
namespace Sys2Proof

/-- No row of the opcode table has bits: commands arrive as register accesses, descriptors and events, never as words. -/
def decodeTableWord (_nbits _w : Nat) : Option Instr := none

end Sys2Proof
end

