-- ==== Sys2Proof/Config.lean ====
section
/-! DEFINITION. What an implementation fixes and the spec leaves open: constants without a body. No proof can see a value of one. -/
set_option Elab.async false
namespace Sys2Proof

/-- A value that the spec leaves undefined, by the number of its drawing (log 8). -/
opaque Config.free : Nat → Nat

/-- The Q part of a zone 2 sample whose Q before the inversion is -32,768 (R61, R66); no 16-bit value is its negative (log 17). -/
opaque Config.negMin : BitVec 16

/-- The identity key pair's public half, by index (R579). -/
opaque Config.identityKey : Nat → Bytes

/-- The signature (r, s) that the security core makes over bytes, by the number of the signing (R573, R580, R587). -/
opaque Config.sign : Nat → Bytes → Bytes

/-- The 32-byte challenge of SEC.DEBUG_UNLOCK, by its number (R581). -/
opaque Config.challenge : Nat → Bytes

/-- Tap of the 63-tap linear-phase half-band filter at a distance from its centre (R65, R67); the coefficients are not given (log 17). -/
opaque Config.halfBandTap (distance : Nat) : Int

/-- The 16-bit sample that a sum of the half-band filter gives (R65); the filter's scale and rounding are not given (log 17). -/
opaque Config.halfBandRound (sum : Int) : BitVec 16

/-- Gain error of a slice in 1/256 step (R88, R94), from the mean square of the slice and of the ensemble, each as a sum and a count; the
scale from the ratio to steps is not given (log 17, 68). -/
opaque Config.calGain (sq n allSq allN : Nat) : BitVec 24

/-- Timing skew of a slice in 1/256 step (R88), from the sums of products with the slice before and the slice after, and the ensemble's
first-difference power; the scale is not given (log 17, 68). -/
opaque Config.calSkew (prev next : Int) (n allDiff allN : Nat) : BitVec 20

/-- Bandwidth mismatch of a slice in 1/256 step (R88), from the first-difference power over the slice's own power, the same of the ensemble,
and the skew estimate; the arithmetic is not given (log 17, 68). -/
opaque Config.calBw (diff sq allDiff allSq : Nat) (skew : Int) : BitVec 24

/-- Power of a run of samples in each of the 64 equal sub-bands of the first Nyquist zone (R91), none where a sample is not usable; the
analysis is not given (log 17, 68). -/
opaque Config.calBands (codes : List (Option Int)) : List Nat

/-- A source sample mixed with the NCO (R116), I and Q in 2^-16 of full code, from the sample and the 48-bit phase; the arithmetic is not
given (log 17). -/
opaque Config.ddcMix (sample : Int × Int) (phase : Nat) : Int × Int

/-- One output of a decimate-by-2 stage (R118, R122), from PRESET and the samples under its taps; the coefficients are not given (log 17). -/
opaque Config.ddcHalf (preset : Nat) (window : List (Int × Int)) : Int × Int

/-- One output of a chain with a fractional resampler (R118, R122), from PRESET, N_HB, D_R, the fraction of p(m) in 2^-32 wideband periods and
the mixed samples in its support; the coefficients are not given (log 17). -/
opaque Config.ddcResample (preset nhb dr frac : Nat) (window : List (Int × Int)) : Int × Int

/-- Coefficient of the channeliser's prototype filter (R142), from LOG2_N, T and its place; the coefficients are not given (log 17). -/
opaque Config.prototype (log2N taps n : Nat) : Int

/-- cos(2πk/n) in 2^-30 in the first quarter turn; its rounding is not given (log 17). -/
opaque Config.cosine (k n : Nat) : Int

/-- Coefficient of a window of R152 other than the rectangular one and a user table, from WINDOW, WIN_PARAM, LOG2_N and its place; the
coefficients are not given (log 17). -/
opaque Config.window (window param log2N n : Nat) : Int

/-- ENBW in 1/65,536 bin of a Kaiser or Gaussian window, or of a user table not yet loaded (R152; log 17). -/
opaque Config.enbw (window param log2N : Nat) : Nat

/-- V_FAB in 0.1 mV that the device's own model predicts for a load in M/s (R169). -/
opaque Config.vFab (load : Nat) : Nat

end Sys2Proof
end

