-- ==== Sys2Proof/Machine/Bits.lean ====
section
/-! DEFINITION. Fields of words, byte order, times, signed numbers, lists and vectors by index, CRC-32 and CRC-16: the plain helpers of the meanings. -/
set_option Elab.async false
namespace Sys2Proof.Machine
open Sys2Proof

/-- Field [hi:lo] of a register word (R14). -/
def fld {n : Nat} (w : BitVec n) (hi lo : Nat) : Nat := (w.toNat >>> lo) % 2 ^ (hi + 1 - lo)

/-- The word with field [hi:lo] set to v. -/
def setFld {n : Nat} (w : BitVec n) (hi lo v : Nat) : BitVec n :=
  BitVec.ofNat n (w.toNat - (fld w hi lo <<< lo) + ((v % 2 ^ (hi + 1 - lo)) <<< lo))

/-- Bit i of a register word. -/
def bitAt {n : Nat} (w : BitVec n) (i : Nat) : Bool := w.getLsbD i

/-- The word with bit i set to b. -/
def setBit {n : Nat} (w : BitVec n) (i : Nat) (b : Bool) : BitVec n := setFld w i i (if b then 1 else 0)

/-- 1 for true, 0 for false. -/
def b2n (b : Bool) : Nat := if b then 1 else 0

/-- A two's-complement number of the given width. -/
def sgn (bits v : Nat) : Int := if v < 2 ^ (bits - 1) then v else (v : Int) - 2 ^ bits

/-- A signed number as a two's-complement field of the given width. -/
def unsgn (bits : Nat) (v : Int) : Nat := (v % (2 ^ bits : Int)).toNat

/-- n bytes of a number, lowest first (R14). -/
def le : Nat → Nat → Bytes
  | 0, _ => []
  | n + 1, v => BitVec.ofNat 8 v :: le n (v / 256)

/-- The number that bytes spell, lowest first (R14). -/
def leNat : Bytes → Nat
  | [] => 0
  | b :: bs => b.toNat + 256 * leNat bs

/-- n bytes of a number, highest first (R409, R573). -/
def be (n v : Nat) : Bytes := (le n v).reverse

/-- n bytes from an offset, as a number; a byte that is not there reads 0. -/
def numAt (b : Bytes) (off n : Nat) : Nat := leNat ((b.drop off).take n)

/-- n bytes from an offset, padded with zeros to n. -/
def bytesAt (b : Bytes) (off n : Nat) : Bytes := (((b.drop off).take n) ++ List.replicate n 0).take n

/-- The bytes padded with zeros, or cut, to length n. -/
def padTo (n : Nat) (b : Bytes) : Bytes := (b ++ List.replicate n 0).take n

/-- An argument field of a command. -/
def argN (c : Cmd) (off n : Nat) : Nat := numAt c.args off n

/-- An argument byte's bit of a command. -/
def argBit (c : Cmd) (off i : Nat) : Bool := (argN c off 1 >>> i) % 2 == 1

/-- A record of w bits held in a command from an offset. -/
def argW (c : Cmd) (off w : Nat) : BitVec w := BitVec.ofNat w (argN c off ((w + 7) / 8))

/-- Fractions of 2^-16 ns in a second (R17). -/
def secT : Nat := 65536 * 1000000000

/-- The 96-bit layout of a time, as a number (R17). -/
def timeNum (t : Time) : Nat := t % 65536 + ((t / 65536 % 1000000000) <<< 16) + ((t / secT % 2 ^ 48) <<< 48)

/-- The 12 bytes of a time (R17). -/
def timeB (t : Time) : Bytes := le 12 (timeNum t)

/-- A time field as a time; none when its NS exceeds 999,999,999 (R18). -/
def timeOf (w : Nat) : Option Time :=
  let ns := (w >>> 16) % 2 ^ 32
  if ns ≤ 999999999 then some ((w >>> 48) % 2 ^ 48 * secT + ns * 65536 + w % 65536) else none

/-- A time argument of a command. -/
def argT (c : Cmd) (off : Nat) : Option Time := timeOf (argN c off 12)

/-- A time argument is all zero: at once. -/
def argT0 (c : Cmd) (off : Nat) : Bool := argN c off 12 == 0

/-- Picoseconds in a length of time of 2^-16 ns, rounded down. -/
def psOf (t : Int) : Int := t * 1000 / 65536

/-- 2^-16 ns in picoseconds, rounded down. -/
def ofPs (p : Int) : Int := p * 65536 / 1000

/-- ceil(a / b). -/
def ceilDiv (a b : Nat) : Nat := (a + b - 1) / b

/-- a / b rounded to nearest, halves up. -/
def roundDiv (a b : Nat) : Nat := (2 * a + b) / (2 * b)

/-- a / b rounded to nearest, ties away from zero. -/
def roundDivI (a : Int) (b : Nat) : Int := if a < 0 then -((roundDiv a.natAbs b : Nat) : Int) else (roundDiv a.natAbs b : Nat)

/-- A count of w bits that wraps. -/
def wrapAdd (w a b : Nat) : Nat := (a + b) % 2 ^ w

/-- A signed number kept within limits. -/
def clampI (lo hi x : Int) : Int := if x < lo then lo else if hi < x then hi else x

/-- floor(log2 n) of a positive number below 2^64. -/
def log2f (n : Nat) : Nat := Nat.log2 n

/-- Element of a vector, or the default outside it. -/
def vget {α : Type} [Inhabited α] {n : Nat} (v : Vector α n) (i : Nat) : α := if h : i < n then v[i] else default

/-- The vector with element i changed; unchanged outside it. -/
def vmod {α : Type} {n : Nat} (v : Vector α n) (i : Nat) (f : α → α) : Vector α n :=
  if h : i < n then v.set i (f v[i]) else v

/-- The list with every element that fits p changed. -/
def lmod {α : Type} (p : α → Bool) (f : α → α) (l : List α) : List α := l.map fun x => if p x then f x else x

/-- Numbers a, a+1, ... below b. -/
def span (a b : Nat) : List Nat := (List.range (b - a)).map (· + a)

/-- Indices of Fin n. -/
def fins (n : Nat) : List (Fin n) := List.finRange n

/-- One bit step of the reflected CRC-32 (IEEE 802.3). -/
def crc32Bit (r : BitVec 32) : BitVec 32 := if r.getLsbD 0 then (r >>> 1) ^^^ 0xEDB88320 else r >>> 1

/-- One byte of the CRC-32. -/
def crc32Byte (r : BitVec 32) (b : Byte) : BitVec 32 :=
  crc32Bit (crc32Bit (crc32Bit (crc32Bit (crc32Bit (crc32Bit (crc32Bit (crc32Bit (r ^^^ b.setWidth 32))))))))

/-- CRC-32 (IEEE 802.3 polynomial) of bytes. -/
def crc32 (b : Bytes) : BitVec 32 := (b.foldl crc32Byte 0xFFFFFFFF) ^^^ 0xFFFFFFFF

/-- The bytes followed by their CRC-32. -/
def withCrc (b : Bytes) : Bytes := b ++ le 4 (crc32 b).toNat

/-- One bit step of CRC-16 of R473. -/
def crc16Bit (r : BitVec 16) : BitVec 16 := if r.getMsbD 0 then (r <<< 1) ^^^ 0x1021 else r <<< 1

/-- One byte of CRC-16. -/
def crc16Byte (r : BitVec 16) (b : Byte) : BitVec 16 :=
  crc16Bit (crc16Bit (crc16Bit (crc16Bit (crc16Bit (crc16Bit (crc16Bit (crc16Bit (r ^^^ (b.setWidth 16 <<< 8)))))))))

/-- CRC-16 of R473: polynomial 0x1021, initial value 0xFFFF, no reflection. -/
def crc16 (b : Bytes) : BitVec 16 := b.foldl crc16Byte 0xFFFF

/-- Whether 10^(a/b) is at most x/y, all positive; a may be negative. -/
def pow10le (a : Int) (b x y : Nat) : Bool :=
  if 0 ≤ a then decide (10 ^ a.toNat * y ^ b ≤ x ^ b) else decide (y ^ b ≤ x ^ b * 10 ^ (-a).toNat)

/-- Bits of the log code that still fit, from the highest; each step keeps the bit when the code stays at or below the power. -/
def logBits (x y : Nat) : Nat → Nat → Nat
  | 0, c => c
  | k + 1, c =>
    let c' := c + 2 ^ k
    logBits x y k (if pow10le (2 * (c' : Int) - 1 - 128000) 5120 x y then c' else c)

/-- Log code of a power x/y of full scale: round((P_dBFS + 250) × 256), 0 for −250 dBFS and below, saturated to
65,535 (R157). Halves cannot arise: no power of two terms equals an odd power of 10^(1/5120). -/
def logCode (x y : Nat) : Nat := if x = 0 then 0 else logBits x y 16 0

end Sys2Proof.Machine
end

