-- ==== Sys2Proof/Machine/StateMgmt.lean ====
section
/-! DEFINITION. State of the management plane and of the control window: bring-up, supplies, events, mailboxes, junction, arbiter, control outputs, housekeeping, thermal loops, security and black box. A field's default is its value in State.reset. -/
set_option Elab.async false
namespace Sys2Proof.Machine
open Sys2Proof

/-- The grade of the part (R1): a property of the silicon that no reset changes. -/
inductive Grade where
  | g480 | g880 | g880x
deriving DecidableEq, Repr, Inhabited

/-- Power states (R517). -/
inductive PowerState where
  | active | quiet | standby
deriving DecidableEq, Repr, Inhabited

/-- A D or M reset that has been asked for and not begun (R445, R462, R513, R515, R516). -/
structure ResetReq where
  /-- R586: origin code of the RESET entry -/
  origin : Nat
  /-- R515: mailbox of the command that asked, 0 otherwise -/
  mailbox : Nat
  /-- R515: SEQ of the command that asked, 0 otherwise -/
  seq : BitVec 32
  /-- R462: reference cycle at which the reset is due -/
  due : Nat
deriving DecidableEq, Repr, Inhabited

/-- Bring-up, STAGE, STATUS and the recovery machinery (R436, R504 to R516). -/
structure BootState where
  /-- R612: STAGE, 4 bits, reset 0x0 -/
  stage : BitVec 4 := 0
  /-- R436: LAST_RESET, 4 bits, reset 0 -/
  lastReset : BitVec 4 := 0
  /-- R436: CAUSE_UNIT, 16 bits, reset 0xFFFF -/
  causeUnit : Handle := 0xFFFF
  /-- R436: CAUSE, 8 bits, reset 0 -/
  cause : BitVec 8 := 0
  /-- R436: CAUSE_STAGE, 4 bits, reset 0 -/
  causeStage : BitVec 4 := 0
  /-- R436: BOOT_COUNT, 32 bits in MRAM, 0 at manufacture; no reset changes it -/
  bootCount : BitVec 32 := 0
  /-- R436: MGMT_FW_VERSION, 32 bits, reset 0 -/
  mgmtFwVersion : BitVec 32 := 0
  /-- R436: XINUM_VERSION, 32 bits, reset 0 -/
  xinumVersion : BitVec 32 := 0
  /-- R436: MAIN_ON, reset 0 -/
  mainOn : Bool := false
  /-- R436: BOX_NEW, reset 0 -/
  boxNew : Bool := false
  /-- R436: STORE_KEPT, reset 0 -/
  storeKept : Bool := false
  /-- R504: the first degraded cause of this bring-up has been taken (R507) -/
  degraded : Bool := false
  /-- R505: reference cycle at which the present step began -/
  stepStart : Nat := 0
  /-- R586: reference cycle of step 1, for STAGE_END -/
  step1Start : Nat := 0
  /-- R462: time of READY, for DEV.STATUS -/
  readyTime : Time := 0
  /-- R510: boot slot in use, 0 A, 1 B, 2 link -/
  bootSlot : Nat := 0
  /-- R510: where the management firmware that runs came from, 0 slot A, 1 slot B, 2 link -/
  mgmtSlot : Nat := 0
  /-- R510: slots tried since the last P, M or D -/
  slotsTried : List Nat := []
  /-- R510: every image failure since the last P, M or D was an anti-rollback refusal (R575) -/
  onlyRollback : Bool := true
  /-- R511: bring-up runs as a link boot -/
  linkBoot : Bool := false
  /-- R510: the link boot also brings the management firmware -/
  linkMgmt : Bool := false
  /-- R511: the link image set has been taken -/
  linkTaken : Bool := false
  /-- R511: reference cycle from which LINK_WAIT_S runs -/
  linkWaitStart : Nat := 0
  /-- R511: B0 has reached UP since step 3 -/
  b0WasUp : Bool := false
  /-- R578: the next D runs step 4 as a link boot -/
  forceLink : Bool := false
  /-- R513: RESET_N is held low -/
  resetNLow : Bool := false
  /-- R445, R462, R513, R516: a D reset due -/
  pendingReset : Option ResetReq := none
  /-- R504: step 3 has still to run after a D, with the rails kept up -/
  reentry3 : Bool := false
  /-- R512: the main rails are held off by an M -/
  mHeld : Bool := false
  /-- R526: reference cycle at which MAIN_ON was last cleared -/
  railsOffAt : Nat := 0
  /-- R543: off time asked for, in reference cycles; at least 10 ms -/
  offFor : Nat := 1000000
  /-- R508: VIN_MAIN_LOW: the supply has to stand for 100 ms -/
  vinMainLow : Bool := false
  /-- R516: reference cycle of the Kennel's last report -/
  lastReport : Nat := 0
  /-- R516: reference cycles of the watchdog's resets, newest first -/
  hangResets : List Nat := []
  /-- R504: transform engines that passed their boot self-test -/
  tePassed : BitVec 72 := 0
  /-- R169: V_FAB model measured at boot self-test -/
  vFabModel : Bool := false
  /-- R504: running images' payload hashes, for attestation (R580): management, Xinum, microcode -/
  runHash : List Bytes := []
  /-- R580: running images' SEC_VERSION: management, Xinum, microcode -/
  runSecVersion : List Nat := [0, 0, 0]
deriving DecidableEq, Repr, Inhabited

/-- A dip of one supply in progress (R529). -/
structure Dip where
  /-- R529: t_w -/
  tw : Time
  /-- R529: lowest reading, mV -/
  lowest : Nat
deriving DecidableEq, Repr, Inhabited

/-- One supply as the supervisor sees it (R528, R529, R544). -/
structure SupplySt where
  /-- R528: last reading, mV, 16 bits -/
  mv : Nat := 0
  /-- R528: consecutive samples below warning -/
  belowWarn : Nat := 0
  /-- R528: consecutive samples below reset -/
  belowReset : Nat := 0
  /-- R528: reference cycle since which it has stood above warning plus hysteresis -/
  aboveSince : Option Nat := none
  /-- R529: the dip in force -/
  dip : Option Dip := none
  /-- R544: dips counted, 32 bits -/
  dips : Nat := 0
  /-- R544: lowest reading, mV, 16 bits; no reading yet reads 0xFFFF -/
  minMv : Nat := 0xFFFF
deriving DecidableEq, Repr, Inhabited

/-- Supplies, rails, thermal state and power state (R517, R524 to R545). -/
structure PowerSt where
  /-- R517: power state, reset ACTIVE -/
  state : PowerState := .active
  /-- R517: transition in progress, with the commands that wait for it -/
  transition : Option (PowerState × List Cmd) := none
  /-- R542: PWR_CFG, 32 bits, reset WARN_C 95 -/
  cfg : BitVec 32 := 95
  /-- R535: straps as byte 3 of R544, 8 bits; sampled at step 1 -/
  straps : BitVec 8 := 0
  /-- R528: VIN_MAIN -/
  vinMain : SupplySt := {}
  /-- R528: VIN_AUX -/
  vinAux : SupplySt := {}
  /-- R544: rail readings 0 to 9, mV, 16 bits each -/
  railMv : Vector Nat 10 := Vector.replicate 10 0
  /-- R527: rails outside their window -/
  railOut : BitVec 10 := 0
  /-- R527: reference cycle at which each of those rails had been outside for 10 us -/
  railOutAt : Vector Nat 10 := Vector.replicate 10 0
  /-- R544: VIN_MAIN as the housekeeping converter reads it, mV -/
  mainMv : Nat := 0
  /-- R544: VIN_AUX as the housekeeping converter reads it, mV -/
  auxMv : Nat := 0
  /-- R533: the eight junction readings, signed 0.1 degree C -/
  tj : Vector Int 8 := Vector.replicate 8 0
  /-- R436: THERMAL_WARN, reset 0 -/
  thermalWarn : Bool := false
  /-- R534: consecutive readings of 110 degrees C or above -/
  tripReadings : Nat := 0
  /-- R544: TRIPPED -/
  tripped : Bool := false
  /-- R534: COOLED -/
  cooled : Bool := false
  /-- R534: reference cycle since which Tj has been below 85 degrees C -/
  coolSince : Option Nat := none
  /-- R534: reference cycle of the previous trip -/
  lastTrip : Option Nat := none
  /-- R529: SUPPLY_DIP entries written in the present second: second number and count -/
  dipEntries : Nat × Nat := (0, 0)
  /-- R529: dips suppressed since the last SUPPLY_DIP entry -/
  dipsSuppressed : Nat := 0
deriving DecidableEq, Repr, Inhabited

/-- An event record (R356). -/
structure EventRec where
  source : BitVec 8
  type : BitVec 8
  unit : Handle
  time : Time
  detail : Bytes
deriving DecidableEq, Repr, Inhabited

/-- The losses of one output of the event router (R357). -/
structure LostSt where
  /-- R357: records dropped since the last record delivered -/
  count : Nat := 0
  /-- R357: TIME of the first dropped record -/
  first : Time := 0
deriving DecidableEq, Repr, Inhabited

/-- Event sources with no enable bit (R610), as bounds of runs. -/
def reservedSources : List (Nat × Nat) := [(0x01, 0x07), (0x0C, 0x0E), (0x4C, 0x4F), (0x6F, 0x6F), (0x8E, 0x8F), (0xA5, 0xA7),
  (0xAF, 0xAF), (0xD5, 0xD7), (0xDF, 0xDF), (0xE5, 0xE7), (0xED, 0xEF), (0xF2, 0xF7), (0xFC, 0xFF)]

/-- Event sources whose En column is 0 (R609), as bounds of runs. -/
def quietSources : List (Nat × Nat) := [(0x2F, 0x2F), (0x80, 0x88), (0xA9, 0xAA), (0xAD, 0xAD), (0xE0, 0xE3), (0xEA, 0xEA)]

/-- Event sources absent on a grade (R3, R302), as bounds of runs. -/
def absentSources : Grade → List (Nat × Nat)
  | .g880x => []
  | .g880 => [(0x98, 0x9F)]
  | .g480 => [(0x98, 0x9F), (0x14, 0x17), (0x1C, 0x1F), (0x24, 0x27), (0x29, 0x29), (0x58, 0x5F), (0x84, 0x87)]

/-- A number lies in one of the runs. -/
def inRuns (l : List (Nat × Nat)) (n : Nat) : Bool := l.any fun r => r.1 ≤ n && n ≤ r.2

/-- R460, R609, R610: EVENT_ENABLE's reset value on a grade. -/
def enableReset (g : Grade) : BitVec 256 :=
  BitVec.ofNat 256 (((List.range 256).filter fun n =>
    !(inRuns reservedSources n || inRuns quietSources n || inRuns (absentSources g) n)).foldl (fun a n => a + 2 ^ n) 0)

/-- The event router (R27, R28, R460, R461). -/
structure EventSt where
  /-- R460: EVENT_ENABLE, 256 bits, reset per the event catalogue (R609) -/
  enable : BitVec 256 := enableReset .g880x
  /-- R460: EVENT_SUMMARY, 256 bits, reset 0 -/
  summary : BitVec 256 := 0
  /-- R461: ROUTE words, 256 of 32 bits, reset 0x0000_0001 -/
  route : Vector (BitVec 32) 256 := Vector.replicate 256 1
  /-- R28: queue of management-plane records, up to 64, oldest first -/
  queue : List EventRec := []
  /-- R28: records that found the queue full, oldest first -/
  dropped : List EventRec := []
  /-- R357: losses on event rings 0 to 15 -/
  ringLost : Vector LostSt 16 := Vector.replicate 16 {}
  /-- R357: losses on bonds 0 to 7 -/
  bondLost : Vector LostSt 8 := Vector.replicate 8 {}
  /-- R462: records dropped on event rings, 32 bits -/
  ringDrops : Nat := 0
  /-- R24, R460: records waiting for the management firmware (internal consumers), newest first, at most the last 16 (DESIGN CHOICE log 12) -/
  internal : List EventRec := []
  /-- R27: records that the command in progress has raised, not yet put in order; empty between commands (the model's own buffer, log 12) -/
  raised : List EventRec := []
deriving DecidableEq, Repr, Inhabited

/-- A final response kept for replay (R453). -/
structure ReplayEntry where
  seq : BitVec 32
  opcode : BitVec 16
  unit : Handle
  status : BitVec 8
  respUnit : Handle
  result : Bytes
deriving DecidableEq, Repr, Inhabited

/-- A command taken and not yet answered finally (R453 to R455). -/
structure InProgress where
  seq : BitVec 32
  opcode : BitVec 16
  unit : Handle
  /-- R455: reference cycle of the whistle write that published it -/
  published : Nat
  /-- R455: an interim response has been written -/
  interim : Bool
  /-- R453: it repeats a command in progress and takes that command's final response -/
  duplicate : Bool
  /-- R42: members of a fan-out still to complete -/
  remaining : Nat
  /-- R42: highest-ranked status so far and the first member that returned it -/
  worst : Nat × Handle
  /-- R597: ticket in the maintenance arbiter, 0 for none -/
  ticket : Nat
  /-- R456: MAILBOX_TAKEN of its responses -/
  taken : Nat
  /-- R609: state of the unit before a re-initialisation, for EV_UNIT -/
  before : Nat
deriving DecidableEq, Repr, Inhabited

/-- One mailbox (R447 to R457). -/
structure MailboxSt where
  /-- R455: reference cycles at which the descriptors not yet taken were published, oldest first -/
  pubAt : List Nat := []
  /-- R453: replay record, newest first, at most 64 -/
  replay : List ReplayEntry := []
  /-- R454: commands in progress -/
  inProgress : List InProgress := []
  /-- R452: commands taken that wait behind a FENCE, in ring order: opcode, command, FENCE, cycle of publication, MAILBOX_TAKEN -/
  fenced : List (Nat × Cmd × Bool × Nat × Nat) := []
  /-- R343, R451: final responses that wait for room in the response ring, oldest first -/
  held : List Bytes := []
  /-- R520: reference cycle of the last REPLAY entry -/
  lastReplayEntry : Option Nat := none
  /-- R586: replays without an entry of their own since that entry -/
  replaysQuiet : Nat := 0
deriving DecidableEq, Repr, Inhabited

/-- The Kennel's mailbox manager (R446 to R463). -/
structure KennelSt where
  /-- R447: mailboxes 0 to 63 -/
  mbx : Vector MailboxSt 64 := Vector.replicate 64 {}
  /-- R454: mailbox whose turn is next -/
  turn : Fin 64 := 0
  /-- R441: mailbox commands for management-plane units that wait for the Kennel's bank, oldest first: opcode, command -/
  forwards : List (Nat × Cmd) := []
  /-- R459: units that report FAULT after a re-initialisation that completed with TIMEOUT -/
  faulted : List Handle := []
  /-- R462: DEV_CFG, 32 bits, reset RESP_TIMEOUT_MS 100 -/
  devCfg : BitVec 32 := 100
  /-- R462: commands taken -/
  cmdsTaken : Nat := 0
  /-- R462: replays -/
  replays : Nat := 0
  /-- R462: whistle errors -/
  whistleErrs : Nat := 0
  /-- R452, R486: bytes of host memory that the Kennel has read through apertures, by device address; the model's own buffer (log 15) -/
  hostData : List (Nat × Byte) := []
  /-- R486: device addresses whose read from the host has failed; the model's own buffer (log 15) -/
  hostFailed : List Nat := []
deriving DecidableEq, Repr, Inhabited

/-- One junction bank (R440, R442) with the banked registers of its path (R437, R444). -/
structure BankedSt where
  /-- R440: MJ_OPCODE, 16 bits, reset 0 -/
  opcode : BitVec 16 := 0
  /-- R440: MJ_UNIT, 16 bits, reset 0 -/
  unit : Handle := 0
  /-- R440: MJ_SEQ, 32 bits, reset 0 -/
  seq : BitVec 32 := 0
  /-- R440: MJ_LEN, 6 bits, reset 0 -/
  len : BitVec 6 := 0
  /-- R440: MJ_ARGS, 12 words, reset 0 -/
  args : Vector (BitVec 32) 12 := Vector.replicate 12 0
  /-- R440: MJ_STATUS, 8 bits, reset 0 -/
  status : BitVec 8 := 0
  /-- R440: MJ_BUSY, reset 0 -/
  busy : Bool := false
  /-- R440: MJ_DONE, reset 0 -/
  done : Bool := false
  /-- R440: MJ_REPLAYED, reset 0 -/
  replayed : Bool := false
  /-- R440: MJ_RSEQ, 32 bits, reset 0 -/
  rseq : BitVec 32 := 0
  /-- R440: MJ_RESULT, up to 48 bytes, and MJ_RLEN its length; reset empty -/
  result : Bytes := []
  /-- R442: SEQ, OPCODE, UNIT of the last request that completed with OK, FAULT or TIMEOUT, with its result -/
  last : Option ReplayEntry := none
  /-- R29: the request is being served -/
  serving : Bool := false
  /-- R42: members of its fan-out still to complete, with the worst status so far -/
  waiting : Nat × Nat × Handle := (0, 0, 0xFFFF)
  /-- R444: BOX_RPTR, 17 bits, reset 0 -/
  boxRptr : BitVec 17 := 0
  /-- R444: BOX_AUTOINC, reset 0 -/
  boxAutoinc : Bool := false
  /-- R439: latched multi-word field: offset of its lowest word and the words -/
  latch : Option (Nat × List (BitVec 32)) := none
  /-- R589: s of the path's last signing -/
  lastSigS : Option Bytes := none
  /-- R441: the mailbox whose forwarded command the Kennel's bank holds -/
  fwd : Option (Fin 64) := none
deriving DecidableEq, Repr, Inhabited

/-- The management junction and the SMBus side port (R29, R440, R464). -/
structure JunctionSt where
  /-- R437: the Cozor bank -/
  cozor : BankedSt := {}
  /-- R437: the SMBus bank -/
  smbus : BankedSt := {}
  /-- R437: the Kennel's bank -/
  kennel : BankedSt := {}
  /-- R464: the side port's offset pointer, 16 bits; DESIGN CHOICE 0 (log 3) -/
  smbusPtr : BitVec 16 := 0
  /-- R464: bytes returned by the last Block Read, or none for a NACK -/
  smbusOut : Option Bytes := none
  /-- R485: the last word that a window read returned, per path Cozor, SMBus, Kennel -/
  lastRead : Vector (BitVec 32) 3 := Vector.replicate 3 0
deriving DecidableEq, Repr, Inhabited

/-- A maintenance request (R597, R605). -/
structure MaintReq where
  /-- R597: TICKET, 16 bits -/
  ticket : Nat
  /-- R596: activity code 1 to 6 -/
  activity : Nat
  /-- R605: unit addressed -/
  unit : Handle
  /-- R605: ORIGIN, 0 command, 1 automatic, 2 bring-up or power state -/
  origin : Nat
  /-- R605: RESOURCES -/
  resources : BitVec 32
  /-- R605: reference cycle of arrival, or of the grant when running -/
  since : Nat
  /-- R597: it was queued before it was granted -/
  wasQueued : Bool
  /-- R597: the command that waits for it -/
  cmd : Option Cmd
  /-- R597: opcode of that command, for its response -/
  opcode : BitVec 16
  /-- R102, R292, R383, R388: argument of the activity: BOTH_ARRANGEMENTS, rate state or spread, hop index -/
  arg : Nat
deriving DecidableEq, Repr, Inhabited

/-- The maintenance arbiter (R596 to R606). -/
structure MaintSt where
  /-- R603: MAINT_CFG, 32 bits, reset 0 -/
  cfg : BitVec 32 := 0
  /-- R599: requests that arrived since the last tick -/
  arrived : List MaintReq := []
  /-- R598: the queue, in order -/
  queue : List MaintReq := []
  /-- R598: running activities -/
  running : List MaintReq := []
  /-- R597: next TICKET, from 1 -/
  nextTicket : Nat := 1
  /-- R602: re-initialisations that wait for the end of their unit's activity -/
  reinits : List Cmd := []
  /-- R599: microsecond of the counter of the last tick -/
  lastTick : Option Nat := none
deriving DecidableEq, Repr, Inhabited

/-- States of a control DAC channel (R551). -/
inductive DacCh where
  | normal | slewing | clamped | cleared | held
deriving DecidableEq, Repr, Inhabited

/-- One control DAC channel (R547 to R555, R568). -/
structure DacSt where
  /-- R555: CDAC_CFG, 64 bits; LEASH_EN 1, LEASH_STEP 256, LEASH_INTERVAL_US 1,000 -/
  cfg : BitVec 64 := 0x3E801000004
  /-- R553: CDAC_CLEAR CLEAR_CODE, 16 bits; the CLRSEL code after P -/
  clearCode : BitVec 16 := 0
  /-- R553: NVM code, 16 bits; blank reads 0x0000; no reset changes it -/
  nvmCode : BitVec 16 := 0
  /-- R553: NVM range; blank reads RANGE 0; no reset changes it -/
  nvmRange : Bool := false
  /-- R551: CH_STATE; CLAMPED after P (R554) -/
  ch : DacCh := .clamped
  /-- R548: input register, 16 bits -/
  inReg : BitVec 16 := 0
  /-- R548: DAC register, 16 bits: the Leash target -/
  dacReg : BitVec 16 := 0
  /-- R550: output code, 16 bits -/
  out : BitVec 16 := 0
  /-- R549: a load of this channel alone waits for the next tick -/
  loadPending : Bool := false
  /-- R550: microsecond count of the last instant of the slew's step grid -/
  slewAt : Nat := 0
  /-- R555: microsecond count at which the clamp of a range change began -/
  clampStart : Option Nat := none
  /-- R555: the clamp was entered from, or a clear came during it: CLEARED or HELD stands at its end -/
  clampCleared : Bool := false
  /-- R555: the clamp of a new range waits for the next tick -/
  newRange : Bool := false
  /-- R555: the clamp has ended and the slew to the DAC register starts at the next tick -/
  leaveClamp : Bool := false
  /-- R552: a clear waits for the next tick -/
  clearDue : Bool := false
  /-- R552: overcurrent clear in force -/
  overcurrent : Bool := false
  /-- R552: the overcurrent itself persists -/
  ocPersists : Bool := false
  /-- R552: reference clear not released -/
  refClear : Bool := false
  /-- R547: HEADROOM -/
  headroom : Bool := false
  /-- R568: output current, signed, 10 uA units -/
  current : Int := 0
  /-- R568: loads, 32 bits -/
  loads : Nat := 0
  /-- R568: clears, 32 bits -/
  clears : Nat := 0
  /-- R568: time of the last load -/
  lastLoad : Time := 0
deriving DecidableEq, Repr, Inhabited

/-- The control outputs as a whole (R548, R549, R552). -/
structure DacsSt where
  /-- R546: CDAC0 to CDAC11 -/
  ch : Vector DacSt 12 := Vector.replicate 12 {}
  /-- R549: scheduled strobes: group mask and time; at most 16 -/
  scheduled : List (Nat × Time) := []
  /-- R549: groups whose strobe waits for the next tick, 3 bits -/
  strobes : BitVec 3 := 0
  /-- R568: DAC.STROBE commands that wait for their tick -/
  strobeCmds : List Cmd := []
  /-- R552: DAC_CLR_N is low -/
  clrLow : Bool := false
  /-- R552: the reference is outside its window -/
  refBad : Bool := false
  /-- R554: the reference has come up after P and the registers are set -/
  powered : Bool := false
  /-- R554: registers are set and the outputs move at the next tick -/
  powerUpPending : Bool := false
  /-- R549: microsecond count of the last update tick taken -/
  lastTick : Option Nat := none
deriving DecidableEq, Repr, Inhabited

/-- One modulator of the housekeeping converter (R556, R559, R561). -/
structure ModSt where
  /-- R559: slot being visited -/
  slot : Nat := 0
  /-- R559: settling conversions still to discard -/
  discards : Nat := 0
  /-- R559: conversions still to keep in this visit -/
  left : Nat := 0
  /-- R562: the next kept word is the first of its visit -/
  visitStart : Bool := true
  /-- R559: channel, filter and ODR of the previous conversion -/
  prev : Option (Nat × Nat × Nat) := none
  /-- R558, R560: reference cycle at which the present conversion began -/
  began : Nat := 0
deriving DecidableEq, Repr, Inhabited

/-- What the housekeeping FIFO holds (R562): a word with its conversion instant and the reference cycle of its arrival, or words lost, with
the time of the first and the cause of the gap. -/
inductive HkItem where
  | word (w : BitVec 32) (t : Time) (since : Nat)
  | gap (n : Nat) (t : Time) (cause : Nat)
deriving DecidableEq, Repr, Inhabited

/-- The housekeeping converter (R556 to R562, R569). -/
structure HkSt where
  /-- R562: HK_CFG, 64 bits, reset SLOTS 1 -/
  cfg : BitVec 64 := 0x100
  /-- R562: HK_SLOT, 64 words of 32 bits; reset CHANNEL 0x0B, FILTER 1, ODR 6, TO_RING 1 -/
  slots : Vector (BitVec 32) 64 := Vector.replicate 64 0x264B
  /-- R569: RUNNING -/
  running : Bool := false
  /-- R569: stops that wait for the conversions in progress -/
  stopping : List Cmd := []
  /-- R569: reference cycle of the first of those stops -/
  stopAt : Nat := 0
  /-- R561: millisecond of the counter whose system window has been given -/
  windowMs : Option Nat := none
  /-- R556: modulator HK-A -/
  modA : ModSt := {}
  /-- R556: modulator HK-B -/
  modB : ModSt := {}
  /-- R569: latest result and its time by channel code -/
  latest : List (Nat × Int × Time) := []
  /-- R562: FIFO of up to 4,096 words, oldest first, with the gaps among them -/
  fifo : List HkItem := []
  /-- R569: words delivered -/
  delivered : Nat := 0
  /-- R569: FIFO_LOST -/
  fifoLost : Nat := 0
  /-- R569: discards -/
  discards : Nat := 0
  /-- R569: FIFO peak -/
  fifoPeak : Nat := 0
  /-- R562: second of the last OVER_RANGE event, by channel code -/
  overRangeAt : List (Nat × Nat) := []
deriving DecidableEq, Repr, Inhabited

/-- Thermal loop states (R570). -/
inductive LoopState where
  | off | running | hold
deriving DecidableEq, Repr, Inhabited

/-- One thermal loop (R563 to R570). -/
structure LoopSt where
  /-- R565: THERM_CFG, 256 bits; PERIOD_MS 100, OUT_MAX 0xFFFF, STALE_PERIODS 3 -/
  cfg : BitVec 256 := (BitVec.ofNat 256 3 <<< 208) ||| (BitVec.ofNat 256 0xFFFF <<< 176) ||| (BitVec.ofNat 256 100 <<< 16)
  /-- R570: state, reset OFF -/
  state : LoopState := .off
  /-- R570: commands that wait for the first tick -/
  starting : List Cmd := []
  /-- R563: PERIOD_MS multiples of the counter's milliseconds up to the last tick, or up to the start -/
  grid : Nat := 0
  /-- R563: I, signed 16.16 -/
  integ : Int := 0
  /-- R563: y_prev -/
  yPrev : Int := 0
  /-- R570: last e -/
  lastE : Int := 0
  /-- R570: last u -/
  lastU : Nat := 0
  /-- R564: I and y_prev are to be set from the present output at the next tick -/
  bumpless : Bool := false
  /-- R570: SATURATED -/
  saturated : Bool := false
  /-- R565: ticks within limits since SATURATED was raised -/
  ticksInLimits : Nat := 10
  /-- R565: STALE has been raised for the present hold -/
  stale : Bool := false
  /-- R570: ticks -/
  ticks : Nat := 0
  /-- R570: time of the last tick -/
  lastTick : Time := 0
deriving DecidableEq, Repr, Inhabited

/-- One-time-programmable memory (R571); no reset changes it. -/
structure OtpSt where
  /-- R571: VENDOR_KEY_HASH0 to 3, 48 bytes each, programmed at manufacture -/
  vendorHash : List Bytes := [[], [], [], []]
  /-- R571: VENDOR_REVOKED, 4 bits -/
  vendorRevoked : BitVec 4 := 0
  /-- R571: OWNER_KEY_HASH0 to 1; empty when all zero -/
  ownerHash : List Bytes := [[], []]
  /-- R571: OWNER_REVOKED, 2 bits -/
  ownerRevoked : BitVec 2 := 0
  /-- R571: OWNER_ENFORCE -/
  ownerEnforce : Bool := false
  /-- R571: ROLLBACK_MGMT, ROLLBACK_XINUM, ROLLBACK_UCODE, 128 bits each -/
  rollback : List (BitVec 128) := [0, 0, 0]
  /-- R571: SERIAL, 64 bits -/
  serial : BitVec 64 := 0
  /-- R571: MAC_BASE, 48 bits -/
  macBase : BitVec 48 := 0
  /-- R436: STEPPING, 8 bits -/
  stepping : BitVec 8 := 0x10
  /-- R572: bits that a write does not bring to 1: field (0 VENDOR_REVOKED, 1 OWNER_REVOKED, 2 OWNER_ENFORCE, 3 and 4 the owner hashes, 5 to 7
  the counters) and bit; DESIGN CHOICE none (log 73) -/
  dead : List (Nat × Nat) := []
deriving DecidableEq, Repr, Inhabited

/-- A slot update in progress (R577, R588). -/
structure UpdateSt where
  cmd : Cmd
  slot : Nat
  newSeq : BitVec 32
  image : Bytes
deriving DecidableEq, Repr, Inhabited

/-- The security core (R571 to R581, R588, R591). -/
structure SecSt where
  /-- R571: OTP -/
  otp : OtpSt := {}
  /-- R510: boot flash, 64 MB, as written bytes; no reset changes it; DESIGN CHOICE erased bytes read 0 (log 4) -/
  flash : List (Nat × Byte) := []
  /-- R579: identity key, as an index into Config.identityKey; no reset changes it -/
  identity : Nat := 0
  /-- R579: certificate chain; DESIGN CHOICE empty (log 4) -/
  certs : Bytes := []
  /-- R581: outstanding challenge and the reference cycle it was issued at -/
  challenge : Option (Bytes × Nat) := none
  /-- R581: challenges issued, the model's own counter for fresh challenges (DESIGN CHOICE log 5) -/
  challengeNo : Nat := 0
  /-- R436: DEBUG_UNLOCKED, reset 0 -/
  unlocked : Bool := false
  /-- R581: DEBUG_SCOPE, 8 bits, reset 0 -/
  scope : BitVec 8 := 0
  /-- R588: AUTH failures since P, 32 bits -/
  authFails : Nat := 0
  /-- R588: an update is running -/
  update : Option UpdateSt := none
  /-- R585: a signing is running: first index, count, EXPORT destination if any, the command -/
  signing : Option (Nat × Nat × Option Addr × Bytes × Cmd) := none
  /-- R587: s of the last mailbox signing -/
  mbxSigS : Option Bytes := none
  /-- R580, R587: signatures made, the model's own counter for fresh signatures (DESIGN CHOICE log 5) -/
  signNo : Nat := 0
deriving DecidableEq, Repr, Inhabited

/-- An entry waiting in the black box's write queue (R583, R584). -/
structure BoxEntry where
  time : Time
  boot : BitVec 32
  stateByte : BitVec 8
  origin : BitVec 8
  code : BitVec 16
  unit : Handle
  detail : Bytes
  /-- R589: the BOX.NOTE command that waits for it -/
  note : Option Cmd
deriving DecidableEq, Repr, Inhabited

/-- The black box (R582 to R587). -/
structure BoxSt where
  /-- R582: entries by index, 64 bytes each; no reset changes them -/
  entries : List (Nat × Bytes) := []
  /-- R582: SEQ of the next entry, 0 at manufacture -/
  nextSeq : Nat := 0
  /-- R584: write queue, oldest first, at most 256; cleared by P -/
  queue : List BoxEntry := []
  /-- R584: entries lost not yet reported, with the time of the first -/
  lost : Option (Nat × Time) := none
  /-- R589: entries lost since P -/
  lostTotal : Nat := 0
  /-- R589: queue peak -/
  peak : Nat := 0
deriving DecidableEq, Repr, Inhabited

end Sys2Proof.Machine
end

