-- ==== Sys2Proof/Machine/StateStore.lean ====
section
/-! DEFINITION. State of the capture store, the scratch banks, Fetch, the ring manager and the streams. A field's default is its value in State.reset. -/
set_option Elab.async false
namespace Sys2Proof.Machine
open Sys2Proof

/-- A published entry of a ring, as the ring manager knows its boundaries (R339, R342). -/
structure EntryAt where
  pos : Nat
  len : Nat
  kind : Nat
  time : Time
  index : Nat
deriving DecidableEq, Repr, Inhabited

/-- A ring context (R337) with what the ring manager keeps beside it. -/
structure RingCtx where
  /-- R336: ring ID, 20 bits -/
  id : Nat
  /-- R337: BASE, 48 bits -/
  base : Addr
  /-- R337: LOG2_SIZE, 8 bits -/
  log2 : Nat
  /-- R337: TYPE, 8 bits -/
  type : Nat
  /-- R337: PRODUCER, 64 bits, reset 0 -/
  producer : Nat := 0
  /-- R337: CONSUMER, 64 bits, reset 0 -/
  consumer : Nat := 0
  /-- R337: OWNER, 16 bits -/
  owner : Handle
  /-- R337: READER, 16 bits, reset 0xFFFF -/
  reader : Handle := 0xFFFF
  /-- R337: POLICY, 2 bits -/
  policy : Nat
  /-- R337: STATE bit 1 STOPPED -/
  stopped : Bool := false
  /-- R337: STATE bit 2 FULL -/
  full : Bool := false
  /-- R337: STATE bit 3 GAP_PENDING -/
  gapPending : Bool := false
  /-- R337: STATE bit 4 WM_ARMED -/
  wmArmed : Bool := true
  /-- R337: STATE bit 5 KEPT -/
  kept : Bool := false
  /-- R337: WATERMARK, 16 bits -/
  watermark : Nat := 0
  /-- R337: DROPPED, 32 bits -/
  dropped : Nat := 0
  /-- R337: OVERWRITTEN, 32 bits -/
  overwritten : Nat := 0
  /-- R337: GAP_START, 96 bits -/
  gapStart : Time := 0
  /-- R337: GAP_LOST, 32 bits -/
  gapLost : Nat := 0
  /-- R337: GAP_FIRST_INDEX, 64 bits -/
  gapFirst : Nat := 0
  /-- R345: the pending gap descriptor is of cause RING_STOPPED -/
  gapStopped : Bool := false
  /-- R353: housekeeping words or interval entries since RING.CREATE: INDEX of the next one -/
  items : Nat := 0
  /-- R342: boundaries of the published entries held, oldest first -/
  entries : List EntryAt := []
  /-- R346: reference cycle at which the ring was last full -/
  lastFull : Option Nat := none
  /-- R346: reference cycle of the last EV_RING_OVERWRITE -/
  lastOverEv : Option Nat := none
  /-- R346: entries overwritten since that event -/
  overSince : Nat := 0
deriving DecidableEq, Repr, Inhabited

/-- A packet of a stream that its bond has not acknowledged (R359, R360). -/
structure StreamPkt where
  seq : Nat
  pos : Nat
  len : Nat
  bytes : Bytes
deriving DecidableEq, Repr, Inhabited

/-- A stream (R358 to R364). -/
structure StreamSt where
  /-- R364: RING_ID -/
  ring : Nat
  /-- R364: bond number -/
  bond : Fin 8
  /-- R364: VC, 0 stream-high or 1 stream-bulk -/
  vc : Nat
  /-- R364: MAX_PAYLOAD in bytes -/
  maxPayload : Nat
  /-- R358: SEQUENCE of the next packet, 32 bits -/
  seq : Nat := 0
  /-- R359: send position -/
  sendPos : Nat
  /-- R359: bytes of the entry in progress already sent -/
  inEntry : Nat := 0
  /-- R358: the next packet carries RESTART -/
  restart : Bool := true
  /-- R359: packets sent and not acknowledged, oldest first -/
  unacked : List StreamPkt := []
  /-- R360: packets to send again before anything new, oldest first -/
  resend : List StreamPkt := []
  /-- R359: the first entry that the producer overwrote, with its time, index and the entries lost -/
  lostFirst : Option (Time × Nat × Nat) := none
  /-- R364: packets -/
  packets : Nat := 0
  /-- R364: payload bytes -/
  payload : Nat := 0
  /-- R364: stream gap packets -/
  gaps : Nat := 0
  /-- R364: resent packets -/
  resent : Nat := 0
  /-- R361: the command that stops it -/
  stopping : Option Cmd := none
deriving DecidableEq, Repr, Inhabited

/-- Why a bank is filling (R316, R318). -/
inductive FillFor where
  | zero | powerOn (c : Cmd) | fill (c : Cmd) (pattern : BitVec 32)
deriving DecidableEq, Repr, Inhabited

/-- A scratch bank (R308 to R321). -/
structure BankSt where
  /-- R319: OWNER, 16 bits, reset 0x0010 -/
  owner : Handle := 0x0010
  /-- R319: PENDING_OWNER, 16 bits, reset 0xFFFF -/
  pendingOwner : Handle := 0xFFFF
  /-- R319: POWER, 2 bits, reset 0 ON -/
  power : Nat := 0
  /-- R319: FILLING, and why; reset 0 -/
  filling : Option FillFor := none
  /-- R312: the handover's command, none for the firmware's own, and the reference cycle of its acceptance -/
  handover : Option (Option Cmd × Nat) := none
  /-- R312: accesses of the new owner held until step 3, oldest first, with their port -/
  held : List (Bool × BankAcc) := []
  /-- R321: LAST_DENIED_HANDLE, 16 bits, reset 0 (DESIGN CHOICE log 6) -/
  lastDenied : Handle := 0
  /-- R321: LAST_DENIED_TIME, 96 bits, reset 0 -/
  lastDeniedTime : Time := 0
  /-- R321: DENIED_READS, 32 bits, reset 0 -/
  deniedReads : Nat := 0
  /-- R321: DENIED_WRITES, 32 bits, reset 0 -/
  deniedWrites : Nat := 0
  /-- R321: POWER_ERRORS, 32 bits, reset 0 -/
  powerErrors : Nat := 0
  /-- R321: ECC_CORRECTED, 32 bits, reset 0 -/
  eccCorrected : Nat := 0
  /-- R321: ECC_UNCORRECTABLE, 32 bits, reset 0 -/
  eccUncorrectable : Nat := 0
  /-- R311: reference cycle of the last EV_BANK_DENIED -/
  deniedEvAt : Option Nat := none
  /-- R311: denials since that event and the first denied accessor -/
  deniedSince : Nat × Handle := (0, 0xFFFF)
  /-- R317: reference cycle of the last EV_BANK_ACCESS_ERROR -/
  errorEvAt : Option Nat := none
  /-- R317: failures since that event -/
  errorsSince : Nat := 0
  /-- R321: addresses of uncorrectable words not yet rewritten -/
  badWords : List Addr := []
  /-- R308: data of the last read of each port -/
  out : Vector Bytes 2 := Vector.replicate 2 []
deriving DecidableEq, Repr, Inhabited

/-- A Fetch descriptor (R322) and, for a policy copy (R209), the pin it copies. -/
structure FetchDesc where
  src : Addr
  dst : Addr
  length : Nat
  flags : BitVec 8
  tag : BitVec 32
  pin : Option (BitVec 32 × Nat) := none
deriving DecidableEq, Repr, Inhabited

/-- Channel states of Fetch (R324). -/
inductive FetchState where
  | idle | running | preempted | halted
deriving DecidableEq, Repr, Inhabited

/-- A Fetch channel (R322 to R334). -/
structure FetchCh where
  /-- R331: FETCH_CFG, 32 bits, reset 0 -/
  cfg : BitVec 32 := 0
  /-- R324: CH_STATE, reset IDLE -/
  ch : FetchState := .idle
  /-- R323: queue, current descriptor first, at most 16 -/
  queue : List FetchDesc := []
  /-- R323: policy copies that wait for a free place -/
  waiting : List FetchDesc := []
  /-- R334: BEATS_DONE, 64 bits -/
  beatsDone : Nat := 0
  /-- R334: BEATS_TOTAL, 64 bits -/
  beatsTotal : Nat := 0
  /-- R334: ORDER -/
  order : Bool := false
  /-- R334: ERROR_KIND, reset 0 -/
  errKind : Nat := 0
  /-- R334: ERROR_SIDE, reset 0 -/
  errSide : Nat := 0
  /-- R334: ERROR_ADDR, 48 bits, reset 0 -/
  errAddr : Addr := 0
  /-- R327: reference cycle from which a beat has been held at a bond's aperture -/
  heldSince : Option Nat := none
  /-- R327: a beat of a host aperture is out; its tag -/
  outstanding : Option Nat := none
  /-- R325: the beat staged from a host aperture -/
  staged : Option Bytes := none
  /-- R334: BYTES_MOVED, 64 bits -/
  bytesMoved : Nat := 0
  /-- R334: TRANSFERS, 32 bits -/
  transfers : Nat := 0
  /-- R334: PREEMPTIONS, 32 bits -/
  preemptions : Nat := 0
deriving DecidableEq, Repr, Inhabited

/-- Fetch (R322 to R334). -/
structure FetchSt where
  /-- R333: channels 0 to 31 -/
  ch : Vector FetchCh 32 := Vector.replicate 32 {}
  /-- R325: channel served last, for the rotation among equal priorities -/
  last : Fin 32 := 31
deriving DecidableEq, Repr, Inhabited

/-- One memory channel of the store (R281 to R288). -/
structure StoreCh where
  /-- R281: queued requests, oldest first -/
  queue : List StoreReq := []
  /-- R281: accesses left in the real-time burst in progress, with its request -/
  burst : Option (StoreReq × Nat) := none
  /-- R281: ingest port served last in the rotation -/
  lastSub : Fin 8 := 7
  /-- R283: bank whose refresh falls due next, 0 to 95 -/
  nextBank : Nat := 0
  /-- R285: owed refreshes, oldest first, as bank numbers -/
  owed : List Nat := []
  /-- R285: a forced refresh is to be issued at the next access boundary -/
  forced : Option Nat := none
  /-- R288: a pause waits for the burst in progress to end -/
  pauseDue : Bool := false
  /-- R287: retraining pauses of the cycle that have fallen due -/
  pausesDone : Nat := 0
  /-- R287: reference cycle at which the last pause began, until the channel issues again -/
  pausedAt : Option Nat := none
  /-- R288: refreshes that fell due during the pause, as bank numbers -/
  pauseOwed : List Nat := []
  /-- R278: granule that the scrubber reads next -/
  scrub : Nat := 0
deriving DecidableEq, Repr, Inhabited

/-- One HBM3 stack (R284, R289, R304). -/
structure StackSt where
  /-- R304: ECC_CORRECTED, 32 bits -/
  eccCorrected : Nat := 0
  /-- R304: ECC_UNCORRECTABLE, 32 bits -/
  eccUncorrectable : Nat := 0
  /-- R304: REFRESH_POSTPONED, 32 bits -/
  postponed : Nat := 0
  /-- R304: REFRESH_FORCED, 32 bits -/
  forcedCount : Nat := 0
  /-- R304: RETRAIN_PAUSES, 32 bits -/
  pauses : Nat := 0
  /-- R304: TEMPERATURE, signed degrees C; DESIGN CHOICE 0 before the first reading (log 6) -/
  temperature : Int := 0
  /-- R284: DOUBLE_REFRESH -/
  double : Bool := false
  /-- R276: reference cycle of the last EV_STORE_ECC CORRECTED -/
  corrEvAt : Option Nat := none
  /-- R276: corrections since that event -/
  corrSince : Nat := 0
  /-- R289: a retraining failed on some channel: the stack reports DEGRADED -/
  degraded : Bool := false
  /-- R508: the stack failed training at bring-up -/
  failed : Bool := false
deriving DecidableEq, Repr, Inhabited

/-- A port's settings and figures (R279, R280, R303). -/
structure PortSt where
  /-- R279: TARGET_NS -/
  target : Nat
  /-- R303: LATE, 32 bits -/
  late : Nat := 0
  /-- R303: largest latency in ns, 32 bits -/
  maxLat : Nat := 0
  /-- R303: requests -/
  requests : Nat := 0
deriving DecidableEq, Repr, Inhabited

/-- The skid buffer of one input (R290, R291). -/
structure SkidSt where
  /-- R290: data blocks waiting, oldest first -/
  blocks : List Bytes := []
  /-- R291: START_TIME, blocks, samples and first SAMPLE_INDEX of the overflow in progress -/
  overflow : Option (Time × Nat × Nat × Nat) := none
  /-- R291: the buffer has drained below 75 % before the next block begins -/
  drained : Bool := false
  /-- R291: stack on whose source the overflow is raised -/
  stack : Nat := 0
  /-- R381: the overflow began during a loss of lock of an HBM PHY synthesiser -/
  hps : Bool := false
  /-- R304: peak occupancy in bytes -/
  peak : Nat := 0
deriving DecidableEq, Repr, Inhabited

/-- A store rate change (R292 to R295). -/
structure RateChange where
  /-- R292: state asked for -/
  target : Nat
  /-- R292: its command, if any -/
  cmd : Option Cmd
  /-- R293: reference cycle of the grant, none while queued -/
  granted : Option Nat
deriving DecidableEq, Repr, Inhabited

/-- The capture store (R270 to R304). -/
structure StoreSt where
  /-- R300: STORE_CFG, 32 bits, reset SCRUB_EN 1, SCRUB_HOURS 24 -/
  cfg : BitVec 32 := 0x1808
  /-- R295: the state that leaving QUIET restores -/
  quietSaved : Option Nat := none
  /-- R304: KEPT -/
  kept : Bool := false
  /-- R292: rate change pending or in progress -/
  rateChange : Option RateChange := none
  /-- R304: DOZING -/
  dozing : Bool := false
  /-- R296: reference cycle of the last access, in QUIET -/
  lastAccess : Nat := 0
  /-- R300: in self-refresh through a D reset (R299) -/
  selfRefresh : Bool := false
  /-- R304: LAST_PAUSE_NS, 32 bits -/
  lastPause : Nat := 0
  /-- R270: stacks ST0 to ST3 -/
  stks : Vector StackSt 4 := Vector.replicate 4 {}
  /-- R270: channels 0 to 63 -/
  chans : Vector StoreCh 64 := Vector.replicate 64 {}
  /-- R287: reference cycle at which the present cycle of retraining pauses begins -/
  pauseBase : Nat := 0
  /-- R279: the 18 ports in rank order: ingest 0 to 7, then ranks 2 to 11 -/
  ports : List PortSt := List.replicate 8 ⟨1000, 0, 0, 0⟩ ++ [⟨2000, 0, 0, 0⟩, ⟨500, 0, 0, 0⟩, ⟨1500, 0, 0, 0⟩, ⟨2000, 0, 0, 0⟩,
    ⟨2000, 0, 0, 0⟩, ⟨3000, 0, 0, 0⟩, ⟨4000, 0, 0, 0⟩, ⟨4000, 0, 0, 0⟩, ⟨2000, 0, 0, 0⟩, ⟨8000, 0, 0, 0⟩]
  /-- R275: words of the store that read uncorrectably until they are overwritten -/
  badWords : List Addr := []
  /-- R290: skid buffers by input -/
  skid : Vector SkidSt 8 := Vector.replicate 8 {}
deriving DecidableEq, Repr, Inhabited

end Sys2Proof.Machine
end

