-- ==== Sys2Proof/Machine/StateLink.lean ====
section
/-! DEFINITION. State of the synthesisers, disciplined time, Ethernet, VITA 49.2, interval measurement and Cozor Link. A field's default is its value in State.reset. -/
set_option Elab.async false
namespace Sys2Proof.Machine
open Sys2Proof

/-- LOCK codes of a synthesiser (R373, R394), with FAULT of R373. -/
inductive LockSt where
  | off | acquiring | locked | unlocked | fault
deriving DecidableEq, Repr, Inhabited

/-- One synthesiser (R372 to R394). -/
structure SynthSt where
  /-- R391: SYNTH_CFG, 32 bits; LOCK_COUNT 1,024 (256 on HPS), LOCK_WIN_PS 100, SYNC_ON_PIN 1 on an SCS -/
  cfg : BitVec 32
  /-- R373: LOCK -/
  lock : LockSt := .off
  /-- R394: N, 40 bits: N_WORD (R374), AXS_N in force, or the present 8.32 word -/
  n : BitVec 40
  /-- R394: ALIGNED -/
  aligned : Bool := false
  /-- R394: SUSPECT (R381) -/
  suspect : Bool := false
  /-- R373: reference cycle since which it has not been locked -/
  unlockedSince : Nat := 0
  /-- R376, R378: reference cycle of its last alignment and the build-out offset then; none where the divider phase is not known -/
  phase : Option (Nat × Int) := none
  /-- R373: reference cycle of the last retry of acquisition -/
  retried : Nat := 0
  /-- R394: LOCK_LOSSES, 32 bits -/
  losses : Nat := 0
  /-- R394: SYNC_EDGES, 32 bits -/
  syncEdges : Nat := 0
  /-- R394: SYNC_OFFSET_PS, signed -/
  syncOffset : Int := 0
  /-- R394: LAST_LOCK_TIME, 96 bits -/
  lastLock : Time := 0
  /-- R389: reference cycle at which an HPS stall began -/
  stallSince : Option Nat := none
deriving DecidableEq, Repr, Inhabited

/-- A rate change or realignment of an SCS that loses time on its die (R380, R378, R391). -/
structure ScsChange where
  cmd : Option Cmd
  /-- opcode of the command, for its response -/
  opcode : BitVec 16
  newN : BitVec 40
  /-- R380: the new rate is locked and the streams restarted: step 6 is due -/
  resumed : Bool
deriving DecidableEq, Repr, Inhabited

/-- A ramp running on AXS (R385). -/
structure RampRun where
  startTime : Time
  started : Bool
  repeats : Nat
  seg : Nat
  k : Nat
  nStart : Nat
deriving DecidableEq, Repr, Inhabited

/-- The auxiliary synthesiser's own state (R382 to R386). -/
structure AxsSt where
  /-- R391: AXS_CFG, 64 bits, reset AXS_N 80.0, ENABLE 0, LEVEL 0 -/
  cfg : BitVec 64 := 0x5000000000
  /-- R383: frequency at which the present band was searched -/
  bandN : BitVec 40 := 0x5000000000
  /-- R384: hop table, 256 entries, reset empty -/
  hops : List (Nat × BitVec 40) := []
  /-- R385: ramp profile as N_END, FLAGS, DURATION; reset none -/
  profile : List (Nat × Nat × Nat) := []
  /-- R385: the ramp that runs -/
  ramp : Option RampRun := none
  /-- R383: AXS_SET commands that wait for their apply time -/
  retune : List (Cmd × BitVec 64 × Time) := []
  /-- R384: hops that wait for their apply time: command, entry, time, LATE -/
  hop : List (Cmd × Nat × Time × Bool) := []
  /-- R394: hop index in force, or 0xFF -/
  hopIdx : Nat := 0xFF
deriving DecidableEq, Repr, Inhabited

/-- The reference conditioner (R366 to R371). -/
structure RefSt where
  /-- R391: REF_CFG, 32 bits, reset QUAL_MS 100; REF_SEL from the strap -/
  cfg : BitVec 32 := 0x6400
  /-- R394: COASTING -/
  coasting : Bool := false
  /-- R394: BUILD_OUT_PS, signed -/
  buildOut : Int := 0
  /-- R370: reference cycle at which a REALIGN slew began -/
  realignSince : Option Nat := none
  /-- R394: SYNC_EDGES -/
  syncEdges : Nat := 0
  /-- R394: SYNC_OFFSET_PS, signed -/
  syncOffset : Int := 0
  /-- R394: MARGINAL -/
  marginal : Bool := false
  /-- R394: LOCK_LOSSES of the conditioner -/
  losses : Nat := 0
  /-- R378: scheduled alignments of SCS0 and SCS1: command and apply time -/
  aligns : Vector (List (Cmd × Time)) 2 := Vector.replicate 2 []
  /-- R380: rate changes of SCS0 and SCS1 -/
  changes : Vector (Option ScsChange) 2 := Vector.replicate 2 none
  /-- R391: re-initialisations that joined a rate change in progress, answered with it -/
  joined : Vector (List Cmd) 2 := Vector.replicate 2 []
deriving DecidableEq, Repr, Inhabited

/-- The synthesisers: 0 and 1 SCS, 2 AXS, 3 DSS, 4 to 7 HPS, 8 to 25 LS (R21). -/
structure SynthsSt where
  /-- R391: the loops in the order of R21 -/
  loop : Vector SynthSt 26 := Vector.ofFn fun i =>
    { cfg := (if i.val < 2 then 1 else 0) ||| (if 4 ≤ i.val ∧ i.val < 8 then 256 <<< 4 else 1024 <<< 4) ||| (100 <<< 17),
      n := if i.val < 2 then 0xA000000000 else if i.val = 2 then 0x5000000000 else 0 }
  /-- R382: AXS -/
  axs : AxsSt := {}
  /-- R367: the reference conditioner -/
  ref : RefSt := {}
  /-- R405: the last 16 markers of each die, newest first: converter cycle since the last alignment, and time -/
  markers : Vector (List (Nat × Time)) 2 := Vector.replicate 2 []
  /-- R375: markers since the last alignment, per die -/
  markCount : Vector Nat 2 := Vector.replicate 2 0
deriving DecidableEq, Repr, Inhabited

/-- States of the time counter (R396). -/
inductive TimeState where
  | free | acquiring | locked | holdover
deriving DecidableEq, Repr, Inhabited

/-- A master heard in Announce messages (R401), with the dataset that the comparison reads. -/
structure PtpMaster where
  identity : BitVec 64
  port : Nat
  /-- priority1, class, accuracy, variance, priority2, grandmaster identity, steps removed, in order of comparison -/
  rank : List Nat
  utcOffset : Int
  logAnnounce : Int
  heard : Nat
deriving DecidableEq, Repr, Inhabited

/-- PTP message processing (R400 to R402). -/
structure PtpSt where
  /-- R401: masters heard -/
  masters : List PtpMaster := []
  /-- R401: the master selected -/
  selected : Option (BitVec 64 × Nat) := none
  /-- R400: reference cycle of the last Announce of that master -/
  announceAt : Nat := 0
  /-- R400: reference cycle of its last Sync -/
  syncAt : Nat := 0
  /-- R401: logSyncInterval of its Sync messages -/
  logSync : Int := 0
  /-- R401: Sync that waits for its Follow_Up: sequence and t2 in 2^-16 ns -/
  waiting : Option (Nat × Int) := none
  /-- R401: t1 and t2 of the last complete Sync, 2^-16 ns -/
  sync : Option (Int × Int) := none
  /-- R401: Delay_Req out: sequence and t3 -/
  delayReq : Option (Nat × Int) := none
  /-- R401: sequence number of the next Delay_Req -/
  delaySeq : Nat := 0
  /-- R401: log of the Delay_Req interval asked for by the master -/
  logDelay : Int := 0
  /-- R401: reference cycle at which the last Delay_Req was sent -/
  delayAt : Nat := 0
  /-- R402: the L1_SYNC exchange is UP -/
  l1Up : Bool := false
  /-- R400: the source counts as lost -/
  lost : Bool := true
deriving DecidableEq, Repr, Inhabited

/-- The time counter (R395 to R417). -/
structure TimeSt where
  /-- R395: counter, 96 visible bits and 32 below, in 2^-48 ns; 0 after P -/
  counter : Nat := 0
  /-- R395: INCREMENT per reference cycle, in 2^-48 ns; nominally 10 ns -/
  increment : Nat := 10 * 2 ^ 48
  /-- R594: time after the latest step of the counter -/
  steppedTo : Option Time := none
  /-- R396: state, FREE after P -/
  state : TimeState := .free
  /-- R415: TIME_CFG, 256 bits; STEP_EN 1, TAU_S 16, LOCK_PS 100,000, STEP_NS 1,000, MAX_SLEW_PPM 100, HOLDOVER_MAX_S 86,400, PPS_WIDTH_MS 100, PPS_OUT_MODE 2 -/
  cfg : BitVec 256 := BitVec.ofNat 256 (4 + (16 <<< 16) + (100000 <<< 32) + (1000 <<< 64) + (100 <<< 96) + (86400 <<< 128) + (100 <<< 224) + (2 <<< 233))
  /-- R396: consecutive accepted measurements within LOCK_PS -/
  accepted : Nat := 0
  /-- R396: consecutive outliers -/
  outlierRun : Nat := 0
  /-- R397: frequency correction, 2^-48 ns per cycle, signed -/
  integral : Int := 0
  /-- R397: slew above the frequency correction, 2^-48 ns per cycle, signed -/
  slew : Int := 0
  /-- R397: reference cycle of the last accepted measurement, for the servo's prediction -/
  measAt : Nat := 0
  /-- R417: offset still to be slewed by TIME.ADJUST, 2^-48 ns, signed -/
  adjust : Int := 0
  /-- R399: INCREMENT values of the last 60 s spent in LOCKED, newest first, with the cycles each was in force -/
  lockedInc : List (Nat × Nat) := []
  /-- R399: reference cycle from which the present INCREMENT has been in force in LOCKED -/
  lockedSince : Nat := 0
  /-- R396: reference cycle at which HOLDOVER began -/
  holdSince : Nat := 0
  /-- R417: last offset, ps -/
  lastOffset : Int := 0
  /-- R417: mean path delay, ps -/
  pathDelay : Int := 0
  /-- R417: steps -/
  steps : Nat := 0
  /-- R423: steps since P -/
  stepsAll : Nat := 0
  /-- R417: outliers -/
  outliers : Nat := 0
  /-- R417: seconds in HOLDOVER, 32 bits -/
  holdSecs : Nat := 0
  /-- R417: reference cycle from which the present HOLDOVER is counted -/
  holdFrom : Nat := 0
  /-- R417: TIME.SET commands with MODE 1 in wait: command, time, reference cycle of acceptance -/
  setPending : List (Cmd × Time × Nat) := []
  /-- R400: PTP -/
  ptp : PtpSt := {}
  /-- R403: reference cycle of the last PPS_IN edge taken -/
  ppsLast : Option Nat := none
  /-- R403: reference cycle from which an edge of PPS_IN is missed -/
  ppsSince : Nat := 0
  /-- R403: PPS_IN counts as lost -/
  ppsLost : Bool := true
  /-- R403: edges ignored -/
  ppsIgnored : Nat := 0
  /-- R404: PPS_OUT is high, with the reference cycle of its rise -/
  ppsOut : Option Nat := none
  /-- R404: second of the last PPS_OUT pulse -/
  ppsSecond : Option Nat := none
deriving DecidableEq, Repr, Inhabited

/-- An Ethernet port (R407 to R417). -/
structure EthSt where
  /-- R415: ETH_PORT_CFG, 256 bits, reset 0; MAC_ADDR is read from OTP -/
  cfg : BitVec 256 := 0
  /-- R417: link up -/
  up : Bool := false
  /-- R417, R44: the commands that wait for the link, with their opcodes -/
  wait : List (Cmd × Nat) := []
  /-- R417: frames sent, 64 bits -/
  sent : Nat := 0
  /-- R417: frames received, 64 bits -/
  received : Nat := 0
  /-- R417: dropped, 32 bits -/
  dropped : Nat := 0
  /-- R417: FEC corrected, 32 bits -/
  fecCorrected : Nat := 0
  /-- R417: FEC uncorrected, 32 bits -/
  fecUncorrected : Nat := 0
  /-- R417: VITA skips, 32 bits -/
  vitaSkips : Nat := 0
  /-- R408: echo replies in the present second: second and count -/
  echoes : Nat × Nat := (0, 0)
  /-- R416: reference cycle of the last RX_DROP event and the frames dropped since -/
  dropEv : Option Nat × Nat := (none, 0)
  /-- R408: frames sent, newest first, at most the last 16: 0 ARP, 1 NDP, 2 echo, 3 PTP, 4 VITA data, 5 VITA context, with what they carry (DESIGN CHOICE log 13) -/
  out : List (Nat × Bytes) := []
deriving DecidableEq, Repr, Inhabited

/-- A VITA stream (R410 to R414). -/
structure VitaSt where
  /-- R415: VITA_DEF, 64 bytes -/
  defn : Bytes
  /-- R414: send position -/
  pos : Nat
  /-- R411: packet count, 4 bits -/
  count : Nat := 0
  /-- R414: Sample loss is due on the next data packet -/
  skipped : Bool := false
  /-- R413: last context fields sent; none before the first -/
  context : Option (List Int) := none
  /-- R413: reference cycle of the last context packet -/
  contextAt : Nat := 0
  /-- R411: bytes of a spectral frame already sent -/
  part : Nat := 0
  /-- R414: time of the first entry that left the held span before it was sent -/
  lostFirst : Option Time := none
deriving DecidableEq, Repr, Inhabited

/-- A placed edge of an interval-measurement channel (R420). -/
structure Edge where
  /-- R420: coarse edge number since P, four per reference cycle; C is its low 24 bits -/
  coarse : Nat
  /-- R420: F in 0.001 ps -/
  fine : Int
  /-- R420: LSB_p in 0.001 ps of the pair that took it -/
  lsb : Nat
  falling : Bool
deriving DecidableEq, Repr, Inhabited

/-- A vernier pair (R420, R431, R432). -/
structure PairSt where
  /-- R431: LSB_p, 0.001 ps; DESIGN CHOICE 1,500 before the first self-calibration (log 7) -/
  lsb : Nat := 1500
  /-- R431: OFS_p, 0.001 ps, signed; DESIGN CHOICE 0 (log 7) -/
  ofs : Int := 0
  /-- R432: in use -/
  ok : Bool := true
deriving DecidableEq, Repr, Inhabited

/-- What every interval-measurement channel has, external or internal (R419, R424). -/
structure TdcIn where
  /-- R420: the channel's 18 pairs -/
  pairs : Vector PairSt 18 := Vector.replicate 18 {}
  /-- R420: pair whose turn is next -/
  next : Nat := 0
  /-- R419: place of the last edge taken, in 0.001 ps of reference time since P -/
  lastAt : Option Int := none
  /-- R419: MISSED, 32 bits -/
  missed : Nat := 0
deriving DecidableEq, Repr, Inhabited

/-- A result record (R429). -/
structure TdcResult where
  value : Int
  count : Nat
  mode : Nat
  flags : BitVec 8
  time : Time
  freq : Nat
deriving DecidableEq, Repr, Inhabited

/-- An external interval-measurement channel (R425 to R434). -/
structure TdcSt where
  /-- R433: TDC_CFG, 128 bits; THRESH_MV +500, TERM 1, MODE 1, GATE_US 1,000, AUTO_CAL_S 600 -/
  cfg : BitVec 128 := BitVec.ofNat 128 (0x1F4 + (1 <<< 15) + (1 <<< 17) + (1000 <<< 24) + (600 <<< 64))
  /-- R434: ARMED -/
  armed : Bool := false
  /-- R425: an arm waits for its time -/
  armAt : Option Time := none
  /-- R426: start edge of the measurement in progress, with its absolute time -/
  start : Option (Edge × Time) := none
  /-- R426: stop edge seen first -/
  stop : Option Edge := none
  /-- R427: last edge of the gate and edges counted -/
  gate : Option (Edge × Nat) := none
  /-- R429: measurement number since arming -/
  number : Nat := 0
  /-- R429: result since arming -/
  result : Option TdcResult := none
  /-- R428: FIFO of up to 1,024 entries, oldest first: reference cycle of arrival and the 16 bytes -/
  fifo : List (Nat × Bytes) := []
  /-- R428: edges lost since the last entry -/
  lostNow : Nat := 0
  /-- R428: entries lost while the main rails were off: count and time of the first -/
  mainOffLost : Option (Nat × Time) := none
  /-- R434: FIFO_LOST, 32 bits -/
  fifoLost : Nat := 0
  /-- R434: TRIG_DROPS, 32 bits -/
  trigDrops : Nat := 0
  /-- R430: edges delivered to the event engines in the present microsecond -/
  trigRate : Nat × Nat := (0, 0)
  /-- R434: ORDER count -/
  orders : Nat := 0
  /-- R434: OVERFLOW count -/
  overflows : Nat := 0
  /-- R423: steps of the counter since P at the previous timestamp of the channel -/
  stepMark : Option Nat := none
  /-- R434: last self-calibration time, 96 bits -/
  lastCal : Time := 0
  /-- R431: reference cycle of the last self-calibration -/
  lastCalCyc : Nat := 0
deriving DecidableEq, Repr, Inhabited

/-- Interval measurement (R418 to R435). -/
structure TdcsSt where
  /-- R433: TIN0 to TIN3 -/
  ch : Vector TdcSt 4 := Vector.replicate 4 {}
  /-- R424: channels 0 to 9 as inputs -/
  inp : Vector TdcIn 10 := Vector.replicate 10 {}
  /-- R431: self-calibration in progress: channel and pair being measured -/
  cal : Option (Nat × Nat) := none
deriving DecidableEq, Repr, Inhabited

/-- States of a lane (R503). -/
inductive LaneState where
  | unused | training | inService | left | absent
deriving DecidableEq, Repr, Inhabited

/-- A lane (R467 to R503). -/
structure LaneSt where
  /-- R503: state -/
  state : LaneState := .unused
  /-- R467: logical lane -/
  logical : Nat := 0
  /-- R475: valid CAP blocks received in a row -/
  caps : Nat := 0
  /-- R467: the partner's logical lane, as its control blocks carry it -/
  peer : Nat := 0
  /-- R475: CAP_ACK sent -/
  ackSent : Bool := false
  /-- R475: CAP_ACK received -/
  ackRecv : Bool := false
  /-- R503: FOM, 8 bits -/
  fom : Nat := 0
  /-- R503: FOM_CAL, 8 bits -/
  fomCal : Nat := 0
  /-- R478: consecutive milliseconds below the threshold -/
  below : Nat := 0
  /-- R476: local check of the present step -/
  localPass : Option Bool := none
  /-- R476: RESULT received for the present step -/
  remotePass : Option Bool := none
  /-- R503: RATE, 2 bits -/
  rate : Nat := 0
  /-- R503: errors at the last check -/
  errors : Nat := 0
  /-- R503: departures -/
  departures : Nat := 0
  /-- R503: time of the last check, 96 bits -/
  lastCheck : Time := 0
  /-- R494: reference cycle of its departure or of its last attempt -/
  since : Nat := 0
  /-- R494: a re-adaptation is requested or runs -/
  readapting : Bool := false
  /-- R479: MARKER_COUNT of the last ALIGN received -/
  marker : Nat := 0
  /-- R479: reference cycle at which it arrived -/
  markerAt : Nat := 0
deriving DecidableEq, Repr, Inhabited

/-- Where the training of a bond stands (R475). -/
inductive Phase where
  | down | cap | mapped | stepSent | adapt | check | result | ended | up
deriving DecidableEq, Repr, Inhabited

/-- Sleep state of one direction (R495). -/
inductive SleepSt where
  | l0 | ls | ld
deriving DecidableEq, Repr, Inhabited

/-- An aperture segment (R489). -/
structure Segment where
  base : Nat := 0
  offset : Nat := 0
  log2 : Nat := 0
  enable : Bool := false
deriving DecidableEq, Repr, Inhabited

/-- A transaction of the link (R484), with the entry of a stream it carries (R359). -/
structure Tx where
  ttype : Nat
  cpl : Bool := false
  vc : Nat
  status : Nat := 0
  tag : Nat := 0
  rlen : Nat := 0
  addr : Nat := 0
  data : Bytes := []
  /-- R360: SEQUENCE and ring of the stream packet it carries -/
  stream : Option (Nat × Nat) := none
deriving DecidableEq, Repr, Inhabited

/-- A DATA flit that waits for its acknowledgement (R481, R483), with the stream packets that end in it. -/
structure Flit where
  fseq : BitVec 12
  payload : Bytes
  ends : List Tx
deriving DecidableEq, Repr, Inhabited

/-- A read of host memory that the device has out (R486). -/
structure HostRead where
  tag : Nat
  addr : Nat
  len : Nat
  since : Nat
  /-- R486: the Fetch channel that waits for it -/
  fetch : Option (Fin 32)
deriving DecidableEq, Repr, Inhabited

/-- A width change in progress (R493). -/
structure WidthChange where
  mask : BitVec 16
  marker : Nat
  acked : Bool
  lane : Option (Fin 144)
deriving DecidableEq, Repr, Inhabited

/-- A bond (R465 to R503). -/
structure BondSt where
  /-- R500: BOND_CFG, 128 bits; others empty, MAX_RATE 3, MIN_WIDTH 1, TX_PRESET 3, FOM_PCT 70, FOM_HOLD_MS 10, IDLE_LS_US 10 -/
  cfg : BitVec 128 := BitVec.ofNat 128 (31 + (31 <<< 5) + (3 <<< 10) + (1 <<< 32) + (3 <<< 37) + (70 <<< 48) + (10 <<< 56) + (10 <<< 64))
  /-- R489: 16 aperture segments, all disabled -/
  segs : Vector Segment 16 := Vector.replicate 16 {}
  /-- R475: training phase -/
  phase : Phase := .down
  /-- R503: RATE -/
  rate : Nat := 0
  /-- R475: rate before the present step -/
  prevRate : Nat := 0
  /-- R475: MAX_RATE of the partner -/
  partnerMax : Nat := 0
  /-- R495: LD_CAPABLE of the partner -/
  partnerLd : Bool := false
  /-- R475: reference cycle at which the first lane was mapped -/
  firstMapped : Option Nat := none
  /-- R475: TRAIN_WAIT has been raised -/
  waitRaised : Bool := false
  /-- R503: logical lanes in use, 16 bits -/
  mask : BitVec 16 := 0
  /-- R476: reference cycle from which RESULT is waited for -/
  resultSince : Nat := 0
  /-- R479: MARKER_COUNT of the next ALIGN sent, 32 bits -/
  txMarker : Nat := 0
  /-- R479: MARKER_COUNT last received -/
  rxMarker : Nat := 0
  /-- R493: width change in progress -/
  width : Option WidthChange := none
  /-- R481: FSEQ of the next DATA flit, 12 bits -/
  txSeq : BitVec 12 := 0
  /-- R482: FSEQ expected, 12 bits -/
  rxSeq : BitVec 12 := 0
  /-- R481: a DATA flit has been received in order (ACK_VALID) -/
  rxAny : Bool := false
  /-- R482: NAK has been sent for the present expected FSEQ -/
  nakSent : Bool := false
  /-- R482: accepted flits not yet acknowledged, with the reference cycle of the first -/
  ackOwed : Nat × Nat := (0, 0)
  /-- R483: unacknowledged DATA flits, oldest first -/
  unacked : List Flit := []
  /-- R483: reference cycle of the last advance or replay -/
  ackAdvance : Nat := 0
  /-- R483: consecutive replays without an advance -/
  replayRun : Nat := 0
  /-- R487: transactions waiting, per VC 0 to 3, oldest first -/
  txq : Vector (List Tx) 4 := Vector.replicate 4 []
  /-- R490: credits that the partner has granted, per VC -/
  credits : Vector Nat 4 := Vector.replicate 4 0
  /-- R490: credits freed and not yet returned, per VC, with the reference cycle of the first -/
  freed : Vector Nat 4 := Vector.replicate 4 0
  /-- R490: reference cycle of the first freed credit -/
  freedSince : Nat := 0
  /-- R491: flits that the ready transaction of each VC has waited -/
  waited : Vector Nat 4 := Vector.replicate 4 0
  /-- R481: received payload bytes not yet parsed into transactions -/
  rxBytes : Bytes := []
  /-- R487: received transactions not yet performed, oldest first -/
  rxq : List Tx := []
  /-- R486: reads of host memory out -/
  reads : List HostRead := []
  /-- R485: next TAG of a device read -/
  nextTag : Nat := 1
  /-- R486: posted writes dropped -/
  writeErrs : Nat := 0
  /-- R495: transmit sleep state -/
  txSleep : SleepSt := .l0
  /-- R495: receive sleep state -/
  rxSleep : SleepSt := .l0
  /-- R495: reference cycle since which the transmitter has been idle -/
  idleSince : Nat := 0
  /-- R500: the BOND_CFG that the L reset after LINK.BOND's response puts in force -/
  cfgNext : Option (BitVec 128) := none
  /-- R503: L resets -/
  resets : Nat := 0
  /-- R503: replays -/
  replays : Nat := 0
  /-- R503: CRC errors -/
  crcErrs : Nat := 0
  /-- R503: uncorrectable codewords -/
  codewords : Nat := 0
  /-- R503: last CAUSE -/
  cause : Nat := 0
  /-- R503: time of the last UP -/
  upTime : Time := 0
  /-- R327: reference cycle at which it left service or began to wake -/
  downSince : Nat := 0
  /-- R473: control blocks sent by the last command that sent any, as lane and bytes -/
  ctlOut : List (Nat × Bytes) := []
  /-- R481: IDLE flit header last sent for an acknowledgement (ACK field) -/
  ackOut : Option (BitVec 16) := none
deriving DecidableEq, Repr, Inhabited

/-- Cozor Link (R465 to R503). -/
structure LinkSt where
  /-- R468: bonds B0 to B7; B0 holds O0 and O1 with 16 lanes and is enabled -/
  bond : Vector BondSt 8 := Vector.ofFn fun i =>
    if i.val = 0 then
      { cfg := BitVec.ofNat 128 (0 + (1 <<< 5) + (3 <<< 10) + (0xFFFF <<< 16) + (1 <<< 32) + (3 <<< 37) + (1 <<< 40) + (70 <<< 48) + (10 <<< 56) + (10 <<< 64)) }
    else {}
  /-- R465: lanes 0 to 143 -/
  lane : Vector LaneSt 144 := Vector.replicate 144 {}
deriving DecidableEq, Repr, Inhabited

end Sys2Proof.Machine
end

