-- ==== Sys2Proof/Machine/StateSignal.lean ====
section
/-! DEFINITION. State of the data plane: inputs, calibrators, down-conversion, channelisers, transform packs, event engines, records, measurements, density, occupancy and the display head. A field's default is its value in State.reset. -/
set_option Elab.async false
namespace Sys2Proof.Machine
open Sys2Proof

/-- A span of invalid samples [first, stop) of the converter stream and of the wideband stream (R78, R129). -/
structure Span where
  first : Nat
  stop : Nat
deriving DecidableEq, Repr, Inhabited

/-- A gap descriptor that waits for its END_TIME (R81, R354). -/
structure PendGap where
  cause : Nat
  start : Time
  lost : Nat
  firstIndex : Nat
  /-- R81: period of the stream that ended, 2^-32 ns; 0 where `lost` counts already -/
  period : Nat := 0
deriving DecidableEq, Repr, Inhabited

/-- A change of an input that loses time and waits for its block boundary (R81, R82, R84, R380). -/
structure InSwitch where
  /-- R355: cause of the gap descriptor -/
  cause : Nat
  /-- R82: arrangement after the switch -/
  paired : Bool
  /-- R78: converter samples invalid after the restart -/
  settle : Nat
deriving DecidableEq, Repr, Inhabited

/-- One input (R55 to R86). -/
structure InSt where
  /-- R83: INPUT_CFG, 32 bits, reset ATTEN_DB 12 -/
  cfg : BitVec 32 := 0xC0
  /-- R83: INPUT_OVL, 32 bits, reset OVL_THRESHOLD 2032, OVL_HOLD_US 1000 -/
  ovl : BitVec 32 := 0x3E807F0
  /-- R79: attenuation in force, dB; reset 12 -/
  atten : Nat := 12
  /-- R85: attenuator change accepted and not yet applied: new value and apply time -/
  attenReq : Option (Nat × Time) := none
  /-- R79: attenuator change applied: new value, and the converter sample at which its invalid span ends -/
  attenSpan : Option (Nat × Nat) := none
  /-- R78: the input has been enabled before -/
  wasEnabled : Bool := false
  /-- R83: the converters of the input run and blocks are formed -/
  running : Bool := false
  /-- R81: a change that loses time waits for the block boundary -/
  switch : Option InSwitch := none
  /-- R81: the stream ends with the block in progress; cause of the gap that follows -/
  ending : Option Nat := none
  /-- R68: FORMAT and ZONE of the block in progress, where they have changed since it began -/
  held : Option (Bool × Bool) := none
  /-- R82: converter sample at which the invalid span of an arrangement change ends -/
  arrangeSpan : Option Nat := none
  /-- R380: converter sample at which the invalid span of a rate change ends -/
  rateSpan : Option Nat := none
  /-- R70: converter samples of the present stream already in blocks -/
  conv : Nat := 0
  /-- R405: converter cycle of the die, counted from its last alignment, at the stream's first sample -/
  origin : Nat := 0
  /-- R69: TIMESTAMP that the next block would carry with the period in force; set at each block -/
  nextTime : Time := 0
  /-- R69: a time and the converter sample that it is the time of, from which times count while the die has no markers -/
  base : Time × Nat := (0, 0)
  /-- R71: CLOCK_SUSPECT and SUPPLY_WARNING have been in force during the block in progress and are no longer -/
  marks : Bool × Bool := (false, false)
  /-- R72, R73: invalid spans of the converter stream that the stream's blocks have still to mark; spans that overlap are one -/
  spans : List Span := []
  /-- R78: invalid spans of the wideband stream -/
  wspans : List Span := []
  /-- R72: converter sample from which an invalid span of no known end is open (R103) -/
  openSpan : Option Nat := none
  /-- R78: the open invalid span's first wideband sample -/
  wopenSpan : Option Nat := none
  /-- R81: the gap descriptor that precedes the next block -/
  gap : Option PendGap := none
  /-- R65: the last 31 codes of the previous block, for the half-band filter -/
  hist : List Int := []
  /-- R71, R96: the converter sample at which trims last moved or a foreground calibration ended, until its block is formed -/
  calMark : Option Nat := none
  /-- R86: IN_OVERLOAD -/
  inOvl : Bool := false
  /-- R75: largest code magnitude since entry -/
  ovlPeak : Nat := 0
  /-- R75: converter sample and time of the last sample that met the criterion -/
  ovlLast : Nat × Time := (0, 0)
  /-- R86: PEAK_CODE, 16 bits -/
  peak : Nat := 0
  /-- R86: OVL_ENTRIES, 32 bits -/
  ovlEntries : Nat := 0
  /-- R86: BLOCKS, 64 bits -/
  blocks : Nat := 0
  /-- R86: LAST_VALID_TIME, 96 bits -/
  lastValid : Time := 0
deriving DecidableEq, Repr, Inhabited

/-- The four trims of a slice (R94). DELAY_TRIM of a cleared set is 512, its centre: the setting that the other three hold at 0 (R94, R107;
DESIGN CHOICE, log 26). -/
structure Trim where
  offset : Int := 0
  gain : Int := 0
  delay : Int := 512
  bw : Int := 0
deriving DecidableEq, Repr, Inhabited

/-- What the samples of one slice add up to in the update period in progress (R88). -/
structure SliceAcc where
  /-- usable samples -/
  n : Nat := 0
  sum : Int := 0
  /-- sum of squares -/
  sq : Nat := 0
  /-- sum of products with the sample of the slice before -/
  prev : Int := 0
  /-- sum of products with the sample of the slice after -/
  next : Int := 0
  /-- sum of squared differences from the sample before -/
  diff : Nat := 0
deriving DecidableEq, Repr, Inhabited

/-- The samples of the update period in progress (R88, R89, R91). -/
structure CalAcc where
  /-- R88: per slice -/
  slices : List SliceAcc := []
  /-- R89: samples, usable or not -/
  taken : Nat := 0
  /-- R91: power in each sub-band -/
  bands : List Nat := List.replicate 64 0
  /-- R88: the last sample, where it was usable -/
  tail : Option Int := none
deriving DecidableEq, Repr, Inhabited

/-- Sub-states of a calibrator (R92). -/
inductive CalState where
  | tracking | holding | paused | frozen | foreground
deriving DecidableEq, Repr, Inhabited

/-- A foreground calibration in progress (R102). -/
structure FgRun where
  cmd : Option Cmd
  both : Bool
  /-- R102: step 5 runs on the other arrangement -/
  second : Bool
  iter : Nat
  /-- R102: step 6 has begun, at this reference cycle -/
  doneAt : Option Nat
  converged : Bool
  /-- R104: worst slice and trim left -/
  worst : Nat × Nat
  wasFrozen : Bool
  /-- R104: the best trims found: their largest error, in 1/256 step, the trims, and the slice and trim of that error -/
  best : Option (Nat × List Trim × Nat × Nat)
deriving DecidableEq, Repr, Inhabited

/-- One calibrator (R88 to R110). -/
structure CalSt where
  /-- R106: CAL_CFG, 32 bits, reset HOLD_EXIT 4, UPDATE_PERIOD_US 1000 -/
  cfg : BitVec 32 := 0x3E80400
  /-- R106: CAL_SUFF, 32 bits, reset ACT_MIN_DBFS −40, BREADTH_MIN 16 -/
  suff : BitVec 32 := 0x10D8
  /-- R92: CAL_STATE; PAUSED while the input is not converting (R106) -/
  state : CalState := .paused
  /-- R92: consecutive sufficient periods -/
  run : Nat := 0
  /-- R91: the period in progress overlaps PAUSED or FOREGROUND -/
  tainted : Bool := true
  /-- R100: when MODE last became BACKGROUND -/
  bgSince : Time := 0
  /-- R100: the update boundary at which the period in progress began -/
  periodFrom : Time := 0
  /-- R88: what the samples of the period in progress add up to -/
  acc : CalAcc := {}
  /-- R109: SUFFICIENT -/
  sufficient : Bool := false
  /-- R109: ACT, signed 1/256 dB -/
  act : Int := 0
  /-- R109: BREADTH -/
  breadth : Nat := 0
  /-- R109: estimates of the last period per slice, in 1/256 of the trim's step -/
  errs : List SliceErr := []
  /-- R101: CAL_COUNT, 32 bits -/
  count : BitVec 32 := 0
  /-- R101: CAL_LAST_TIME, 96 bits -/
  lastTime : Time := 0
  /-- R109: HOLD_PERIODS, 32 bits -/
  holdPeriods : Nat := 0
  /-- R109: FG_FAILED -/
  fgFailed : Bool := false
  /-- R109: LIMIT_REACHED -/
  limit : Bool := false
  /-- R94: trims of the slices in use -/
  trims : List Trim := List.replicate 64 {}
  /-- R105: stored set for the other arrangement of the pair -/
  stored : List Trim := List.replicate 128 {}
  /-- R97: sums of DELAY_TRIM and GAIN_TRIM at the last foreground calibration -/
  sums : Int × Int := (512 * 64, 0)
  /-- R97, R105: the same sums for the stored set -/
  storedSums : Int × Int := (512 * 128, 0)
  /-- R102: foreground calibration in progress -/
  fg : Option FgRun := none
deriving DecidableEq, Repr, Inhabited

/-- A retune that waits for its sample (R117, R138). -/
structure Retune where
  freq : BitVec 48
  /-- R131: PHASE_OFFSET to store; none where only FREQ_WORD changes -/
  phase : Option (BitVec 32)
  reset : Bool
  at_ : Time
deriving DecidableEq, Repr, Inhabited

/-- A work item of a pack that an engine has taken its samples for (R173, R176): one spectrum or one channeliser step. -/
structure DoneItem where
  index : Nat
  /-- R176: recomputed -/
  redo : Bool
  /-- R171, R177: cause of the gap descriptor that covers it, where it is not computed -/
  lost : Option Nat
  /-- R144, R156: no sample of its support is invalid -/
  ok : Bool
  /-- R144, R154: centre of its support -/
  time : Time
  /-- R155: time of the output whose group it begins -/
  outTime : Time
  /-- R349: OR of the source flags -/
  flags : BitVec 32
  /-- R151, R152: value of each bin in 2^-32 of full scale; R141, R143: of each channel in 2^-16 of full code -/
  vals : List (Int × Int)
deriving DecidableEq, Repr, Inhabited

/-- A restart that waits for its restart sample (R130, R133). -/
structure DdcRestart where
  /-- R131: n_ref and SYNCED stay -/
  keep : Bool
  /-- R130: restart sample, in the present stream of the source -/
  at_ : Nat
  /-- R133: it is that of a synchronising reset -/
  sync : Bool
  /-- R126: time of the restart sample -/
  time : Time
deriving DecidableEq, Repr, Inhabited

/-- One down-conversion channel (R115 to R139). -/
structure DdcSt where
  /-- R137: DDC_CH, 288 bits; PRESET 1, N_HB 6, D_R 1.0, OUT_RATE_MHZ 10^9 -/
  cfg : BitVec 288 := BitVec.ofNat 288 (4 + (6 <<< 5) + (1 <<< 96) + (1000000000 <<< 128))
  /-- R137: DDC_THR, 64 bits; THRESH −90 dBFS, HYST 3 dB, AVG_LOG2 10, HOLD 1, RISE_EN, FALL_EN -/
  thr : BitVec 64 := BitVec.ofNat 64 (0xA000 + (768 <<< 16) + (10 <<< 28) + (1 <<< 32) + (1 <<< 49) + (1 <<< 50))
  /-- R117: FREQ_WORD in force, 48 bits -/
  freq : BitVec 48 := 0
  /-- R117: phase accumulator, 48 bits, at wideband sample accAt -/
  acc : BitVec 48 := 0
  /-- R117: wideband sample of the source at which acc holds -/
  accAt : Nat := 0
  /-- R115: grid origin n_ref -/
  nref : Nat := 0
  /-- R139: SYNCED -/
  synced : Bool := false
  /-- R133: the first outputs of a synchronising reset are still settling -/
  syncing : Bool := false
  /-- R138: RESTART_PENDING -/
  restart : Option DdcRestart := none
  /-- R126: the source's wideband rate in the present grid, in 10^8 / 2^33 Hz -/
  rate : Nat := 0
  /-- R131: the DDC_CH record that the pending restart puts in force -/
  cfgNext : Option (BitVec 288) := none
  /-- R131: ring position in the source after the last gap that the channel has taken -/
  srcPos : Nat := 0
  /-- R126: time of the wideband sample n_ref -/
  refTime : Time := 0
  /-- R133: outputs below this index are exact zeros -/
  zeroTo : Nat := 0
  /-- R134: earlier pieces of the NCO that outputs to come still see: first sample, increment, accumulator there; newest first -/
  ncoPast : List (Nat × BitVec 48 × BitVec 48) := []
  /-- R138: retune pending -/
  retune : Option Retune := none
  /-- R130: restart sample of the latest restart -/
  restartAt : Nat := 0
  /-- R127: output index m of the next block's first sample -/
  nextM : Nat := 0
  /-- R129: invalid outputs -/
  spans : List Span := []
  /-- R131: gap descriptors due before the next block -/
  gaps : List PendGap := []
  /-- R131: GAIN_SHIFT of the block in progress -/
  gain : Nat := 0
  /-- R135: outputs before this index are in no window of averages -/
  window : Nat := 0
  /-- R135: power of the window in progress, without GAIN_SHIFT, in 2^-54 of full scale; none once it holds an invalid output -/
  power : Option Nat := some 0
  /-- R135: windows that have ended and are not yet judged: time of the last sample, and power -/
  averages : List (Time × Option Nat) := []
  /-- R136: ABOVE -/
  above : Bool := false
  /-- R136: averages in a row that qualify -/
  hold : Nat := 0
  /-- R139: SAT_COUNT, 32 bits -/
  sat : Nat := 0
  /-- R139: BLOCKS, 64 bits -/
  blocks : Nat := 0
deriving DecidableEq, Repr, Inhabited

/-- One down-conversion engine (R132, R137). -/
structure DdcEng where
  /-- R137: DDC_ENG_CFG, 32 bits, reset SYNC_ON_PIN 1 -/
  cfg : BitVec 32 := 1
  /-- R132: a synchronising reset armed: MODE, and its time for MODE 2 -/
  sync : Option (Nat × Time) := none
  /-- R132: an edge on SYNC_IN has reached the engine, at this time -/
  pin : Option Time := none
deriving DecidableEq, Repr, Inhabited

/-- A bundle of a channeliser (R145, R351). -/
structure Bundle where
  first : Nat
  count : Nat
  ring : Nat
  /-- R145: time from which a change takes effect; none once in effect -/
  addAt : Option Time := none
  removeAt : Option Time := none
  /-- R146: frames of a split step that are in the ring already -/
  sent : Nat := 0
  /-- R351: steps waiting in the frame in progress: step number, words, invalid, saturated values, FLAGS, time -/
  steps : List (Nat × List Nat × Bool × Nat × Nat × Time) := []
  /-- R351: reference cycle at which the support of the frame's first step ended -/
  since : Nat := 0
deriving DecidableEq, Repr, Inhabited

/-- A channeliser (R140 to R149). -/
structure ChanSt where
  id : Nat
  pack : Handle
  ring : Nat
  log2N : Nat
  ovs : Bool
  fmt8 : Bool
  taps : Nat
  shift : Nat
  bundles : List Bundle := []
  /-- R149: RUNNING -/
  running : Bool := false
  /-- R144: START_TIME; zero for the next block -/
  startTime : Time := 0
  /-- R144: index of the first sample n_s, once known -/
  origin : Option Nat := none
  /-- R144: ring position from which the present grid reads -/
  srcPos : Nat := 0
  /-- R173: next step to issue -/
  next : Nat := 0
  /-- R173: next step to publish -/
  publish : Nat := 0
  /-- R173: steps that engines have taken their samples for -/
  issued : List DoneItem := []
  /-- R173: completed steps not yet contiguous -/
  completed : List DoneItem := []
  /-- R176: steps marked for recomputation -/
  redo : List Nat := []
  /-- R171: abandoned steps, not yet reached: from, to, time of the first -/
  skips : List (Nat × Nat × Time) := []
  /-- R149: steps produced -/
  produced : Nat := 0
  /-- R149: invalid steps -/
  invalid : Nat := 0
  /-- R149: saturated samples -/
  saturated : Nat := 0
  /-- R149: time of the last step -/
  lastTime : Time := 0
  /-- R149: stop asked for -/
  stopping : Option Cmd := none
  /-- R144: gap descriptors due on each bundle ring -/
  gaps : List PendGap := []
deriving DecidableEq, Repr, Inhabited

/-- A spectral analysis (R150 to R186). -/
structure XformSt where
  id : Nat
  pack : Handle
  /-- R183: XFORM_CFG, 256 bits; reset LOG2_N 10, HOP 2, WINDOW 1, WIN_PARAM 0x0900, M 1, which XFORM.CREATE always writes over -/
  cfg : BitVec 256 := BitVec.ofNat 256 ((10 <<< 24) + (2 <<< 32) + (1 <<< 34) + (0x0900 <<< 48) + (1 <<< 64))
  /-- R153: user window table; none before one is loaded -/
  window : Option (List Int) := none
  /-- R186: RUNNING -/
  running : Bool := false
  /-- R154: START_TIME; zero for the next block -/
  startTime : Time := 0
  /-- R154: index of the first sample n_s, once known -/
  origin : Option Nat := none
  /-- R154: ring position from which the present grid reads -/
  srcPos : Nat := 0
  /-- R155: outputs formed on the present grid -/
  formed : Nat := 0
  /-- R155: time of the output in progress -/
  groupTime : Time := 0
  /-- R173: next spectrum to issue -/
  next : Nat := 0
  /-- R173: next spectrum to take in order -/
  publish : Nat := 0
  /-- R173: spectra that engines have taken their samples for -/
  issued : List DoneItem := []
  /-- R173: completed spectra not yet contiguous -/
  completed : List DoneItem := []
  /-- R176: spectra marked for recomputation -/
  redo : List Nat := []
  /-- R171: abandoned spectra, not yet reached: from, to, time of the first output -/
  skips : List (Nat × Nat × Time) := []
  /-- R155: valid spectra of the group in progress, each as the powers of its bins, and the values of its retained bins -/
  group : List (List Nat × List (Int × Int)) := []
  /-- R349: OR of the source flags of the group, and whether any was recomputed -/
  groupFlags : BitVec 32 := 0
  /-- R177: a spectrum of the group in progress was not computed: cause of the gap descriptor that covers its output -/
  groupLost : Option Nat := none
  /-- R186: OUTPUTS, 64 bits -/
  outputs : Nat := 0
  /-- R186: INVALID, 32 bits -/
  invalid : Nat := 0
  /-- R186: RECOMPUTED, 32 bits -/
  recomputed : Nat := 0
  /-- R186: LOST, 32 bits -/
  lost : Nat := 0
  /-- R186: LAST_TIME, 96 bits -/
  lastTime : Time := 0
  /-- R185: stop asked for -/
  stopping : Option Cmd := none
  /-- R156: gap descriptors due before the next output -/
  gaps : List PendGap := []
  /-- R198: the trigger tap: spectra by number, time, validity and LOG16 codes, newest first: the last one, and those that a condition has
  still to read -/
  tap : List (Nat × Time × Bool × List Nat) := []
deriving DecidableEq, Repr, Inhabited

/-- A work item of a transform pack (R173). -/
structure WorkItem where
  kind : WorkKind
  id : Nat
  index : Nat
  redo : Bool
deriving DecidableEq, Repr, Inhabited

/-- A transform engine (R174 to R180). -/
structure TeSt where
  /-- R39: FAULT -/
  fault : Bool := false
  /-- R39: QUARANTINE -/
  quarantine : Bool := false
  /-- R173: items outstanding, oldest first, at most two -/
  items : List WorkItem := []
  /-- R174: reference cycle of the last handshake -/
  handshake : Nat := 0
  /-- R180: a self-test runs; its command, if any -/
  selftest : Option (Option Cmd) := none
  /-- R179: pack and slot that the engine left last -/
  left : Option (Handle × Nat) := none
  /-- R178: reference cycle of its last declaration -/
  deadAt : Nat := 0
deriving DecidableEq, Repr, Inhabited

/-- A slot of a pack (R33, R175). -/
structure Slot where
  member : Option Handle := none
  /-- R175: epoch, 32 bits, reset 0 -/
  epoch : BitVec 32 := 0
  /-- R176: a spare is to be promoted at the next spectrum boundary; the engine that died -/
  promote : Option Handle := none
deriving DecidableEq, Repr, Inhabited

/-- A pack (R33 to R50, R167 to R188). -/
structure PackSt where
  /-- R37: handle -/
  handle : Handle
  /-- R33: slots -/
  slots : List Slot
  /-- R47: state last reported on 0x60 to 0x67, R39 code -/
  lastState : Nat := 0
  /-- R188: GAP_RISK -/
  gapRisk : Bool := false
  /-- R178: the pack found the pool empty -/
  degraded : Bool := false
  /-- R188: TOKEN_RATE of the last update, M/s -/
  tokenRate : Nat := 0
  /-- R188: STALE_WRITES, 32 bits -/
  staleWrites : Nat := 0
  /-- R188: PROMOTIONS, 32 bits -/
  promotions : Nat := 0
  /-- R188: RECOMPUTED, 32 bits -/
  recomputed : Nat := 0
  /-- R181: re-initialisations that wait for the end of a replacement -/
  reinits : List Cmd := []
deriving DecidableEq, Repr, Inhabited

/-- A start command that waits for V_FAB (R169). -/
structure FabWait where
  cmd : Cmd
  /-- opcode of the command -/
  opcode : BitVec 16
  /-- level to reach, 0.1 mV -/
  level : Nat
deriving DecidableEq, Repr, Inhabited

/-- The rate lock (R167 to R170). -/
structure FabSt where
  /-- R184: V_FAB in 0.1 mV; 0.60 V -/
  vfab : Nat := 6000
  /-- R168: consecutive updates with H_min above 25 % -/
  above : Nat := 0
  /-- R169: start commands that wait -/
  waits : List FabWait := []
  /-- R180: reference cycle of the last automatic self-test, and the slot of 0x80FF tested -/
  poolTest : Nat × Nat := (0, 0)
deriving DecidableEq, Repr, Inhabited

/-- A condition of a trigger as it runs (R192). -/
structure CondSt where
  isTrue : Bool := false
  /-- R192: met elements in a row -/
  run : Nat := 0
  /-- R202: time of the first met element of the run -/
  onset : Time := 0
  /-- R191: time until which a pulse holds the condition -/
  until_ : Option Time := none
  /-- R200: time up to which its source has delivered -/
  seen : Time := 0
  /-- R190: next due instant of a TIMER condition -/
  due : Option Time := none
  /-- R190, R194: elements and source gaps formed and not yet evaluated: time, gap, value tested -/
  formed : List (Time × Bool × Int) := []
deriving DecidableEq, Repr, Inhabited

/-- A trigger (R189 to R224). -/
structure TrigSt where
  /-- R223: TRIG_DEF, 256 bytes; none when not defined -/
  defn : Option Bytes := none
  /-- R189: armed -/
  armed : Bool := false
  /-- R192: conditions A to D -/
  conds : Vector CondSt 4 := Vector.replicate 4 {}
  /-- R200: F1 and F2 at the last evaluation -/
  f1 : Bool := false
  f2 : Bool := false
  /-- R200: window opened at, and its end -/
  win : Option (Time × Time) := none
  /-- R201: end of the hold-off in force -/
  holdoff : Option Time := none
  /-- R224: FIRED, 32 bits -/
  fired : Nat := 0
  /-- R224: SUPPRESSED, 32 bits -/
  suppressed : Nat := 0
  /-- R224: BLIND spans, 32 bits -/
  blind : Nat := 0
  /-- R224: last TRIG_TIME, 96 bits -/
  lastTime : Time := 0
  /-- R220: firings forced for an instant still to come: the instant, the RECORD_ID, or 0, and the definition -/
  forced : List (Time × BitVec 32 × Bytes) := []
deriving DecidableEq, Repr, Inhabited

/-- An event engine (R189 to R226). -/
structure EvEng where
  /-- R189: triggers 0 to 15 -/
  trig : Vector TrigSt 16 := Vector.replicate 16 {}
  /-- R195: masks 0 to 31 as breakpoints (POS, LEVEL); empty when not loaded -/
  masks : Vector (List (Nat × Nat)) 32 := Vector.replicate 32 []
  /-- R205: GAP_RISK of the engine, which reports as a pack of one -/
  gapRisk : Bool := false
  /-- R167: token rate of the last update, M/s -/
  tokenRate : Nat := 0
  /-- R218: measurement jobs queued, oldest first: RECORD_ID, SPAN_INDEX, MEAS_ID, ring, TRIGGER -/
  jobs : List (BitVec 32 × Nat × Nat × Nat × Nat) := []
  /-- R226: jobs done -/
  done : Nat := 0
  /-- R226: jobs skipped -/
  skipped : Nat := 0
deriving DecidableEq, Repr, Inhabited

/-- States of a span (R212). -/
inductive PinState where
  | open_ | pinned | copying | copied | released | partial_ | notPinned
deriving DecidableEq, Repr, Inhabited

/-- An entry that a producer offers to a ring (R347): its bytes, kind, time, and record index. -/
structure Ent where
  bytes : Bytes
  kind : Nat
  time : Time
  index : Nat
deriving DecidableEq, Repr, Inhabited

/-- One span of a record (R206 to R212). -/
structure PinSt where
  /-- R212: RECORD_ID -/
  record : BitVec 32
  /-- R212: ENGINE and TRIGGER -/
  engine : Nat
  trigger : Nat
  /-- R212: SPAN_INDEX -/
  span : Nat
  /-- R212: SRC_RING -/
  ring : Nat
  state : PinState
  /-- R212: FLAGS -/
  flags : BitVec 32
  trigTime : Time
  onset : Time
  /-- R206: start of the interval -/
  startTime : Time
  /-- R206: end of the interval -/
  endTime : Time
  /-- R212: the span is complete -/
  complete : Bool := false
  /-- R212: FIRST_POS -/
  firstPos : Nat
  /-- R206: ring position after the last pinned entry -/
  endPos : Nat
  /-- R212: BLOCKS -/
  blocks : Nat
  /-- R212: FIRST_SAMPLE and LAST_SAMPLE -/
  firstSample : Nat
  lastSample : Nat
  /-- R212: COPY_RING, position there and blocks copied -/
  copyRing : Nat := 0
  copyPos : Nat := 0
  copied : Nat := 0
  /-- R210: ring position up to which a copy has taken the entries -/
  nextPos : Nat := 0
  /-- R209: entries that a copy has taken -/
  data : List Ent := []
  /-- R594: TIMESTAMP and SAMPLE_INDEX of a block at the firing, and whether a counter step lies within the interval -/
  base : Time × Nat := (0, 0)
  stepped : Bool := false
  /-- R212: REC_RING -/
  recRing : Nat
  /-- R224: MEASURE: definition and ring -/
  meas : Option (Nat × Nat)
deriving DecidableEq, Repr, Inhabited

/-- Pin policy and counts of one sample ring (R209, R225). -/
structure PinPolicy where
  ring : Nat
  copy : Bool
  channel : Nat
  copyRing : Nat
  copies : Nat := 0
  releases : Nat := 0
  partials : Nat := 0
  refused : Nat := 0
deriving DecidableEq, Repr, Inhabited

/-- An envelope stream (R213, R214, R352). -/
structure EnvSt where
  id : Nat
  engine : Fin 16
  src : Nat
  k : Nat
  out : Nat
  startTime : Time
  /-- R213: first sample of interval 0, once known -/
  origin : Option Nat := none
  /-- R214: ring position from which the present intervals read -/
  srcPos : Nat := 0
  /-- R352: number of the next interval -/
  next : Nat := 0
  /-- R352: words of the frame in progress, oldest first -/
  words : List (BitVec 32) := []
  /-- R352: number and time of the frame's first interval, and the reference cycle at which it ended -/
  first : Nat × Time × Nat := (0, 0, 0)
  /-- R349: flags of the frame -/
  flags : BitVec 32 := 0
  /-- R214: gap descriptors due before the next frame -/
  gaps : List PendGap := []
  stopping : Option Cmd := none
deriving DecidableEq, Repr, Inhabited

/-- Triggers, records and measurements (R189 to R227). -/
structure EventsSt where
  /-- R189: event engines E00 to E15 -/
  eng : Vector EvEng 16 := Vector.replicate 16 {}
  /-- R207: RECORD_ID of the last record; 0 after P, M and D -/
  lastRecord : BitVec 32 := 0
  /-- R206: spans, oldest first -/
  pins : List PinSt := []
  /-- R209: policies of sample rings -/
  policies : List PinPolicy := []
  /-- R213: envelope streams -/
  envs : List EnvSt := []
  /-- R215: measurement definitions 0 to 63, as 29 bytes; empty when not defined -/
  meas : Vector Bytes 64 := Vector.replicate 64 []
deriving DecidableEq, Repr, Inhabited

/-- An occupancy channel (R244): bins, and occupied slots newest first. -/
structure OccChan where
  first : Nat
  last : Nat
  slots : List Bool := []
deriving DecidableEq, Repr, Inhabited

/-- A density accumulator with its occupancy unit (R228 to R246). -/
structure DensSt where
  /-- R246: DENS_CFG, 256 bits; LOG2_COLS 10, LOG2_ROWS 8, TOP_CODE 0xFA00, ROW_STEP 100, DECAY_LOG2 3, NORM_MODE 1, RENDER 1, FRAME_PERIOD_US 20,000, NORM_COUNT 1,024 -/
  cfg : BitVec 256 := BitVec.ofNat 256 ((10 <<< 8) + (8 <<< 12) + (0xFA00 <<< 16) + (100 <<< 32) + (3 <<< 48) + (1 <<< 52) + (1 <<< 53) + (20000 <<< 64) + (1024 <<< 96))
  /-- R246: OCC_CFG, 128 bits; OCC_THRESH −90 dBFS, SLOT_PERIOD_US 1,000, RATIO_SLOTS 1,000 -/
  occCfg : BitVec 128 := BitVec.ofNat 128 (0xA000 + (1000 <<< 32) + (1000 <<< 112))
  /-- R238: colour table, 256 words; reset entry 0 transparent, entry i grey i -/
  colours : List (BitVec 32) := 0 :: (List.range 255).map fun i => 0xFF000000 ||| BitVec.ofNat 32 ((i + 1) * 0x10101)
  /-- R267: RUNNING -/
  running : Bool := false
  /-- R231: FAULT after a bank was lost -/
  fault : Bool := false
  /-- R240: a stop waits for the frame in progress -/
  stopping : Option Cmd := none
  /-- R240: frame boundaries at which a clear is to act, microseconds since the PTP epoch -/
  clearing : List Nat := []
  /-- R232: start boundary of the frame in progress, microseconds since the PTP epoch -/
  frameStart : Nat := 0
  /-- R398: a step of the counter ended the frame in progress -/
  stepped : Bool := false
  /-- R237: latest completed buffer -/
  latest : Option Nat := none
  /-- R267: frames -/
  frames : Nat := 0
  /-- R353: valid spectra of the frame -/
  spectra : Nat := 0
  /-- R349: FLAGS of the frame's spectra -/
  flags : BitVec 32 := 0
  /-- R266: SATURATED has been raised for the frame -/
  satRaised : Bool := false
  /-- R267: saturated cells in the last frame -/
  satCells : Nat := 0
  /-- R267: last NORM -/
  norm : Nat := 0
  /-- R267: last completion time -/
  lastTime : Time := 0
  /-- R233: valid spectra of later frames that arrived before completion: time, LOG16 codes over all bins, FLAGS -/
  next : List (Time × List Nat × BitVec 32) := []
  /-- R267: occupancy runs -/
  occRunning : Bool := false
  /-- R267: a stop waits for the slot in progress -/
  occStopping : Option Cmd := none
  /-- R241: start boundary of the slot in progress, microseconds -/
  slotStart : Nat := 0
  /-- R398: a step ended the slot in progress -/
  occStepped : Bool := false
  /-- R242: row in use, 0 or 1 -/
  row : Nat := 0
  /-- R353: valid spectra of the slot -/
  slotSpectra : Nat := 0
  /-- R349: FLAGS of the slot's spectra -/
  slotFlags : BitVec 32 := 0
  /-- R241: valid spectra of later slots that arrived before completion: time, LOG16 codes over all bins, FLAGS -/
  occNext : List (Time × List Nat × BitVec 32) := []
  /-- R244: occupancy channels by index -/
  chans : List (Nat × OccChan) := []
deriving DecidableEq, Repr, Inhabited

/-- Staged, committed or pending state of the head (R257): timing and four layers. -/
structure DispState where
  /-- R265: DISP_TIMING, 256 bits -/
  timing : BitVec 256 := BitVec.ofNat 256 (1920 + (88 <<< 16) + (44 <<< 32) + (148 <<< 48) + (1080 <<< 64) + (4 <<< 80) + (5 <<< 96) + (36 <<< 112) + (148500 <<< 128) + (1 <<< 160) + (1 <<< 161) + (3 <<< 162) + (4 <<< 164) + (1 <<< 168))
  /-- R265: DISP_LAYER, 4 of 256 bits; FORMAT 2, GLOBAL_ALPHA 255 -/
  layers : Vector (BitVec 256) 4 := Vector.replicate 4 (BitVec.ofNat 256 ((2 <<< 48) + (255 <<< 144)))
deriving DecidableEq, Repr, Inhabited

/-- Where link training stands (R252): `setup` is step 1, `clock` step 2, `equal` step 3. -/
inductive TrainSt where
  | off | setup | clock | equal | trained | fail
deriving DecidableEq, Repr, Inhabited

/-- An AUX transfer in progress (R250). -/
structure AuxRun where
  /-- the DISP.AUX command; none for the head's own reads of the sink -/
  cmd : Option Cmd
  /-- R250: 0 native read, 1 native write, 2 I2C read, 3 I2C write -/
  kind : Nat
  addr : Nat
  len : Nat
  done : Nat
  /-- R268: buffer address -/
  buffer : Addr
  /-- R268: bytes of a write, as the buffer held them when the command was taken -/
  data : Bytes := []
  /-- R250: failed attempts of the transaction in progress -/
  tries : Nat
  since : Nat
deriving DecidableEq, Repr, Inhabited

/-- The scan-out head (R247 to R269). -/
structure DispSt where
  /-- R257: staged state -/
  staged : DispState := {}
  /-- R257: committed state -/
  committed : DispState := {}
  /-- R258: commits pending, nearest first: TARGET_FRAME and state -/
  pending : List (Nat × DispState) := []
  /-- R268: ENABLED -/
  enabled : Bool := false
  /-- R268: the DISP.ENABLE commands that wait for training -/
  enabling : List Cmd := []
  /-- R249: HPD level -/
  hpd : Bool := false
  /-- R249: reference cycle at which HPD_IN fell -/
  hpdFell : Option Nat := none
  /-- R249: an unplug has been taken -/
  unplugged : Bool := true
  /-- R269: sink: maximum rate, maximum lanes, training patterns, spread support as read from DPCD -/
  sink : Option (Nat × Nat × Nat) := none
  /-- R252: training -/
  train : TrainSt := .off
  /-- R269: LINK_RATE in use -/
  rate : Nat := 0
  /-- R269: LANES in use -/
  lanes : Nat := 0
  /-- R252: tries at the present drive level or of equalisation -/
  tries : Nat := 0
  /-- R247: training pattern sent, TPS1 to TPS4; 0 none -/
  pattern : Nat := 0
  /-- R247: voltage swing and pre-emphasis levels, 0 to 3 each -/
  drive : Nat × Nat := (0, 0)
  /-- R247: the timing whose main stream attributes the last vertical blank sent -/
  msa : Option (BitVec 256) := none
  /-- R262: video is stopped for a mode change or a retrain -/
  stopped : Bool := true
  /-- R262: EV_MODE_CHANGED is due at the first new frame -/
  modeChanged : Bool := false
  /-- R259: EV_DISP_FLIP is due at the next first active line -/
  flipDue : Bool := false
  /-- R259: FRAME_COUNT, 32 bits, reset 0 -/
  frame : BitVec 32 := 0
  /-- R269: LAST_FLIP_TIME, 96 bits -/
  lastFlip : Time := 0
  /-- R257: reference cycle of the first active line of the frame being scanned -/
  frameAt : Nat := 0
  /-- R260: layers off for the rest of the frame -/
  off : BitVec 4 := 0
  /-- R264: layers in the capture store are not fetched: from QUIET to the first frame after ACTIVE resumes -/
  storeDark : Bool := false
  /-- R256: buffer of each linked layer in the frame being scanned -/
  scanning : Vector (Option Nat) 4 := Vector.replicate 4 none
  /-- R269: UNDERRUNS, 4 of 16 bits -/
  underruns : Vector Nat 4 := Vector.replicate 4 0
  /-- R269: LATE_COMMITS, 32 bits -/
  lateCommits : Nat := 0
  /-- R250: AUX transfers, the one in progress first -/
  aux : List AuxRun := []
deriving DecidableEq, Repr, Inhabited

end Sys2Proof.Machine
end

