-- ==== Sys2Proof/Machine/State.lean ====
section
/-! DEFINITION. The state of the device, the reasons a step can stop, and the state right after P (State.reset). -/
set_option Elab.async false
namespace Sys2Proof.Machine
open Sys2Proof

/-- Why a step can stop with a fault. The spec makes every failure an effect on the state (a status code, an event, a
bus error), so no command raises one. -/
inductive Fault where
  /-- Raised by no command. Safe: a stop where the device would go on proves no false claim. -/
  | none_
deriving DecidableEq, Repr, Inhabited

/-- Why a step can be refused. -/
inductive Refusal where
  /-- Raised by `exec` for a command that has no meaning yet. Safe: the model stops. -/
  | notModelled (mnemonic : String)
deriving DecidableEq, Repr, Inhabited

/-- The whole device (R19 to R21), its two memories, its clocks, and the queue of the commands that wait. -/
structure State where
  /-- commands waiting, first in, first out; the model's own field -/
  pending : List Instr := []
  /-- R1: grade of the part; DESIGN CHOICE OMT7-880X (log 2) -/
  grade : Grade := .g880x
  /-- R367: reference cycles of 10 ns since P; the model's own clock (DESIGN CHOICE log 1) -/
  cyc : Nat := 0
  /-- R305: bytes of scratch and store by device address, canonical; an unlisted byte reads 0 -/
  mem : List Host.Cell := []
  /-- free values drawn so far; the model's own counter (log 8) -/
  freeNo : Nat := 0
  /-- bring-up and resets (R436, R504 to R516) -/
  boot : BootState := {}
  /-- supplies, thermal and power state (R517, R524 to R545) -/
  power : PowerSt := {}
  /-- the event router (R27, R28, R460, R461) -/
  ev : EventSt := {}
  /-- the mailbox manager (R446 to R463) -/
  kennel : KennelSt := {}
  /-- the management junction and the SMBus side port (R29, R440, R464) -/
  junction : JunctionSt := {}
  /-- the maintenance arbiter (R596 to R606) -/
  maint : MaintSt := {}
  /-- control outputs (R546 to R555) -/
  dacs : DacsSt := {}
  /-- the housekeeping converter (R556 to R562) -/
  hk : HkSt := {}
  /-- R563: thermal loops 0 to 7 -/
  loops : Vector LoopSt 8 := Vector.replicate 8 {}
  /-- the security core (R571 to R581) -/
  sec : SecSt := {}
  /-- the black box (R582 to R587) -/
  box : BoxSt := {}
  /-- R336: ring contexts in order of ring ID; the fixed rings exist from bring-up step 5 -/
  rings : List RingCtx := []
  /-- R361: streams -/
  streams : List StreamSt := []
  /-- R308: scratch banks 0 to 31 -/
  banks : Vector BankSt 32 := Vector.replicate 32 {}
  /-- R322: Fetch -/
  fetch : FetchSt := {}
  /-- the capture store (R270 to R304) -/
  store : StoreSt := {}
  /-- the synthesisers and the reference conditioner (R366 to R394) -/
  synth : SynthsSt := {}
  /-- the time counter (R395 to R404) -/
  time : TimeSt := {}
  /-- R407: Ethernet ports 0 to 15 -/
  eth : Vector EthSt 16 := Vector.replicate 16 {}
  /-- R410: VITA streams by VITA_ID -/
  vita : List (Nat × VitaSt) := []
  /-- interval measurement (R418 to R435) -/
  tdc : TdcsSt := {}
  /-- Cozor Link (R465 to R503) -/
  link : LinkSt := {}
  /-- R55: inputs IN0 to IN7 -/
  inputs : Vector InSt 8 := Vector.replicate 8 {}
  /-- R88: calibrators 0 to 7 -/
  cals : Vector CalSt 8 := Vector.replicate 8 {}
  /-- R111: down-conversion engines 0 to 7 -/
  ddcEng : Vector DdcEng 8 := Vector.replicate 8 {}
  /-- R111: down-conversion channels, 16 per engine -/
  ddc : Vector DdcSt 128 := Vector.replicate 128 {}
  /-- R140: channelisers -/
  chans : List ChanSt := []
  /-- R150: spectral analyses -/
  xforms : List XformSt := []
  /-- R150: transform engines TE00 to TE71 -/
  te : Vector TeSt 72 := Vector.replicate 72 {}
  /-- R33: packs in order of handle; none before first READY -/
  packs : List PackSt := []
  /-- the rate lock (R167 to R170) -/
  fab : FabSt := {}
  /-- triggers, records and measurements (R189 to R227) -/
  events : EventsSt := {}
  /-- R228: density accumulators 0 to 7 -/
  dens : Vector DensSt 8 := Vector.replicate 8 {}
  /-- the scan-out head (R247 to R269) -/
  disp : DispSt := {}
deriving DecidableEq, Repr

/-- The device right after P: the main rails off, STAGE POWER_ON, every field at its reset value (R10, R512). -/
def State.reset : State := {}

end Sys2Proof.Machine
end

