-- ==== Sys2Proof/Machine/LinkOps.lean ====
section
/-! DEFINITION. Transactions and flits of Cozor Link as bytes, and how a bond's transmitter chooses and frames them. -/
set_option Elab.async false
namespace Sys2Proof.Machine
open Sys2Proof

/-- A bond is UP (R475 step 12). -/
def bondIsUp (b : BondSt) : Bool := decide (b.phase = .up)

/-- The bytes of a transaction (R484). -/
def txBytes (t : Tx) : Bytes :=
  let d := [BitVec.ofNat 8 (t.ttype + (if t.cpl then 16 else 0)), BitVec.ofNat 8 (t.vc + t.status * 16)] ++ le 2 t.data.length ++
    le 2 t.tag ++ le 2 t.rlen ++ le 8 t.addr ++ t.data
  padTo (ceilDiv d.length 8 * 8) d

/-- Credits that a transaction consumes (R490). -/
def txCost (t : Tx) : Nat := if t.cpl || t.ttype == 8 then 0 else ceilDiv (16 + t.data.length) 32

/-- The head of a virtual channel can go (R490). -/
def vcReady (b : BondSt) (v : Nat) : Bool :=
  match (vget b.txq v).head? with
  | some t => decide (txCost t ≤ vget b.credits v)
  | none => false

/-- The virtual channel served next (R491): a CREDIT first, then one whose transaction has waited for 16 flits, then the lowest. -/
def vcNext (b : BondSt) : Option Nat :=
  match (List.range 4).find? fun v => vcReady b v && 16 ≤ vget b.waited v with
  | some v => some v
  | none => (List.range 4).find? (vcReady b)

/-- Take the next transaction (R491). -/
def txTake (b : BondSt) : Option (Tx × BondSt) :=
  match (vget b.txq 0).find? (·.ttype == 8) with
  | some t => some (t, { b with txq := vmod b.txq 0 fun q => q.erase t })
  | none =>
    match vcNext b with
    | none => none
    | some v =>
      match vget b.txq v with
      | [] => none
      | t :: q => some (t, { b with
          txq := vmod b.txq v fun _ => q
          credits := vmod b.credits v (· - txCost t)
          waited := Vector.ofFn fun w => if w.val = v then 0 else if vcReady b w then vget b.waited w + ceilDiv (txBytes t).length 248 else vget b.waited w })

/-- Take transactions until none can go or the window of R483 is full; with the end of each in the byte stream. -/
def txDrain : Nat → BondSt → Bytes → List (Tx × Nat) → BondSt × Bytes × List (Tx × Nat)
  | 0, b, acc, ends => (b, acc, ends)
  | n + 1, b, acc, ends =>
    if 1024 ≤ b.unacked.length + acc.length / 248 then (b, acc, ends) else
    match txTake b with
    | none => (b, acc, ends)
    | some (t, b') => let acc' := acc ++ txBytes t; txDrain n b' acc' (ends ++ [(t, acc'.length)])

/-- Bytes cut into payloads of 248 bytes, the last padded with PAD (R481, R484). -/
def payloads : Nat → Bytes → List Bytes
  | 0, _ => []
  | n + 1, b => if b.isEmpty then [] else padTo 248 (b.take 248) :: payloads n (b.drop 248)

/-- Form the DATA flits that can go now (R481, R483). -/
def bondPump (cyc : Nat) (b : BondSt) : BondSt :=
  if bondIsUp b && b.txSleep == .l0 then
    let n := (b.txq.toList.map List.length).sum
    match txDrain n b [] [] with
    | (b', bytes, ends) =>
      if bytes.isEmpty then b' else
      let ps := payloads (bytes.length / 248 + 1) bytes
      let fl := ps.zipIdx.map fun (p, i) =>
        ({ fseq := b'.txSeq + BitVec.ofNat 12 i, payload := p,
           ends := (ends.filter fun e => 248 * i < e.2 && e.2 ≤ 248 * (i + 1)).map (·.1) } : Flit)
      { b' with unacked := b'.unacked ++ fl, txSeq := b'.txSeq + BitVec.ofNat 12 fl.length, idleSince := cyc,
                ackAdvance := if b'.unacked.isEmpty then cyc else b'.ackAdvance, rxAny := b'.rxAny }
  else b

/-- The 256 bytes of a DATA flit with the acknowledgement fields in force (R481). -/
def flitBytes (b : BondSt) (f : Flit) : Bytes :=
  withCrc (le 2 f.fseq.toNat ++ le 2 ((b.rxSeq - 1).toNat + (if b.rxAny then 4096 else 0)) ++ padTo 248 f.payload)

/-- Queue a transaction on a bond and send what can go. -/
def bondSend (cyc : Nat) (t : Tx) (b : BondSt) : BondSt :=
  bondPump cyc { b with txq := vmod b.txq t.vc fun q => q ++ [t] }

/-- A host address of an offset in a bond's aperture (R489). -/
def apertureAddr (b : BondSt) (off : Nat) : Option Nat :=
  (b.segs.toList.find? fun g => g.enable && g.offset ≤ off && off < g.offset + 2 ^ g.log2).map fun g => g.base + (off - g.offset)

end Sys2Proof.Machine
end

