-- ==== Sys2Proof/Machine/Ops.lean ====
section
/-! DEFINITION. Named operations that every family shares: time, free values, memory, the address map, the black-box queue, rings and the event router. -/
set_option Elab.async false
namespace Sys2Proof.Machine
open Sys2Proof

/-! ### Grade and time -/

/-- RF inputs present (R1). -/
def nInputs : Grade → Nat
  | .g480 => 4
  | _ => 8

/-- HBM3 stacks present (R1). -/
def nStacks : Grade → Nat
  | .g880x => 4
  | _ => 2

/-- Memory channels of the store (R270). -/
def nCh (g : Grade) : Nat := 16 * nStacks g

/-- First address above the store (R1, R305). -/
def storeEnd : Grade → Addr
  | .g880x => 0x001900000000
  | _ => 0x000D00000000

/-- RCB: the first ring context (R273). -/
def rcb (g : Grade) : Addr := storeEnd g - 0x4000000

/-- MBX_BASE (R447). -/
def mbxBase (g : Grade) : Addr := rcb g - 0x200000

/-- The time counter, in 2^-16 ns (R17, R395). -/
def now (s : State) : Time := s.time.counter / 2 ^ 32

/-- Microseconds since the PTP epoch. -/
def nowUs (s : State) : Nat := now s / 65536000

/-- Reference cycles in a microsecond and in a millisecond (R367). -/
def usC : Nat := 100
def msC : Nat := 100000
/-- Reference cycles in a second. -/
def secC : Nat := 100000000

/-- Cycles since a mark. -/
def since (s : State) (t : Nat) : Nat := s.cyc - t

/-- STAGE as a number (R612). -/
def stage (s : State) : Nat := s.boot.stage.toNat

/-- STAGE is READY or DEGRADED_READY. -/
def isReady (s : State) : Bool := stage s == 7 || stage s == 14

/-- Draw a value that the spec leaves undefined (log 8). -/
def draw (s : State) : Nat × State := (Config.free s.freeNo, { s with freeNo := s.freeNo + 1 })

/-! ### Memory -/

/-- An unlisted byte reads 0; the list rises strictly and lists no 0. -/
def Memory.wf : List Host.Cell → Bool
  | [] => true
  | [(_, b)] => b != 0
  | (a, b) :: (a', b') :: m => b != 0 && decide (a < a') && Memory.wf ((a', b') :: m)

/-- Read one byte. -/
def memGet : List Host.Cell → Nat → Byte
  | [], _ => 0
  | (x, b) :: m, a => if x = a then b else memGet m a

/-- Write one byte, keeping the canonical form. -/
def memSet : List Host.Cell → Nat → Byte → List Host.Cell
  | [], a, b => if b = 0 then [] else [(a, b)]
  | (x, c) :: m, a, b =>
    if a < x then (if b = 0 then (x, c) :: m else (a, b) :: (x, c) :: m)
    else if a = x then (if b = 0 then m else (a, b) :: m)
    else (x, c) :: memSet m a b

/-- Write bytes from an address. -/
def memPut (m : List Host.Cell) (a : Nat) : Bytes → List Host.Cell
  | [] => m
  | b :: bs => memPut (memSet m a b) (a + 1) bs

/-- Read n bytes from an address. -/
def memTake (m : List Host.Cell) (a : Nat) : Nat → Bytes
  | 0 => []
  | n + 1 => memGet m a :: memTake m (a + 1) n

/-- Zero the addresses of a range. -/
def memZero (m : List Host.Cell) (lo hi : Nat) : List Host.Cell := m.filter fun c => !(lo ≤ c.1 && c.1 < hi)

/-- Bytes of device memory as they stand. -/
def rawRead (s : State) (a n : Nat) : Bytes := memTake s.mem a n

/-- Write bytes of device memory. A store word written again reads cleanly (R277), as does a bank word (R309). -/
def rawWrite (a : Nat) (b : Bytes) (s : State) : State := { s with mem := memPut s.mem a b }

/-! ### The address map (R305) -/

/-- What a device address is. -/
inductive Region where
  | bank (b : Nat) (alias_ : Nat) (plain : Addr)
  | store
  | context
  | host (k : Nat) (off : Nat)
  | mirror (off : Nat)
  | unmapped
deriving DecidableEq, Repr, Inhabited

/-- Decode a device address (R305, R273); sizes are binary multiples (R16). -/
def regionOf (g : Grade) (a : Addr) : Region :=
  if a < 0x18000000 then .bank (a % 0x8000000 / 0x400000) (a / 0x8000000) (a % 0x8000000)
  else if 0x000100000000 ≤ a ∧ a < rcb g then .store
  else if rcb g ≤ a ∧ a < storeEnd g then .context
  else if 0x010000000000 ≤ a ∧ a < 0x020000000000 then .host ((a - 0x010000000000) / 0x2000000000) (a % 0x2000000000)
  else if 0x0F0000000000 ≤ a ∧ a < 0x0F0000001000 then .mirror (a % 4096)
  else .unmapped

/-- The row of R305 that holds an address; 0 for none. -/
def rowOf (g : Grade) (a : Addr) : Nat :=
  match regionOf g a with
  | .bank _ k _ => 1 + k
  | .store | .context => 4
  | .host _ _ => 5
  | .mirror _ => 6
  | .unmapped => 0

/-- A range lies within one row of R305. -/
def inOneRow (g : Grade) (a n : Nat) : Bool := rowOf g a != 0 && rowOf g a == rowOf g (a + n - 1)

/-- An address that a unit can reach: listed in R305 and, in an aperture, within an enabled segment (R306, R489). -/
def mapped (s : State) (a : Addr) : Bool :=
  match regionOf s.grade a with
  | .unmapped => false
  | .host k off => (apertureAddr (vget s.link.bond k) off).isSome
  | _ => true

/-- A range is mapped over its length. -/
def spanMapped (s : State) (a n : Nat) : Bool := mapped s a && (n == 0 || (mapped s (a + n - 1) && inOneRow s.grade a n))

/-- A DEST or SRC argument: aligned to 64 bytes and mapped over its length. -/
def spanOk (s : State) (a n : Nat) : Bool := a % 64 == 0 && spanMapped s a n

/-- The host address behind a device address. -/
def wireAddr (s : State) (a : Nat) : Nat :=
  match regionOf s.grade a with
  | .host k off => (apertureAddr (vget s.link.bond k) off).getD a
  | _ => a

/-- The request that brings n bytes of a host aperture: whole units of 32 bytes (R485). -/
def hostReadTx (s : State) (tag a n : Nat) : Tx :=
  { ttype := 3, vc := 0, tag := tag, rlen := ceilDiv (a % 32 + n) 32 * 32, addr := wireAddr s a - a % 32 }

/-- The store wakes for an access of the Kennel, ring-manager or Fetch port (R296). -/
def storeTouch (s : State) : State := { s with store := { s.store with dozing := false, lastAccess := s.cyc } }

/-- Write store bytes; a word overwritten whole reads cleanly afterwards, one written in part keeps its error (R275, R277). -/
def storeWrite (a : Nat) (b : Bytes) (s : State) : State :=
  let s := rawWrite a b (storeTouch s)
  { s with store := { s.store with badWords := s.store.badWords.filter fun w => !(a ≤ w && w + 32 ≤ a + b.length) } }

/-- Queue a transaction on bond k. -/
def linkSend (k : Nat) (t : Tx) (s : State) : State :=
  { s with link := { s.link with bond := vmod s.link.bond k (bondSend s.cyc t) } }

/-- The bond is in service. -/
def bondUp (s : State) (k : Nat) : Bool := bondIsUp (vget s.link.bond k)

/-- Write bytes to host memory through an aperture as D2H_WR of at most 4,096 bytes (R485); an unmapped offset drops its piece. -/
def hostWrite (k vc : Nat) : Nat → Nat → Bytes → State → State
  | 0, _, _, s => s
  | n + 1, off, b, s =>
    if b.isEmpty then s else
    let len := min 4096 b.length
    let s := match apertureAddr (vget s.link.bond k) off with
      | some a => linkSend k { ttype := 9, vc := vc, addr := a, data := b.take len } s
      | none => s
    hostWrite k vc n (off + len) (b.drop len) s

/-! ### The black-box queue (R584) -/

/-- Byte 20 of an entry (R583). -/
def boxStateByte (s : State) : BitVec 8 :=
  BitVec.ofNat 8 (stage s % 16 + (match s.power.state with | .active => 0 | .quiet => 16 | .standby => 32) +
    (match s.time.state with | .free => 0 | .acquiring => 64 | .locked => 128 | .holdover => 192))

/-- An entry joins the write queue, or is lost and counted (R584). -/
def boxPut (e : BoxEntry) (s : State) : State :=
  if s.box.queue.length < 256 then
    { s with box := { s.box with queue := s.box.queue ++ [e], peak := max s.box.peak (s.box.queue.length + 1) } }
  else
    { s with box := { s.box with
        lostTotal := s.box.lostTotal + 1
        lost := match s.box.lost with
          | none => some (1, e.time)
          | some (n, t) => some (n + 1, t) } }

/-- An entry of the present instant (R583). -/
def boxAt (t : Time) (origin code unit : Nat) (detail : Bytes) (s : State) : State :=
  boxPut { time := t, boot := s.boot.bootCount, stateByte := boxStateByte s, origin := BitVec.ofNat 8 origin,
           code := BitVec.ofNat 16 code, unit := BitVec.ofNat 16 unit, detail := padTo 32 detail, note := none } s

def boxNow (origin code unit : Nat) (detail : Bytes) (s : State) : State := boxAt (now s) origin code unit detail s

/-! ### Rings -/

/-- The ring manager's context of a ring. -/
def ringOf (s : State) (id : Nat) : Option RingCtx := s.rings.find? fun r => r.id == id

/-- Write a context back. -/
def ringSet (r : RingCtx) (s : State) : State := { s with rings := lmod (·.id == r.id) (fun _ => r) s.rings }

/-- INDEX of the next item of a ring's frames, where its frames count their items since RING.CREATE (R353). -/
def ringItems (s : State) (id : Nat) : Nat := ((ringOf s id).map (·.items)).getD 0

/-- n more items of a ring's frames. -/
def ringCount (id n : Nat) (s : State) : State := { s with rings := lmod (·.id == id) (fun r => { r with items := r.items + n }) s.rings }

/-- Frame rings (R341). -/
def isFrame (t : Nat) : Bool := (4 ≤ t && t ≤ 10) || t == 12 || t == 14 || t == 15

/-- SIZE (R337). -/
def ringSize (r : RingCtx) : Nat := 2 ^ r.log2

/-- Occupancy (R339). -/
def occupancy (r : RingCtx) : Nat := r.producer - r.consumer

/-- Start of the held span (R340). -/
def heldStart (r : RingCtx) : Nat := r.producer - ringSize r

/-- The bond of a ring in a host aperture is in service, or the ring lies elsewhere (R343). -/
def ringReach (s : State) (r : RingCtx) : Bool :=
  match regionOf s.grade r.base with
  | .host k _ => bondUp s k
  | _ => true

/-- The virtual channel of D2H_WR for a ring (R485). -/
def ringVc (r : RingCtx) : Nat := if r.type == 2 then 0 else if r.type == 3 then 1 else 3

/-- Write bytes at an offset of a ring's memory. -/
def ringBytesAt (r : RingCtx) (o : Nat) (x : Bytes) (s : State) : State :=
  match regionOf s.grade r.base with
  | .host k h => hostWrite k (ringVc r) (x.length / 4096 + 1) (h + o) x s
  | .store => storeWrite (r.base + o) x s
  | _ => rawWrite (r.base + o) x s

/-- Write bytes at ring positions (R338). -/
def ringWrite (r : RingCtx) (pos : Nat) (b : Bytes) (s : State) : State :=
  let off := pos % ringSize r
  let n := ringSize r - off
  ringBytesAt r 0 (b.drop n) (ringBytesAt r off (b.take n) s)

/-- Read bytes at ring positions of a ring in the device's own memory (R340). -/
def ringRead (s : State) (r : RingCtx) (pos n : Nat) : Bytes :=
  let off := pos % ringSize r
  let k := ringSize r - off
  if n ≤ k then rawRead s (r.base + off) n else rawRead s (r.base + off) k ++ rawRead s r.base (n - k)

/-- A gap descriptor (R354). -/
def gapBytes (s : State) (unit cause kind lost : Nat) (start stop : Time) (first pos : Nat) (stream : Bool) : Bytes :=
  withCrc ([0x10, 0x01] ++ le 2 unit ++ le 1 cause ++ le 1 kind ++
    le 1 (b2n stream + if s.time.state == .locked then 0 else 2) ++ [0] ++ le 8 lost ++ timeB start ++ timeB stop ++ le 8 first ++ le 8 pos ++ le 4 0)

/-- A data block with GAP_BEFORE set and its CRC made anew (R71, R344). -/
def withGapBefore (e : Ent) : Ent :=
  if e.kind == 1 then
    { e with bytes := withCrc (e.bytes.take 4 ++ [(e.bytes.getD 4 0) ||| 0x20] ++ (e.bytes.drop 5).take 55) ++ e.bytes.drop 64 }
  else e

/-- An event record of a ring (R365). -/
def ringEvent (s : State) (src : Nat) (id v : Nat) : EventRec :=
  { source := BitVec.ofNat 8 src, type := 0, unit := 0x0B00, time := now s, detail := padTo 16 (le 4 id ++ le 4 v) }

/-- A reservation found the ring full or discarded: EV_RING_FULL unless the ring was full within the last millisecond (R346). -/
def ringFullNote (s : State) (r : RingCtx) : RingCtx × List EventRec :=
  ({ r with lastFull := some s.cyc },
   match r.lastFull with
   | some c => if since s c ≥ msC then [ringEvent s 0xD1 r.id 0] else []
   | none => [ringEvent s 0xD1 r.id 0])

/-- An entry is discarded: DROPPED rises and, in a frame ring, the pending gap descriptor takes it in (R342, R344, R345). -/
def ringDrop (r : RingCtx) (e : Ent) (stopped : Bool) : RingCtx :=
  let r := { r with dropped := wrapAdd 32 r.dropped 1 }
  if isFrame r.type then
    if r.gapPending then { r with gapLost := wrapAdd 32 r.gapLost 1, gapStopped := r.gapStopped || stopped }
    else { r with gapPending := true, gapStart := e.time, gapLost := 1, gapFirst := e.index, gapStopped := stopped }
  else r

/-- OVERWRITE_OLDEST: CONSUMER passes whole entries until the reservation fits (R342). Answers the entries passed. -/
def ringPass (need : Nat) : List EntryAt → RingCtx → List EntryAt → RingCtx × List EntryAt
  | [], r, acc => (r, acc.reverse)
  | e :: es, r, acc =>
    if r.producer + need - r.consumer ≤ ringSize r then (r, acc.reverse)
    else if r.consumer < e.pos + e.len then
      ringPass need es { r with consumer := e.pos + e.len, overwritten := wrapAdd 32 r.overwritten 1, overSince := r.overSince + 1 } (e :: acc)
    else ringPass need es r acc

/-- A stream learns of the entries that it can no longer send (R359). -/
def streamLoses (id : Nat) (passed : List EntryAt) (s : State) : State :=
  { s with streams := lmod (·.ring == id) (fun st =>
      let lost := passed.filter fun e => st.sendPos < e.pos + e.len
      match lost with
      | [] => st
      | e :: _ => { st with lostFirst := match st.lostFirst with
          | none => some (e.time, e.index, lost.length)
          | some (t, i, n) => some (t, i, n + lost.length) }) s.streams }

/-- A VITA stream learns of the first entry that it can no longer send (R414). -/
def vitaLoses (id : Nat) (gone : List EntryAt) (s : State) : State :=
  { s with vita := s.vita.map fun (k, v) =>
      if numAt v.defn 4 4 % 2 ^ 20 == id && v.lostFirst.isNone then (k, { v with lostFirst := (gone.find? fun e => v.pos < e.pos + e.len).map (·.time) }) else (k, v) }

/-- EV_RING_OVERWRITE at most once per millisecond (R346). -/
def ringOverNote (s : State) (r : RingCtx) : RingCtx × List EventRec :=
  if r.overSince = 0 then (r, []) else
  match r.lastOverEv with
  | some c => if since s c < msC then (r, []) else ({ r with lastOverEv := some s.cyc, overSince := 0 }, [ringEvent s 0xD2 r.id r.overSince])
  | none => ({ r with lastOverEv := some s.cyc, overSince := 0 }, [ringEvent s 0xD2 r.id r.overSince])

/-- EV_RING_WATERMARK (R346). -/
def ringMarkNote (s : State) (r : RingCtx) : RingCtx × List EventRec :=
  if r.watermark != 0 && r.wmArmed && r.watermark * ringSize r ≤ occupancy r * 65536 then
    ({ r with wmArmed := false }, [ringEvent s 0xD0 r.id (occupancy r * 65536 / ringSize r)])
  else (r, [])

/-- WM_ARMED after CONSUMER has moved (R346), and FULL. -/
def ringFreed (s : State) (r : RingCtx) : RingCtx :=
  { r with wmArmed := r.wmArmed || (r.watermark != 0 && decide (occupancy r * 131072 < r.watermark * ringSize r)),
           full := false, lastFull := if r.full then some s.cyc else r.lastFull }

/-- A ring in a bank needs the bank to be the ring manager's and to serve (R341, R345). -/
def ringPlaceOk (s : State) (r : RingCtx) : Bool :=
  match regionOf s.grade r.base with
  | .bank b _ _ => (vget s.banks b).owner == 0x0B00 && (vget s.banks b).power == 0 && (vget s.banks b).filling.isNone
  | _ => true

/-- A ring stops (R345). -/
def ringHalt (s : State) (r : RingCtx) : RingCtx × List EventRec :=
  if r.stopped then (r, []) else ({ r with stopped := true }, [ringEvent s 0xD3 r.id 0])

/-- Append entries at PRODUCER and publish them (R339). -/
def ringAppend (r : RingCtx) : List Ent → State → RingCtx × State
  | [], s => (r, s)
  | e :: es, s =>
    let s := ringWrite r r.producer e.bytes s
    ringAppend { r with producer := r.producer + e.bytes.length,
                        entries := r.entries ++ [⟨r.producer, e.bytes.length, e.kind, e.time, e.index⟩] } es s

/-- What became of an offered entry. -/
inductive Put where
  | kept | dropped | waits
deriving DecidableEq, Repr, Inhabited

/-- The entries of a publication: the pending gap descriptor, if any, and the entry (R344, R345). -/
def ringBatch (s : State) (r : RingCtx) (e : Ent) : List Ent :=
  if isFrame r.type && r.gapPending then
    [⟨gapBytes s r.owner.toNat (if r.gapStopped then 15 else 13) 3 r.gapLost r.gapStart e.time r.gapFirst 0 false, 0x10, r.gapStart, r.gapFirst⟩,
     withGapBefore e]
  else [e]

/-- Offer an entry to a ring (R339, R342 to R346, R614). `mayWait`: the producer waits under BLOCK (R343). -/
def ringPut (mayWait : Bool) (id : Nat) (e : Ent) (s : State) : State × Put × List EventRec :=
  match ringOf s id with
  | none => (s, .dropped, [])
  | some r =>
    let (r, ev0) := if ringPlaceOk s r then (r, []) else ringHalt s r
    if r.stopped then (ringSet (ringDrop r e true) s, .dropped, ev0) else
    let batch := ringBatch s r e
    let need := (batch.map fun x => x.bytes.length).sum
    if ringSize r < e.bytes.length then (ringSet (ringDrop r e false) s, .dropped, ev0) else
    let full := !(r.producer + need - r.consumer ≤ ringSize r) || !ringReach s r
    if full && r.policy == 0 && mayWait then
      let (r, ev) := ringFullNote s { r with full := true }
      (ringSet r s, .waits, ev0 ++ ev)
    else
    let (r, passed) := if full && r.policy == 1 && ringReach s r then ringPass need r.entries r [] else (r, [])
    let (r, ev1) := if full then ringFullNote s r else (r, [])
    if !(r.producer + need - r.consumer ≤ ringSize r) || !ringReach s r then
      (ringSet (ringDrop r e false) s, .dropped, ev0 ++ ev1)
    else
    let s := streamLoses id passed s
    let (r, s) := ringAppend r batch s
    let s := vitaLoses id (r.entries.filter fun x => decide (x.pos < heldStart r)) s
    let r := { r with full := false, gapPending := false, gapLost := 0, gapStopped := false,
                      entries := r.entries.filter fun x => heldStart r ≤ x.pos }
    let (r, ev2) := ringOverNote s r
    let (r, ev3) := ringMarkNote s r
    (ringSet r s, .kept, ev0 ++ ev1 ++ ev2 ++ ev3)

/-! ### The event router -/

/-- Management-plane sources (R609). -/
def isMgmtSource (n : Nat) : Bool :=
  inRuns [(0x00, 0x00), (0x08, 0x0B), (0x2E, 0x2F), (0xD8, 0xDE), (0xE0, 0xE4), (0xE8, 0xEC), (0xF8, 0xFB)] n

/-- An event record in memory (R356). -/
def evBytes (e : EventRec) : Bytes := le 1 e.source.toNat ++ le 1 e.type.toNat ++ le 2 e.unit.toNat ++ timeB e.time ++ padTo 16 e.detail

/-- EV_EVENTS_LOST (R357). -/
def lostRec (s : State) (n : Nat) (first : Time) : EventRec :=
  { source := 0x0F, type := 0, unit := 0, time := now s, detail := le 4 n ++ timeB first }

/-- Set a source's bit of EVENT_SUMMARY (R460). -/
def summarise (src : Nat) (s : State) : State := { s with ev := { s.ev with summary := s.ev.summary ||| (1 <<< src) } }

/-- Change the event router. -/
def evMod (f : EventSt → EventSt) (s : State) : State := { s with ev := f s.ev }

/-- Event ring k takes a record now, with a report of losses before it. -/
def evRoom (s : State) (k : Nat) : Bool :=
  match ringOf s (0x80 + k) with
  | some r => !r.stopped && decide (occupancy r + (if (vget s.ev.ringLost k).count = 0 then 32 else 64) ≤ ringSize r) && ringReach s r
  | none => false

/-- Put a record into event ring k, with the ring events so far. -/
def evPut (k : Nat) (x : EventRec) (p : State × List EventRec) : State × List EventRec :=
  match ringPut false (0x80 + k) ⟨evBytes x, 0x13, x.time, 0⟩ p.1 with
  | (s, _, ev) => (s, p.2 ++ ev)

/-- The report of losses of event ring k goes first (R357). -/
def evPutLost (k : Nat) (s : State) : State × List EventRec :=
  let l := vget s.ev.ringLost k
  if l.count = 0 then (s, []) else
  let p := evPut k (lostRec s l.count l.first) (summarise 0x0F s, [])
  (evMod (fun v => { v with ringLost := vmod v.ringLost k fun _ => {} }) p.1, p.2)

/-- A full or halted event ring drops the record and notes the loss (R346, R357). -/
def evRingDrop (k : Nat) (e : EventRec) (s : State) : State × List EventRec :=
  let p := match ringOf s (0x80 + k) with
    | some r =>
      let n := ringFullNote s (ringDrop r ⟨[], 0x13, e.time, 0⟩ false)
      (ringSet n.1 s, n.2)
    | none => (s, [])
  (evMod (fun v => { v with
    ringDrops := wrapAdd 32 v.ringDrops 1
    ringLost := vmod v.ringLost k fun l => ⟨l.count + 1, if l.count = 0 then e.time else l.first⟩ }) p.1, p.2)

/-- Deliver a record to event ring k, behind the report of earlier losses (R357, R461). -/
def evToRing (k : Nat) (e : EventRec) (s : State) : State × List EventRec :=
  if evRoom s k then evPut k e (evPutLost k s) else evRingDrop k e s

/-- Send a record as an event message on bond k (R461, R485). -/
def evToBond (k : Nat) (e : EventRec) (s : State) : State :=
  let l := vget s.ev.bondLost k
  let msg := fun (x : EventRec) => ({ ttype := 7, vc := 1, data := evBytes x } : Tx)
  if bondUp s k then
    let s := if l.count = 0 then s else linkSend k (msg (lostRec s l.count l.first)) (summarise 0x0F s)
    linkSend k (msg e) { s with ev := { s.ev with bondLost := vmod s.ev.bondLost k fun _ => {} } }
  else
    { s with ev := { s.ev with bondLost := vmod s.ev.bondLost k fun l => ⟨l.count + 1, if l.count = 0 then e.time else l.first⟩ } }

/-- Deliver to event ring k, gathering the ring events. -/
def evFan (e : EventRec) (p : State × List EventRec) (k : Nat) : State × List EventRec :=
  if bitAt (vget p.1.ev.route e.source.toNat) k then ((evToRing k e p.1).1, p.2 ++ (evToRing k e p.1).2) else p

/-- Steps 3 and 4 of R460. -/
def evDeliver (e : EventRec) (s : State) : State × List EventRec :=
  let p := (List.range 16).foldl (evFan e) (summarise e.source.toNat s, [])
  ((List.range 8).foldl (fun s k => if bitAt (vget s.ev.route e.source.toNat) (16 + k) then evToBond k e s else s) p.1, p.2)

/-- A record goes at once to the device's internal consumers (step 1 of R460). -/
def evInternal (e : EventRec) (s : State) : State := evMod (fun v => { v with internal := (e :: v.internal).take 16 }) s

/-- Outside READY a record of a management-plane source is queued, or dropped where the queue is full; any other ends here (R28, R613). -/
def evHold (e : EventRec) (s : State) : State :=
  if !isMgmtSource e.source.toNat then s
  else if s.ev.queue.length < 64 then evMod (fun v => { v with queue := v.queue ++ [e] }) s
  else evMod (fun v => { v with dropped := v.dropped ++ [e] }) s

/-- Raise a record (R28, R460, R613): in READY it joins the records of the command in progress, which go out together in the order of R27. -/
def raiseRec (e : EventRec) (s : State) : State :=
  if isReady s then evMod (fun v => { v with raised := v.raised ++ [e] }) (evInternal e s) else evHold e (evInternal e s)

/-- Raise records. -/
def emit (evs : List EventRec) (s : State) : State := evs.foldl (fun s e => raiseRec e s) s

/-- Raise an event with TIME t. -/
def raiseAt (t : Time) (src type unit : Nat) (detail : Bytes) (s : State) : State :=
  raiseRec ⟨BitVec.ofNat 8 src, BitVec.ofNat 8 type, BitVec.ofNat 16 unit, t, padTo 16 detail⟩ s

/-- Raise an event with TIME now (R608). TYPE is numbered as R607 says. -/
def raise (src type unit : Nat) (detail : Bytes) (s : State) : State := raiseAt (now s) src type unit detail s

/-- The order of R27: by TIME, and by source where the times are equal. -/
def evLe (a b : EventRec) : Bool := a.time < b.time || (a.time == b.time && a.source.toNat ≤ b.source.toNat)

/-- A record among records in the order of R27, behind its equals. -/
def evInsert (e : EventRec) : List EventRec → List EventRec
  | [] => [e]
  | x :: l => if evLe x e then x :: evInsert e l else e :: x :: l

/-- Records in the order of R27; those of one source and one TIME stay as they were raised. -/
def evSort (l : List EventRec) : List EventRec := l.foldl (fun a e => evInsert e a) []

/-- Steps 2 to 4 of R460, gathering the ring events that the delivery raises. -/
def evOut (p : State × List EventRec) (e : EventRec) : State × List EventRec :=
  if bitAt p.1.ev.enable e.source.toNat then ((evDeliver e p.1).1, p.2 ++ (evDeliver e p.1).2) else p

/-- The records go out in the order of R27, and then the ring events of their delivery, until none is left. Each ring raises each of its
events once until it is consumed or a millisecond has passed (R346), so that the rounds end. -/
def evRounds : Nat → List EventRec → State → State
  | 0, _, s => s
  | n + 1, l, s =>
    if l.isEmpty then s else
    let p := (evSort l).foldl evOut (s, [])
    evRounds n p.2 (p.2.foldl (fun s e => evInternal e s) p.1)

/-- The records of the command go out. -/
def evFlush (s : State) : State := evRounds 80 s.ev.raised (evMod (fun v => { v with raised := [] }) s)

/-- t, with the records that a command raised since it began in s put out in the order of R27. -/
def settled (s t : State) : State := if t.ev.raised == s.ev.raised then t else evFlush t

/-- What a command that began in s and left t answers. -/
def settle (s t : State) : Host.Outcome State Fault Refusal := .next (settled s t)

/-- STAGE changes and EV_STAGE is raised (R612, R609). -/
def setStage (n : Nat) (s : State) : State :=
  let s := { s with boot := { s.boot with stage := BitVec.ofNat 4 n } }
  raise 0x00 0 0 (le 1 n ++ le 1 s.boot.cause.toNat ++ le 2 s.boot.causeUnit.toNat) s

/-! ### Access to memory by a unit -/

/-- The owner handle that an accessor acts as: Fetch channels act as 0x0A00 (R310). -/
def actsAs (who : Handle) : Handle := if 0x0A00 ≤ who.toNat ∧ who.toNat ≤ 0x0A20 then 0x0A00 else who

/-- What a bank does with an access. -/
inductive BankAns where
  | served | denied | notOn | held
deriving DecidableEq, Repr, Inhabited

/-- How a bank answers an accessor (R311, R312, R317). -/
def bankAns (b : BankSt) (who : Handle) : BankAns :=
  let ans := if b.power == 0 && b.filling.isNone then BankAns.served else .notOn
  if b.pendingOwner != 0xFFFF then
    (if actsAs who == b.pendingOwner then .held else .denied)
  else if b.owner != 0xFFFF && actsAs who == b.owner then ans else .denied

/-- Change bank b. -/
def bankMod (b : Nat) (f : BankSt → BankSt) (s : State) : State := { s with banks := vmod s.banks b f }

/-- Count a denial and raise EV_BANK_DENIED at most once per millisecond (R311). -/
def bankDeny (b : Nat) (who : Handle) (write : Bool) (s : State) : State :=
  let k := vget s.banks b
  let n := k.deniedSince.1 + 1
  let first := if k.deniedSince.1 = 0 then who else k.deniedSince.2
  let due := match k.deniedEvAt with | none => true | some c => decide (msC ≤ since s c)
  let s := bankMod b (fun k => { k with
    lastDenied := who, lastDeniedTime := now s
    deniedReads := if write then k.deniedReads else wrapAdd 32 k.deniedReads 1
    deniedWrites := if write then wrapAdd 32 k.deniedWrites 1 else k.deniedWrites
    deniedSince := if due then (0, 0xFFFF) else (n, first)
    deniedEvAt := if due then some s.cyc else k.deniedEvAt }) s
  if due then raise 0xA0 0 (0x0900 + b) (le 4 n ++ le 2 first.toNat) s else s

/-- Count a failed access and raise EV_BANK_ACCESS_ERROR at most once per millisecond (R317). -/
def bankFail (b : Nat) (who : Handle) (s : State) : State :=
  let k := vget s.banks b
  let due := match k.errorEvAt with | none => true | some c => decide (msC ≤ since s c)
  let n := k.errorsSince + 1
  let s := bankMod b (fun k => { k with powerErrors := wrapAdd 32 k.powerErrors 1, errorsSince := if due then 0 else n,
                                        errorEvAt := if due then some s.cyc else k.errorEvAt }) s
  if due then raise 0xA4 0 (0x0900 + b) (le 4 n ++ le 2 who.toNat) s else s

/-- Apply a write to a scratch word, plain or through an alias (R313). -/
def scratchWrite (alias_ : Nat) (a : Addr) (b : Bytes) (s : State) : State :=
  let old := rawRead s a b.length
  let new := if alias_ = 1 then List.zipWith (· ||| ·) old b else if alias_ = 2 then List.zipWith (fun o m => o &&& ~~~ m) old b else b
  let s := rawWrite a new s
  bankMod (a / 0x400000) (fun k => { k with badWords := k.badWords.filter fun w => !(alias_ == 0 && a ≤ w && w + 8 ≤ a + b.length) }) s

/-- Write by a unit to device memory, 64-byte line by line (R305, R308, R311, R313). -/
def devWrite (who : Handle) : Nat → Addr → Bytes → State → State
  | 0, _, _, s => s
  | n + 1, a, b, s =>
    if b.isEmpty then s else
    let len := min (64 - a % 64) b.length
    let d := b.take len
    let s := match regionOf s.grade a with
      | .bank k al p =>
        match bankAns (vget s.banks k) who with
        | .served => scratchWrite al p d s
        | .denied => bankDeny k who true s
        | .notOn => bankFail k who s
        | .held => bankMod k (fun x => { x with held := x.held ++ [(false, { who := who, addr := a, op := .write d })] }) s
      | .store => storeWrite a d s
      | .host k off => hostWrite k 3 1 off d s
      | _ => s
    devWrite who n (a + len) (b.drop len) s

/-- The Kennel writes a result to DEST. -/
def destWrite (a : Addr) (b : Bytes) (s : State) : State := devWrite 0x0010 (b.length / 64 + 2) a b s

/-- The context of a ring as its 64 bytes (R337). -/
def ctxBytes (r : RingCtx) : Bytes :=
  le 6 r.base ++ le 1 r.log2 ++ le 1 r.type ++ le 8 r.producer ++ le 8 r.consumer ++ le 2 r.owner.toNat ++ le 2 r.reader.toNat ++ le 1 r.policy ++
  le 1 (b2n (!r.stopped) + 2 * b2n r.stopped + 4 * b2n r.full + 8 * b2n r.gapPending + 16 * b2n r.wmArmed + 32 * b2n r.kept) ++
  le 2 r.watermark ++ le 4 r.dropped ++ le 4 r.overwritten ++ timeB r.gapStart ++ le 4 r.gapLost ++ le 8 r.gapFirst

/-- A byte of the context region (R273). -/
def ctxByte (s : State) (o : Nat) : Byte :=
  match ringOf s (o / 64) with
  | some r => (ctxBytes r).getD (o % 64) 0
  | none => 0

/-- How a bank answers the Kennel's read of a scratch address. -/
def kennelBank (s : State) (p : Nat) : BankAns := bankAns (vget s.banks (p / 0x400000)) 0x0010

/-- What a bank gives the Kennel at a scratch address: zero where it denies the access or is not ON (R311, R317); an access that a handover to
the Kennel holds up gives the word in the end (R312). -/
def kennelScratch (s : State) (p n : Nat) : Bytes :=
  (rawRead s p n).zipIdx.map fun (b, i) => match kennelBank s (p + i) with
    | .served | .held => b
    | _ => 0

/-- Memory as the Kennel reads it, but the mirror; none where it cannot be read: unmapped, uncorrectable, or not yet brought from the host (R452). -/
def kennelMem (s : State) (a n : Addr) : Option Bytes :=
  if !(mapped s a && (n == 0 || mapped s (a + n - 1))) then none else
  match regionOf s.grade a with
  | .bank _ _ p =>
    if 0x8000000 < p + n then none
    else if (List.range 32).any fun k => (vget s.banks k).badWords.any fun w => p < w + 8 && w < p + n && kennelBank s w == .served then none
    else some (kennelScratch s p n)
  | .store => if s.store.badWords.any fun w => a < w + 32 && w < a + n then none else some (rawRead s a n)
  | .context => some ((List.range n).map fun i => ctxByte s (a - rcb s.grade + i))
  | .host _ _ => if (List.range n).all fun i => s.kennel.hostData.any (·.1 == a + i) then
      some ((List.range n).map fun i => ((s.kennel.hostData.find? (·.1 == a + i)).getD (0, 0)).2) else none
  | _ => none

/-- The banks count the Kennel's reads that they deny or that find them not ON, one access for each 64-byte line (R311, R317). -/
def kennelNote (a n : Nat) (s : State) : State :=
  match regionOf s.grade a with
  | .bank _ _ p =>
    if 0x8000000 < p + n then s else
    (List.range (if n = 0 then 0 else (p + n - 1) / 64 + 1 - p / 64)).foldl (fun s i =>
      let w := p / 64 * 64 + 64 * i
      match kennelBank s w with
      | .denied => bankDeny (w / 0x400000) 0x0010 false s
      | .notOn => bankFail (w / 0x400000) 0x0010 s
      | _ => s) s
  | _ => s

end Sys2Proof.Machine
end

