-- ==== Sys2Proof/Machine/Operands.lean ====
section
/-! DEFINITION. Units and packs, and how a command reaches them: presence, state, fan-out, checks in rank order, responses. -/
set_option Elab.async false
namespace Sys2Proof.Machine
open Sys2Proof

/-! ### Units -/

/-- The kinds of units (R21). -/
inductive UK where
  | device | kennel | input | cal | ddcEng | ddc | te | eng | dens | disp | store | stack | bank | fetch | fetchCh | ringMgr
  | synth | time | tdc | eth | bond | lane | mgmt | dac | hk | loop | sec | box | pack
deriving DecidableEq, Repr, Inhabited

/-- The pack of a handle. -/
def packOf (s : State) (h : Handle) : Option PackSt := s.packs.find? fun p => p.handle == h

/-- Fixed handles as runs: first, last, kind, index of the first (R21). -/
def unitRuns : List (Nat × Nat × UK × Nat) :=
  [(0x0000, 0x0000, .device, 0), (0x0010, 0x0010, .kennel, 0), (0x0100, 0x0107, .input, 0), (0x0110, 0x0117, .cal, 0),
   (0x0200, 0x0207, .ddcEng, 0), (0x0300, 0x037F, .ddc, 0), (0x0400, 0x0447, .te, 0), (0x0500, 0x050F, .eng, 0),
   (0x0600, 0x0607, .dens, 0), (0x0700, 0x0700, .disp, 0), (0x0800, 0x0800, .store, 0), (0x0801, 0x0804, .stack, 0),
   (0x0900, 0x091F, .bank, 0), (0x0A00, 0x0A00, .fetch, 0), (0x0A01, 0x0A20, .fetchCh, 0), (0x0B00, 0x0B00, .ringMgr, 0),
   (0x0C00, 0x0C07, .synth, 0), (0x0C10, 0x0C21, .synth, 8), (0x0D00, 0x0D00, .time, 0), (0x0D10, 0x0D13, .tdc, 0),
   (0x0E00, 0x0E0F, .eth, 0), (0x0F00, 0x0F07, .bond, 0), (0x0F10, 0x0F9F, .lane, 0), (0x1000, 0x1000, .mgmt, 0),
   (0x1010, 0x101B, .dac, 0), (0x1020, 0x1020, .hk, 0), (0x1030, 0x1037, .loop, 0), (0x1100, 0x1100, .sec, 0), (0x1101, 0x1101, .box, 0)]

/-- A unit is present on a grade (R2, R4). -/
def onGrade (g : Grade) (k : UK) (i : Nat) : Bool :=
  match k with
  | .input | .cal | .ddcEng | .dens => i < nInputs g
  | .ddc => i < 16 * nInputs g
  | .stack => i < nStacks g
  | .synth => !(i == 1 && g == .g480) && !((i == 6 || i == 7) && g != .g880x)
  | _ => true

/-- The unit that a handle names: its kind and index; none where unassigned or absent (R2, R4, R21). -/
def unitOf (s : State) (h : Handle) : Option (UK × Nat) :=
  if 0x8000 ≤ h.toNat then (packOf s h).map fun p => (.pack, p.handle.toNat)
  else match unitRuns.find? fun r => r.1 ≤ h.toNat && h.toNat ≤ r.2.1 with
    | some (lo, _, k, i) => let j := h.toNat - lo + i; if onGrade s.grade k j then some (k, j) else none
    | none => none

/-- Index of a unit of a kind; 0 where it is another. -/
def idx (h : Handle) : Nat :=
  match unitRuns.find? fun r => r.1 ≤ h.toNat && h.toNat ≤ r.2.1 with
  | some (lo, _, _, i) => h.toNat - lo + i
  | none => 0

/-- A handle names a unit of a kind. -/
def isA (s : State) (k : UK) (h : Handle) : Bool := (unitOf s h).any fun u => u.1 == k

/-- Members of a pack in slot order. -/
def members (p : PackSt) : List Handle := p.slots.filterMap (·.member)

/-- Units under a handle in fan-out order, depth-first (R40). -/
def expandN (s : State) : Nat → Handle → List Handle
  | 0, h => [h]
  | n + 1, h => match packOf s h with
    | some p => (members p).flatMap (expandN s n)
    | none => [h]

/-- Units under a handle (R40). -/
def expand (s : State) (h : Handle) : List Handle := expandN s (s.packs.length + 1) h

/-- The pack and slot that hold a unit directly (R34). -/
def parentOf (s : State) (h : Handle) : Option (Handle × Nat) :=
  s.packs.findSome? fun p => (p.slots.findIdx? fun x => x.member == some h).map fun i => (p.handle, i)

/-- Packs that contain a handle at any depth. -/
def ancestorsN (s : State) : Nat → Handle → List Handle
  | 0, _ => []
  | n + 1, h => match parentOf s h with
    | some (p, _) => p :: ancestorsN s n p
    | none => []

def ancestors (s : State) (h : Handle) : List Handle := ancestorsN s (s.packs.length + 1) h

/-- The default packs (R48). -/
def isDefaultPack (h : Handle) : Bool := h.toNat ≤ 0x8007 && 0x8000 ≤ h.toNat || h == 0x80FF

/-- Plane of a fixed unit (R21). -/
def planeOfKind : UK → Nat
  | .device => 3
  | .kennel | .fetch | .fetchCh => 1
  | .mgmt | .dac | .hk | .loop | .time | .tdc | .sec | .box => 2
  | _ => 0

/-- Plane of a unit, 0xFF for a pack that has none (R35, R459). -/
def planeOf (s : State) (h : Handle) : Nat :=
  if isDefaultPack h then 0 else
  match (expand s h).filterMap (unitOf s) |>.find? (·.1 != .pack) with
  | some (k, _) => planeOfKind k
  | none => 0xFF

/-- The die of an input: 0 for IN0 to IN3, 1 for IN4 to IN7. -/
def dieOf (i : Nat) : Nat := i / 4

/-- A pack runs an analysis or a channeliser. -/
def packRuns (s : State) (h : Handle) : Bool :=
  s.xforms.any (fun x => x.pack == h && x.running) || s.chans.any (fun c => c.pack == h && c.running)

/-- A transform engine serves a pack that runs work, at any depth. -/
def teRuns (s : State) (h : Handle) : Bool := (ancestors s h).any (packRuns s)

/-- Capture ring of input i; below 0x90 none (R83). -/
def captureRing (s : State) (i : Nat) : Nat := fld (vget s.inputs i).cfg 31 12

/-- Source input of a down-conversion channel (R113, R137). -/
def ddcSource (ch : Nat) (cfg : BitVec 288) : Nat := if bitAt cfg 1 then (ch / 16) ^^^ 1 else ch / 16

/-- Source ring of an analysis (R183). -/
def xformRing (x : XformSt) : Nat := fld x.cfg 19 0

/-- Channel ch serves input i: enabled on it, or about to be, as the record that a pending restart puts in force says (R113, R131). -/
def ddcServes (s : State) (ch i : Nat) : Bool :=
  let c := vget s.ddc ch
  [c.cfg, c.cfgNext.getD c.cfg].any fun w => bitAt w 0 && ddcSource ch w == i

/-- Input i holds admitted analysis work (R113): an enabled channel, or a started analysis or channeliser on its capture ring. -/
def admittedOn (s : State) (i : Nat) : Bool :=
  ((List.range 128).any fun ch => ddcServes s ch i) ||
  (0x90 ≤ captureRing s i &&
    (s.xforms.any (fun x => x.running && xformRing x == captureRing s i) || s.chans.any (fun c => c.running && c.ring == captureRing s i)))

/-- State of a unit that is no pack, as a code of R39 (log 16): ACTIVE where the unit holds admitted work (R113, R162, R205, R246) or its
chapter says so (R324); DEGRADED and FAULT where a rule says so (R46, R104, R178, R231, R252, R289, R321, R324, R390, R432, R477, R492). -/
def unitState1 (s : State) (k : UK) (i : Nat) (h : Handle) : Nat :=
  match k with
  | .device => if stage s == 15 then 3 else if stage s == 14 then 2 else 0
  | .input =>
    if (vget s.synth.loop (dieOf i)).lock == .fault then 3 else if (vget s.cals i).fgFailed then 2 else if admittedOn s i then 1 else 0
  | .ddcEng => if (List.range 16).any fun j => bitAt (vget s.ddc (16 * i + j)).cfg 0 then 1 else 0
  | .ddc => if bitAt (vget s.ddc i).cfg 0 then 1 else 0
  | .te => let t := vget s.te i
    if t.quarantine then 4 else if t.fault then 3 else if !t.items.isEmpty || teRuns s h then 1 else 0
  | .eng => if (vget s.events.eng i).trig.toList.any (·.armed) || s.events.envs.any (·.engine.val == i) then 1 else 0
  | .dens => let d := vget s.dens i
    if d.fault then 3 else if d.running || d.occRunning then 1 else 0
  | .disp => if s.disp.train == .fail then 3 else 0
  | .store => if (List.range 4).any (fun j => onGrade s.grade .synth (4 + j) && (vget s.synth.loop (4 + j)).lock == .fault) then 3 else 0
  | .stack => if (vget s.store.stks i).failed then 3 else if (vget s.store.stks i).degraded then 2 else 0
  | .bank => if (vget s.banks i).badWords.isEmpty then 0 else 3
  | .fetchCh => match (vget s.fetch.ch i).ch with | .idle => 0 | .halted => 3 | _ => 1
  | .synth => if (vget s.synth.loop i).lock == .fault then 3 else 0
  | .tdc => if ((vget s.tdc.inp i).pairs.toList.filter (·.ok)).length < 17 then 2 else 0
  | .bond => let b := vget s.link.bond i
    if !bondIsUp b then 0 else
    if s.link.lane.toList.zipIdx.any fun (l, j) =>
      (l.state == .left || l.state == .absent) && ((fld b.cfg 4 0 == j / 8 && bitAt b.cfg (16 + j % 8)) || (fld b.cfg 9 5 == j / 8 && bitAt b.cfg (24 + j % 8))) then 2 else 0
  | _ => 0

/-- State of a unit (R39): a pack reports the state of highest rank among its members, DEGRADED with an unfilled slot (R178, R507). -/
def unitState (s : State) (h : Handle) : Nat :=
  match unitOf s h with
  | none => 0
  | some (.pack, _) =>
    let own := (s.packs.filter fun p => p.handle == h || (ancestors s p.handle).contains h).map fun p =>
      if s.kennel.faulted.contains p.handle then 3 else if p.degraded then 2 else if packRuns s p.handle then 1 else 0
    let us := (expand s h).map fun u => match unitOf s u with
      | some (k, i) => if k == .pack then 0 else if s.kennel.faulted.contains u then 3 else min 3 (unitState1 s k i u)
      | none => 0
    (own ++ us).foldl max 0
  | some (k, i) => if s.kennel.faulted.contains h then 3 else unitState1 s k i h

/-- Every pack that holds a unit, at any depth, and the unit itself, IDLE. -/
def isIdle (s : State) (h : Handle) : Bool := unitState s h == 0

/-! ### Status codes -/

def OK : Nat := 0x00
def DEFERRED : Nat := 0x01
def BUSY : Nat := 0x02
def NOT_READY : Nat := 0x03
def BAD_UNIT : Nat := 0x04
def BAD_ARG : Nat := 0x05
def REFUSED_CAPACITY : Nat := 0x06
def REFUSED_STATE : Nat := 0x07
def TIMEOUT : Nat := 0x08
def AUTH : Nat := 0x09
def FAULT : Nat := 0x0A

/-- The code enters the replay record (R446). -/
def replays (st : Nat) : Bool := st == OK || st == TIMEOUT || st == FAULT

/-! ### Responses -/

/-- Change mailbox m. -/
def mbxMod (m : Nat) (f : MailboxSt → MailboxSt) (s : State) : State := { s with kennel := { s.kennel with mbx := vmod s.kennel.mbx m f } }

/-- Commands taken from mailbox m since KENNEL_BOOT (R449, R456): what its command ring has been consumed by. -/
def mbxTaken (s : State) (m : Nat) : Nat := ((ringOf s m).map (·.consumer / 64)).getD 0

/-- A response descriptor (R456). -/
def rspBytes (op st rflags : Nat) (seq : BitVec 32) (unit : Handle) (taken : Nat) (res : Bytes) : Bytes :=
  le 2 op ++ le 1 st ++ le 1 rflags ++ le 4 seq.toNat ++ le 2 unit.toNat ++ le 2 (min 48 res.length) ++ le 4 taken ++ padTo 48 res

/-- Write a response descriptor, or hold it while the ring is full (R343, R451); RESPONSE_FULL when the ring comes to hold 64 (R463). -/
def rspPublish (m : Nat) (d : Bytes) (s : State) : State :=
  match ringOf s (0x40 + m) with
  | none => s
  | some r =>
    if !(vget s.kennel.mbx m).held.isEmpty || ringSize r < occupancy r + 64 then mbxMod m (fun x => { x with held := x.held ++ [d] }) s
    else
      let p := ringPut true (0x40 + m) ⟨d, 0, now s, 0⟩ s
      let s := emit p.2.2 p.1
      if occupancy r + 64 == ringSize r then raise 0xF0 3 0x0010 (le 1 m ++ [0, 0, 0] ++ (d.drop 4).take 4 ++ d.take 2) s else s

/-- The bank of a path (R437). -/
def bankOf (s : State) : WinPath → BankedSt
  | .cozor => s.junction.cozor
  | .smbus => s.junction.smbus
  | .kennel => s.junction.kennel

/-- Change the bank of a path. -/
def bankedMod (p : WinPath) (f : BankedSt → BankedSt) (s : State) : State :=
  match p with
  | .cozor => { s with junction := { s.junction with cozor := f s.junction.cozor } }
  | .smbus => { s with junction := { s.junction with smbus := f s.junction.smbus } }
  | .kennel => { s with junction := { s.junction with kennel := f s.junction.kennel } }

/-- Change the Kennel. -/
def kennelMod (f : KennelSt → KennelSt) (s : State) : State := { s with kennel := f s.kennel }

/-- A REPLAY entry is due: none within the last second from this mailbox (R520). -/
def replayDue (s : State) (m : Nat) : Bool :=
  match (vget s.kennel.mbx m).lastReplayEntry with
  | none => true
  | some c => decide (secC ≤ since s c)

/-- A replay of R453 is counted, with a REPLAY entry at most once per second per mailbox (R520, R586). -/
def replayNote (m op : Nat) (seq : BitVec 32) (unit : Handle) (s : State) : State :=
  let s := kennelMod (fun k => { k with replays := wrapAdd 32 k.replays 1 }) s
  if replayDue s m then
    mbxMod m (fun x => { x with lastReplayEntry := some s.cyc, replaysQuiet := 0 })
      (boxNow 3 0x0301 unit.toNat (le 1 m ++ [0] ++ le 2 op ++ le 4 seq.toNat ++ le 4 (vget s.kennel.mbx m).replaysQuiet) s)
  else mbxMod m (fun x => { x with replaysQuiet := x.replaysQuiet + 1 }) s

/-- The registers of a request stand in the bank of a path (R440, R441). -/
def bankLoad (p : WinPath) (op : Nat) (c : Cmd) (serving : Bool) (fwd : Option (Fin 64)) (s : State) : State :=
  bankedMod p (fun b => { b with
    opcode := BitVec.ofNat 16 op, unit := c.unit, seq := c.seq, len := BitVec.ofNat 6 (min 48 c.args.length)
    args := Vector.ofFn fun i => BitVec.ofNat 32 (numAt c.args (4 * i.val) 4), busy := true, serving := serving, fwd := fwd }) s

/-- The first mailbox command that waits for the Kennel's bank stands in it, with MJ_BUSY 1, once the bank is free (R29, R441). -/
def forwardShow (s : State) : State :=
  match s.kennel.forwards with
  | (op, c) :: _ => match c.path with
    | .mailbox m => if s.junction.kennel.busy then s else bankLoad .kennel op c false (some m) s
    | .junction _ => s
  | [] => s

/-- The Kennel's bank lets go of a forwarded command that has completed, and takes the next (R29, R441). -/
def forwardDone (m : Fin 64) (seq : BitVec 32) (st : Nat) (res : Bytes) (s : State) : State :=
  if s.junction.kennel.fwd == some m && s.junction.kennel.seq == seq then
    forwardShow (bankedMod .kennel (fun b => { b with
      status := BitVec.ofNat 8 st, busy := false, done := true, replayed := false, rseq := seq, result := res.take 48, serving := false, fwd := none }) s)
  else s

/-- The command that a SEQ names in a mailbox, among those in progress. -/
def inProg (s : State) (m : Fin 64) (seq : BitVec 32) : Option InProgress := (vget s.kennel.mbx m).inProgress.find? fun x => x.seq == seq && !x.duplicate

/-- The command leaves the mailbox's list, for the replay record where its code is marked (R446, R453). -/
def mbxClose (m : Fin 64) (seq : BitVec 32) (op : Nat) (asked unit : Handle) (st : Nat) (res : Bytes) (s : State) : State :=
  mbxMod m (fun x => { x with
    inProgress := x.inProgress.filter fun y => y.seq != seq
    replay := if replays st then (⟨seq, BitVec.ofNat 16 op, asked, BitVec.ofNat 8 st, unit, res⟩ :: x.replay).take 64 else x.replay }) s

/-- Change a pack. -/
def packMod (h : Handle) (f : PackSt → PackSt) (s : State) : State := { s with packs := lmod (·.handle == h) f s.packs }

/-- The member of a pack that its state is reported for: one that a caller names, or the first whose own state it is. -/
def packCause (s : State) (named : Option Nat) (h : Handle) (n : Nat) : Nat :=
  named.getD (((expand s h).find? fun u => unitState s u == n).getD ((expand s h).headD h)).toNat

/-- EV_PACK_STATE for P0 to P7 whose state has changed (R47). -/
def packWatch (named : Option Nat) (s : State) : State :=
  (List.range 8).foldl (fun s k =>
    let h := BitVec.ofNat 16 (0x8000 + k)
    match packOf s h with
    | none => s
    | some p =>
      let n := unitState s h
      if n = p.lastState then s else
      raise (0x60 + k) 0 (0x8000 + k) (le 1 n ++ le 1 p.lastState ++ le 2 (packCause s named h n)) (packMod h (fun p => { p with lastState := n }) s)) s

/-- The end of a re-initialisation: EV_UNIT (R609). -/
def reinitEnd (op : Nat) (asked : Handle) (seq : BitVec 32) (before st : Nat) (s : State) : State :=
  if op = 0x0101 && replays st then
    raise 0xF1 (if st = TIMEOUT then 2 else 1) asked.toNat (le 1 before ++ le 3 0 ++ le 4 seq.toNat) s
  else s

/-- The final response of a mailbox command, and again for each repetition of it that waits (R453, R456). -/
def finishMbx (m : Fin 64) (seq : BitVec 32) (op : Nat) (asked unit : Handle) (st : Nat) (res : Bytes) (s : State) : State :=
  let own := inProg s m seq
  let dups := (vget s.kennel.mbx m).inProgress.filter fun x => x.seq == seq && x.duplicate
  let taken := (own.map (·.taken)).getD (mbxTaken s m)
  let s := mbxClose m seq op asked unit st res (forwardDone m seq st res s)
  let s := reinitEnd op asked seq ((own.map (·.before)).getD 0) st s
  let s := rspPublish m (rspBytes op st 0 seq unit taken res) s
  dups.foldl (fun s d => replayNote m op seq unit (rspPublish m (rspBytes op st 2 seq unit d.taken res) s)) s

/-- The final response of a command: into the mailbox's response ring with the replay record (R453, R456), or into the junction bank (R440, R442). -/
def finish (path : Path) (seq : BitVec 32) (op : Nat) (asked unit : Handle) (st : Nat) (res : Bytes) (s : State) : State :=
  match path with
  | .mailbox m => finishMbx m seq op asked unit st res s
  | .junction p =>
    bankedMod p (fun b => { b with
      status := BitVec.ofNat 8 st, busy := false, done := true, replayed := false, rseq := seq, result := res.take 48, serving := false
      last := if replays st && p != .kennel then some ⟨seq, BitVec.ofNat 16 op, asked, BitVec.ofNat 8 st, unit, res.take 48⟩ else b.last }) s

/-- A command goes through the junction: to a management-plane unit, or one of the two device commands that concern the management plane,
DEV.RESET and DEV.STATUS, which reads STAGE and BOOT_COUNT there (R22, R441; which of them do is read from the verbs, log 65). -/
def viaJunction (s : State) (op : Nat) (c : Cmd) : Bool := planeOf s c.unit == 2 || (c.unit == 0 && (op == 0x1F01 || op == 0x1F04))

/-- The Kennel forwards such a mailbox command through its own bank (R22, R441). -/
def forwardLoad (m : Fin 64) (c : Cmd) (op : Nat) (s : State) : State :=
  if viaJunction s op c then bankLoad .kennel op c true (some m) s else s

/-- A command starts on n members (R42, R454). -/
def begin_ (c : Cmd) (op n : Nat) (s : State) : State :=
  match c.path with
  | .mailbox m => forwardLoad m c op <| mbxMod m (fun x =>
      if x.inProgress.any fun y => y.seq == c.seq && !y.duplicate then
        { x with inProgress := lmod (fun y => y.seq == c.seq && !y.duplicate) (fun y => { y with remaining := n, unit := c.unit, worst := (0, c.unit) }) x.inProgress }
      else { x with inProgress := x.inProgress ++ [⟨c.seq, BitVec.ofNat 16 op, c.unit, s.cyc, false, false, n, (0, c.unit), 0, mbxTaken s m, 0⟩] }) s
  | .junction p => bankedMod p (fun b => { b with
      opcode := BitVec.ofNat 16 op, unit := c.unit, seq := c.seq, busy := true, serving := true, waiting := (n, 0, c.unit) }) s

/-- Position of a member in the fan-out order of a pack (R40); the pack itself comes last. -/
def fanPos (s : State) (p u : Handle) : Nat := ((expand s p).findIdx? (· == u)).getD (expand s p).length

/-- The highest-ranked status of a fan-out with one member's more: of equal ones the member that stands first in fan-out order (R42). -/
def worse (s : State) (p : Handle) (w : Nat × Handle) (st : Nat) (u : Handle) : Nat × Handle :=
  if w.1 < st || (w.1 == st && decide (fanPos s p u < fanPos s p w.2)) then (st, u) else w

/-- One member of a command has ended with a status; after the last the final response follows (R42). -/
def complete (c : Cmd) (op st : Nat) (res : Bytes) (s : State) : State :=
  let step := fun (p : Handle) (rem : Nat) (w : Nat × Handle) => (rem - 1, worse s p w st c.unit)
  match c.path with
  | .mailbox m =>
    match (vget s.kennel.mbx m).inProgress.find? fun y => y.seq == c.seq && y.opcode.toNat == op && !y.duplicate with
    | none => s
    | some y =>
      let (n, w) := step y.unit y.remaining y.worst
      if n = 0 then finish c.path c.seq op y.unit (if w.1 = 0 then y.unit else w.2) w.1 (if y.unit == c.unit then res else []) s
      else mbxMod m (fun x => { x with inProgress := lmod (fun z => z.seq == c.seq && !z.duplicate) (fun z => { z with remaining := n, worst := w }) x.inProgress }) s
  | .junction p =>
    let b := bankOf s p
    if !b.serving || b.seq != c.seq then s else
    let (n, w) := step b.unit b.waiting.1 b.waiting.2
    if n = 0 then finish c.path c.seq op b.unit (if w.1 = 0 then b.unit else w.2) w.1 (if b.unit == c.unit then res else []) s
    else bankedMod p (fun b => { b with waiting := (n, w) }) s

/-- Complete the command of an optional wait. -/
def completeO (c : Option Cmd) (op st : Nat) (res : Bytes) (s : State) : State :=
  match c with
  | some c => complete c op st res s
  | none => s

/-! ### Verbs -/

/-- A condition of a verb's refusal column: whether it holds, its code and its payload. -/
abbrev Cond := Bool × Nat × Bytes

/-- A verb: its opcode, whether it takes a pack as one unit, the units it addresses, its refusals in the order of the
column, and its effect on one unit, with the answer, or none while the answer waits. -/
structure Verb where
  op : Nat
  whole : Bool := false
  /-- the pack itself follows its members -/
  pack : Bool := false
  fits : State → Handle → Bool
  checks : Cmd → State → List Cond := fun _ _ => []
  act : Cmd → State → State × Option (Nat × Bytes)
  /-- what an accepted command does once, before its members -/
  start : Cmd → State → State := fun _ s => s

/-- The refusal of highest rank; the first of its code in the column (R615). -/
def worstCond (l : List Cond) : Nat × Bytes :=
  l.foldl (fun w c => if c.1 && w.1 < c.2.1 then c.2 else w) (0, [])

/-- Opcodes that the junction takes (R441). -/
def junctionOp (op : Nat) : Bool := op == 0x1F01 || op / 256 == 0x17 || op / 256 == 0x19 || op / 256 == 0x1A || op / 256 == 0x1B

/-- A Cozor window transaction can arrive: the main rails are up and a bond is UP (R509). -/
def cozorUp (s : State) : Bool := s.boot.mainOn && (List.range 8).any (bondUp s)

/-- A path answers at the present STAGE (R30, R436, R451, R509). -/
def pathOpen (s : State) : Path → Bool
  | .mailbox _ => isReady s
  | .junction .smbus => stage s != 0
  | .junction .cozor => stage s != 0 && cozorUp s
  | .junction .kennel => stage s != 0 && s.boot.mainOn

/-- What a path refuses before the verb is looked at (R441, R509): none to go on. -/
def pathRefusal (s : State) (op : Nat) : Path → Option Nat
  | .mailbox _ => none
  | .junction p =>
    if p != .kennel && !junctionOp op then some BAD_ARG
    else if stage s == 1 && op / 256 != 0x1B then some NOT_READY
    else none

/-- A command can be acted on: its path answers, or its request stands in the junction; the junction serves one at a time (R29). -/
def cmdOpen (s : State) : Path → Bool
  | .mailbox m => pathOpen s (.mailbox m)
  | .junction p => (pathOpen s (.junction p) || (stage s != 0 && (bankOf s p).busy)) &&
      !(s.junction.cozor.serving || s.junction.smbus.serving || s.junction.kennel.serving)

/-- A request stands in the junction (R29). -/
def junctionBusy (s : State) : Bool :=
  s.junction.cozor.busy || s.junction.smbus.busy || s.junction.kennel.busy || !s.kennel.forwards.isEmpty

/-- A mailbox command that goes through the junction has to wait for it (R22, R29, R441). -/
def mustForward (s : State) (op : Nat) (c : Cmd) : Bool :=
  match c.path with
  | .mailbox m => pathOpen s (.mailbox m) && viaJunction s op c && junctionBusy s
  | .junction _ => false

/-- It joins those that wait for the Kennel's bank (R441), in progress from now on. -/
def forward (c : Cmd) (op : Nat) (s : State) : State :=
  match c.path with
  | .mailbox m =>
    let s := forwardShow { s with kennel := { s.kennel with forwards := s.kennel.forwards ++ [(op, c)] } }
    if (vget s.kennel.mbx m).inProgress.any fun y => y.seq == c.seq && !y.duplicate then s
    else mbxMod m (fun x => { x with inProgress := x.inProgress ++ [⟨c.seq, BitVec.ofNat 16 op, c.unit, s.cyc, false, false, 1, (0, c.unit), 0, mbxTaken s m, 0⟩] }) s
  | .junction _ => s

/-- A junction request that finds another in service waits in its bank (R29), unless the bank has a request already (R440). -/
def junctionWaits (s : State) (c : Cmd) : Option WinPath :=
  match c.path with
  | .mailbox _ => none
  | .junction p =>
    if pathOpen s (.junction p) && !(bankOf s p).busy && (s.junction.cozor.serving || s.junction.smbus.serving || s.junction.kennel.serving) then some p else none

/-! ### Commands that wait for a pack (R43, R45, R181) -/

/-- The units that a command touches: the one that it names, and those that it holds. -/
def touches (s : State) (h : Handle) : List Handle := h :: expand s h

/-- The verb of an opcode acts on the members of a pack, and not on the pack as one unit. -/
def fansOut (op : Nat) : Bool := !([0x0102, 0x0103].contains op || (op / 256 == 2 && op != 0x0207) || op / 256 == 6 || op / 256 == 7)

/-- A fan-out that has begun and not ended, among the commands in progress of a mailbox. -/
def fanRuns (s : State) (m : Fin 64) (y : InProgress) : Bool :=
  !y.duplicate && (packOf s y.unit).isSome && fansOut y.opcode.toNat && !((vget s.kennel.mbx m).fenced.any fun f => f.2.1.seq == y.seq) &&
  !(s.kennel.forwards.any fun f => f.2.path == .mailbox m && f.2.seq == y.seq)

/-- A fan-out in progress covers a unit of the command (R43). -/
def fanCovers (s : State) (c : Cmd) : Bool :=
  (fins 64).any fun m => (vget s.kennel.mbx m).inProgress.any fun y =>
    fanRuns s m y && !(c.path == .mailbox m && c.seq == y.seq) && (touches s y.unit).any fun u => (touches s c.unit).contains u

/-- Spectra or steps of an analysis or a channeliser on a pack are still to be recomputed. -/
def redoes (s : State) (p : Handle) : Bool :=
  (s.xforms.any fun x => x.pack == p && (!x.redo.isEmpty || s.te.toList.any fun t => t.items.any fun i => i.redo && i.kind == .xform && i.id == x.id)) ||
  s.chans.any fun x => x.pack == p && (!x.redo.isEmpty || s.te.toList.any fun t => t.items.any fun i => i.redo && i.kind == .chan && i.id == x.id)

/-- No replacement of R176 is under way in a pack, at any depth. -/
def packSettled (s : State) (p : Handle) : Bool :=
  (s.packs.filter fun q => q.handle == p || (ancestors s q.handle).contains p).all fun q => q.slots.all (·.promote.isNone) && !redoes s q.handle

/-- A mailbox command has to wait for the end of a fan-out that covers it (R43), or, addressed to a pack, for the end of a replacement in
it (R45, R181); UNIT.REINIT waits for that in its own way (R181). -/
def mustHold (s : State) (op : Nat) (c : Cmd) : Bool :=
  match c.path with
  | .mailbox m => pathOpen s (.mailbox m) && (fanCovers s c || (op != 0x0101 && (packOf s c.unit).isSome && !packSettled s c.unit))
  | .junction _ => false

/-- The units that a verb's command addresses, in order (R40). -/
def verbUnits (v : Verb) (c : Cmd) (s : State) : List Handle :=
  if v.whole || (unitOf s c.unit).isNone then [c.unit]
  else expand s c.unit ++ (if v.pack && isA s .pack c.unit then [c.unit] else [])

/-- What stands against the command at one unit (R446, R458, R615). -/
def judge (v : Verb) (c : Cmd) (s : State) (u : Handle) : (Nat × Bytes) × Handle :=
  if (unitOf s u).isSome && v.fits s u then (worstCond (v.checks { c with unit := u } s), u) else ((BAD_UNIT, []), u)

/-- The highest-ranked refusal among the units, and the first unit that meets it (R42). -/
def worstFound (c : Cmd) (l : List ((Nat × Bytes) × Handle)) : (Nat × Bytes) × Handle :=
  l.foldl (fun w f => if w.1.1 < f.1.1 then f else w) ((0, []), c.unit)

/-- A verb acts on one unit and answers, or leaves its answer for later. -/
def actOn (v : Verb) (c : Cmd) (s : State) (u : Handle) : State :=
  match v.act { c with unit := u } s with
  | (s, some (st, res)) => complete { c with unit := u } v.op st res s
  | (s, none) => s

/-- Run a verb (R40 to R43, R446, R458, R615). Every member of a fan-out is judged by itself, against the state before the command: R41 does not
say whether members that pass a limit only together are refused (DESIGN CHOICE, log 65). -/
def runVerbNow (v : Verb) (c : Cmd) (s : State) : State :=
  if !cmdOpen s c.path then s else
  match pathRefusal s v.op c.path with
  | some st => finish c.path c.seq v.op c.unit c.unit st [] (begin_ c v.op 1 s)
  | none =>
    let us := verbUnits v c s
    let worst := worstFound c (us.map (judge v c s))
    if worst.1.1 != 0 then
      finish c.path c.seq v.op c.unit worst.2 worst.1.1 (if worst.2 == c.unit then worst.1.2 else []) (begin_ c v.op 1 s)
    else if us.isEmpty then finish c.path c.seq v.op c.unit c.unit OK [] (v.start c (begin_ c v.op 1 s))
    else us.foldl (actOn v c) (v.start c (begin_ c v.op us.length s))

/-! ### Host memory that a verb reads (R452, R486) -/

/-- Bytes that a slot image spans (R574). -/
def slotSpan (h : Bytes) : Nat := (List.range 3).foldl (fun m i => max m (numAt h (8 * i + 8) 4 + numAt h (8 * i + 12) 4)) 64

/-- The ranges that a verb reads at its SRC argument. -/
def srcRanges (s : State) (op : Nat) (c : Cmd) : List (Nat × Nat) :=
  if op = 0x0702 then [(argN c 4 6, 4 * ((s.xforms.find? fun x => x.id == argN c 0 2 && x.pack == c.unit).map fun x => 2 ^ fld x.cfg 28 24).getD 0)]
  else if op = 0x0802 then [(argN c 4 6, 8 * argN c 2 2)]
  else if op = 0x0B02 then [(argN c 0 6, 1024)]
  else if op = 0x0D05 && argN c 0 1 % 2 = 1 then [(argN c 16 6, argN c 8 2)]
  else if op = 0x1308 then [(argN c 0 6, 16 * argN c 6 1)]
  else if op = 0x1802 then [(argN c 0 6, 4 * argN c 6 1)]
  else if op = 0x1C03 then
    (argN c 0 6, 64) :: (match kennelMem s (argN c 0 6) 64 with | some h => [(argN c 0 6, min 0x2000000 (slotSpan h))] | none => [])
  else if op = 0x1C05 then [(argN c 0 6, 160)]
  else if op = 0x1C06 && argN c 0 1 = 1 then [(argN c 8 6, 160)]
  else []

/-- A range cut at 4 KB boundaries. -/
def cuts : Nat → Nat → Nat → List (Nat × Nat)
  | 0, _, _ => []
  | k + 1, a, n => if n = 0 then [] else (a, min n (4096 - a % 4096)) :: cuts k (a + min n (4096 - a % 4096)) (n - min n (4096 - a % 4096))

/-- The pieces of ranges in host apertures whose bytes the Kennel has not read, nor failed to read. -/
def hostMissing (s : State) (rs : List (Nat × Nat)) : List (Nat × Nat) :=
  rs.flatMap fun r => match regionOf s.grade r.1 with
    | .host _ _ =>
      if !(mapped s r.1 && (r.2 == 0 || mapped s (r.1 + r.2 - 1))) then [] else
      (cuts (r.2 / 4096 + 2) r.1 r.2).filter fun p => mapped s p.1 &&
        !(s.kennel.hostFailed.contains p.1 || (s.kennel.hostData.any (·.1 == p.1) && s.kennel.hostData.any (·.1 == p.1 + p.2 - 1)))
    | _ => []

/-- Read a piece of host memory (R485, R486), once. -/
def hostAskPiece (p : Nat × Nat) (s : State) : State :=
  match regionOf s.grade p.1 with
  | .host k off =>
    let b := vget s.link.bond k
    if (apertureAddr b off).isNone || b.reads.any fun r => r.fetch.isNone && r.addr == p.1 && r.len == p.2 then s else
    let tag := b.nextTag
    let s := linkSend k (hostReadTx s tag p.1 p.2) s
    { s with link := { s.link with bond := vmod s.link.bond k fun b => { b with
        nextTag := tag % 65535 + 1, reads := b.reads ++ [{ tag := tag, addr := p.1, len := p.2, since := s.cyc, fetch := none }] } } }
  | _ => s

/-- Read what is missing of ranges. -/
def hostAskAll (rs : List (Nat × Nat)) (s : State) : State := (hostMissing s rs).foldl (fun s p => hostAskPiece p s) s

/-- Let go of what was read for a command. -/
def hostPurge (rs : List (Nat × Nat)) (s : State) : State :=
  if rs.isEmpty then s else
  let inside := fun a => rs.any fun r => r.1 ≤ a && a < r.1 + r.2
  { s with kennel := { s.kennel with hostData := s.kennel.hostData.filter fun d => !inside d.1, hostFailed := s.kennel.hostFailed.filter fun a => !inside a } }

/-- A mailbox command whose SRC lies in host memory that has still to be read. -/
def awaitsHost (s : State) (op : Nat) (c : Cmd) : Bool :=
  match c.path with
  | .mailbox m => pathOpen s (.mailbox m) && !(hostMissing s (srcRanges s op c)).isEmpty
  | .junction _ => false

/-- A command that cannot start yet is in progress, and starts in the order of its mailbox. -/
def hold (c : Cmd) (op : Nat) (s : State) : State :=
  match c.path with
  | .mailbox m => mbxMod m (fun x => { x with
      fenced := x.fenced ++ [(op, c, false, s.cyc, mbxTaken s m)]
      inProgress := if x.inProgress.any fun y => y.seq == c.seq && !y.duplicate then x.inProgress
        else x.inProgress ++ [⟨c.seq, BitVec.ofNat 16 op, c.unit, s.cyc, false, false, 1, (0, c.unit), 0, mbxTaken s m, 0⟩] }) s
  | .junction _ => s

/-- A command that reads host memory starts once its bytes are there. -/
def hostHold (c : Cmd) (op : Nat) (s : State) : State := hostAskAll (srcRanges s op c) (hold c op s)

/-- Run a verb with its host bytes at hand, which it then lets go. -/
def runVerbHeld (v : Verb) (c : Cmd) (s : State) : State := hostPurge (srcRanges s v.op c) (runVerbNow v c s)

/-- Run a verb; or read its SRC from the host first (R486), let it wait for a pack (R43, R45), forward it where the junction is taken (R29,
R441), or let it wait in its junction bank (R29). No combination of modes is itself a refusal (R593). -/
def runVerb (v : Verb) (c : Cmd) (s : State) : State :=
  if awaitsHost s v.op c then hostHold c v.op s
  else if mustHold s v.op c then hold c v.op s
  else if mustForward s v.op c then forward c v.op s
  else match junctionWaits s c with
    | some p => bankLoad p v.op c false none s
    | none => runVerbHeld v c s

/-- Answer OK with no payload. -/
def ok (s : State) : State × Option (Nat × Bytes) := (s, some (OK, []))

/-- Answer OK with a payload. -/
def okWith (s : State) (res : Bytes) : State × Option (Nat × Bytes) := (s, some (OK, res))

/-- The answer follows later. -/
def later (s : State) : State × Option (Nat × Bytes) := (s, none)

/-- Answer a code with no payload. -/
def answer (s : State) (st : Nat) : State × Option (Nat × Bytes) := (s, some (st, []))

/-- Refusals by code. -/
def badArg (b : Bool) : Cond := (b, BAD_ARG, [])
def badState (b : Bool) : Cond := (b, REFUSED_STATE, [])
def busy (b : Bool) : Cond := (b, BUSY, [])
def notReady (b : Bool) : Cond := (b, NOT_READY, [])
def noRoom (b : Bool) (payload : Bytes) : Cond := (b, REFUSED_CAPACITY, payload)

/-- A configuration names a ring that carries KEPT (R362). -/
def keptCond (s : State) (ids : List Nat) : Cond := badState (ids.any fun i => (ringOf s i).any (·.kept))

/-- A command with one argument byte set: a row of the table that stands for one MODE, PART, STATE or ACTION of a verb. -/
def withByte (c : Cmd) (i v : Nat) : Cmd := { c with args := (padTo (max c.args.length (i + 1)) c.args).set i (BitVec.ofNat 8 v) }

/-- Bits of a word that must be 0 are set. -/
def anySet {n : Nat} (w : BitVec n) (runs : List (Nat × Nat)) : Bool := runs.any fun r => fld w r.1 r.2 != 0

end Sys2Proof.Machine
end

