-- ==== Sys2Proof/Machine/Flags.lean ====
section
/-! DEFINITION. The status words that software reads: STATUS and its flags, the control window, its latches and its writes. -/
set_option Elab.async false
namespace Sys2Proof.Machine
open Sys2Proof

/-- PART_ID (R436). -/
def partId : Grade → Nat
  | .g480 => 0x7480
  | .g880 => 0x7880
  | .g880x => 0x7889

/-- DEVICE_STATUS (R436): FAULT at STAGE FAULT, OK at READY or DEGRADED_READY, NOT_READY otherwise. -/
def deviceStatus (s : State) : Nat := if stage s = 15 then FAULT else if isReady s then OK else NOT_READY

/-- Every fixed handle that is present. -/
def fixedHandles (s : State) : List Handle :=
  unitRuns.flatMap fun r => ((span r.1 (r.2.1 + 1)).map (BitVec.ofNat 16)).filter fun h => (unitOf s h).isSome

/-- DEGRADED of STATUS: STAGE is DEGRADED_READY or a unit reports DEGRADED (R436). -/
def anyDegraded (s : State) : Bool :=
  stage s == 14 || (fixedHandles s ++ s.packs.map (·.handle)).any fun h => h != 0 && unitState s h == 2

/-- A supervisor warning is in force (R436, R529). -/
def supplyWarn (s : State) : Bool := s.power.vinMain.dip.isSome || s.power.vinAux.dip.isSome

/-- STATUS (R436). -/
def statusWord (s : State) : Nat :=
  deviceStatus s + b2n (anyDegraded s) * 0x100 + b2n s.boot.mainOn * 0x200 + b2n (s.ev.summary != 0) * 0x400 + b2n s.boot.boxNew * 0x800 +
  b2n s.power.thermalWarn * 0x1000 + b2n (supplyWarn s) * 0x2000 + b2n s.boot.storeKept * 0x4000 + b2n s.sec.unlocked * 0x8000

/-- Index of the entry with a SEQ (R582). -/
def boxIndex (seq : Nat) : Nat := if seq < 1024 then seq else 1024 + (seq - 1024) % 130048

/-- The entry at an index; an index never written reads 0. -/
def boxEntryAt (s : State) (i : Nat) : Bytes := ((s.box.entries.find? (·.1 == i)).map (·.2)).getD (List.replicate 64 0)

/-- Kennel-hosted offsets (R436). -/
def kennelHosted (off : Nat) : Bool := 0x040 ≤ off && off < 0x188

/-- A path reaches an offset (R436, R438, R509). -/
def winOpen (s : State) (p : WinPath) (off : Nat) : Bool :=
  pathOpen s (.junction p) && (!kennelHosted off || (isReady s && p != .smbus))

/-- Word i of a long field. -/
def wordAt {n : Nat} (w : BitVec n) (i : Nat) : Nat := (w.toNat >>> (32 * i)) % 2 ^ 32

/-- The registers of a junction bank (R440). -/
def junctionWord (b : BankedSt) (off : Nat) : Nat :=
  if off = 0x200 then b.opcode.toNat + b.unit.toNat * 65536
  else if off = 0x204 then b.seq.toNat
  else if off = 0x208 then b.len.toNat
  else if 0x210 ≤ off ∧ off < 0x240 then (vget b.args ((off - 0x210) / 4)).toNat
  else if off = 0x240 then b.status.toNat + b2n b.busy * 0x100 + b2n b.done * 0x200 + b2n b.replayed * 0x400 + b.result.length % 64 * 65536
  else if off = 0x244 then b.rseq.toNat
  else if 0x250 ≤ off ∧ off < 0x280 then numAt b.result (off - 0x250) 4
  else 0

/-- What the window holds at an offset, without any effect of the read (R436, R440, R444, R449). -/
def winWord (s : State) (p : WinPath) (off : Nat) : Nat :=
  if !winOpen s p off then 0 else
  let b := bankOf s p
  if off = 0x000 then 0x0F1A + partId s.grade * 65536
  else if off = 0x004 then s.sec.otp.stepping.toNat
  else if off = 0x008 then s.boot.mgmtFwVersion.toNat
  else if off = 0x00C then s.boot.xinumVersion.toNat
  else if off = 0x010 then wordAt s.sec.otp.serial 0
  else if off = 0x014 then wordAt s.sec.otp.serial 1
  else if off = 0x020 then stage s + s.boot.lastReset.toNat * 16
  else if off = 0x024 then statusWord s
  else if off = 0x028 then s.boot.causeUnit.toNat + s.boot.cause.toNat * 0x10000 + s.boot.causeStage.toNat * 0x1000000
  else if off = 0x030 then s.boot.bootCount.toNat
  else if 0x040 ≤ off ∧ off < 0x060 then wordAt s.ev.summary ((off - 0x040) / 4)
  else if 0x060 ≤ off ∧ off < 0x080 then wordAt s.ev.enable ((off - 0x060) / 4)
  else if 0x080 ≤ off ∧ off < 0x180 then
    let m := (off - 0x080) / 4
    mbxTaken s m % 65536 + (((ringOf s (0x40 + m)).map (·.producer / 64)).getD 0 % 65536) * 65536
  else if off = 0x180 then mbxBase s.grade % 2 ^ 32
  else if off = 0x184 then mbxBase s.grade / 2 ^ 32
  else if 0x200 ≤ off ∧ off < 0x280 then junctionWord b off
  else if off = 0x300 then b.boxRptr.toNat + b2n b.boxAutoinc * 2 ^ 31
  else if off = 0x304 then if s.box.nextSeq = 0 then 0 else boxIndex (s.box.nextSeq - 1)
  else if off = 0x308 then (s.box.nextSeq - 1) % 2 ^ 32
  else if 0x340 ≤ off ∧ off < 0x380 then numAt (boxEntryAt s b.boxRptr.toNat) (off - 0x340) 4
  else 0

/-- Memory as the Kennel reads it, the mirror of the window included (R305, R307); none where it cannot be read. -/
def kennelRead (s : State) (a n : Addr) : Option Bytes :=
  match regionOf s.grade a with
  | .mirror off => if off + n ≤ 4096 then
      some ((List.range n).map fun i => BitVec.ofNat 8 (winWord s .kennel ((off + i) / 4 * 4) >>> (8 * ((off + i) % 4)))) else none
  | _ => kennelMem s a n

/-- Multi-word fields: lowest offset and words (R439). -/
def wideFields : List (Nat × Nat) := [(0x010, 2), (0x040, 8), (0x060, 8), (0x180, 2), (0x210, 12), (0x250, 12), (0x340, 16)]

/-- The multi-word field that holds an offset. -/
def wideOf (off : Nat) : Option (Nat × Nat) := wideFields.find? fun f => f.1 ≤ off && off < f.1 + 4 * f.2

/-- Latch a multi-word field whose lowest word is read (R439). -/
def winLatch (p : WinPath) (off : Nat) (s : State) : State :=
  match wideOf off with
  | some (lo, n) =>
    if off = lo then bankedMod p (fun b => { b with latch := some (lo, (List.range n).map fun i => BitVec.ofNat 32 (winWord s p (lo + 4 * i))) }) s else s
  | none => s

/-- BOX_AUTOINC's advance at a read of 0x37C, except through the mirror (R444). -/
def boxAdvance (p : WinPath) (s : State) : State :=
  if p != .kennel && (bankOf s p).boxAutoinc then bankedMod p (fun b => { b with boxRptr := b.boxRptr + 1 }) s else s

/-- The word that a read returns: from the latch past a field's lowest word (R439). -/
def winValue (s : State) (p : WinPath) (off : Nat) : Nat :=
  match wideOf off, (bankOf s p).latch with
  | some (lo, _), some (l, ws) =>
    if off != lo && l == lo && winOpen s p off then ((ws.getD ((off - lo) / 4) 0).toNat) else winWord s p off
  | _, _ => winWord s p off

/-- The index of a path in the record of last reads. -/
def pathIdx : WinPath → Nat
  | .cozor => 0
  | .smbus => 1
  | .kennel => 2

/-- A window read with its effects (R439, R444); an unaligned one has none. -/
def winRead (p : WinPath) (off : Nat) (s : State) : Nat × State :=
  if off % 4 != 0 then (0, s) else
  let v := winValue s p off
  let s := if winOpen s p off then winLatch p off s else s
  let s := if off = 0x37C && winOpen s p off then boxAdvance p s else s
  (v, { s with junction := { s.junction with lastRead := vmod s.junction.lastRead (pathIdx p) fun _ => BitVec.ofNat 32 v } })

/-- Publish responses that waited for room (R343, R451). -/
def rspFlush (m : Nat) : Nat → State → State
  | 0, s => s
  | n + 1, s =>
    match (vget s.kennel.mbx m).held, ringOf s (0x40 + m) with
    | d :: ds, some r =>
      if ringSize r < occupancy r + 64 then s
      else rspFlush m n (mbxMod m (fun x => { x with held := ds ++ x.held }) (rspPublish m d (mbxMod m (fun x => { x with held := [] }) s)))
    | _, _ => s

/-- A write to whistle m (R450, R451). -/
def whistle (m : Nat) (v : BitVec 32) (s : State) : State :=
  if !isReady s then s else
  match ringOf s m, ringOf s (0x40 + m) with
  | some c, some r =>
    let dc := (fld v 15 0 + 65536 - c.producer / 64 % 65536) % 65536
    let dr := (fld v 31 16 + 65536 - r.consumer / 64 % 65536) % 65536
    let okc := decide (dc ≤ 64 - occupancy c / 64)
    let okr := decide (dr ≤ occupancy r / 64)
    let s := if okc then mbxMod m (fun x => { x with pubAt := x.pubAt ++ List.replicate dc s.cyc }) (ringSet { c with producer := c.producer + 64 * dc } s) else s
    let s := if okr && dr != 0 then rspFlush m 64 (ringSet (ringFreed s { r with consumer := r.consumer + 64 * dr }) s) else s
    let err := fun (s : State) => raise 0xF0 1 0x0010 (le 1 m ++ [0, 0, 0] ++ le 4 v.toNat) { s with kennel := { s.kennel with whistleErrs := wrapAdd 32 s.kennel.whistleErrs 1 } }
    let s := if okc then s else err s
    if okr then s else err s
  | _, _ => s

/-- MJ_GO (R440, R441). -/
def mjGo (p : WinPath) (s : State) : State :=
  if pathOpen s (.junction p) && !(bankOf s p).busy then bankedMod p (fun b => { b with busy := true }) s else s

/-- A D reset is asked for: of two that wait, the one due first stands (R445, R462). -/
def askReset (r : ResetReq) (s : State) : State :=
  { s with boot := { s.boot with pendingReset := some (match s.boot.pendingReset with | some p => if r.due < p.due then r else p | none => r) } }

/-- A keyed write to DEV_RESET (R445, R438). -/
def devResetWrite (p : WinPath) (v : BitVec 32) (s : State) : State :=
  if p != .smbus && pathOpen s (.junction p) && v == 0xD0E7A501 && s.boot.mainOn && !s.power.tripped then
    askReset { origin := 1, mailbox := 0, seq := 0, due := s.cyc } s
  else s

/-- Sources whose enable bit software cannot change (R610, R611). -/
def fixedEnable (g : Grade) (n : Nat) : Bool := n == 0x0F || inRuns reservedSources n || inRuns (absentSources g) n

/-- A window write (R7, R8, R436 to R445, R449, R460). -/
def winWrite (p : WinPath) (off : Nat) (v : BitVec 32) (s : State) : State :=
  if !winOpen s p off || off % 4 != 0 then s else
  let b := bankOf s p
  if off = 0x024 then { s with boot := { s.boot with boxNew := s.boot.boxNew && !bitAt v 11 } }
  else if 0x040 ≤ off ∧ off < 0x060 then
    { s with ev := { s.ev with summary := s.ev.summary &&& ~~~ (v.setWidth 256 <<< (8 * (off - 0x040))) } }
  else if 0x060 ≤ off ∧ off < 0x080 then
    let lo := 8 * (off - 0x060)
    { s with ev := { s.ev with enable := (List.range 32).foldl (fun w i =>
        if fixedEnable s.grade (lo + i) then w else setBit w (lo + i) (bitAt v i)) s.ev.enable } }
  else if 0x080 ≤ off ∧ off < 0x180 then whistle ((off - 0x080) / 4) v s
  else if off = 0x20C then (if bitAt v 0 then mjGo p s else s)
  else if 0x200 ≤ off ∧ off < 0x240 then
    if b.busy then s
    else if off = 0x200 then bankedMod p (fun b => { b with opcode := BitVec.ofNat 16 (fld v 15 0), unit := BitVec.ofNat 16 (fld v 31 16) }) s
    else if off = 0x204 then bankedMod p (fun b => { b with seq := v }) s
    else if off = 0x208 then bankedMod p (fun b => { b with len := BitVec.ofNat 6 (fld v 5 0) }) s
    else bankedMod p (fun b => { b with args := vmod b.args ((off - 0x210) / 4) fun _ => v }) s
  else if off = 0x240 then bankedMod p (fun b => { b with done := b.done && !bitAt v 9 }) s
  else if off = 0x300 then bankedMod p (fun b => { b with boxRptr := BitVec.ofNat 17 (fld v 16 0), boxAutoinc := bitAt v 31 }) s
  else if off = 0x400 then devResetWrite p v s
  else s

/-- A write of 1 to MJ_GO (R440). -/
def execMjGo (p : WinPath) (s : State) : Host.Outcome State Fault Refusal := settle s (mjGo p s)

/-- A write to DEV_RESET (R445). -/
def execDevResetWrite (p : WinPath) (v : BitVec 32) (s : State) : Host.Outcome State Fault Refusal := settle s (devResetWrite p v s)

/-- A write to whistle m over Cozor Link (R450, R436). -/
def execWhistleWrite (m : Fin 64) (v : BitVec 32) (s : State) : Host.Outcome State Fault Refusal := settle s (whistle m v s)

/-- A read of offset 0x37C (R444). -/
def execBoxDataLastWordRead (p : WinPath) (s : State) : Host.Outcome State Fault Refusal := settle s (winRead p 0x37C s).2

/-- A read of a field's lowest word (R439). -/
def execWindowLatchRead (p : WinPath) (off : BitVec 12) (s : State) : Host.Outcome State Fault Refusal := settle s (winRead p off.toNat s).2

/-- A window write to any register (R7). -/
def execRegisterWrite (p : WinPath) (off : BitVec 12) (v : BitVec 32) (s : State) : Host.Outcome State Fault Refusal := settle s (winWrite p off.toNat v s)

/-- SMBus command 0x01 (R464): a word that is not 4-byte aligned, or whose PEC is wrong, changes nothing. -/
def execSmbusWriteWord (v : BitVec 16) (pecOk : Bool) (s : State) : Host.Outcome State Fault Refusal :=
  settle s (if stage s != 0 && pecOk && v.toNat % 4 == 0 then { s with junction := { s.junction with smbusPtr := v } } else s)

/-- A side-port block is good: 4 to 32 bytes, a multiple of 4, within the window (R464). -/
def smbusSpan (s : State) (n : Nat) : Bool :=
  stage s != 0 && 4 ≤ n && n ≤ 32 && n % 4 == 0 && s.junction.smbusPtr.toNat % 4 == 0 && decide (s.junction.smbusPtr.toNat + n ≤ 0x1000)

/-- The pointer advances by the count. -/
def smbusAdvance (n : Nat) (s : State) : State := { s with junction := { s.junction with smbusPtr := s.junction.smbusPtr + BitVec.ofNat 16 n } }

/-- SMBus command 0x02 (R464): the words in address order, each a window read. -/
def execSmbusBlockRead (n : Nat) (s : State) : Host.Outcome State Fault Refusal :=
  settle s (if smbusSpan s n then
    let r := (List.range (n / 4)).foldl (fun (p : Bytes × State) i =>
      let q := winRead .smbus (s.junction.smbusPtr.toNat + 4 * i) p.2
      (p.1 ++ le 4 q.1, q.2)) ([], s)
    let s := smbusAdvance n r.2
    { s with junction := { s.junction with smbusOut := some r.1 } }
  else { s with junction := { s.junction with smbusOut := none } })

/-- SMBus command 0x03 (R464): the words in address order, each a window write. -/
def execSmbusBlockWrite (data : Bytes) (pecOk : Bool) (s : State) : Host.Outcome State Fault Refusal :=
  settle s (if pecOk && smbusSpan s data.length then
    smbusAdvance data.length ((List.range (data.length / 4)).foldl (fun s' i =>
      winWrite .smbus (s.junction.smbusPtr.toNat + 4 * i) (BitVec.ofNat 32 (numAt data (4 * i) 4)) s') s)
  else s)

end Sys2Proof.Machine
end

