-- ==== Sys2Proof/Machine/Maint.lean ====
section
/-! DEFINITION. The maintenance arbiter (R596 to R606): requests, ticks, grants, ends, and the MAINT verbs. -/
set_option Elab.async false
namespace Sys2Proof.Machine
open Sys2Proof

/-- Resources of an activity on a unit (R596, bits of R605). -/
def maintRes (g : Grade) (activity : Nat) (unit : Handle) : BitVec 32 :=
  match activity with
  | 1 => BitVec.ofNat 32 (2 ^ nStacks g - 1)
  | 2 => 1 <<< (idx unit)
  | 3 => 0x10 <<< (dieOf (idx unit))
  | 4 => 0x100 <<< (idx unit / 8)
  | 5 => 0x40
  | _ => 0x80

/-- Bound of an activity in microseconds, the larger where R596 gives two. -/
def maintBound : Nat → Nat
  | 1 => 110
  | 2 => 32
  | 3 => 12810
  | 4 => 6200
  | 5 => 21800
  | _ => 60

/-- Two requests share (R597). -/
def shares (a b : MaintReq) : Bool := a.resources &&& b.resources != 0

/-- A request for an activity on a unit is running, queued or arriving. -/
def maintHas (s : State) (activity : Nat) (unit : Handle) : Bool :=
  (s.maint.running ++ s.maint.queue ++ s.maint.arrived).any fun r => r.activity == activity && r.unit == unit

/-- EV_MAINT (R606). -/
def evMaint (type : Nat) (r : MaintReq) (s : State) : State :=
  raise 0xFB type 0x1000 (le 2 r.ticket ++ le 2 r.activity ++ le 2 r.unit.toNat) s

/-- Ask for an activity (R597, R599). An automatic request is dropped where one stands for the unit, or is held (R600, R603). -/
def maintAsk (activity : Nat) (unit : Handle) (origin arg : Nat) (cmd : Option Cmd) (op : Nat) (s : State) : State :=
  if origin == 1 && (maintHas s activity unit || (activity == 5 && bitAt s.maint.cfg 0) || (activity == 4 && bitAt s.maint.cfg 1)) then s
  else { s with maint := { s.maint with arrived := s.maint.arrived ++ [{
      ticket := 0, activity := activity, unit := unit, origin := origin, resources := maintRes s.grade activity unit, since := s.cyc,
      wasQueued := false, cmd := cmd, opcode := BitVec.ofNat 16 op, arg := arg }] } }

/-- Order within a group of one tick (R599). -/
def maintLe (a b : MaintReq) : Bool := a.activity < b.activity || (a.activity == b.activity && a.unit.toNat ≤ b.unit.toNat)

/-- Give tickets, which wrap from 0xFFFF to 1 (R597). -/
def maintNumber : List MaintReq → Nat → List MaintReq × Nat
  | [], n => ([], n)
  | r :: rs, n => match maintNumber rs (if n = 0xFFFF then 1 else n + 1) with
    | (l, m) => ({ r with ticket := n } :: l, m)

/-- Position in the queue (R598). -/
def maintPos (s : State) (r : MaintReq) : Nat :=
  if s.maint.running.any (·.ticket == r.ticket) then 0 else
  (s.maint.running.filter (shares r)).length + ((s.maint.queue.takeWhile fun x => x.ticket != r.ticket).filter (shares r)).length

/-- QUIET holds back requests for HPS and CONV resources, other than its own (R602). -/
def maintHeld (s : State) (r : MaintReq) : Bool :=
  (s.power.state == .quiet || (match s.power.transition with | some (.quiet, _) => true | _ => false)) && r.resources &&& 0x3F != 0 && r.origin != 2

/-- Scan from the head: grant what shares with nothing running and nothing earlier that stays (R598). Answers granted, kept. -/
def maintScan (held : MaintReq → Bool) : List MaintReq → List MaintReq → List MaintReq → List MaintReq × List MaintReq
  | [], _, kept => ([], kept)
  | r :: rs, running, kept =>
    if held r || (running ++ kept).any (shares r) then maintScan held rs running (kept ++ [r])
    else match maintScan held rs (running ++ [r]) kept with
      | (g, k) => (r :: g, k)

/-- An interim response with the queue position and the ticket (R455, R597). -/
def maintDefer (r : MaintReq) (s : State) : State :=
  match r.cmd with
  | none => s
  | some c => match c.path with
    | .junction _ => s
    | .mailbox m =>
      match (vget s.kennel.mbx m).inProgress.find? fun y => y.seq == c.seq && !y.duplicate with
      | none => s
      | some y =>
        rspPublish m (rspBytes r.opcode.toNat DEFERRED 1 c.seq y.unit y.taken (le 2 (maintPos s r) ++ le 2 r.ticket))
          (mbxMod m (fun x => { x with inProgress := lmod (fun z => z.seq == c.seq && !z.duplicate) (fun z => { z with interim := true, ticket := r.ticket }) x.inProgress }) s)

/-- What a grant sets going on the unit. -/
def maintStart (r : MaintReq) (s : State) : State :=
  match r.activity with
  | 1 => if r.opcode == 0x0E02 then { s with store := { s.store with rateChange := s.store.rateChange.map fun c => { c with granted := some s.cyc } } } else s
  | 5 => { s with tdc := { s.tdc with cal := some (0, 0) } }
  | _ => s

/-- A tick of the arbiter, once in a microsecond of the counter (R597 to R599): the group that arrived since the last tick enters the queue, and the queue is scanned. -/
def maintTick (s : State) : State :=
  if s.maint.lastTick == some (nowUs s) then s else
  let (grp, n) := maintNumber (s.maint.arrived.mergeSort maintLe) s.maint.nextTicket
  let (granted, kept) := maintScan (maintHeld s) (s.maint.queue ++ grp) s.maint.running []
  let isNew := fun (r : MaintReq) => grp.any (·.ticket == r.ticket)
  let s := { s with maint := { s.maint with
    arrived := [], lastTick := some (nowUs s), nextTicket := n, queue := kept.map fun r => { r with wasQueued := true }
    running := s.maint.running ++ granted.map fun r => { r with since := s.cyc } } }
  let s := granted.foldl (fun s r => maintStart r (if r.wasQueued then evMaint 1 r s else s)) s
  (kept.filter isNew).foldl (fun s r => maintDefer r s) s

/-- The running request for an activity on a unit. -/
def maintRunning (s : State) (activity : Nat) (unit : Handle) : Option MaintReq :=
  s.maint.running.find? fun r => r.activity == activity && r.unit == unit

/-- An activity ends: its resources are free from the next tick on (R598); EV_MAINT DONE. -/
def maintEnd (r : MaintReq) (s : State) : State :=
  evMaint 2 r { s with maint := { s.maint with running := s.maint.running.filter fun x => x.ticket != r.ticket } }

/-- What the unit of a request keeps while it waits is undone. -/
def maintUndo (r : MaintReq) (s : State) : State :=
  match r.activity with
  | 1 => if r.opcode == 0x0E02 then { s with store := { s.store with rateChange := none } } else s
  | 4 => { s with link := { s.link with lane := vmod s.link.lane (idx r.unit) fun l => { l with readapting := false } } }
  | _ => s

/-- A queued request leaves the queue and its command completes with REFUSED_STATE (R602, R604). -/
def maintWithdraw (r : MaintReq) (s : State) : State :=
  let s := maintUndo r { s with maint := { s.maint with
    queue := s.maint.queue.filter (fun x => x.ticket != r.ticket), arrived := s.maint.arrived.filter (fun x => x != r) } }
  completeO r.cmd r.opcode.toNat REFUSED_STATE [] s

/-- Queued requests of a unit are withdrawn at its re-initialisation (R602). -/
def maintWithdrawUnit (unit : Handle) (s : State) : State :=
  ((s.maint.queue ++ s.maint.arrived).filter (·.unit == unit)).foldl (fun s r => maintWithdraw r s) s

/-- A D or M abandons every request without a response (R602, R606). -/
def maintAbandon (s : State) : State :=
  let s' := (s.maint.running ++ s.maint.queue ++ s.maint.arrived).foldl (fun s r => evMaint 5 r s) s
  { s' with maint := {}, tdc := { s'.tdc with cal := none } }

/-- An entry of MAINT.STATUS (R605). -/
def maintEntry (s : State) (queued : Bool) (r : MaintReq) : Bytes :=
  le 2 r.ticket ++ le 1 r.activity ++ le 1 (b2n queued) ++ le 2 r.unit.toNat ++ le 1 (maintPos s r) ++ le 1 r.origin ++ le 4 r.resources.toNat ++
  le 4 (since s r.since / usC)

/-- MAINT.CONFIGURE (R603, R604). -/
def vMaintConfigure : Verb where
  op := 0x1D01
  fits := fun s h => isA s .mgmt h
  checks := fun c _ => [badArg (anySet (argW c 0 32) [(31, 2)])]
  act := fun c s => ok { s with maint := { s.maint with cfg := argW c 0 32 } }

/-- MAINT.STATUS (R604, R605). -/
def vMaintStatus : Verb where
  op := 0x1D02
  fits := fun s h => isA s .mgmt h
  checks := fun c s => [badArg (!spanOk s (argN c 0 6) (16 * (s.maint.running.length + s.maint.queue.length)))]
  act := fun c s =>
    let b := s.maint.running.flatMap (maintEntry s false) ++ s.maint.queue.flatMap (maintEntry s true)
    okWith (destWrite (argN c 0 6) b s) (le 2 s.maint.running.length ++ le 2 s.maint.queue.length)

/-- MAINT.CANCEL (R604). -/
def vMaintCancel : Verb where
  op := 0x1D03
  fits := fun s h => isA s .mgmt h
  checks := fun c s =>
    let t := argN c 0 2
    let run := s.maint.running.any (·.ticket == t)
    [badArg (!run && !s.maint.queue.any (·.ticket == t)), badState run]
  act := fun c s =>
    match s.maint.queue.find? (·.ticket == argN c 0 2) with
    | some r => ok (evMaint 4 r (maintWithdraw r s))
    | none => ok s

def execMaintConfigure (c : Cmd) (s : State) : Host.Outcome State Fault Refusal := settle s (runVerb vMaintConfigure c s)
def execMaintStatus (c : Cmd) (s : State) : Host.Outcome State Fault Refusal := settle s (runVerb vMaintStatus c s)
def execMaintCancel (c : Cmd) (s : State) : Host.Outcome State Fault Refusal := settle s (runVerb vMaintCancel c s)

end Sys2Proof.Machine
end

