-- ==== Sys2Proof/Machine/Rings.lean ====
section
/-! DEFINITION. Publishing into rings with pins: record descriptors, pins that the producer overruns, frame headers, and the plain publication of entries. -/
set_option Elab.async false
namespace Sys2Proof.Machine
open Sys2Proof

/-- STATE codes of a record descriptor (R212). -/
def pinCode : PinState → Nat
  | .open_ | .pinned | .copying => 0
  | .copied => 1
  | .released => 2
  | .partial_ => 3
  | .notPinned => 4

/-- A record descriptor (R212). -/
def pinBytes (p : PinSt) : Bytes :=
  let c := p.state == .copied || p.state == .partial_
  withCrc (le 4 p.record.toNat ++ le 1 p.engine ++ le 1 p.trigger ++ le 1 p.span ++ le 1 (pinCode p.state) ++ le 4 p.ring ++ le 4 p.flags.toNat ++
    timeB p.trigTime ++ timeB p.onset ++ le 8 (if c then p.copyPos else p.firstPos) ++ le 4 (if c then p.copied else p.blocks) ++
    le 2 p.firstSample ++ le 2 p.lastSample ++ le 4 (if c then p.copyRing else 0))

/-- A frame header with its kind-specific bytes (R348). -/
def frameHeader (kind unit flags index : Nat) (t : Time) (len : Nat) (special : Bytes) : Bytes :=
  withCrc (le 1 kind ++ [0x01] ++ le 2 unit ++ le 4 flags ++ le 8 index ++ timeB t ++ le 4 len ++ padTo 28 special)

/-- A frame: header and payload padded to 64 (R347, R348). -/
def frameBytes (kind unit flags index : Nat) (t : Time) (special payload : Bytes) : Bytes :=
  frameHeader kind unit flags index t payload.length special ++ padTo (ceilDiv payload.length 64 * 64) payload

/-- TIME_UNLOCKED as a FLAGS bit (R71). -/
def unlockedBit (s : State) : Nat := if s.time.state == .locked then 0 else 4

/-- An element or a source gap joins every armed condition of a kind and source, with the value that its definition asks for (R190, R194). -/
def formElemBy (kind src : Nat) (gap : Bool) (t : Time) (f : Bytes → Int) (s : State) : State :=
  { s with events := { s.events with eng := s.events.eng.map fun e => { e with trig := e.trig.map fun g =>
      match g.defn with
      | none => g
      | some d => if !g.armed then g else
        { g with conds := Vector.ofFn fun j =>
            let c := vget g.conds j
            if numAt d (64 + 48 * j.val) 1 == kind && numAt d (68 + 48 * j.val) 4 == src then
              { c with formed := c.formed ++ [(t, gap, f (bytesAt d (64 + 48 * j.val) 48))] } else c } } } }

/-- The same with one value for every condition. -/
def formElem (kind src : Nat) (gap : Bool) (t : Time) (v : Int) (s : State) : State := formElemBy kind src gap t (fun _ => v) s

/-- Offer an entry and raise the ring events; the entry's fate. -/
def offer (mayWait : Bool) (id : Nat) (e : Ent) (s : State) : State × Put :=
  match ringPut mayWait id e s with
  | (s, p, evs) => (emit evs s, p)

/-- Offer an entry by a producer that cannot wait. -/
def offerNow (id : Nat) (e : Ent) (s : State) : State := (offer false id e s).1

/-- The record manager writes a span's descriptor into REC_RING (R212); it cannot wait (R343). -/
def pinReport (p : PinSt) (s : State) : State :=
  if p.recRing < 0x90 then s else offerNow p.recRing ⟨pinBytes p, 0x11, p.trigTime, p.record.toNat⟩ s

/-- The key of a span. -/
def samePin (a b : PinSt) : Bool := a.record == b.record && a.span == b.span

/-- Replace a span. -/
def pinSet (p : PinSt) (s : State) : State := { s with events := { s.events with pins := lmod (samePin p) (fun _ => p) s.events.pins } }

/-- A pin holds blocks (R206, R209). -/
def pinHolds (p : PinSt) : Bool := p.state == .open_ || p.state == .pinned || p.state == .copying

/-- EV_PIN_* and EV_RECORD_PARTIAL detail (R609). -/
def pinDetail (p : PinSt) : Bytes := le 4 p.record.toNat ++ le 1 p.span ++ [0, 0, 0] ++ le 4 p.ring

/-- Pinned entries of a span: its blocks and the gap descriptors among them (R206, R208). -/
def pinEntries (r : RingCtx) (p : PinSt) : List EntryAt := r.entries.filter fun e => p.firstPos ≤ e.pos && e.pos < p.endPos

/-- The entries up to the n-th data block. -/
def leadBlocks : Nat → List EntryAt → List EntryAt
  | _, [] => []
  | n, e :: es => if n = 0 then [] else e :: leadBlocks (if e.kind == 0x10 then n else n - 1) es

/-- OR of the FLAGS [5:0] of data blocks (R349). -/
def orFlags (s : State) (r : RingCtx) (es : List EntryAt) : Nat :=
  ((es.filter fun e => e.kind != 0x10).foldl (fun (f : BitVec 32) e => f ||| BitVec.ofNat 32 (leNat (ringRead s r (e.pos + 4) 4) % 64)) 0).toNat

/-- Policy of a ring (R209). -/
def policyOf (s : State) (id : Nat) : PinPolicy :=
  (s.events.policies.find? fun q => q.ring == id).getD { ring := id, copy := false, channel := 0, copyRing := 0 }

/-- Change the policy and counts of a ring. -/
def policyMod (id : Nat) (f : PinPolicy → PinPolicy) (s : State) : State :=
  { s with events := { s.events with policies := f (policyOf s id) :: s.events.policies.filter fun q => q.ring != id } }

/-- Offer entries in order; whether each found its place. -/
def offerAll (mayWait : Bool) (id : Nat) : List Ent → State → State × Bool
  | [], s => (s, true)
  | e :: es, s => match offer mayWait id e s with
    | (s, .waits) => (s, false)
    | (s, _) => offerAll mayWait id es s

/-- Where an entry lands in a ring that takes another before it. -/
def landing (id : Nat) (before e : Ent) (s : State) : Nat :=
  ((ringOf (offerAll false id [before, e] s).1 id).bind fun r => r.entries.getLast?.map (·.pos)).getD 0

/-- The copied blocks go into COPY_RING behind their header, which holds the COPIED or PARTIAL descriptor (R212, R353); none while a ring that
is full makes the copy wait (R343). Answers the position of the first copied block. -/
def pinCopyOut (mayWait : Bool) (p : PinSt) (s : State) : Option (State × Nat) :=
  let flags := (p.data.filter fun e => e.kind != 0x10).foldl (fun (f : BitVec 32) e => f ||| BitVec.ofNat 32 (numAt e.bytes 4 4 % 64)) 0
  let hd := fun (at_ : Nat) => (⟨frameBytes 0x09 0x0B00 flags.toNat p.record.toNat p.trigTime [] (pinBytes { p with copyPos := at_ }), 0x09, p.trigTime, p.record.toNat⟩ : Ent)
  let at_ := (p.data.head?.map fun e => landing p.copyRing (hd 0) e s).getD 0
  match offerAll mayWait p.copyRing (hd at_ :: p.data) s with
  | (s, true) => some (s, at_)
  | (_, false) => none

/-- A copy that is cut leaves what it has copied in COPY_RING under a PARTIAL descriptor (R211, R212). -/
def pinCut (p : PinSt) (s : State) : State × PinSt :=
  let p := { p with state := .partial_ }
  match if p.data.isEmpty then none else pinCopyOut false p s with
  | some (s, at_) => (s, { p with copyPos := at_, data := [] })
  | none => (s, { p with copyPos := 0, data := [] })

/-- A copy has read a pin up to a ring position: it has taken the entries that lie before it whole (R209, R210). -/
def pinTook (s : State) (bound : Nat) (p : PinSt) : PinSt :=
  match ringOf s p.ring with
  | none => p
  | some r =>
    let es := (pinEntries r p).filter fun e => p.nextPos ≤ e.pos && e.pos + e.len ≤ bound
    { p with nextPos := (es.getLast?.map fun e => e.pos + e.len).getD p.nextPos, copied := p.copied + (es.filter fun e => e.kind != 0x10).length
             data := p.data ++ es.map fun e => ⟨ringRead s r e.pos e.len, e.kind, e.time, e.index⟩ }

/-- The producer overruns a pin (R210): the rest of it is overwritten, it is released and its record carries PARTIAL. -/
def pinOverrun (p : PinSt) (s : State) : State :=
  match pinCut p s with
  | (s, p) =>
    let s := policyMod p.ring (fun q => { q with partials := wrapAdd 32 q.partials 1 }) (pinReport p (pinSet p s))
    let s := { s with fetch := { s.fetch with ch := s.fetch.ch.map fun c => { c with waiting := c.waiting.filter fun d => d.pin != some (p.record, p.span) } } }
    raise 0xAC 0 0x0B00 (pinDetail p ++ le 4 p.copied) s

/-- Position of the first entry of a pin that is not yet copied. -/
def pinNext (p : PinSt) : Nat := if p.state == .copying then max p.firstPos p.nextPos else p.firstPos

/-- Pins of a ring whose next block the producer has reached (R210). -/
def pinsOverrun (id : Nat) (s : State) : State :=
  match ringOf s id with
  | none => s
  | some r => (s.events.pins.filter fun p => p.ring == id && pinHolds p && decide (pinNext p < heldStart r) && (p.state == .open_ || decide (pinNext p < p.endPos))).foldl
      (fun s p => pinOverrun p s) s

/-- Publish an entry (R339 to R346) with the pins it overruns (R210); the entry's fate. -/
def publish (mayWait : Bool) (id : Nat) (e : Ent) (s : State) : State × Put :=
  match offer mayWait id e s with
  | (s, p) => (pinsOverrun id s, p)

/-- Publish an entry by a producer that cannot wait. -/
def publishNow (id : Nat) (e : Ent) (s : State) : State := (publish false id e s).1

/-- A gap descriptor as an entry (R354). -/
def gapEnt (s : State) (unit kind : Nat) (g : PendGap) (stop : Time) : Ent :=
  ⟨gapBytes s unit g.cause kind g.lost g.start stop g.firstIndex 0 false, 0x10, g.start, g.firstIndex⟩

/-- Advance CONSUMER (R363). -/
def ringConsumeTo (id pos : Nat) (s : State) : State :=
  match ringOf s id with
  | some r => ringSet (ringFreed s { r with consumer := pos }) s
  | none => s

/-- The data block header's field at an offset of a block in a ring (R70). -/
def blockField (s : State) (r : RingCtx) (e : EntryAt) (off n : Nat) : Nat := leNat (ringRead s r (e.pos + off) n)

/-- A read of device memory, the context region and the mirror included (R273, R305, R307). -/
def memView (s : State) (a : Addr) : Byte :=
  match regionOf s.grade a with
  | .bank _ _ p => memGet s.mem p
  | .store => memGet s.mem a
  | .context =>
    ctxByte s (a - rcb s.grade)
  | .mirror off => BitVec.ofNat 8 (winWord s .kennel (off / 4 * 4) >>> (8 * (off % 4)))
  | _ => 0

/-- n bytes as a unit reads them. -/
def viewBytes (s : State) (a n : Nat) : Bytes := (List.range n).map fun i => memView s (a + i)

end Sys2Proof.Machine
end

