-- ==== Sys2Proof/Machine/Banks.lean ====
section
/-! DEFINITION. Scratch banks (R308 to R321): accesses of the two ports, power states, fills and the BANK verbs but the end of a handover. -/
set_option Elab.async false
namespace Sys2Proof.Machine
open Sys2Proof

/-- Handles that may own a bank (R310). -/
def ownerAllowed (s : State) (h : Handle) : Bool :=
  h == 0xFFFF || (match unitOf s h with
    | some (.kennel, _) | some (.fetch, _) | some (.eng, _) | some (.dens, _) | some (.disp, _) | some (.ringMgr, _) | some (.bond, _) => true
    | _ => false)

/-- Owners whose bank software may power down or fill (R316). -/
def softOwner (h : Handle) : Bool := h == 0x0010 || h == 0x0A00 || h == 0xFFFF || (0x0F00 ≤ h.toNat && h.toNat ≤ 0x0F07)

/-- Bytes of an access. -/
def accLen (a : BankAcc) : Nat :=
  match a.op with
  | .read n => n
  | .write d => d.length

/-- The port by which an owner with one use of each port makes an access (R308). -/
def accPort (a : BankAcc) (port : Fin 2) : Bool :=
  let isRead := match a.op with | .read _ => true | _ => false
  let w := a.who.toNat
  if 0x0A00 ≤ w && w ≤ 0x0A20 then isRead == (port == 0)
  else if w = 0x0700 then isRead && port == 0
  else if w = 0x0B00 then isRead == (port == 1)
  else if 0x0F00 ≤ w && w ≤ 0x0F07 then port == 0
  else true

/-- An access lies in bank b, has 1 to 64 bytes and stays within one line (R308). -/
def accOk (s : State) (b : Nat) (a : BankAcc) : Bool :=
  (match regionOf s.grade a.addr with | .bank k _ _ => k == b | _ => false) && 1 ≤ accLen a && a.addr % 64 + accLen a ≤ 64

/-- The word of an access that keeps an uncorrectable error (R321). -/
def accBad (s : State) (b : Nat) (a : BankAcc) : Option Addr :=
  (vget s.banks b).badWords.find? fun w => a.addr % 0x8000000 < w + 8 && w < a.addr % 0x8000000 + accLen a

/-- What the check codes of an access show (R309): a word keeps its error until it is rewritten. -/
def accEcc (s : State) (b : Nat) (a : BankAcc) : Ecc := if (accBad s b a).isSome then .uncorrectable else a.ecc

/-- The data a served read returns (R309). -/
def accRead (s : State) (b : Nat) (a : BankAcc) : Bytes :=
  if accEcc s b a == .uncorrectable then List.replicate (accLen a) 0 else rawRead s (a.addr % 0x8000000) (accLen a)

/-- Counts and the event of a served read (R309). -/
def accCheck (b : Nat) (a : BankAcc) (s : State) : State :=
  let w := (accBad s b a).getD (a.addr % 0x8000000 / 8 * 8)
  match a.op, accEcc s b a with
  | .read _, .corrected => bankMod b (fun k => { k with eccCorrected := wrapAdd 32 k.eccCorrected 1 }) s
  | .read _, .uncorrectable =>
    raise 0xA3 0 (0x0900 + b) (le 6 w) (bankMod b (fun k => { k with
      eccUncorrectable := wrapAdd 32 k.eccUncorrectable 1, badWords := if k.badWords.contains w then k.badWords else k.badWords ++ [w] }) s)
  | _, _ => s

/-- One access of a step: what a read returns is taken from `s0`, the memory before the step (R311, R314, R317). -/
def accDo (b : Nat) (port : Fin 2) (s0 : State) (a : BankAcc) (s : State) : State :=
  let put := fun (d : Bytes) (s : State) => bankMod b (fun k => { k with out := vmod k.out port fun _ => d }) s
  let isRead := match a.op with | .read _ => true | _ => false
  let zero := fun (s : State) => if isRead then put (List.replicate (accLen a) 0) s else s
  match bankAns (vget s0.banks b) a.who with
  | .denied => zero (bankDeny b a.who (!isRead) s)
  | .notOn => zero (bankFail b a.who s)
  | .held => bankMod b (fun k => { k with held := k.held ++ [(port == 1, a)] }) s
  | .served =>
    match a.op with
    | .read _ => put (accRead s0 b a) (accCheck b a s)
    | .write d => scratchWrite (a.addr / 0x8000000) (a.addr % 0x8000000) d s

/-- The accesses of one step of a bank (R308, R314): reads see the memory before the step; a write of port 1 precedes one of port 0. -/
def bankStep (b : Nat) (p0 p1 : Option BankAcc) (s : State) : State :=
  let go := fun (port : Fin 2) (a : Option BankAcc) (s' : State) =>
    match a with
    | some a => if accOk s b a && accPort a port then accDo b port s a s' else s'
    | none => s'
  go 0 p0 (go 1 p1 s)

/-- BANK.HANDOVER (R312, R320). -/
def vBankHandover : Verb where
  op := 0x0F01
  fits := fun s h => isA s .bank h
  checks := fun c s =>
    let b := vget s.banks (idx c.unit)
    [badArg (!ownerAllowed s (argW c 2 16)), badState (b.owner != argW c 0 16), badState (b.power != 0), badState (b.pendingOwner != 0xFFFF)]
  act := fun c s => later (bankMod (idx c.unit) (fun b => { b with pendingOwner := argW c 2 16, handover := some (some c, s.cyc) }) s)

/-- REFUSED_STATE of R316 and R318. -/
def bankPowerBad (b : BankSt) (toOn : Bool) : Bool := (!toOn && !softOwner b.owner) || b.pendingOwner != 0xFFFF

/-- Bytes of a bank become zero. -/
def bankZero (b : Nat) (s : State) : State := { s with mem := memZero s.mem (b * 0x400000) ((b + 1) * 0x400000) }

/-- BANK.POWER (R316, R320). -/
def vBankPower : Verb where
  op := 0x0F02
  fits := fun s h => isA s .bank h
  checks := fun c s =>
    let b := vget s.banks (idx c.unit)
    [badArg (2 < argN c 0 1), badState (bankPowerBad b (argN c 0 1 == 0)), busy b.filling.isSome]
  act := fun c s =>
    let i := idx c.unit
    let b := vget s.banks i
    let upto := argN c 0 1
    if upto = 0 && b.power = 2 then
      later (bankMod i (fun b => { b with power := 0, filling := some (.powerOn c) }) s)
    else
      let s := if upto = 2 then bankMod i (fun b => { b with badWords := [] }) (bankZero i s) else s
      ok (raise 0xA2 (upto + 1) (0x0900 + i) [] (bankMod i (fun b => { b with power := upto }) s))

/-- BANK.FILL (R318, R320). -/
def vBankFill : Verb where
  op := 0x0F03
  fits := fun s h => isA s .bank h
  checks := fun c s =>
    let b := vget s.banks (idx c.unit)
    [badState (bankPowerBad b false), badState (b.power != 0), busy b.filling.isSome]
  act := fun c s => later (bankMod (idx c.unit) (fun b => { b with filling := some (.fill c (argW c 0 32)) }) s)

/-- The memory with a 32-bit pattern in every word of [lo, hi). -/
def memPattern (m : List Host.Cell) (lo hi : Nat) (w : BitVec 32) : List Host.Cell :=
  (m.filter fun c => decide (c.1 < lo)) ++
  ((span lo hi).filterMap fun a => let b := (le 4 w.toNat).getD ((a - lo) % 4) 0; if b = 0 then none else some (a, b)) ++
  (m.filter fun c => decide (hi ≤ c.1))

/-- A fill ends (R316, R318). -/
def bankFillDone (b : Nat) (s : State) : State :=
  let done := bankMod b fun k => { k with filling := none, badWords := [] }
  match (vget s.banks b).filling with
  | none => s
  | some .zero => done (bankZero b s)
  | some (.powerOn c) => complete c 0x0F02 OK [] (raise 0xA2 1 (0x0900 + b) [] (done (bankZero b s)))
  | some (.fill c w) =>
    let s := done { s with mem := memPattern s.mem (b * 0x400000) ((b + 1) * 0x400000) w }
    complete c 0x0F03 OK [] (raise 0xA2 4 (0x0900 + b) [] s)

/-- Counters of a bank cleared by CLEAR and F (R321). -/
def bankClear (b : BankSt) : BankSt :=
  { b with deniedReads := 0, deniedWrites := 0, powerErrors := 0, eccCorrected := 0, eccUncorrectable := 0 }

/-- BANK.STATUS (R320, R321). -/
def vBankStatus : Verb where
  op := 0x0F04
  fits := fun s h => isA s .bank h
  act := fun c s =>
    let i := idx c.unit
    let b := vget s.banks i
    let res := le 1 (unitState s c.unit) ++ le 1 b.power ++ le 2 b.owner.toNat ++ le 2 b.pendingOwner.toNat ++ le 2 b.lastDenied.toNat ++
      le 4 b.deniedReads ++ le 4 b.deniedWrites ++ le 4 b.powerErrors ++ le 4 b.eccCorrected ++ le 4 b.eccUncorrectable ++ timeB b.lastDeniedTime ++ le 8 0
    okWith (if argBit c 0 0 then bankMod i bankClear s else s) res

def execBankHandover (c : Cmd) (s : State) : Host.Outcome State Fault Refusal := settle s (runVerb vBankHandover c s)
def execBankPower (c : Cmd) (s : State) : Host.Outcome State Fault Refusal := settle s (runVerb vBankPower c s)
def execBankFill (c : Cmd) (s : State) : Host.Outcome State Fault Refusal := settle s (runVerb vBankFill c s)
def execBankFillDone (b : Fin 32) (s : State) : Host.Outcome State Fault Refusal := settle s (bankFillDone b s)
def execBankStatus (c : Cmd) (s : State) : Host.Outcome State Fault Refusal := settle s (runVerb vBankStatus c s)
def execBankAccess (b : Fin 32) (port0 port1 : Option BankAcc) (s : State) : Host.Outcome State Fault Refusal := settle s (bankStep b port0 port1 s)

end Sys2Proof.Machine
end

