-- ==== Sys2Proof/Machine/Fetch.lean ====
section
/-! DEFINITION. Fetch (R322 to R334): descriptors, beats, bus errors and the FETCH verbs. -/
set_option Elab.async false
namespace Sys2Proof.Machine
open Sys2Proof

/-- First addresses of the rows of R305 on a grade. -/
def rowStarts : List Nat := [0, 0x08000000, 0x10000000, 0x000100000000, 0x010000000000, 0x0F0000000000]

/-- A range lies within one row, or wholly outside every row (R322). -/
def fetchRange (g : Grade) (a n : Nat) : Bool :=
  inOneRow g a n || (rowOf g a == 0 && rowOf g (a + n - 1) == 0 && !(rowStarts.any fun r => a ≤ r && r < a + n))

/-- The descriptor that FETCH.START carries (R322). -/
def fetchDesc (c : Cmd) : FetchDesc :=
  { src := argN c 0 6, dst := argN c 8 6, length := argN c 16 8, flags := argW c 24 8, tag := argW c 28 32 }

/-- The address within its memory, alias offsets removed, and the memory (R330): 1 banks, 2 store, 3 + k aperture k. -/
def sameMem (g : Grade) (a : Addr) : Nat × Nat :=
  match regionOf g a with
  | .bank _ _ p => (1, p)
  | .store | .context => (2, a)
  | .host k off => (3 + k, off)
  | _ => (0, a)

/-- ORDER: backward when source and destination overlap in one memory and DST lies above SRC (R330). -/
def fetchOrder (g : Grade) (d : FetchDesc) : Bool :=
  let x := sameMem g d.src
  let y := sameMem g d.dst
  x.1 != 0 && x.1 == y.1 && x.2 < y.2 && y.2 < x.2 + d.length

/-- Change channel n. -/
def fetchMod (n : Nat) (f : FetchCh → FetchCh) (s : State) : State := { s with fetch := { s.fetch with ch := vmod s.fetch.ch n f } }

/-- A channel takes up the descriptor at the head of its queue, or is idle (R323, R324). -/
def fetchNext (g : Grade) (c : FetchCh) : FetchCh :=
  let room := 16 - c.queue.length
  let c := { c with queue := c.queue ++ c.waiting.take room, waiting := c.waiting.drop room }
  match c.queue with
  | [] => { c with ch := .idle, staged := none, outstanding := none, heldSince := none }
  | d :: _ => { c with ch := .running, beatsDone := 0, beatsTotal := d.length / 64, order := fetchOrder g d,
                       errKind := 0, errSide := 0, errAddr := 0, staged := none, outstanding := none, heldSince := none }

/-- A descriptor joins a channel's queue (R323). -/
def fetchQueue (n : Nat) (d : FetchDesc) (s : State) : State :=
  fetchMod n (fun c =>
    if c.queue.length < 16 then
      let c' := { c with queue := c.queue ++ [d] }
      if c.ch == .idle then fetchNext s.grade c' else c'
    else { c with waiting := c.waiting ++ [d] }) s

/-- EV_FETCH of channel n (R335, R609). -/
def evFetch (type n : Nat) (s : State) : State :=
  let c := vget s.fetch.ch n
  raise (0xB0 + n) type (0x0A01 + n) (le 4 ((c.queue.head?.map (·.tag.toNat)).getD 0) ++ le 8 c.beatsDone ++ le 1 c.errKind ++ le 1 c.errSide) s

/-- A bus error halts the channel (R328). -/
def fetchHalt (n kind side : Nat) (a : Addr) (s : State) : State :=
  evFetch 3 n (fetchMod n (fun c => { c with ch := .halted, staged := none, outstanding := none, heldSince := none, errKind := kind, errSide := side, errAddr := a }) s)

/-- Offset of beat i (R330). -/
def beatOffset (c : FetchCh) : Nat := if c.order then (c.beatsTotal - 1 - c.beatsDone) * 64 else c.beatsDone * 64

/-- How a beat's access stands. -/
inductive BeatAns where
  | go | wait | bondWait | err (kind : Nat)
deriving DecidableEq, Repr, Inhabited

/-- A bond's aperture: trained, waiting to return, or not trained (R327). -/
def bondAns (s : State) (k : Nat) : BeatAns :=
  let b := vget s.link.bond k
  if bondIsUp b then (if b.txSleep == .l0 then .go else .bondWait)
  else if bitAt b.cfg 40 && b.upTime != 0 then .bondWait else .err 4

/-- What the read of a beat meets (R306, R309, R311, R325, R327, R332). -/
def readAns (s : State) (n : Nat) (a : Addr) : BeatAns :=
  match regionOf s.grade a with
  | .unmapped => .err 1
  | .bank b _ p =>
    match bankAns (vget s.banks b) (BitVec.ofNat 16 (0x0A01 + n)) with
    | .denied => .err 2
    | .notOn => .err 5
    | .held => .wait
    | .served => if (vget s.banks b).badWords.any fun w => p < w + 8 && w < p + 64 then .err 3 else .go
  | .store | .context =>
    if s.power.state == .quiet then .wait
    else if s.store.badWords.any fun w => a < w + 32 && w < a + 64 then .err 3 else .go
  | .host k off =>
    match bondAns s k with
    | .go => if (apertureAddr (vget s.link.bond k) off).isNone then .err 1 else if 1 ≤ vget (vget s.link.bond k).credits 3 then .go else .wait
    | x => x
  | .mirror _ => .go

/-- What the write of a beat meets (R273, R307, R311, R327). -/
def writeAns (s : State) (n : Nat) (a : Addr) : BeatAns :=
  match regionOf s.grade a with
  | .unmapped => .err 1
  | .mirror _ | .context => .err 2
  | .bank b _ _ =>
    match bankAns (vget s.banks b) (BitVec.ofNat 16 (0x0A01 + n)) with
    | .denied => .err 2
    | .notOn => .err 5
    | .held => .wait
    | .served => .go
  | .store => if s.power.state == .quiet then .wait else .go
  | .host k off =>
    match bondAns s k with
    | .go => if (apertureAddr (vget s.link.bond k) off).isNone then .err 1 else if 3 ≤ vget (vget s.link.bond k).credits 3 then .go else .wait
    | x => x

/-- The access that a channel would make next: its read, or its write once the beat is at hand. -/
def beatAns (s : State) (n : Nat) : BeatAns :=
  let c := vget s.fetch.ch n
  match c.queue with
  | [] => .wait
  | d :: _ =>
    if c.outstanding.isSome || (d.pin.isSome && c.beatsDone == c.beatsTotal) then .wait else
    let r := if c.staged.isSome then BeatAns.go else readAns s n (d.src + beatOffset c)
    match r with
    | .go => if d.pin.isSome then .go else writeAns s n (d.dst + beatOffset c)
    | x => x

/-- A channel is ready (R325): a bus error is taken as its next access. -/
def fetchReady (s : State) (n : Nat) : Bool :=
  let c := vget s.fetch.ch n
  (c.ch == .running || c.ch == .preempted) && (match beatAns s n with | .go | .err _ => true | _ => false)

def fetchPrio (s : State) (n : Nat) : Nat := fld (vget s.fetch.ch n).cfg 1 0

/-- The channel served next: highest priority, rotating in ascending order among equals (R325). -/
def fetchPick (s : State) : Option Nat :=
  let ready := (List.range 32).filter (fetchReady s)
  let top := (ready.map (fetchPrio s)).foldl max 0
  let cand := ready.filter fun n => fetchPrio s n == top
  match cand.find? fun n => decide (s.fetch.last.val < n) with
  | some n => some n
  | none => cand.head?

/-- RUNNING and PREEMPTED follow the readiness of channels of higher priority (R324). -/
def fetchPreempt (s : State) : State :=
  let ready := (List.range 32).filter (fetchReady s)
  { s with fetch := { s.fetch with ch := Vector.ofFn fun i =>
      let c := vget s.fetch.ch i
      let ovs := ready.any fun n => fetchPrio s i < fetchPrio s n
      if c.ch == .running && ovs then { c with ch := .preempted, preemptions := wrapAdd 32 c.preemptions 1 }
      else if c.ch == .preempted && !ovs then { c with ch := .running }
      else c } }

/-- Bytes of a pin that a descriptor has copied once it has moved so many bytes (R209). -/
def copiedBytes (s : State) (p : PinSt) (d : FetchDesc) (moved : Nat) : Nat :=
  match ringOf s p.ring with
  | some r => (d.src - r.base + ringSize r - p.firstPos % ringSize r) % ringSize r + moved
  | none => 0

/-- A beat has been written (R326): counts, HALF, FULL, and the next descriptor after the last. -/
def beatDone (n : Nat) (s : State) : State :=
  let s := fetchMod n (fun c => { c with beatsDone := c.beatsDone + 1, bytesMoved := wrapAdd 64 c.bytesMoved 64, staged := none, heldSince := none }) s
  let c := vget s.fetch.ch n
  match c.queue with
  | [] => s
  | d :: q =>
    let s := if bitAt d.flags 0 && c.beatsDone == (c.beatsTotal + 1) / 2 then evFetch 1 n s else s
    let s := match d.pin with
      | none => s
      | some k => { s with events := { s.events with pins := s.events.pins.map fun p =>
          if (p.record, p.span) == k && p.state == .copying then pinTook s (p.firstPos + copiedBytes s p d (c.beatsDone * 64)) p else p } }
    if c.beatsDone == c.beatsTotal then
      let s := if bitAt d.flags 1 then evFetch 2 n s else s
      fetchMod n (fun c => let c := { c with transfers := wrapAdd 32 c.transfers 1 }
        if d.pin.isSome && (q.head?.bind (·.pin)) != d.pin then { c with ch := .running } else fetchNext s.grade { c with queue := q }) s
    else s

/-- The data of a read from the device's own memory. -/
def beatRead (s : State) (a : Addr) : Bytes := viewBytes s a 64

/-- Ask the host for a beat (R485, R486). -/
def hostAsk (n : Nat) (k off : Nat) (s : State) : State :=
  let b := vget s.link.bond k
  match apertureAddr b off with
  | none => s
  | some a =>
    let tag := b.nextTag
    let s := fetchMod n (fun c => { c with outstanding := some tag }) s
    let s := linkSend k { ttype := 3, vc := 3, tag := tag, rlen := 64, addr := a } s
    { s with link := { s.link with bond := vmod s.link.bond k fun b => { b with
        nextTag := tag % 65535 + 1, reads := b.reads ++ [{ tag := tag, addr := a, len := 64, since := s.cyc, fetch := some (Fin.ofNat 32 n) }] } } }

/-- Note the denial or failure at the bank behind a bus error (R311, R317). -/
def beatBankNote (n : Nat) (a : Addr) (write : Bool) (kind : Nat) (s : State) : State :=
  match regionOf s.grade a with
  | .bank b _ _ =>
    let who := BitVec.ofNat 16 (0x0A01 + n)
    if kind = 2 then bankDeny b who write s else if kind = 5 then bankFail b who s else s
  | _ => s

/-- One beat of channel n (R325 to R328). -/
def fetchBeatOf (n : Nat) (s : State) : State :=
  let c := vget s.fetch.ch n
  match c.queue with
  | [] => s
  | d :: q =>
    if d.pin.any (fun k => !s.events.pins.any fun p => (p.record, p.span) == k && p.state == .copying) then
      fetchMod n (fun c => fetchNext s.grade { c with queue := q }) s
    else if d.pin.isSome && c.beatsDone == c.beatsTotal then s
    else
    let ra := d.src + beatOffset c
    let wa := d.dst + beatOffset c
    let put := fun (data : Bytes) (s : State) =>
      if d.pin.isSome then beatDone n s else
      match writeAns s n wa with
      | .err k => fetchHalt n k 1 wa (beatBankNote n wa true k s)
      | .go => beatDone n (devWrite (BitVec.ofNat 16 (0x0A01 + n)) 2 wa data s)
      | _ => fetchMod n (fun c => { c with staged := some data }) s
    match c.staged with
    | some data => put data s
    | none =>
      match readAns s n ra with
      | .err k => fetchHalt n k 0 ra (beatBankNote n ra false k s)
      | .go =>
        match regionOf s.grade ra with
        | .host k off => hostAsk n k off s
        | _ => put (beatRead s ra) s
      | _ => s

/-- The mark from which a beat is held at a bond's aperture (R327). -/
def fetchHold (s : State) : State :=
  { s with fetch := { s.fetch with ch := Vector.ofFn fun i =>
      let c := vget s.fetch.ch i
      if (c.ch == .running || c.ch == .preempted) && beatAns s i == .bondWait then
        { c with heldSince := some (c.heldSince.getD s.cyc) } else { c with heldSince := none } } }

/-- A cycle of Fetch (R325). -/
def fetchBeat (s : State) : State :=
  let s := fetchHold (fetchPreempt s)
  match fetchPick s with
  | some n => fetchBeatOf n { s with fetch := { s.fetch with last := Fin.ofNat 32 n } }
  | none => s

/-- FETCH.START (R322, R323, R333). -/
def vFetchStart : Verb where
  op := 0x1001
  fits := fun s h => isA s .fetchCh h
  checks := fun c s =>
    let d := fetchDesc c
    let ch := vget s.fetch.ch (idx c.unit)
    [badArg (d.src % 64 != 0 || d.dst % 64 != 0 || d.length % 64 != 0), badArg (d.length < 64 || 2 ^ 36 < d.length),
     badArg (!fetchRange s.grade d.src d.length), badArg (!fetchRange s.grade d.dst d.length), busy (16 ≤ ch.queue.length), badState (ch.ch == .halted)]
  act := fun c s =>
    let n := idx c.unit
    okWith (fetchQueue n (fetchDesc c) s) (le 1 (vget s.fetch.ch n).queue.length)

/-- FETCH.CONFIGURE (R331, R333). -/
def vFetchConfigure : Verb where
  op := 0x1002
  fits := fun s h => isA s .fetchCh h
  checks := fun c _ => [badArg (anySet (argW c 0 32) [(31, 2)])]
  act := fun c s => ok (fetchMod (idx c.unit) (fun x => { x with cfg := argW c 0 32 }) s)

/-- FETCH.ABORT (R324, R333). -/
def vFetchAbort : Verb where
  op := 0x1003
  fits := fun s h => isA s .fetchCh h
  checks := fun c s => [badState ((vget s.fetch.ch (idx c.unit)).ch == .idle)]
  act := fun c s =>
    let n := idx c.unit
    let beats := (vget s.fetch.ch n).beatsDone
    okWith (fetchMod n (fun x => fetchNext s.grade { x with queue := if argBit c 0 0 then [] else x.queue.drop 1 }) (evFetch 4 n s)) (le 8 beats)

/-- FETCH.CLEAR (R329, R333). -/
def vFetchClear : Verb where
  op := 0x1004
  fits := fun s h => isA s .fetchCh h
  checks := fun c s => [badState ((vget s.fetch.ch (idx c.unit)).ch != .halted), badArg (1 < argN c 0 1)]
  act := fun c s =>
    let n := idx c.unit
    ok (fetchMod n (fun x =>
      let x := { x with errKind := 0, errSide := 0, errAddr := 0, staged := none, heldSince := none }
      if argN c 0 1 = 1 then { x with ch := .running, queue := if argBit c 1 0 then x.queue.take 1 else x.queue }
      else fetchNext s.grade { x with queue := if argBit c 1 0 then [] else x.queue.drop 1 }) s)

/-- FETCH.STATUS (R333, R334). -/
def vFetchStatus : Verb where
  op := 0x1005
  fits := fun s h => isA s .fetchCh h
  act := fun c s =>
    let n := idx c.unit
    let x := vget s.fetch.ch n
    let res := le 1 (unitState s c.unit) ++ le 1 (match x.ch with | .idle => 0 | .running => 1 | .preempted => 2 | .halted => 3) ++ le 1 (fld x.cfg 1 0) ++
      le 1 x.queue.length ++ le 8 x.beatsDone ++ le 8 x.beatsTotal ++ le 1 x.errKind ++ le 1 x.errSide ++ le 1 (b2n x.order) ++ [0] ++ le 6 x.errAddr ++ le 2 0 ++
      le 8 x.bytesMoved ++ le 4 x.transfers ++ le 4 x.preemptions
    okWith (if argBit c 0 0 then fetchMod n (fun x => { x with bytesMoved := 0, transfers := 0, preemptions := 0 }) s else s) res

/-- Re-initialisation of a channel (R332, R334): its transfer is aborted and its queue discarded; the priority stays. -/
def fetchReinit (n : Nat) (s : State) : State := fetchMod n (fun c => { cfg := c.cfg }) s

def execFetchStart (c : Cmd) (s : State) : Host.Outcome State Fault Refusal := settle s (runVerb vFetchStart c s)
def execFetchConfigure (c : Cmd) (s : State) : Host.Outcome State Fault Refusal := settle s (runVerb vFetchConfigure c s)
def execFetchAbort (c : Cmd) (s : State) : Host.Outcome State Fault Refusal := settle s (runVerb vFetchAbort c s)
def execFetchClearAbandon (c : Cmd) (s : State) : Host.Outcome State Fault Refusal := settle s (runVerb vFetchClear (withByte c 0 0) s)
def execFetchClearRetry (c : Cmd) (s : State) : Host.Outcome State Fault Refusal := settle s (runVerb vFetchClear (withByte c 0 1) s)
def execFetchStatus (c : Cmd) (s : State) : Host.Outcome State Fault Refusal := settle s (runVerb vFetchStatus c s)
def execFetchBeat (s : State) : Host.Outcome State Fault Refusal := settle s (fetchBeat s)

/-- A beat held at an aperture for 100 ms is a bus error of the BOND_DOWN kind (R327). -/
def execFetchBondDownTimeout (ch : Fin 32) (s : State) : Host.Outcome State Fault Refusal :=
  settle s (
    let c := vget s.fetch.ch ch
    match c.heldSince, c.queue with
    | some t, d :: _ =>
      if 100 * msC ≤ since s t then
        let read := c.staged.isNone && (match regionOf s.grade (d.src + beatOffset c) with | .host _ _ => true | _ => false)
        if read then fetchHalt ch 4 0 (d.src + beatOffset c) s else fetchHalt ch 4 1 (d.dst + beatOffset c) s
      else s
    | _, _ => s)

end Sys2Proof.Machine
end

