-- ==== Sys2Proof/Machine/Store.lean ====
section
/-! DEFINITION. The capture store's channels (R270 to R291, R296): scheduling, refresh, retraining, scrubbing, check codes, dozing, and the STORE verbs that need no admission. -/
set_option Elab.async false
namespace Sys2Proof.Machine
open Sys2Proof

/-- Channel of a store address (R272). -/
def chanOf (g : Grade) (a : Addr) : Nat :=
  let n := (a - 0x000100000000) / 256
  let q := n / nCh g
  (n % nCh g) ^^^ (q % nCh g)

/-- Bank of a store address within its channel (R272). -/
def sbankOf (g : Grade) (a : Addr) : Nat := ((a - 0x000100000000) / 256 / nCh g) % 96

/-- Granule position of a store address within its bank (R272). -/
def posOf (g : Grade) (a : Addr) : Nat := (a - 0x000100000000) / 256 / nCh g / 96

/-- The address that a channel, bank, position and byte name (R272, inverted). -/
def storeAddr (g : Grade) (ch bank pos byte : Nat) : Addr :=
  let q := pos * 96 + bank
  0x000100000000 + (q * nCh g + (ch ^^^ (q % nCh g))) * 256 + byte

/-- Address of the q-th granule of a channel (R272, inverted). -/
def granuleAddr (g : Grade) (ch q : Nat) : Addr := 0x000100000000 + (q * nCh g + (ch ^^^ (q % nCh g))) * 256

/-- Change channel c of the store. -/
def schMod (c : Nat) (f : StoreCh → StoreCh) (s : State) : State := { s with store := { s.store with chans := vmod s.store.chans c f } }

/-- Change stack k. -/
def stackMod (k : Nat) (f : StackSt → StackSt) (s : State) : State := { s with store := { s.store with stks := vmod s.store.stks k f } }

/-- Bytes of a skid buffer in use (R290). -/
def skidBytes (k : SkidSt) : Nat := (k.blocks.map List.length).sum

/-- Capacity of an input's skid buffer: 1 MB, 2 MB when paired (R290). -/
def skidSize (s : State) (i : Nat) : Nat := if bitAt (vget s.inputs i).cfg 3 then 0x200000 else 0x100000

/-- The input whose skid buffer drains through an ingest port: a paired input uses the ports of both (R290). -/
def skidOf (s : State) (i : Nat) : Nat := if bitAt (vget s.inputs (i / 2 * 2)).cfg 3 then i / 2 * 2 else i

/-- The skid buffer behind an ingest port holds 50 % or more (R290). -/
def skidHalf (s : State) (i : Nat) : Bool := skidSize s (skidOf s i) ≤ 2 * skidBytes (vget s.store.skid (skidOf s i))

/-- Place of a port among the 18 (R279). -/
def portIdx (rank sub : Nat) : Nat := if rank = 1 then sub else rank + 6

/-- The port of a request (R279). -/
def portOf (s : State) (r : StoreReq) : PortSt := s.store.ports.getD (portIdx r.rank r.sub) ⟨0, 0, 0, 0⟩

/-- Change one port. -/
def portMod (i : Nat) (f : PortSt → PortSt) (s : State) : State :=
  { s with store := { s.store with ports := s.store.ports.zipIdx.map fun (p, k) => if k = i then f p else p } }

/-- Latency of a request so far, in ns (R280). -/
def reqAge (s : State) (r : StoreReq) : Nat := 10 * (s.cyc - r.arrived)

/-- Urgency of a request (R280, R290). -/
def urgency (s : State) (r : StoreReq) : Nat :=
  let t := (portOf s r).target
  let a := reqAge s r
  if r.rank = 1 && skidHalf s r.sub then 3
  else if 10 * a ≥ 9 * t then 3 else if 4 * a ≥ 3 * t then 2 else if 2 * a ≥ t then 1 else 0

/-- Turns that a port still waits in the ingest rotation (R281). -/
def turns (last sub : Fin 8) : Nat := (sub.val + 7 - last.val) % 8

/-- The next request: urgency, then rank, then the rotation among ingest ports, then age (R281). -/
def pickReq (s : State) (c : StoreCh) : Option StoreReq :=
  c.queue.foldl (fun best r =>
    match best with
    | none => some r
    | some b =>
      if urgency s b < urgency s r then some r
      else if urgency s r = urgency s b && r.rank < b.rank then some r
      else if urgency s r = urgency s b && r.rank = b.rank && turns c.lastSub r.sub < turns c.lastSub b.sub then some r
      else if urgency s r = urgency s b && r.rank = b.rank && r.sub = b.sub && r.arrived < b.arrived then some r
      else some b) none

/-- A correctable error (R276). -/
def eccCorrect (k : Nat) (s : State) : State :=
  let x := vget s.store.stks k
  let n := x.corrSince + 1
  let due := match x.corrEvAt with | none => true | some c => decide (secC ≤ since s c)
  let s := stackMod k (fun x => { x with eccCorrected := wrapAdd 32 x.eccCorrected 1, corrSince := if due then 0 else n,
                                         corrEvAt := if due then some s.cyc else x.corrEvAt }) s
  if due then raise (0x90 + 4 * k) 1 (0x0801 + k) (le 4 n) s else s

/-- A request whose port's whole target has elapsed (R280). -/
def reqLate (s : State) (r : StoreReq) : Bool := !r.late && (portOf s r).target ≤ reqAge s r

/-- Requests of a channel that are still waiting after their target count once in their port's LATE (R280). -/
def lateCount (ch : Nat) (s : State) : State :=
  let s' := ((vget s.store.chans ch).queue.filter (reqLate s)).foldl (fun t r => portMod (portIdx r.rank r.sub) (fun p => { p with late := wrapAdd 32 p.late 1 }) t) s
  schMod ch (fun c => { c with queue := c.queue.map fun r => { r with late := r.late || reqLate s r } }) s'

/-- An uncorrectable error: the word keeps it, with the event and the entry (R277). -/
def eccFail (k rank : Nat) (a : Addr) (s : State) : State :=
  let w := a / 32 * 32
  let s := stackMod k (fun x => { x with eccUncorrectable := wrapAdd 32 x.eccUncorrectable 1 }) s
  let s := { s with store := { s.store with badWords := if s.store.badWords.contains w then s.store.badWords else s.store.badWords ++ [w] } }
  let s := raise (0x90 + 4 * k) 2 (0x0801 + k) (le 6 w ++ le 1 rank) s
  boxNow 1 0x0403 (0x0801 + k) (le 6 w ++ le 1 rank) s

/-- A ring stops for an error of the store (R277, R345). -/
def ringLost (r : RingCtx) (s : State) : State := match ringHalt s r with | (r, ev) => emit ev (ringSet r s)

/-- A ring manager that cannot read a context stops its ring (R277). -/
def contextLost (a : Addr) (s : State) : State :=
  match regionOf s.grade a with
  | .context => match ringOf s ((a - rcb s.grade) / 64) with
    | some r => ringLost r s
    | none => s
  | _ => s

/-- A write that finds its word uncorrectable stops the ring that the word belongs to (R275, R345). -/
def writeLost (a : Addr) (s : State) : State :=
  match s.rings.find? fun r => r.base ≤ a && a < r.base + ringSize r with
  | some r => ringLost r s
  | none => s

/-- What the check symbols of an access show. -/
def eccTake (ch rank : Nat) (a : Addr) (e : Ecc) (s : State) : State :=
  match e with
  | .clean => s
  | .corrected => eccCorrect (ch / 16) s
  | .uncorrectable => eccFail (ch / 16) rank a s

/-- A read of a word that keeps its error finds it again (R277). -/
def eccOf (s : State) (r : StoreReq) (a : Addr) (e : Ecc) : Ecc :=
  if !r.write && s.store.badWords.contains (a / 32 * 32) then .uncorrectable else e

/-- Owed refreshes whose bank has no queued request are paid once no burst is in progress (R285). -/
def payOwed (g : Grade) (c : StoreCh) : StoreCh :=
  if c.burst.isSome then c else { c with owed := c.owed.filter fun b => c.queue.any fun r => sbankOf g r.addr == b }

/-- A retraining pause begins (R287, R288). -/
def pauseRun (ch : Nat) (s : State) : State :=
  stackMod (ch / 16) (fun x => { x with pauses := wrapAdd 32 x.pauses 1 }) (schMod ch (fun c => { c with pauseDue := false, pausedAt := some s.cyc }) s)

/-- A channel stands in its retraining pause, which takes its whole 2 µs (R287). -/
def pausing (s : State) (c : StoreCh) : Bool := c.pausedAt.any fun t => decide (since s t < 2 * usC)

/-- A pause that is over: what fell due during it is paid first (R288). -/
def pauseOver (s : State) (c : StoreCh) : StoreCh := if pausing s c then c else { c with pausedAt := none, pauseOwed := [] }

/-- A store rate change runs, is queued or arrives. -/
def rateChanging (s : State) : Bool := (s.maint.running ++ s.maint.queue ++ s.maint.arrived).any fun r => r.activity == 1

/-- A rate change holds new requests at the ports: 50 µs after its grant, once the timing is loaded (R293). -/
def storeHeld (s : State) : Bool := s.maint.running.any fun r => r.activity == 1 && 50 * usC ≤ since s r.since

/-- Ports are held: a rate change stops the store, or it dozes (R293, R296). -/
def portsHeld (s : State) : Bool := s.store.dozing || s.store.selfRefresh || storeHeld s

/-- The channels of stack k stall while the synthesiser of its PHY has lost lock (R389, R390). -/
def stackStalled (s : State) (k : Nat) : Bool := (vget s.synth.loop (4 + k)).stallSince.isSome || (vget s.synth.loop (4 + k)).lock == .fault

/-- Some stack stalls, and with it every stream that crosses it (R272, R389). -/
def storeStalled (s : State) : Bool := (List.range (nStacks s.grade)).any (stackStalled s)

/-- The access of a burst that comes k accesses after its first: the granule of the same channel that lies k further on. -/
def burstAddr (g : Grade) (ch : Nat) (a : Addr) (k : Nat) : Addr :=
  let q := (a - 0x000100000000) / 256 / nCh g
  if k = 0 then a else granuleAddr g ch ((q + k) % (96 * 65536)) + a % 256

/-- A request as it reaches its port. -/
def asArrived (r : StoreReq) : StoreReq := { r with late := false, burst := min 32 (max 1 r.burst) }

/-- The scheduler of a channel chooses its next access (R280, R281, R285): the state after it, and the access with its address. -/
def storePick (ch : Nat) (arrivals : List StoreReq) (s : State) : State × Option (StoreReq × Addr) :=
  let ok := arrivals.filter fun r => regionOf s.grade r.addr == .store || regionOf s.grade r.addr == .context
  let s := lateCount ch (schMod ch (fun c => { pauseOver s c with queue := c.queue ++ ok.map asArrived }) s)
  if portsHeld s || stackStalled s (ch / 16) || pausing s (vget s.store.chans ch) then (s, none) else
  let s := schMod ch (fun c => match c.forced with
    | some b => { c with forced := none, owed := c.owed.erase b }
    | none => c) s
  let c := vget s.store.chans ch
  match c.burst with
  | some (r, n) =>
    let s := schMod ch (fun c => { c with burst := if n ≤ 1 then none else some (r, n - 1) }) s
    let s := if n ≤ 1 && c.pauseDue then pauseRun ch s else s
    (schMod ch (payOwed s.grade) s, some (r, burstAddr s.grade ch r.addr (r.burst - n)))
  | none =>
    match pickReq s c with
    | none => (schMod ch (payOwed s.grade) s, none)
    | some r =>
      let burst := (r.rank == 1 || r.rank == 4 || r.rank == 5) && 1 < r.burst
      let s := portMod (portIdx r.rank r.sub) (fun p => { p with requests := p.requests + 1, maxLat := max p.maxLat (reqAge s r) }) s
      let s := schMod ch (fun c => { c with queue := c.queue.erase r, lastSub := if r.rank = 1 then r.sub else c.lastSub,
                                            burst := if burst then some (r, r.burst - 1) else none }) s
      let s := if s.power.state == .quiet then { s with store := { s.store with lastAccess := s.cyc } } else s
      (schMod ch (payOwed s.grade) s, some (r, r.addr))

/-- A per-bank refresh falls due (R283, R285, R288). -/
def refreshDue (ch : Nat) (s : State) : State :=
  if nCh s.grade ≤ ch || s.store.dozing || s.store.selfRefresh then s else
  let c := vget s.store.chans ch
  let b := c.nextBank
  let s := schMod ch (fun c => { pauseOver s c with nextBank := (b + 1) % 96 }) s
  if c.burst.isNone && !pausing s c then s else
  let s := stackMod (ch / 16) (fun x => { x with postponed := wrapAdd 32 x.postponed 1 }) s
  if c.burst.isNone then schMod ch (fun c => { c with pauseOwed := c.pauseOwed ++ [b] }) s
  else if (c.owed.filter (· == b)).length < 4 then schMod ch (fun c => { c with owed := c.owed ++ [b] }) s
  else stackMod (ch / 16) (fun x => { x with forcedCount := wrapAdd 32 x.forcedCount 1 })
    (schMod ch (fun c => { c with forced := some b, owed := c.owed ++ [b] }) s)

/-- Cycle of the retraining pauses, 250 ms (R287). -/
def pausePeriod : Nat := 250 * msC

/-- Retraining pauses of channel c that have come due in the present cycle of pauses (R287). -/
def pauseCount (s : State) (c : Nat) : Nat :=
  let at0 := s.store.pauseBase + c * pausePeriod / nCh s.grade
  if s.cyc < at0 then 0 else (s.cyc - at0) / pausePeriod + 1

/-- A retraining pause falls due (R287, R288): it runs, waits for the burst in progress, or is skipped while a rate change is pending or the
store is in self-refresh. -/
def pauseDue (ch : Nat) (s : State) : State :=
  if nCh s.grade ≤ ch || pauseCount s ch ≤ (vget s.store.chans ch).pausesDone then s else
  let s := schMod ch (fun c => { c with pausesDone := pauseCount s ch }) s
  if rateChanging s || s.store.dozing || s.store.selfRefresh then s
  else if (vget s.store.chans ch).burst.isSome then schMod ch (fun c => { c with pauseDue := true }) s
  else pauseRun ch s

/-- The cycle of every channel's pauses begins again 250 ms from now (R288). -/
def pauseRestart (s : State) : State :=
  { s with store := { s.store with pauseBase := s.cyc + pausePeriod, chans := s.store.chans.map fun c => { c with pausesDone := 0, pauseDue := false } } }

/-- The word that a scrub read of a granule reports: one that keeps its error, else the granule's first. -/
def scrubWord (s : State) (a : Addr) : Option Addr := s.store.badWords.find? fun w => a ≤ w && w < a + 256

/-- The scrubber reads the next granule of a channel (R278), as the ring manager's port. -/
def scrub (ch : Nat) (e : Ecc) (s : State) : State :=
  if nCh s.grade ≤ ch || !bitAt s.store.cfg 3 || portsHeld s || stackStalled s (ch / 16) then s else
  let q := (vget s.store.chans ch).scrub
  let a := granuleAddr s.grade ch q
  let s' := schMod ch (fun c => { c with scrub := (q + 1) % (96 * 65536) }) s
  match scrubWord s a with
  | some w => eccTake ch 3 w .uncorrectable s'
  | none => eccTake ch 3 a e s'

/-- RATE_STATE (R300). -/
def rateState (s : State) : Nat := fld s.store.cfg 1 0

/-- STORE.CONFIGURE (R300, R303): RATE_STATE is read-only. -/
def vStoreConfigure : Verb where
  op := 0x0E01
  fits := fun s h => isA s .store h
  checks := fun c _ => [badArg (fld (argW c 0 32) 15 8 == 0), badArg (anySet (argW c 0 32) [(7, 4), (31, 16)])]
  act := fun c s => ok { s with store := { s.store with cfg := setFld (argW c 0 32) 1 0 (rateState s) } }

/-- STORE.PORT (R279, R303). -/
def vStorePort : Verb where
  op := 0x0E03
  fits := fun s h => isA s .store h
  checks := fun c _ => [badArg (argN c 0 1 < 9 || 11 < argN c 0 1), badArg (argN c 4 4 < 1000 || 65535 < argN c 4 4)]
  act := fun c s =>
    ok (portMod (portIdx (argN c 0 1) 0) (fun p => { p with target := argN c 4 4 }) s)

/-- STORE.RETRAIN (R289, R303). -/
def vStoreRetrain : Verb where
  op := 0x0E04
  fits := fun s h => isA s .stack h
  checks := fun c s => [busy (maintHas s 2 c.unit)]
  act := fun c s => later (maintAsk 2 c.unit 0 0 (some c) 0x0E04 s)

/-- A port's figures at zero. -/
def portClear (p : PortSt) : PortSt := { p with late := 0, maxLat := 0, requests := 0 }

/-- STORE.PORT_STATUS (R303): the 18 ports of R279 in rank order, the ingest ports by input. -/
def vStorePortStatus : Verb where
  op := 0x0E06
  fits := fun s h => isA s .store h
  checks := fun c s => [badArg (!spanOk s (argN c 0 6) 288)]
  act := fun c s =>
    let s := (List.range 64).foldl (fun s ch => lateCount ch s) s
    let s := destWrite (argN c 0 6) (s.store.ports.flatMap fun p => le 4 p.target ++ le 4 p.late ++ le 4 p.maxLat ++ le 4 (p.requests / 1000000)) s
    ok (if argBit c 8 0 then { s with store := { s.store with ports := s.store.ports.map portClear } } else s)

/-- Every channel of a stack has been retrained (R289). -/
def retrainDone (st : Nat) (failed : BitVec 16) (s : State) : State :=
  match maintRunning s 2 (BitVec.ofNat 16 (0x0801 + st)) with
  | none => s
  | some r =>
    let bad := (List.range 16).filter fun i => bitAt failed i
    let s := stackMod st (fun x => { x with degraded := !bad.isEmpty }) s
    let pause := le 4 (10 * since s r.since)
    let s := if bad.isEmpty then raise (0x92 + 4 * st) 1 (0x0801 + st) (le 1 (rateState s) ++ le 3 0 ++ pause) s
      else raise (0x92 + 4 * st) 2 (0x0801 + st) (le 1 (rateState s) ++ le 1 (bad.headD 0) ++ le 2 bad.length ++ pause) s
    completeO r.cmd 0x0E04 (if bad.isEmpty then OK else FAULT) [] (maintEnd r s)

def execStoreConfigure (c : Cmd) (s : State) : Host.Outcome State Fault Refusal := settle s (runVerb vStoreConfigure c s)
def execStorePort (c : Cmd) (s : State) : Host.Outcome State Fault Refusal := settle s (runVerb vStorePort c s)
def execStoreRetrain (c : Cmd) (s : State) : Host.Outcome State Fault Refusal := settle s (runVerb vStoreRetrain c s)
def execStoreRetrainDone (st : Fin 4) (failed : BitVec 16) (s : State) : Host.Outcome State Fault Refusal := settle s (retrainDone st failed s)
def execStorePortStatus (c : Cmd) (s : State) : Host.Outcome State Fault Refusal := settle s (runVerb vStorePortStatus c s)
def execPerBankRefresh (ch : Fin 64) (s : State) : Host.Outcome State Fault Refusal := settle s (refreshDue ch s)
def execRetrainPause (ch : Fin 64) (s : State) : Host.Outcome State Fault Refusal := settle s (pauseDue ch s)
def execScrubRead (ch : Fin 64) (ecc : Ecc) (s : State) : Host.Outcome State Fault Refusal := settle s (scrub ch ecc s)

/-- The store wakes for a held access (R296). -/
def execStoreWake (s : State) : Host.Outcome State Fault Refusal := settle s (if s.store.dozing then storeTouch s else s)

/-- With no access for 1 ms in QUIET the store pays its owed refreshes and dozes again (R296). -/
def execStoreDoze (s : State) : Host.Outcome State Fault Refusal :=
  settle s (if s.power.state == .quiet && !s.store.dozing && msC ≤ since s s.store.lastAccess && s.store.chans.toList.all (·.queue.isEmpty) then
    { s with store := { s.store with dozing := true, chans := s.store.chans.map fun c => { c with owed := [], forced := none } } }
  else s)

end Sys2Proof.Machine
end

