-- ==== Sys2Proof/Machine/Inputs.lean ====
section
/-! DEFINITION. RF inputs (R55 to R87): settings, attenuation, arrangements, streams, data blocks, overload and the skid buffers. -/
set_option Elab.async false
namespace Sys2Proof.Machine
open Sys2Proof

/-- Change input i. -/
def inMod (i : Nat) (f : InSt → InSt) (s : State) : State := { s with inputs := vmod s.inputs i f }

/-- Change calibrator i. -/
def calMod (i : Nat) (f : CalSt → CalSt) (s : State) : State := { s with cals := vmod s.cals i f }

/-- The pair of input i is paired (R59, R83). -/
def inPaired (s : State) (i : Nat) : Bool := bitAt (vget s.inputs i).cfg 3

/-- Input i is paired out (R60). -/
def pairedOut (s : State) (i : Nat) : Bool := i % 2 == 1 && inPaired s i

/-- FORMAT is wideband (R83). -/
def isWide (s : State) (i : Nat) : Bool := bitAt (vget s.inputs i).cfg 1

/-- N_WORD in force on the die of input i (R374). -/
def dieN (s : State) (i : Nat) : Nat := (vget s.synth.loop (dieOf i)).n.toNat

/-- Converter samples in a die cycle: 2 when paired (R59). -/
def inMult (s : State) (i : Nat) : Nat := if inPaired s i then 2 else 1

/-- Converter period of input i, in 2^-32 ns (R59, R70, R374). -/
def convPeriod (s : State) (i : Nat) : Nat := roundDiv (10 * 2 ^ 64) (dieN s i * inMult s i)

/-- SAMPLE_PERIOD of the selected stream (R70); the rule names no rounding, and the model rounds to nearest (DESIGN CHOICE, log 67). -/
def samplePeriod (s : State) (i : Nat) : Nat := roundDiv (10 * 2 ^ 64 * (if isWide s i then 2 else 1)) (dieN s i * inMult s i)

/-- STREAM_RATE_KHZ of the selected stream (R70, R374), rounded to nearest (DESIGN CHOICE, log 67). -/
def streamKhz (s : State) (i : Nat) : Nat := roundDiv (dieN s i * inMult s i * 100000) (2 ^ 32 * (if isWide s i then 2 else 1))

/-- The least-squares line through markers, at a converter cycle (R405). One marker gives the line of nominal slope. -/
def markerFit (n : Nat) (l : List (Nat × Time)) (c : Nat) : Time :=
  let k : Int := l.length
  let sc : Int := (l.map fun m => (m.1 : Int)).sum
  let st : Int := (l.map fun m => (m.2 : Int)).sum
  let sct : Int := (l.map fun m => (m.1 : Int) * m.2).sum
  let scc : Int := (l.map fun m => (m.1 : Int) * m.1).sum
  let d := k * scc - sc * sc
  if d ≤ 0 then ((l.headD (0, 0)).2 + roundDivI (((c : Int) - (l.headD (0, 0)).1) * 655360 * 2 ^ 32) n).toNat
  else (roundDivI (st * d + (k * sct - sc * st) * (k * c - sc)) (k * d).toNat).toNat

/-- Markers in half converter cycles, so that each sample of a paired input has its own number (R59). -/
def halfMarks (l : List (Nat × Time)) : List (Nat × Time) := l.map fun m => (2 * m.1, m.2)

/-- Time of the converter sample `c` of the present stream of input i: on the fit of the die's markers, or, while there are none,
counted in exact periods from the stream's base (R69, R405; DEDUCED log 18). -/
def sampleTime (s : State) (i c : Nat) : Time :=
  let x := vget s.inputs i
  let ms := vget s.synth.markers (dieOf i)
  let n := dieN s i * inMult s i
  if ms.isEmpty then (((x.base.1 * n : Nat) + ((c : Int) - x.base.2) * (655360 * 2 ^ 32)) / n).toNat
  else markerFit (2 * dieN s i) (halfMarks ms) (2 * x.origin + c * (2 / inMult s i))

/-- First converter sample at or after an instant, not before `lo`: among those next to where the period puts it (R75, R79). -/
def sampleFrom (s : State) (i lo : Nat) (t : Time) : Nat :=
  let e := lo + (t - sampleTime s i lo) * 65536 / convPeriod s i
  ((span (max lo (e - 2)) (e + 4)).find? fun c => t ≤ sampleTime s i c).getD (e + 4)

/-- First converter sample at or after an instant, not before those already in blocks (R79). -/
def sampleAt (s : State) (i : Nat) (t : Time) : Nat := sampleFrom s i (vget s.inputs i).conv t

/-- Length of the wideband span of a converter span (R78). -/
def wideLen (n : Nat) : Nat := (n + 64) / 2

/-- First wideband sample whose support contains a converter sample (R65, R78). -/
def wideFirst (c : Nat) : Nat := (c - 31 + 1) / 2

/-! ### Invalid spans (R72, R73, R78) -/

/-- A span joins those that it overlaps or touches (R73). -/
def addSpan (p : Span) (l : List Span) : List Span :=
  let m := l.filter fun q => p.first ≤ q.stop && q.first ≤ p.stop
  (l.filter fun q => !(p.first ≤ q.stop && q.first ≤ p.stop)) ++ [⟨m.foldl (fun a q => min a q.first) p.first, m.foldl (fun a q => max a q.stop) p.stop⟩]

/-- Where an invalid span that was to end at `e` ends: with the span that it is part of (R73), or none yet while that span is open. -/
def spanEnd (spans : List Span) (opn : Option Nat) (e : Nat) : Option Nat :=
  if opn.any fun o => o < e then none else some (((spans.find? fun p => p.first < e && e ≤ p.stop).map (·.stop)).getD e)

/-- Where it ends in the selected stream, as a converter sample; `wide` is its end in the wideband stream. -/
def selEnd (s : State) (i e wide : Nat) : Option Nat :=
  let x := vget s.inputs i
  if isWide s i then (spanEnd x.wspans x.wopenSpan wide).map (2 * ·) else spanEnd x.spans x.openSpan e

/-! ### Pending changes -/

/-- A switch of a given cause waits on input i (R355). -/
def switchIs (s : State) (i cause : Nat) : Bool := (vget s.inputs i).switch.any fun w => w.cause == cause

/-- An attenuator or arrangement change of one input is pending: from its acceptance until its invalid span ends (R85). -/
def changePending1 (s : State) (i : Nat) : Bool :=
  let x := vget s.inputs i
  x.attenReq.isSome || x.attenSpan.isSome || switchIs s i 1 || x.arrangeSpan.isSome

/-- An attenuator or arrangement change is pending on the pair of input i (R85). -/
def attenPending (s : State) (i : Nat) : Bool := changePending1 s (i / 2 * 2) || changePending1 s (i / 2 * 2 + 1)

/-- Inputs of a die. -/
def dieInputs (d : Nat) : List Nat := [4 * d, 4 * d + 1, 4 * d + 2, 4 * d + 3]

/-- An arrangement change is running or pending on a die (R99, R380). -/
def arrangeOnDie (s : State) (d : Nat) : Bool := (dieInputs d).any fun i => switchIs s i 1 || (vget s.inputs i).arrangeSpan.isSome

/-- A sample-rate change or realignment is running or pending on a die (R99, R380). -/
def rateOnDie (s : State) (d : Nat) : Bool := (vget s.synth.ref.changes d).isSome

/-- A sample-rate change, a realignment or a re-initialisation of one input is pending: from its acceptance until its invalid span ends
(R78, R85; that an enable, which leaves no invalid span, is no pending change is the model's reading, log 27). -/
def restartPending1 (s : State) (i : Nat) : Bool :=
  let x := vget s.inputs i
  switchIs s i 2 || switchIs s i 3 || x.rateSpan.isSome || (x.running && rateOnDie s (dieOf i))

/-- A change of any kind is pending on the pair of input i (R85). -/
def changePending (s : State) (i : Nat) : Bool :=
  attenPending s i || restartPending1 s (i / 2 * 2) || restartPending1 s (i / 2 * 2 + 1)

/-- A foreground calibration runs on a die. -/
def fgOnDie (s : State) (d : Nat) : Bool := (dieInputs d).any fun i => (vget s.cals i).fg.isSome

/-- What pauses the background trims of input i (R99, R106). -/
def calPauses (s : State) (i : Nat) : Bool :=
  !(vget s.inputs i).running || arrangeOnDie s (dieOf i) || rateOnDie s (dieOf i) || fgOnDie s (dieOf i) || (vget s.inputs i).attenSpan.isSome

/-- A calibrator enters or leaves PAUSED (R92, R99). What pauses trims on a die leaves FROZEN as it is (R92); an input that does not convert
pauses its calibrator whatever the MODE (R106), which is FROZEN again afterwards (R107; DEDUCED log 42). -/
def calRefresh1 (i : Nat) (s : State) : State :=
  let p := calPauses s i
  let off := !(vget s.inputs i).running
  calMod i (fun c => match c.state with
    | .tracking | .holding => if p then { c with state := .paused, run := 0, tainted := true } else c
    | .frozen => if off then { c with state := .paused, run := 0, tainted := true } else c
    | .paused => if fld c.cfg 1 0 == 1 && !off then { c with state := .frozen, run := 0 } else if p then c else { c with state := .holding, run := 0 }
    | .foreground => c) s

/-- The calibrators of the die of input i follow what pauses them. -/
def calRefresh (d : Nat) (s : State) : State := (dieInputs d).foldl (fun s i => calRefresh1 i s) s

/-! ### What a new stream means to the down-conversion channels that it feeds -/

/-- Fields of DDC_CH (R137). -/
def ddcN (cfg : BitVec 288) : Nat := fld cfg 9 5
def ddcR (cfg : BitVec 288) : Nat := fld cfg 103 64
def ddcRate (cfg : BitVec 288) : Nat := fld cfg 175 128

/-- The wideband rate of an input is this number × 10^8 / 2^33 Hz (R114). -/
def wideRate (s : State) (i : Nat) : Nat := dieN s i * inMult s i

/-- The record with N_HB and D_R as target mode chooses them (R119). -/
def ddcResolve (s : State) (ch : Nat) (cfg : BitVec 288) : BitVec 288 :=
  if bitAt cfg 4 then cfg else
  let a := wideRate s (ddcSource ch cfg) * 10 ^ 11
  let b := 2 ^ 33 * ddcRate cfg
  if b = 0 || a < b then cfg else
  let n := min 16 (Nat.log2 (a / b))
  setFld (setFld cfg 9 5 n) 103 64 (roundDiv (a * 2 ^ 32) (b * 2 ^ n))

/-- NCO phase at a source sample (R117). -/
def ncoAt (c : DdcSt) (n : Nat) : Nat :=
  if c.accAt ≤ n then (c.acc + c.freq * BitVec.ofNat 48 (n - c.accAt)).toNat
  else match c.ncoPast.find? fun p => p.1 ≤ n with
    | some (a, f, x) => (x + f * BitVec.ofNat 48 (n - a)).toNat
    | none => (c.acc - c.freq * BitVec.ofNat 48 (c.accAt - n)).toNat

/-- Every channel of a vector with its number. -/
def ddcMap (f : Nat → DdcSt → DdcSt) (s : State) : State := { s with ddc := Vector.ofFn fun k : Fin 128 => f k.val (vget s.ddc k.val) }

/-- Where fs_w has changed, the ratio of a channel in target mode is chosen anew (R119): at once where the channel is disabled; an enabled one
has it from its restart after the gap on (R131). -/
def ddcRefit (s : State) : State := ddcMap (fun ch c => if bitAt c.cfg 0 then c else { c with cfg := ddcResolve s ch c.cfg }) s

/-- A stream of input i begins, and its sample numbers with it: a restart that waits on the old stream takes the new one's first sample. A
disabled channel has no output to restart: its accumulator goes on from the old stream's last sample, and its grid is gone (DEDUCED,
log 69). -/
def ddcFollow (i : Nat) (s : State) : State :=
  let stop := (vget s.inputs i).conv / 2
  ddcMap (fun ch c =>
    let c := if ddcSource ch (c.cfgNext.getD c.cfg) = i then { c with restart := c.restart.map fun q => { q with at_ := 0, time := now s } } else c
    if bitAt c.cfg 0 || ddcSource ch c.cfg != i then c
    else { c with acc := BitVec.ofNat 48 (ncoAt c stop), accAt := 0, ncoPast := [], synced := false, syncing := false }) s

/-! ### Streams -/

/-- An enabled input that does not convert is to start: at its first enable without a gap, later with INPUT_DISABLED, and with
ARRANGEMENT where an arrangement change has waited for it (R78, R83, R594). -/
def startStream (i : Nat) (s : State) : State :=
  let x := vget s.inputs i
  if bitAt x.cfg 0 && (!x.running || x.ending.isSome) && s.power.state == .active && x.switch.isNone then
    inMod i (fun x => { x with switch := some ⟨if x.wasEnabled then 4 else 0, bitAt x.cfg 3, 0⟩ }) s
  else s

/-- An attenuator change of an input whose stream has ended and starts no other has no first valid sample: it is complete, without an
event (R79, R80, R85; DESIGN CHOICE, log 67). -/
def attenLapse (x : InSt) : InSt :=
  if x.switch.isSome || x.running then x
  else { x with atten := ((x.attenReq.map (·.1)).orElse fun _ => x.attenSpan.map (·.1)).getD x.atten, attenReq := none, attenSpan := none }

/-- The stream of input i ends after its last block; the gap opens where it ended (R81). -/
def endStream (i cause : Nat) (s : State) : State :=
  let x := vget s.inputs i
  if x.running then
    let w := isWide s i
    let g : PendGap := ⟨cause, x.nextTime, 0, if w then x.conv / 2 else x.conv, samplePeriod s i⟩
    inMod i (fun x => attenLapse { x with running := false, ending := none, held := none, marks := (false, false), gap := some (x.gap.getD g) }) s
  else inMod i (fun x => { x with gap := x.gap.map fun g => { g with cause := cause } }) s

/-- The stream of input i is to end: with the last sample of the block in progress, where one has begun (R81). -/
def stopStream (i cause : Nat) (s : State) : State :=
  let x := vget s.inputs i
  if x.running && x.nextTime ≤ now s then inMod i (fun x => { x with ending := some cause }) s else endStream i cause s

/-- A new stream of input i begins at a converter cycle of the die, with its first samples invalid (R70, R78). Its half-band filter has no
history: R78 says so where the stream begins with invalid samples; of a re-enable and a return from QUIET, which mark none, it does
not, and the model starts them the same way (DESIGN CHOICE, log 67). -/
def beginStream (i origin settle cause : Nat) (s : State) : State :=
  let s := inMod i (fun x => { x with
    running := true, wasEnabled := true, switch := none, ending := none, held := none, calMark := none, conv := 0, origin := origin, nextTime := now s, base := (now s, 0), marks := (false, false), hist := []
    spans := if settle = 0 then [] else [⟨0, settle⟩]
    wspans := if settle = 0 then [] else [⟨0, wideLen settle⟩]
    openSpan := x.openSpan.map fun _ => 0, wopenSpan := x.wopenSpan.map fun _ => 0
    arrangeSpan := if cause = 1 && settle != 0 then some settle else none
    rateSpan := if cause != 1 && settle != 0 then some settle else none
    atten := if settle = 0 then (x.attenSpan.map (·.1)).getD x.atten else x.atten
    attenSpan := if settle = 0 then none else x.attenSpan.map fun a => (a.1, settle) }) (ddcFollow i s)
  let t := sampleTime s i 0
  inMod i (fun x => { x with nextTime := t, lastValid := if settle = 0 then t else x.lastValid }) s

/-- Input i switches streams (R81, R82, R84). -/
def switchInput (origin i : Nat) (s : State) : State :=
  match (vget s.inputs i).switch with
  | none => s
  | some w =>
    let changed := inPaired s i != w.paired
    let s := endStream i w.cause s
    let s := inMod i (fun x => { x with cfg := setBit x.cfg 3 w.paired, switch := none }) s
    let s := if changed && i % 2 == 0 then
        calMod i (fun c => { c with trims := c.stored, stored := c.trims, sums := c.storedSums, storedSums := c.sums }) s
      else s
    if bitAt (vget s.inputs i).cfg 0 && s.power.state == .active && !pairedOut s i then beginStream i origin w.settle w.cause s
    else inMod i (fun x => let y := attenLapse x; if pairedOut s i then { y with inOvl := false, ovlPeak := 0 } else y) s

/-- The build-out offset in force, ps (R370): a REALIGN slew removes 1 ps each microsecond. -/
def buildOutNow (s : State) : Int :=
  let b := s.synth.ref.buildOut
  match s.synth.ref.realignSince with
  | none => b
  | some c => let d : Int := min (since s c / usC) b.natAbs; if b < 0 then b + d else b - d

/-- STREAM_SWITCH (R81): the streams that wait at the block boundary with input i switch: its pair at an arrangement change, its die at a
rate change or realignment once the SCS is locked (R380), and input i alone otherwise. None switches while the block in progress of one of
them has still to complete (R81, R82). -/
def streamSwitch (i origin : Nat) (s : State) : State :=
  let d := dieOf i
  match (vget s.inputs i).switch with
  | none => s
  | some w =>
    let along := if w.cause = 2 then (dieInputs d).filter fun j => switchIs s j 2 else if w.cause = 1 then [i / 2 * 2, i / 2 * 2 + 1] else [i]
    if s.power.state != .active || along.any (fun j => (vget s.inputs j).ending.isSome) then s
    else if w.cause = 2 then
      match vget s.synth.ref.changes d with
      | none => s
      | some c =>
        if (vget s.synth.loop d).lock != .locked then s else
        let syn := { s.synth with
          loop := vmod s.synth.loop d fun l => { l with
            n := c.newN
            aligned := c.opcode != 0x1301 && c.opcode != 0x0101 && l.aligned
            phase := if c.opcode == 0x1301 || c.opcode == 0x0101 then some (s.cyc, buildOutNow s) else l.phase }
          markers := if c.opcode == 0x1301 || c.opcode == 0x0101 then vmod s.synth.markers d fun _ => [] else s.synth.markers
          markCount := if c.opcode == 0x1301 || c.opcode == 0x0101 then vmod s.synth.markCount d fun _ => 0 else s.synth.markCount
          ref := { s.synth.ref with changes := vmod s.synth.ref.changes d fun _ => some { c with resumed := true } } }
        let ends := (dieInputs d).foldl (fun s j => if switchIs s j 2 then endStream j 2 s else s) s
        ddcRefit (calRefresh d ((dieInputs d).foldl (fun s j => if switchIs s j 2 then switchInput origin j s else s) { ends with synth := syn }))
    else if w.cause = 1 then ddcRefit (calRefresh d (switchInput origin (i / 2 * 2 + 1) (switchInput origin (i / 2 * 2) s)))
    else calRefresh d (switchInput origin i s)

/-! ### Attenuation -/

/-- An attenuator change is asked for (R79, R85): ATTEN_DB reads as written from now on (R83). An input that does not convert takes it at
once. -/
def attenAsk (i v : Nat) (t : Time) (s : State) : State :=
  let x := vget s.inputs i
  if v = x.atten then s
  else if x.running then inMod i (fun x => { x with attenReq := some (v, t), cfg := setFld x.cfg 7 4 v }) s
  else inMod i (fun x => { x with atten := v, cfg := setFld x.cfg 7 4 v }) s

/-- ATTEN_APPLY (R79): the change takes effect at the first converter sample at or after its apply time, within the next two blocks. -/
def attenApply (i : Nat) (s : State) : State :=
  let x := vget s.inputs i
  match x.attenReq with
  | none => s
  | some (v, t) =>
    let c := sampleAt s i t
    if !x.running then inMod i (fun x => { x with atten := v, attenReq := none }) s
    else if x.conv + 1024 ≤ c then s
    else
      let w := wideFirst c
      calRefresh (dieOf i) (inMod i (fun x => { x with
        attenReq := none, attenSpan := some (v, c + 128)
        spans := addSpan ⟨c, c + 128⟩ x.spans, wspans := addSpan ⟨w, w + 96⟩ x.wspans }) s)

/-- EV_RANGE_CHANGE (R80). -/
def rangeEvent (i : Nat) (t : Time) (s : State) : State :=
  raiseAt t (0x18 + i) 0 (0x0100 + i) (le 1 (vget s.inputs i).atten ++ le 1 (b2n (inPaired s i))) s

/-- SETTLE_SPAN_END (R73, R80): the blocks have passed the end of an invalid span, which is that of the combined span where others overlap
it; the change is no longer pending. The times are those of the first valid sample of the selected stream. -/
def settleEnd (i : Nat) (s : State) : State :=
  let x := vget s.inputs i
  let past := fun (e : Option Nat) => e.filter fun e => decide (e ≤ x.conv)
  let att := past (x.attenSpan.bind fun a => selEnd s i a.2 (wideFirst (a.2 - 128) + 96))
  let arr := past (x.arrangeSpan.bind fun e => selEnd s i e (wideLen e))
  let rate := past (x.rateSpan.bind fun e => selEnd s i e (wideLen e))
  if att.isNone && arr.isNone && rate.isNone then s else
  let t := sampleTime s i (max (att.getD 0) (max (arr.getD 0) (rate.getD 0)))
  let s := inMod i (fun x => { x with
    atten := if att.isSome then (x.attenSpan.map (·.1)).getD x.atten else x.atten
    attenSpan := if att.isSome then none else x.attenSpan
    arrangeSpan := if arr.isSome then none else x.arrangeSpan
    rateSpan := if rate.isSome then none else x.rateSpan, lastValid := t }) s
  let s := if att.isSome || arr.isSome then rangeEvent i t s else s
  calRefresh (dieOf i) s

/-! ### Overload -/

/-- OVL_HOLD in 2^-16 ns (R75). -/
def ovlHold (x : InSt) : Time := fld x.ovl 31 16 * 65536000

/-- Time of the first converter sample at or after the hold time (R75): of the stream that holds the last sample that met the criterion, or,
where that has ended, in periods from it. -/
def ovlExitTime (s : State) (i : Nat) : Time :=
  let x := vget s.inputs i
  let t := x.ovlLast.2 + ovlHold x
  if x.running && x.ovlLast.1 < x.conv && sampleTime s i x.ovlLast.1 == x.ovlLast.2 then sampleTime s i (sampleFrom s i x.ovlLast.1 t)
  else x.ovlLast.2 + ceilDiv (ovlHold x * 65536) (convPeriod s i) * convPeriod s i / 65536

/-- The input leaves overload where the hold time has passed by an instant up to which its samples are known (R75). -/
def overloadLeave (i : Nat) (known : Time) (s : State) : State :=
  let x := vget s.inputs i
  if x.inOvl && ovlExitTime s i ≤ known then
    raiseAt (ovlExitTime s i) (0x10 + i) 2 (0x0100 + i) (le 2 x.ovlPeak ++ [0, 0] ++ timeB x.ovlLast.2) (inMod i (fun x => { x with inOvl := false }) s)
  else s

/-- OVERLOAD_EXIT (R75): samples are known up to the block in progress, and, of an input that does not convert, up to now. The sources of
an input that is paired out do not fire (R60). -/
def overloadExit (i : Nat) (s : State) : State :=
  let x := vget s.inputs i
  if pairedOut s i then s else overloadLeave i (if x.running then x.nextTime else now s) s

/-- A sample lies in an invalid span of the converter stream (R77). A sample between two spans of one block, which the block marks invalid
with them (R72), lies in neither and is tested against the overload criterion (DESIGN CHOICE, log 67). -/
def invalidAt (x : InSt) (c : Nat) : Bool := (x.spans.any fun p => p.first ≤ c && c < p.stop) || x.openSpan.any fun o => o ≤ c

/-- Samples of a block that meet the overload criterion, as index and magnitude (R74, R77). -/
def ovlHits (x : InSt) (codes : List Int) : List (Nat × Nat) :=
  (codes.zipIdx.filter fun p => fld x.ovl 11 0 ≤ p.1.natAbs && !invalidAt x (x.conv + p.2)).map fun p => (p.2, p.1.natAbs)

/-- OVERLOAD_ENTRY and what the samples of a block add to the overload state (R75). Where the hold time has passed before the first of them,
the input has left overload and enters it again; the hold time is longer than a block. -/
def overloadTake (i : Nat) (hits : List (Nat × Nat)) (s : State) : State :=
  match hits with
  | [] => s
  | h :: _ =>
    let x := vget s.inputs i
    let at_ := fun (j : Nat) => sampleTime s i (x.conv + j)
    let big := (hits.map (·.2)).foldl max 0
    let last := (hits.getLast?.getD h).1
    let t := at_ last
    let s := overloadLeave i (at_ h.1) s
    let x := vget s.inputs i
    let s := if x.inOvl then s else
      raiseAt (at_ h.1) (0x10 + i) 1 (0x0100 + i) (le 2 h.2) (inMod i (fun x => { x with inOvl := true, ovlPeak := 0, ovlEntries := wrapAdd 32 x.ovlEntries 1 }) s)
    inMod i (fun x => { x with ovlPeak := max x.ovlPeak big, ovlLast := (x.conv + last, t) }) s

/-! ### Data blocks -/

/-- The part of the invalid spans that a block of n samples from `lo` marks: start within the block and length (R72). -/
def settleOf (spans : List Span) (opn : Option Nat) (lo n : Nat) : Nat × Nat :=
  let parts := (spans ++ (opn.map fun o => (⟨o, lo + n⟩ : Span)).toList).filterMap fun p =>
    let a := max p.first lo
    let b := min p.stop (lo + n)
    if a < b then some (a, b) else none
  match parts with
  | [] => (0, 0)
  | p :: ps =>
    let a := ps.foldl (fun m q => min m q.1) p.1
    let b := ps.foldl (fun m q => max m q.2) p.2
    (a - lo, b - a)

/-- Tap of the half-band filter at a distance from its centre: those at an even distance are 0, and both sides are equal (R65). -/
def halfTap (d : Nat) : Int := if d = 0 || d % 2 == 1 then Config.halfBandTap d else 0

/-- I and Q of a converter code behind the mixer at −fs/4: times (−j)^n at sample n (R65). -/
def mixed (n : Nat) (code : Int) : Int × Int :=
  match n % 4 with
  | 0 => (code, 0)
  | 1 => (0, -code)
  | 2 => (-code, 0)
  | _ => (0, code)

/-- One output of the mixer and the half-band filter, from the 63 codes around converter sample n (R65). The mixer's phase counts from the
first sample of the stream, which the rule does not say (DESIGN CHOICE, log 67). -/
def wideOut (n : Nat) (codes : List Int) : Int × Int :=
  let sum := (codes.zipIdx.map fun c => let m := mixed (n + c.2 + 1) c.1; let h := halfTap ((c.2 : Int) - 31).natAbs; (h * m.1, h * m.2)).foldl
    (fun a b => (a.1 + b.1, a.2 + b.2)) (0, 0)
  ((Config.halfBandRound sum.1).toInt, (Config.halfBandRound sum.2).toInt)

/-- Q negated in zone 2 (R66). A Q of −32,768 has no negation in 16 bits: free (log 17). -/
def zoned (zone2 : Bool) (v : Int × Int) : Int × Int :=
  if zone2 then (v.1, if v.2 = -32768 then Config.negMin.toInt else -v.2) else v

/-- The wideband samples of a block: I and Q (R65, R66, R68). -/
def wideSamples (x : InSt) (codes ahead : List Int) : List (Int × Int) :=
  let all := List.replicate (31 - x.hist.length) 0 ++ x.hist ++ codes ++ ahead
  (List.range 256).map fun j => zoned (bitAt x.cfg 2) (wideOut (x.conv + 2 * j) ((all.drop (2 * j)).take 63))

/-- A sample word whose value the spec leaves open where the sample is invalid (R72, log 8). -/
def openWords (s : State) (settle : Nat × Nat) (per : Nat) (ws : List (List Nat)) : List Nat :=
  ws.zipIdx.flatMap fun (w, j) =>
    if settle.1 ≤ j && j < settle.1 + settle.2 then (List.range per).map fun k => Config.free (s.freeNo + j * per + k) % 65536 else w

/-- CLOCK_SUSPECT of a die, or a supervisor warning, ends: the block in progress of each input that it has marked keeps it (R71, R381). -/
def markBlocks (l : List Nat) (suspect warning : Bool) (s : State) : State :=
  l.foldl (fun s i => inMod i (fun x => if x.running && x.nextTime ≤ now s then { x with marks := (x.marks.1 || suspect, x.marks.2 || warning) } else x) s) s

/-- FLAGS of a block (R71, R76). -/
def blockFlags (s : State) (i : Nat) (ovl : Nat) (gapBefore : Bool) : Nat :=
  b2n (ovl != 0) + 2 * b2n ((vget s.synth.loop (dieOf i)).suspect || (vget s.inputs i).marks.1) + unlockedBit s +
  8 * b2n ((vget s.inputs i).calMark.any (fun m => decide (m < (vget s.inputs i).conv + 512)) || (vget s.cals i).state == .foreground) + 16 * b2n (supplyWarn s || (vget s.inputs i).marks.2) + 32 * b2n gapBefore

/-- TIME_STATE (R70). -/
def timeStateCode (s : State) : Nat :=
  match s.time.state with | .free => 0 | .acquiring => 1 | .locked => 2 | .holdover => 3

/-- ATTEN_DB of a block: in force for its first valid sample, given as a converter sample (R70, R79). Valid samples lie before a change or
after its span. For a block with no valid sample the rule names none: the model takes the first sample after the block (DESIGN CHOICE,
log 67). -/
def blockAtten (x : InSt) (firstValid : Nat) : Nat :=
  match x.attenSpan with
  | some (v, e) => if e ≤ firstValid + 128 then v else x.atten
  | none => x.atten

/-- A data block as bytes, with the number of open sample words it holds (R63 to R71). SAMPLE_INDEX after a FORMAT change, which starts no
new stream (R70, R78), counts as if the present FORMAT had held since the stream's start (DESIGN CHOICE, log 67). -/
def blockBytes (s : State) (i : Nat) (codes ahead : List Int) (gapBefore : Bool) : Bytes × Nat :=
  let x := vget s.inputs i
  let wide := isWide s i
  let n := if wide then 256 else 512
  let index := if wide then x.conv / 2 else x.conv
  let settle := if wide then settleOf x.wspans x.wopenSpan index n else settleOf x.spans x.openSpan index n
  let ws := if wide then wideSamples x codes ahead else []
  let valid := fun (j : Nat) => !(settle.1 ≤ j && j < settle.1 + settle.2)
  let peak := if wide then ((ws.zipIdx.filter fun p => valid p.2).map fun p => max p.1.1.natAbs p.1.2.natAbs).foldl max 0
    else ((codes.zipIdx.filter fun p => valid p.2).map fun p => p.1.natAbs).foldl max 0
  let first := if settle.2 != 0 && settle.1 = 0 then settle.2 else 0
  let hits := (ovlHits x codes).length
  let payload := if wide then openWords s settle 2 (ws.map fun v => [unsgn 16 v.1, unsgn 16 v.2])
    else openWords s settle 1 (codes.map fun c => [unsgn 16 (c * 16)])
  let hd := [0x01, BitVec.ofNat 8 (b2n wide)] ++ le 2 (0x0100 + i) ++ le 4 (blockFlags s i hits gapBefore) ++ le 8 index ++ timeB (sampleTime s i x.conv) ++
    le 2 settle.1 ++ le 2 settle.2 ++ le 4 (samplePeriod s i) ++ le 4 (streamKhz s i) ++
    le 1 (blockAtten x (x.conv + if wide then 2 * first else first)) ++ le 1 (b2n (inPaired s i)) ++ le 1 (1 + b2n (bitAt x.cfg 2)) ++
    le 1 (timeStateCode s) ++ le 4 (vget s.cals i).count.toNat ++ le 2 hits ++ le 2 peak ++ List.replicate 8 0
  (withCrc hd ++ payload.flatMap (le 2), settle.2 * (if wide then 2 else 1))

/-- Change the skid buffer of input i. -/
def skidMod (i : Nat) (f : SkidSt → SkidSt) (s : State) : State := { s with store := { s.store with skid := vmod s.store.skid i f } }

/-- Bytes join a skid buffer. -/
def skidPush (i : Nat) (b : Bytes) (s : State) : State :=
  skidMod i (fun k => { k with blocks := k.blocks ++ [b], peak := max k.peak (skidBytes k + b.length) }) s

/-- The stack that holds the lowest granule of the oldest block of a skid buffer (R291). -/
def skidStack (s : State) (i : Nat) : Nat :=
  match ringOf s (captureRing s i) with
  | none => 0
  | some r =>
    let pos := r.producer + (((vget s.store.skid i).blocks.takeWhile fun b => b.length == 64).map List.length).sum
    let off := pos % ringSize r
    chanOf s.grade (r.base + (if ringSize r < off + 1088 then 0 else off) / 256 * 256) / 16

/-- A gap descriptor goes into the skid buffer in its place (R81, R291). -/
def skidGap (i : Nat) (g : PendGap) (stop : Time) (s : State) : State :=
  let lost := if g.period = 0 then g.lost else (stop - g.start) * 65536 / g.period
  skidPush i (gapEnt s (0x0100 + i) 0 { g with lost := lost } stop).bytes s

/-- A block that finds its buffer full is discarded whole (R291, R381). -/
def skidDiscard (i : Nat) (t : Time) (s : State) : State :=
  let n := if isWide s i then 256 else 512
  let x := vget s.inputs i
  let st := skidStack s i
  skidMod i (fun k =>
    let k := match k.overflow with
      | some (t0, b, l, f) => { k with overflow := some (t0, b + 1, l + n, f) }
      | none => { k with overflow := some (t, 1, n, if n = 256 then x.conv / 2 else x.conv), stack := st
                         hps := (List.range 4).any fun h => (vget s.synth.loop (4 + h)).stallSince.isSome }
    { k with drained := decide (4 * skidBytes k < 3 * skidSize s i) }) s

/-- The overflow ends: its descriptor, its event and its entry (R291, R381). -/
def skidResume (i : Nat) (stop : Time) (s : State) : State :=
  let k := vget s.store.skid i
  match k.overflow with
  | none => s
  | some (t0, _, lost, first) =>
    let s := skidGap i ⟨if k.hps then 6 else 5, t0, lost, first, 0⟩ stop (skidMod i (fun k => { k with overflow := none, drained := false, hps := false }) s)
    let s := raise (0x93 + 4 * k.stack) 1 (0x0801 + k.stack) (le 1 i ++ [0, 0, 0] ++ le 8 lost) s
    boxNow 1 0x0404 (0x0100 + i) (le 1 i ++ [0, 0, 0] ++ timeB t0 ++ le 8 lost) s

/-! ### What the calibrator takes from a block (R88, R89, R91) -/

/-- The samples of a block, none where a sample is marked invalid or meets the overload criterion (R72, R74, R89). -/
def usableCodes (x : InSt) (codes : List Int) : List (Option Int) :=
  let m := settleOf x.spans x.openSpan x.conv codes.length
  codes.zipIdx.map fun c => if (m.1 ≤ c.2 && c.2 < m.1 + m.2) || fld x.ovl 11 0 ≤ c.1.natAbs then none else some c.1

/-- A sample of slice k joins the sums; the sample before it, where usable, is of slice k − 1 (R88). -/
def accStep (n : Nat) (st : List SliceAcc × Option Int) (c : Option Int × Nat) : List SliceAcc × Option Int :=
  match c.1 with
  | none => (st.1, none)
  | some v =>
    let k := c.2 % n
    let l := st.1.modify k fun a => { a with n := a.n + 1, sum := a.sum + v, sq := a.sq + v.natAbs ^ 2 }
    match st.2 with
    | none => (l, some v)
    | some p => ((l.modify k fun a => { a with prev := a.prev + p * v, diff := a.diff + (v - p).natAbs ^ 2 }).modify ((k + n - 1) % n)
        fun a => { a with next := a.next + p * v }, some v)

/-- A block joins the sums of the period in progress; sample c of the stream is of slice c modulo the number of slices (DESIGN CHOICE,
log 68). -/
def accBlock (n first : Nat) (codes : List (Option Int)) (a : CalAcc) : CalAcc :=
  let l := if a.slices.length = n then a.slices else List.replicate n {}
  let r := (codes.zipIdx first).foldl (accStep n) (l, if first = 0 then none else a.tail)
  let b := Config.calBands codes
  { slices := r.1, taken := a.taken + codes.length, bands := (List.range 64).map fun k => a.bands.getD k 0 + b.getD k 0, tail := r.2 }

/-- Slices in use (R88). -/
def slices (s : State) (i : Nat) : Nat := if inPaired s i && i % 2 == 0 then 128 else 64

/-- The calibrator takes a block's samples. -/
def calTake (i : Nat) (codes : List Int) (s : State) : State :=
  let x := vget s.inputs i
  calMod i (fun c => { c with acc := accBlock (slices s i) x.conv (usableCodes x codes) c.acc }) s

/-- One block of 512 converter samples of an input that converts (R31, R65 to R77, R81, R290, R291). -/
def blockTake (i : Nat) (codes ahead : List Int) (s : State) : State :=
  let t := sampleTime s i (vget s.inputs i).conv
  let s := inMod i (fun x => { x with nextTime := t }) s
  let x := vget s.inputs i
  let k := vget s.store.skid i
  let stop := (k.overflow.map (·.1)).getD t
  let gaps := 64 * (b2n x.gap.isSome + b2n k.overflow.isSome)
  let keep := match k.overflow with
    | some _ => k.drained
    | none => decide (skidBytes k + 1088 + gaps ≤ skidSize s i)
  let s := if keep then
      let s := match x.gap with
        | some g => inMod i (fun x => { x with gap := none }) (skidGap i g stop s)
        | none => s
      let s := skidResume i t s
      let b := blockBytes s i codes ahead (gaps != 0)
      skidPush i b.1 { s with freeNo := s.freeNo + b.2 }
    else skidDiscard i t s
  let s := calTake i codes (overloadTake i (ovlHits x codes) s)
  let big := ((codes.zipIdx.filter fun p => !invalidAt x (x.conv + p.2)).map fun p => p.1.natAbs).foldl max 0
  let s := inMod i (fun x => { x with
    conv := x.conv + 512, marks := (false, false), calMark := x.calMark.filter fun m => decide (x.conv + 512 ≤ m)
    peak := max x.peak big
    hist := (x.hist ++ codes).drop (x.hist.length + codes.length - 31)
    spans := x.spans.filter fun p => x.conv + 512 < p.stop
    wspans := x.wspans.filter fun p => x.conv / 2 + 256 < p.stop }) s
  let next := sampleTime s i (x.conv + 512)
  let fitted := !(vget s.synth.markers (dieOf i)).isEmpty
  let s := inMod i (fun x => { x with nextTime := next, base := if fitted then (next, x.conv) else x.base }) s
  let s := overloadLeave i next s
  match x.ending with
  | none => s
  | some c => calRefresh (dieOf i) (endStream i c s)

/-- Put FORMAT and ZONE in force. -/
def formatMod (i : Nat) (f : Bool × Bool) (s : State) : State := inMod i (fun x => { x with cfg := setBit (setBit x.cfg 1 f.1) 2 f.2 }) s

/-- INGEST_BLOCK: a block in progress keeps the FORMAT and ZONE that it began with (R68, R78; DEDUCED log 27). -/
def ingest (i : Nat) (codes ahead : List Int) (s : State) : State :=
  let x := vget s.inputs i
  if !x.running then s else
  match x.held with
  | none => blockTake i codes ahead s
  | some f => formatMod i (bitAt x.cfg 1, bitAt x.cfg 2) (blockTake i codes ahead (formatMod i f (inMod i (fun x => { x with held := none }) s)))

/-- SKID_DRAIN (R290, R343): the oldest entry of a skid buffer goes into the capture ring, or stays while the ring is full. -/
def skidDrain (i : Nat) (s : State) : State :=
  if portsHeld s || storeStalled s then s else
  match (vget s.store.skid i).blocks with
  | [] => s
  | b :: _ =>
    let isGap := b.length == 64
    let e : Ent := ⟨b, if isGap then 0x10 else 1, (timeOf (numAt b 16 12)).getD 0, numAt b (if isGap then 40 else 8) 8⟩
    let (s, p) := publish true (captureRing s i) e s
    if p == .waits then s else
    let s := skidMod i (fun k => { k with blocks := k.blocks.drop 1 }) s
    if p == .kept && !isGap then inMod i (fun x => { x with blocks := x.blocks + 1 }) s else s

/-! ### The INPUT verbs -/

/-- A capture ring may be named: none, or a CAPTURE ring that the input owns (R85, R341). -/
def captureOk (s : State) (h : Handle) (id : Nat) : Bool := id < 0x90 || (ringOf s id).any fun r => r.type == 4 && r.owner == h

/-- INPUT.CONFIGURE (R83, R85). -/
def vInputConfigure : Verb where
  op := 0x0301
  fits := fun s h => isA s .input h
  checks := fun c s =>
    let i := idx c.unit
    let w := argW c 0 32
    let v := argW c 4 32
    let x := vget s.inputs i
    [badArg (12 < fld w 7 4 || fld v 11 0 < 1024 || 2047 < fld v 11 0 || fld v 31 16 == 0),
     badArg (bitAt w 2 && inPaired s i),
     badArg (!captureOk s c.unit (fld w 31 12)),
     badState (admittedOn s i && (bitAt w 1 != bitAt x.cfg 1 || bitAt w 2 != bitAt x.cfg 2 || fld w 31 12 != fld x.cfg 31 12)),
     badState (bitAt w 0 && fld w 31 12 < 0x90),
     keptCond s [fld w 31 12],
     badState (pairedOut s i),
     busy (attenPending s i)]
  act := fun c s =>
    let i := idx c.unit
    let w := setFld (argW c 0 32) 11 8 0
    let s := attenAsk i (fld w 7 4) (now s) s
    let s := if bitAt w 0 then s else stopStream i 4 s
    let s := inMod i (fun x => { x with
      cfg := setBit w 3 (bitAt x.cfg 3), ovl := setFld (argW c 4 32) 15 12 0
      held := if x.running && x.nextTime ≤ now s then some (x.held.getD (bitAt x.cfg 1, bitAt x.cfg 2)) else none
      switch := if bitAt w 0 then x.switch else x.switch.filter fun w => w.cause == 1 }) s
    ok (calRefresh (dieOf i) (startStream i s))

/-- INPUT.SET_ATTEN (R79, R85). -/
def vInputSetAtten : Verb where
  op := 0x0302
  fits := fun s h => isA s .input h
  checks := fun c s => [badArg (12 < argN c 0 1), badArg (argT c 4).isNone, busy (changePending s (idx c.unit)), badState (pairedOut s (idx c.unit))]
  act := fun c s =>
    let t := (argT c 4).getD 0
    let late := !argT0 c 4 && t < now s
    okWith (attenAsk (idx c.unit) (argN c 0 1) (max t (now s)) s) (le 1 (b2n late))

/-- INPUT.ARRANGE (R82, R85). -/
def vInputArrange : Verb where
  op := 0x0303
  fits := fun s h => isA s .input h
  checks := fun c s =>
    let i := idx c.unit
    let d := dieOf i
    let same := inPaired s i == (argN c 0 1 == 1)
    [badArg (i % 2 == 1), badArg (1 < argN c 0 1), badArg (argN c 0 1 == 1 && bitAt (vget s.inputs i).cfg 2),
     badState (pairedOut s i),
     badState (!same && (admittedOn s i || admittedOn s (i + 1))),
     badState (!same && (fgOnDie s d || (dieInputs d).any fun j => maintHas s 3 (BitVec.ofNat 16 (0x0110 + j)))),
     busy (!same && changePending s i)]
  act := fun c s =>
    let i := idx c.unit
    let p := argN c 0 1 == 1
    if inPaired s i == p then ok s else
    let ask := fun (j : Nat) (s : State) => stopStream j 1 (inMod j (fun x => { x with switch := some ⟨1, p, 4096⟩ }) s)
    ok (calRefresh (dieOf i) (ask (i + 1) (ask i s)))

/-- Clear the counters of INPUT.STATUS; LAST_VALID_TIME is none (R86). -/
def inputClear (x : InSt) : InSt := { x with peak := 0, ovlEntries := 0, blocks := 0 }

/-- INPUT.STATUS (R60, R85, R86). CHANGE_PENDING of either input of a pair reports a change pending on the pair, as BUSY of R85 does
(DEDUCED, log 67). -/
def vInputStatus : Verb where
  op := 0x0304
  fits := fun s h => isA s .input h
  act := fun c s =>
    let i := idx c.unit
    let x := vget s.inputs i
    let res := le 4 x.cfg.toNat ++ le 4 x.ovl.toNat ++ le 1 (unitState s c.unit) ++
      le 1 (b2n x.inOvl + 2 * b2n (pairedOut s i) + 4 * b2n (changePending s i)) ++ le 2 x.peak ++ le 4 x.ovlEntries ++ le 8 x.blocks ++
      timeB x.lastValid ++ le 4 (streamKhz s i) ++ le 8 0
    okWith (if argBit c 0 0 then inMod i inputClear s else s) res

/-- UNIT.REINIT of an input (R84, R107): the stream restarts at the block boundary. -/
def inputReinit (i : Nat) (s : State) : State :=
  let s := inMod i (fun x => { inputClear x with inOvl := false, ovlPeak := 0 }) s
  let x := vget s.inputs i
  let s := if x.running && x.ending.isNone && x.switch.isNone then stopStream i 3 (inMod i (fun x => { x with switch := some ⟨3, bitAt x.cfg 3, 4096⟩ }) s) else s
  calRefresh (dieOf i) (calMod i (fun c => { c with
    errs := [], holdPeriods := 0, sufficient := false, act := 0, breadth := 0, run := 0
    state := if c.state == .tracking then .holding else c.state }) s)

def execInputConfigure (c : Cmd) (s : State) : Host.Outcome State Fault Refusal := settle s (runVerb vInputConfigure c s)
def execInputSetAtten (c : Cmd) (s : State) : Host.Outcome State Fault Refusal := settle s (runVerb vInputSetAtten c s)
def execInputArrange (c : Cmd) (s : State) : Host.Outcome State Fault Refusal := settle s (runVerb vInputArrange c s)
def execInputStatus (c : Cmd) (s : State) : Host.Outcome State Fault Refusal := settle s (runVerb vInputStatus c s)
def execAttenApply (i : Fin 8) (s : State) : Host.Outcome State Fault Refusal := settle s (attenApply i s)
def execSettleSpanEnd (i : Fin 8) (s : State) : Host.Outcome State Fault Refusal := settle s (settleEnd i s)
def execStreamSwitch (i : Fin 8) (origin : Nat) (s : State) : Host.Outcome State Fault Refusal := settle s (streamSwitch i origin s)
def execIngestBlock (i : Fin 8) (codes ahead : List Int) (s : State) : Host.Outcome State Fault Refusal := settle s (ingest i codes ahead s)
def execOverloadExit (i : Fin 8) (s : State) : Host.Outcome State Fault Refusal := settle s (overloadExit i s)
def execSkidDrain (i : Fin 8) (s : State) : Host.Outcome State Fault Refusal := settle s (skidDrain i s)

end Sys2Proof.Machine
end

