-- ==== Sys2Proof/Machine/Calib.lean ====
section
/-! DEFINITION. Calibration from signal statistics (R88 to R110): update periods, trims, foreground calibration and the CAL verbs. -/
set_option Elab.async false
namespace Sys2Proof.Machine
open Sys2Proof

/-- Error k of a slice, in the order offset, gain, delay, bandwidth (R95). -/
def errAt (e : SliceErr) (k : Nat) : Int := if k = 0 then e.offset else if k = 1 then e.gain else if k = 2 then e.delay else e.bw

/-- Trim k of a slice. -/
def trimAt (t : Trim) (k : Nat) : Int := if k = 0 then t.offset else if k = 1 then t.gain else if k = 2 then t.delay else t.bw

/-- Set trim k of a slice. -/
def trimSet (t : Trim) (k : Nat) (v : Int) : Trim :=
  if k = 0 then { t with offset := v } else if k = 1 then { t with gain := v } else if k = 2 then { t with delay := v } else { t with bw := v }

/-- Range of trim k (R94). -/
def trimRange (k : Nat) : Int × Int := if k = 0 then (-512, 511) else if k = 1 then (-2048, 2047) else if k = 2 then (0, 1023) else (-128, 127)

/-- The trim of a slice whose error magnitude is largest among those at least half a step that can still move, the first of equals (R95, R98). -/
def trimPick (t : Trim) (e : SliceErr) : Option Nat :=
  let can := fun (k : Nat) => 128 ≤ (errAt e k).natAbs && (if 0 < errAt e k then (trimRange k).1 < trimAt t k else trimAt t k < (trimRange k).2)
  (List.range 4).foldl (fun best k =>
    if can k then
      match best with
      | none => some k
      | some b => if (errAt e b).natAbs < (errAt e k).natAbs then some k else best
    else best) none

/-- One update of all slices (R95, R97, R98): a positive error moves its trim down (DEDUCED log 19). Answers the trims, whether one
moved, and the slices and trims that reached the end of their range. `d` and `g` are the sums of DELAY_TRIM and GAIN_TRIM. Where the steps of
one update together would pass the bound of R97, the rule does not say which are withheld: the slices are taken in ascending order with
running sums (DESIGN CHOICE, log 68). -/
def trimStep (ref : Int × Int) : List Trim → List SliceErr → Nat → Int → Int → List Trim × Bool × List (Nat × Nat)
  | [], _, _, _, _ => ([], false, [])
  | t :: ts, es, n, d, g =>
    match trimPick t (es.headD ⟨0, 0, 0, 0⟩) with
    | none => match trimStep ref ts es.tail (n + 1) d g with
      | (l, m, ev) => (t :: l, m, ev)
    | some k =>
      let step : Int := if 0 < errAt (es.headD ⟨0, 0, 0, 0⟩) k then -1 else 1
      let d' := if k = 2 then d + step else d
      let g' := if k = 1 then g + step else g
      if 32 < (d' - ref.1).natAbs && k == 2 || 32 < (g' - ref.2).natAbs && k == 1 then
        match trimStep ref ts es.tail (n + 1) d g with
        | (l, m, ev) => (t :: l, m, ev)
      else
        let v := trimAt t k + step
        let hit := if v = (trimRange k).1 || v = (trimRange k).2 then [(n, k)] else []
        match trimStep ref ts es.tail (n + 1) d' g' with
        | (l, _, ev) => (trimSet t k v :: l, true, hit ++ ev)

/-- Sums of DELAY_TRIM and GAIN_TRIM (R97). -/
def trimSums (l : List Trim) : Int × Int := ((l.map (·.delay)).sum, (l.map (·.gain)).sum)

/-- EV_CAL (R110), with the time of the update boundary or span end concerned. -/
def evCal (i type slice trim : Nat) (t : Time) (s : State) : State :=
  raiseAt t (0x20 + i) type (0x0110 + i) (le 2 slice ++ le 1 trim ++ [0] ++ le 4 (vget s.cals i).count.toNat) s

/-- What is left of the errors once trims have moved (R109; DEDUCED log 19). -/
def errsLeft (old new : List Trim) (errs : List SliceErr) : List SliceErr :=
  errs.zipIdx.map fun (e, n) =>
    let d := fun (f : Trim → Int) => 256 * (((new[n]?).map f).getD 0 - ((old[n]?).map f).getD 0)
    ⟨e.offset + d (·.offset), e.gain + d (·.gain), e.delay + d (·.delay), e.bw + d (·.bw)⟩

/-- An update of the trims at a boundary, which completes a sweep (R95 to R98, R101); its sample is the first after the boundary (R96). -/
def calUpdate (i : Nat) (b : Time) (errs : List SliceErr) (s : State) : State :=
  let c := vget s.cals i
  let sums := trimSums c.trims
  match trimStep c.sums c.trims errs 0 sums.1 sums.2 with
  | (trims, moved, hits) =>
    let m := sampleAt s i (b + 1)
    let t := sampleTime s i m
    let s := calMod i (fun c => { c with
      trims := trims, errs := errsLeft c.trims trims errs, count := c.count + 1, lastTime := t, limit := c.limit || !hits.isEmpty }) s
    let s := if moved then inMod i (fun x => { x with calMark := some m }) s else s
    hits.foldl (fun s h => evCal i 3 h.1 h.2 b s) s

/-! ### Estimates (R88, R89, R91) -/

/-- The statistics of one update period (R88, R89, R91). -/
structure CalStats where
  /-- R89: usable samples, and all -/
  usable : Nat
  taken : Nat
  /-- R91: ACT in 1/256 dB, and BREADTH -/
  act : Int
  breadth : Nat
  /-- R88: per slice -/
  errs : List SliceErr
deriving DecidableEq, Repr, Inhabited

/-- The estimates of one slice against all (R88). The offset is the slice mean itself: the ensemble mean is taken away and added again. Of a
slice without a sample the rules state none: free, as drawing `no` (log 68). -/
def sliceErr (all a : SliceAcc) (no : Nat) : SliceErr :=
  let skew := (Config.calSkew a.prev a.next a.n all.diff all.n).toInt
  { offset := if a.n = 0 then sgn 16 (Config.free no % 65536) else roundDivI (a.sum * 4096) a.n
    gain := (Config.calGain a.sq a.n all.sq all.n).toInt
    delay := skew
    bw := (Config.calBw a.diff a.sq all.diff all.sq skew).toInt }

/-- The sums over all slices. -/
def sliceAll (l : List SliceAcc) : SliceAcc :=
  l.foldl (fun b a => ⟨b.n + a.n, b.sum + a.sum, b.sq + a.sq, b.prev + a.prev, b.next + a.next, b.diff + a.diff⟩) {}

/-- Drawings of free values that one update period uses up. -/
def calDraws : Nat := 130

/-- The statistics of the period that ends (R88, R89, R91). ACT of no sample, and BREADTH where no sub-band has power, are free (log 68). -/
def calStats (s : State) (i : Nat) : CalStats :=
  let a := (vget s.cals i).acc
  let all := sliceAll a.slices
  let top := a.bands.foldl max 0
  { usable := all.n, taken := a.taken
    act := if all.n = 0 then sgn 16 (Config.free s.freeNo % 65536) else clampI (-32768) 32767 ((logCode (2 * all.sq) (all.n * 2048 ^ 2) : Int) - 64000)
    breadth := if top = 0 then Config.free (s.freeNo + 1) % 65 else (a.bands.filter fun p => top ≤ p * 100).length
    errs := (List.range (slices s i)).map fun k => sliceErr all (a.slices.getD k {}) (s.freeNo + 2 + k) }

/-- The period is sufficient (R89, R91). -/
def calSufficient (c : CalSt) (st : CalStats) : Bool :=
  !c.tainted && st.usable != 0 && st.taken ≤ 2 * st.usable && decide (sgn 8 (fld c.suff 7 0) * 256 ≤ st.act) && decide (fld c.suff 14 8 ≤ st.breadth)

/-- The update boundary that an instant has last reached (R100): multiples of the period in each second where it divides a second, and
counted from the moment at which MODE became BACKGROUND otherwise. -/
def calBoundary (c : CalSt) (t : Time) : Time :=
  let u := fld c.cfg 31 16
  let p := u * 65536000
  if 1000000 % u = 0 then t / p * p else (c.bgSince + ((t : Int) - c.bgSince) / p * p).toNat

/-- A period ends at b: b is an update boundary that lies behind the period's begin and has come (R100; log 68). -/
def calDue (c : CalSt) (b t : Time) : Bool := decide (c.periodFrom < b) && decide (b ≤ t) && calBoundary c b == b

/-- CAL_UPDATE_PERIOD_END (R88 to R101). ACT, BREADTH and SUFFICIENT are those of every period (R91, R109); no estimate is formed in PAUSED or
FOREGROUND (R93). -/
def calPeriodEnd (i : Nat) (b : Time) (s : State) : State :=
  let c := vget s.cals i
  if !calDue c b (now s) then s else
  let st := calStats s i
  let good := calSufficient c st
  let held := c.state == .paused || c.state == .foreground
  let s := calMod i (fun c => { c with
    sufficient := good, act := st.act, breadth := st.breadth, errs := if held then c.errs else st.errs
    tainted := held, periodFrom := b, acc := { tail := c.acc.tail } }) { s with freeNo := s.freeNo + calDraws }
  match c.state with
  | .paused | .foreground => calMod i (fun c => { c with run := 0 }) s
  | .frozen => s
  | .tracking =>
    if good then calUpdate i b st.errs s
    else evCal i 1 0 0 b (calMod i (fun c => { c with state := .holding, run := 0 }) s)
  | .holding =>
    let s := calMod i (fun c => { c with holdPeriods := wrapAdd 32 c.holdPeriods 1, run := if good then c.run + 1 else 0 }) s
    if good && fld c.cfg 15 8 ≤ c.run + 1 then
      calUpdate i b st.errs (evCal i 2 0 0 b (calMod i (fun c => { c with state := .tracking, run := 0 }) s))
    else s

/-- CAL.STATUS record (R109). -/
def calRecord (s : State) (i : Nat) : Bytes :=
  let c := vget s.cals i
  let mag := fun (f : SliceErr → Int) => (c.errs.map fun e => (f e).natAbs).foldl max 0
  let ext := fun (f : Trim → Int) => (c.trims.map fun t => (f t).natAbs).foldl max 0
  let hi := (c.trims.map fun t => t.delay.toNat).foldl max 0
  let lo := (c.trims.map fun t => t.delay.toNat).foldl min 1023
  le 1 (if c.state == .foreground then 2 else fld c.cfg 1 0) ++
  le 1 (match c.state with | .tracking => 0 | .holding => 1 | .paused => 2 | .frozen => 3 | .foreground => 4) ++
  le 1 (slices s i) ++ le 1 (b2n c.sufficient + 2 * b2n c.fgFailed + 4 * b2n c.limit) ++ le 2 (unsgn 16 c.act) ++ le 1 c.breadth ++ [0] ++
  le 4 c.count.toNat ++ timeB c.lastTime ++
  le 2 (roundDiv (mag (·.offset)) 256) ++ le 2 (roundDiv (mag (·.gain)) 256) ++ le 2 (roundDiv (20 * mag (·.delay)) 256) ++ le 2 (roundDiv (mag (·.bw)) 256) ++
  le 2 (ext (·.offset)) ++ le 2 (ext (·.gain)) ++ le 2 ((hi - lo) * 20) ++ le 2 (ext (·.bw)) ++ le 4 c.holdPeriods ++ le 4 0

/-- CAL.CONFIGURE (R92, R106, R108). -/
def vCalConfigure : Verb where
  op := 0x0401
  fits := fun s h => isA s .cal h
  checks := fun c s =>
    let w := argW c 0 32
    let v := argW c 4 32
    let a := sgn 8 (fld v 7 0)
    [badArg (2 ≤ fld w 1 0 || fld w 15 8 == 0 || fld w 31 16 < 250 || decide (a < -60) || decide (-10 < a) ||
       fld v 14 8 < 4 || 64 < fld v 14 8),
     busy (maintHas s 3 c.unit || (vget s.cals (idx c.unit)).fg.isSome), badState (pairedOut s (idx c.unit))]
  act := fun c s =>
    let i := idx c.unit
    let frozen := argN c 0 1 % 4 = 1
    let s := calMod i (fun x => { x with
      cfg := setFld (argW c 0 32) 7 2 0, suff := setFld (argW c 4 32) 31 15 0
      bgSince := if fld x.cfg 1 0 == 1 && !frozen then now s else x.bgSince
      state := if frozen then .frozen else if x.state == .frozen then .holding else x.state
      run := if x.state == .frozen || frozen then 0 else x.run }) s
    ok (calRefresh1 i s)

/-- CAL.FOREGROUND (R102, R108). -/
def vCalForeground : Verb where
  op := 0x0402
  fits := fun s h => isA s .cal h
  checks := fun c s =>
    let i := idx c.unit
    [badArg (argBit c 0 0 && i % 2 == 1), badState (!(vget s.inputs i).running), badState (argBit c 0 0 && admittedOn s (i + 1)), badState (pairedOut s i),
     busy (maintHas s 3 c.unit || (vget s.cals i).fg.isSome || arrangeOnDie s (dieOf i) || rateOnDie s (dieOf i))]
  act := fun c s => later (maintAsk 3 c.unit 0 (argN c 0 1 % 2) (some c) 0x0402 s)

/-- CAL.STATUS (R108, R109). -/
def vCalStatus : Verb where
  op := 0x0403
  fits := fun s h => isA s .cal h
  act := fun c s =>
    okWith (if argBit c 0 0 then calMod (idx c.unit) (fun x => { x with holdPeriods := 0 }) s else s) (calRecord s (idx c.unit))

/-- CAL.READ_TRIMS (R108). -/
def vCalReadTrims : Verb where
  op := 0x0404
  fits := fun s h => isA s .cal h
  checks := fun c s => [badArg (!spanOk s (argN c 0 6) (8 * slices s (idx c.unit))), badState (pairedOut s (idx c.unit))]
  act := fun c s =>
    ok (destWrite (argN c 0 6) ((vget s.cals (idx c.unit)).trims.flatMap fun t =>
      le 2 (unsgn 16 t.offset) ++ le 2 (unsgn 16 t.gain) ++ le 2 (unsgn 16 t.delay) ++ le 1 (unsgn 8 t.bw) ++ [0]) s)

/-- Steps 2 and 3 of R102 on input i, once the arbiter has granted it. -/
def fgStart (i : Nat) (s : State) : State :=
  match maintRunning s 3 (BitVec.ofNat 16 (0x0110 + i)) with
  | none => s
  | some r =>
    if (vget s.cals i).fg.isSome then s else
    let at_ := sampleAt s i (now s)
    let s := if (vget s.inputs i).running then inMod i (fun x => { x with openSpan := some at_, wopenSpan := some (wideFirst at_) }) s else s
    calRefresh (dieOf i) (calMod i (fun c => { c with
      state := .foreground, run := 0, tainted := true
      fg := some ⟨r.cmd, r.arg == 1, false, 0, none, true, (0, 0), fld c.cfg 1 0 == 1, none⟩ }) s)

/-- The slice and trim of largest error; ties to the lower slice, then to the first trim (R104). -/
def worstErr (errs : List SliceErr) : Nat × Nat :=
  ((errs.zipIdx.flatMap fun (e, n) => (List.range 4).map fun k => ((errAt e k).natAbs, n, k)).foldl
    (fun (b : Nat × Nat × Nat) x => if b.1 < x.1 then x else b) (0, 0, 0)).2

/-- Every error is below half a step. -/
def errsSmall (errs : List SliceErr) : Bool := errs.all fun e => (List.range 4).all fun k => (errAt e k).natAbs < 128

/-- A full-error correction of every trim (R102 step 4; DEDUCED log 19). -/
def fullCorrect (ts : List Trim) (errs : List SliceErr) : List Trim :=
  ts.zipIdx.map fun (t, n) =>
    let e := errs.getD n ⟨0, 0, 0, 0⟩
    (List.range 4).foldl (fun t k => trimSet t k (clampI (trimRange k).1 (trimRange k).2 (trimAt t k - roundDivI (errAt e k) 256))) t

/-- The largest error of all slices and trims. -/
def largestErr (errs : List SliceErr) : Nat := (errs.flatMap fun e => (List.range 4).map fun k => (errAt e k).natAbs).foldl max 0

/-- The trims that left the smallest largest error so far, the later ones among equals (R104; DEDUCED log 19). -/
def bestOf (b : Option (Nat × List Trim × Nat × Nat)) (ts : List Trim) (errs : List SliceErr) : Nat × List Trim × Nat × Nat :=
  match b with
  | some o => if o.1 < largestErr errs then o else (largestErr errs, ts, worstErr errs)
  | none => (largestErr errs, ts, worstErr errs)

/-- The slices and trims that a correction takes to the end of their range (R98). -/
def trimHits (old new : List Trim) : List (Nat × Nat) :=
  new.zipIdx.flatMap fun (t, n) => (List.range 4).filterMap fun k =>
    let v := trimAt t k
    if v != trimAt (old.getD n {}) k && (v == (trimRange k).1 || v == (trimRange k).2) then some (n, k) else none

/-- FOREGROUND_ITERATION (R98, R102 steps 4 and 5, R104): the errors of every slice of the arrangement that is measured are corrected; done
when all were small, or at 64 iterations, where the best trims found stay. -/
def fgIterate (i : Nat) (errs : List SliceErr) (s : State) : State :=
  let c := vget s.cals i
  match c.fg with
  | none => s
  | some f =>
    let cur := if f.second then c.stored else c.trims
    if f.doneAt.isSome || errs.length != cur.length then s else
    let small := errsSmall errs
    let fin := small || f.iter + 1 == 64
    let again := fin && f.both && !f.second
    let best := bestOf f.best cur errs
    let new := if fin && !small then best.2.1 else fullCorrect cur errs
    let hits := trimHits cur new
    let f' := { f with
      iter := if again then 0 else f.iter + 1, second := f.second || again, doneAt := if fin && !again then some s.cyc else none, converged := f.converged && (small || !fin)
      worst := if fin && !small && f.converged then best.2.2 else f.worst, best := if fin then none else some best }
    hits.foldl (fun s h => evCal i 3 h.1 h.2 (now s) s) (calMod i (fun c => { c with
      fg := some f', errs := if f.second then c.errs else errsLeft cur new errs
      limit := c.limit || !hits.isEmpty
      trims := if f.second then c.trims else new
      stored := if f.second then new else c.stored }) s)

/-- 4,096 converter samples of resettling have passed (R102 step 6), at the period in force. -/
def fgResettled (s : State) (i : Nat) (f : FgRun) : Bool :=
  f.doneAt.any fun c => decide (4096 * convPeriod s i ≤ since s c * 10 * 2 ^ 32)

/-- The invalid span of a foreground calibration ends, converged or not (R102 steps 6 and 7, R103, R104). The sample at which CAL_LAST_TIME
counts the sweep's trims as applied is the first at or after the span's end, though iterations moved them before: R101 does not single one
out (DESIGN CHOICE, log 68); of an input that does not convert it is the time of the end. -/
def fgClose (i : Nat) (f : FgRun) (good : Bool) (s : State) : State :=
  let stop := sampleAt s i (now s)
  let t := if (vget s.inputs i).running then sampleTime s i stop else now s
  let s := inMod i (fun x => match x.openSpan, x.wopenSpan with
    | some o, some w => { x with openSpan := none, wopenSpan := none, calMark := some x.conv
                                 spans := addSpan ⟨o, stop⟩ x.spans, wspans := addSpan ⟨w, w + wideLen (stop - o)⟩ x.wspans }
    | _, _ => x) s
  let s := calMod i (fun c => { c with
    fg := none, fgFailed := !good, state := if f.wasFrozen then .frozen else .holding, run := 0, sums := trimSums c.trims
    bgSince := if f.wasFrozen then c.bgSince else now s
    storedSums := if f.both then trimSums c.stored else c.storedSums
    count := if good then c.count + 1 else c.count, lastTime := if good then t else c.lastTime }) s
  evCal i (if good then 4 else 5) (if good then 0 else f.worst.1) (if good then 0 else f.worst.2) (now s) (calRefresh (dieOf i) s)

/-- FOREGROUND_END (R102 steps 6 and 7). -/
def fgEnd (i : Nat) (s : State) : State :=
  match (vget s.cals i).fg, maintRunning s 3 (BitVec.ofNat 16 (0x0110 + i)) with
  | some f, some r =>
    if !fgResettled s i f then s else
    let s := fgClose i f f.converged s
    completeO r.cmd 0x0402 (if f.converged then OK else FAULT) (calRecord s i) (maintEnd r s)
  | _, _ => s

/-- UNIT.REINIT of a calibrator (R107). -/
def calReinit (i : Nat) (s : State) : State :=
  calRefresh1 i (calMod i (fun c => { c with
    errs := [], holdPeriods := 0, sufficient := false, act := 0, breadth := 0, run := 0
    state := if fld c.cfg 1 0 == 1 then .frozen else .holding }) s)

def execCalConfigure (c : Cmd) (s : State) : Host.Outcome State Fault Refusal := settle s (runVerb vCalConfigure c s)
def execCalForeground (c : Cmd) (s : State) : Host.Outcome State Fault Refusal := settle s (runVerb vCalForeground c s)
def execCalStatus (c : Cmd) (s : State) : Host.Outcome State Fault Refusal := settle s (runVerb vCalStatus c s)
def execCalReadTrims (c : Cmd) (s : State) : Host.Outcome State Fault Refusal := settle s (runVerb vCalReadTrims c s)
def execCalUpdatePeriodEnd (i : Fin 8) (boundary : Time) (s : State) : Host.Outcome State Fault Refusal := settle s (calPeriodEnd i boundary s)
def execForegroundStart (i : Fin 8) (s : State) : Host.Outcome State Fault Refusal := settle s (fgStart i s)
def execForegroundIteration (i : Fin 8) (errs : List SliceErr) (s : State) : Host.Outcome State Fault Refusal := settle s (fgIterate i errs s)
def execForegroundEnd (i : Fin 8) (s : State) : Host.Outcome State Fault Refusal := settle s (fgEnd i s)

end Sys2Proof.Machine
end

