-- ==== Sys2Proof/Machine/Ddc.lean ====
section
/-! DEFINITION. Down-conversion (R111 to R139): ratios, grids, narrowband blocks, restarts, retunes, synchronising resets, threshold averages, and the DDC verbs that need no admission. -/
set_option Elab.async false
namespace Sys2Proof.Machine
open Sys2Proof

/-- Change channel ch. -/
def ddcMod (ch : Nat) (f : DdcSt → DdcSt) (s : State) : State := { s with ddc := vmod s.ddc ch f }

/-! ### Gap descriptors that are due -/

/-- A gap descriptor becomes due behind those that are: a further loss of FABRIC_LAG or ENGINE_LOST that follows one of the same cause
without an output between them is the same gap (R171, R177). -/
def gapAdd (g : PendGap) (l : List PendGap) : List PendGap :=
  match l.getLast? with
  | some x => if x.cause = g.cause && (g.cause == 8 || g.cause == 9) && x.period = g.period then l.dropLast ++ [{ x with lost := x.lost + g.lost }] else l ++ [g]
  | none => [g]

/-- Outputs that a gap descriptor covers: those counted, or the instants of its grid up to its end (R131). -/
def gapLost (g : PendGap) (stop : Time) : Nat := if g.period = 0 then g.lost else ceilDiv ((stop - g.start) * 65536) g.period

/-- Gap descriptors that are due go into a ring in order; each ends where the next begins, the last at `stop`. Answers those that a full ring
leaves waiting, and the outputs covered. -/
def gapsOut (ring unit kind : Nat) : List PendGap → Time → State → State × List PendGap × Nat
  | [], _, s => (s, [], 0)
  | g :: gs, stop, s =>
    let e := (gs.head?.map (·.start)).getD stop
    let n := gapLost g e
    match publish true ring (gapEnt s unit kind { g with lost := n } e) s with
    | (s, .waits) => (s, g :: gs, 0)
    | (s, _) => match gapsOut ring unit kind gs stop s with
      | (s, rest, k) => (s, rest, n + k)

/-! ### Fields of DDC_CH (R137) and the ratio -/

def ddcPreset (cfg : BitVec 288) : Nat := fld cfg 3 2
def ddcGain (cfg : BitVec 288) : Nat := fld cfg 13 10
def ddcRing (cfg : BitVec 288) : Nat := fld cfg 51 32

/-- D_r is 1.0 (R118). -/
def ddcUnity (cfg : BitVec 288) : Bool := ddcR cfg == 2 ^ 32

/-- D_total in 2^-32 (R118). -/
def ddcDec (cfg : BitVec 288) : Nat := 2 ^ ddcN cfg * ddcR cfg

/-- Stage taps and resampler taps (R122). -/
def ddcTaps (cfg : BitVec 288) : Nat := match ddcPreset cfg with | 0 => 59 | 1 => 55 | _ => 35
def ddcLen (cfg : BitVec 288) : Nat :=
  if ddcUnity cfg then 1 else ceilDiv ((match ddcPreset cfg with | 0 => 64 | 1 => 48 | _ => 32) * ddcR cfg) (2 ^ 32)

/-- L_eff (R123). -/
def ddcLeff (cfg : BitVec 288) : Nat := 1 + (ddcTaps cfg - 1) * (2 ^ ddcN cfg - 1) + (ddcLen cfg - 1) * 2 ^ ddcN cfg

/-- Twice the group delay, rounded to nearest, halves up (R123, R139). -/
def ddcGd2 (cfg : BitVec 288) : Nat :=
  if ddcPreset cfg = 2 then (36 * (2 ^ ddcN cfg - 1) + (if ddcUnity cfg then 0 else ddcLen cfg * 2 ^ ddcN cfg) + 2) / 4 else ddcLeff cfg - 1

/-- ceil(L_eff / D_total) (R129, R139). -/
def ddcSettle (cfg : BitVec 288) : Nat := ceilDiv (ddcLeff cfg * 2 ^ 32) (ddcDec cfg)

/-- fs_w / D_total in mHz (R139). -/
def ddcAchieved (s : State) (ch : Nat) (cfg : BitVec 288) : Nat :=
  roundDiv (wideRate s (ddcSource ch cfg) * 10 ^ 11) (2 * ddcDec cfg)

/-- The output rate lies between 1 kS/s and 4 GS/s, and the ratio within its fields (R118); a target rate is neither 0 nor above fs_w, where
R119 gives no ratio. -/
def ddcRateOk (s : State) (ch : Nat) (cfg : BitVec 288) : Bool :=
  let a := wideRate s (ddcSource ch cfg) * 10 ^ 11
  (bitAt cfg 4 || (10 ^ 6 ≤ ddcRate cfg && 2 ^ 33 * ddcRate cfg ≤ a)) &&
  ddcN cfg ≤ 16 && 2 ^ 32 ≤ ddcR cfg && 10 ^ 6 * (2 * ddcDec cfg) ≤ a && a ≤ 4 * 10 ^ 12 * (2 * ddcDec cfg)

/-- Enabled channels of an engine, with one record replaced, stay within 132 GS/s (R114). -/
def ddcCapOk (s : State) (ch : Nat) (cfg : BitVec 288) : Bool :=
  decide (((List.range 16).map fun j =>
    let k := ch / 16 * 16 + j
    let w := if k = ch then cfg else (vget s.ddc k).cfgNext.getD (vget s.ddc k).cfg
    if bitAt w 0 then wideRate s (ddcSource k w) else 0).sum ≤ 1320 * 2 ^ 33)

/-- A sample-rate change to `n` on a die keeps every channel that is enabled from it, or about to be, within R118 and R114 (R120). -/
def ddcAllows (s : State) (d : Nat) (n : BitVec 40) : Bool :=
  let s' := { s with synth := { s.synth with loop := vmod s.synth.loop d fun l => { l with n := n } } }
  (List.range 128).all fun ch =>
    let c := (vget s.ddc ch).cfgNext.getD (vget s.ddc ch).cfg
    !bitAt c 0 || dieOf (ddcSource ch c) != d || (ddcRateOk s' ch (ddcResolve s' ch c) && ddcCapOk s' ch c)

/-! ### The grid (R115, R126) -/

/-- p(m), in 2^-32 wideband periods. -/
def ddcPos (ch : Nat) (c : DdcSt) (m : Nat) : Nat := (c.nref + ch % 16) * 2 ^ 32 + m * ddcDec c.cfg

/-- Last and first source sample in the support of output m. -/
def ddcHi (ch : Nat) (c : DdcSt) (m : Nat) : Nat := (2 * ddcPos ch c m + ddcGd2 c.cfg * 2 ^ 32) / 2 ^ 33
def ddcLo (ch : Nat) (c : DdcSt) (m : Nat) : Nat :=
  if ddcPreset c.cfg = 2 then ddcHi ch c m + 1 - ddcLeff c.cfg
  else ceilDiv (2 * ddcPos ch c m - (ddcLeff c.cfg - 1) * 2 ^ 32) (2 ^ 33)

/-- First output whose support reaches source sample n (R129). -/
def ddcReach (ch : Nat) (c : DdcSt) (n : Nat) : Nat :=
  ceilDiv (n * 2 ^ 33 - ddcGd2 c.cfg * 2 ^ 32 - 2 * (c.nref + ch % 16) * 2 ^ 32) (2 * ddcDec c.cfg)

/-- First output at or after source sample n on the grid (R130 step 4). -/
def ddcAfter (ch : Nat) (c : DdcSt) (n : Nat) : Nat := ceilDiv ((n - (c.nref + ch % 16)) * 2 ^ 32) (ddcDec c.cfg)

/-- Time of output m, exact from the grid (R126, R127). -/
def ddcTime (ch : Nat) (c : DdcSt) (m : Nat) : Time :=
  c.refTime + ((ch % 16) * 2 ^ 32 + m * ddcDec c.cfg) * (10 * 2 ^ 17) / c.rate

/-- Period of the output, 2^-32 ns (R127). -/
def ddcPeriod (c : DdcSt) : Nat := roundDiv (ddcDec c.cfg * (10 * 2 ^ 65)) (2 ^ 32 * c.rate)

/-! ### The source -/

/-- A data block of a source: its entry, its first wideband sample, and whether it is raw. -/
structure SrcBlk where
  ent : EntryAt
  first : Nat
  raw : Bool
deriving DecidableEq, Repr, Inhabited

/-- A word of an entry reads uncorrectably (R277). -/
def entryBad (s : State) (r : RingCtx) (e : EntryAt) : Bool :=
  s.store.badWords.any fun w => r.base ≤ w && w < r.base + ringSize r && (w - r.base + ringSize r - e.pos % ringSize r) % ringSize r < e.len

/-- A reader meets a source gap at an entry: a gap descriptor, or a block that reads uncorrectably (R277). -/
def srcGap (s : State) (r : RingCtx) (e : EntryAt) : Bool := e.kind == 0x10 || entryBad s r e

/-- The cause of the gap descriptors that follow from it (R277, R355). -/
def gapCause (e : EntryAt) : Nat := if e.kind == 0x10 then 7 else 12

/-- Data blocks of a sample ring from a position up to the next source gap. Every analysis reads its input from a ring (R32). -/
def srcBlocks (s : State) (r : RingCtx) (pos : Nat) : List SrcBlk :=
  ((r.entries.filter fun e => pos ≤ e.pos).takeWhile fun e => !srcGap s r e).map fun e =>
    let f := blockField s r e 1 1
    ⟨e, if f = 0 then e.index / 2 else e.index, f == 0⟩

/-- Code c of a run of raw blocks: those at hand, and the block before them where it is of the same run (R65). -/
def codeAt (s : State) (r : RingCtx) (bs : List SrcBlk) (c : Nat) : Option Int :=
  let own := (bs.find? fun x => x.raw && x.ent.index ≤ c && c < x.ent.index + 512).map (·.ent)
  let before := bs.head?.bind fun h => ((r.entries.filter fun e => e.pos < h.ent.pos).getLast?).filter fun e =>
    h.raw && !srcGap s r e && blockField s r e 1 1 == 0 && e.index + 512 == h.ent.index && e.index ≤ c && c < h.ent.index
  (own.orElse fun _ => before).map fun e => sgn 16 (blockField s r e (64 + 2 * (c - e.index)) 2) / 16

/-- The sample of a block stream at index `n`: word I and Q, or, in a raw ring, through the mixer and half-band filter (R65, R66, R112). A
code outside the run adds nothing, as before the first sample of a stream and after its last. -/
def srcSample (s : State) (r : RingCtx) (bs : List SrcBlk) (n : Nat) : Int × Int :=
  match bs.find? fun b => b.first ≤ n && n < b.first + 256 with
  | none => (0, 0)
  | some b =>
    if b.raw then
      zoned (blockField s r b.ent 42 1 == 2) (wideOut (2 * n) ((List.range 63).map fun k =>
        if 2 * n + k < 31 then 0 else (codeAt s r bs (2 * n + k - 31)).getD 0))
    else
      let w := blockField s r b.ent (64 + 4 * (n - b.first)) 4
      (sgn 16 (w % 65536), sgn 16 (w / 65536))

/-- One past the last sample that can be formed from a run: a raw run's filter needs 31 codes more, which its next block brings unless the
run has ended (R65, R112). -/
def srcEnd (s : State) (r : RingCtx) (bs : List SrcBlk) : Nat :=
  match bs.getLast? with
  | none => 0
  | some b => if b.raw && !(r.entries.any fun e => b.ent.pos < e.pos && srcGap s r e) then b.first + 241 else b.first + 256

/-- Adjacent spans become one (R73). -/
def joinSpans : List Span → List Span
  | [] => []
  | p :: ps => match joinSpans ps with
    | [] => [p]
    | q :: qs => if q.first ≤ p.stop then ⟨p.first, max p.stop q.stop⟩ :: qs else p :: q :: qs

/-- Invalid spans of a source in its complex samples, from the block headers (R72, R78): those of raw blocks are in converter samples. -/
def srcSpans (s : State) (r : RingCtx) (bs : List SrcBlk) : List Span :=
  let own := fun (raw : Bool) => joinSpans ((bs.filter fun b => b.raw == raw).filterMap fun b =>
    let n := blockField s r b.ent 30 2
    let a := b.ent.index + blockField s r b.ent 28 2
    if n = 0 then none else some (⟨a, a + n⟩ : Span))
  (own true).map (fun p => ⟨wideFirst p.first, wideFirst p.first + wideLen (p.stop - p.first)⟩) ++ own false

/-- The ring of a channel's source input. -/
def ddcSrcRing (s : State) (c : DdcSt) (ch : Nat) : Option RingCtx := ringOf s (captureRing s (ddcSource ch c.cfg))

/-! ### The NCO (R116, R117) -/

/-- The NCO takes an increment, and a phase if one is loaded, at a sample. -/
def ncoSet (n : Nat) (freq : BitVec 48) (load : Option (BitVec 48)) (c : DdcSt) : DdcSt :=
  { c with ncoPast := (c.accAt, c.freq, c.acc) :: c.ncoPast, freq := freq, acc := load.getD (BitVec.ofNat 48 (ncoAt c n)), accAt := n }

/-- The pieces of the NCO that no sample from n on needs are forgotten. -/
def ncoPrune (n : Nat) (c : DdcSt) : DdcSt :=
  { c with ncoPast := if c.accAt ≤ n then [] else c.ncoPast.takeWhile (fun p => decide (n < p.1)) ++ (c.ncoPast.dropWhile fun p => decide (n < p.1)).take 1 }

/-! ### Narrowband blocks (R127 to R129) -/

/-- Output indices that are invalid: pending ones and those that the source's spans reach (R129, R130). -/
def ddcSpans (s : State) (ch : Nat) (c : DdcSt) (r : RingCtx) (bs : List SrcBlk) : List Span :=
  c.spans ++ (srcSpans s r bs).filterMap fun p =>
    let a := max p.first c.restartAt
    if p.stop ≤ a then none else
    let m := ddcReach ch c a
    some ⟨m, m + ceilDiv ((p.stop - a + ddcLeff c.cfg) * 2 ^ 32) (ddcDec c.cfg)⟩

/-- A decimate-by-2 stage on a run of samples (R118). -/
def halfStage (preset taps : Nat) (l : List (Int × Int)) : List (Int × Int) :=
  (List.range ((l.length - taps) / 2 + 1)).map fun j => Config.ddcHalf preset ((l.drop (2 * j)).take taps)

/-- The half-band stages in their order. -/
def halfStages (preset taps : Nat) : Nat → List (Int × Int) → List (Int × Int)
  | 0, l => l
  | k + 1, l => halfStages preset taps k (halfStage preset taps l)

/-- One output of the chain before its output stage, in 2^-16 of full code (R116, R118): with D_r 1.0 the resampler passes the sample of the
last stage. Samples before the restart sample are not in the cleared filter (R129, R130). -/
def ddcChain (s : State) (ch : Nat) (c : DdcSt) (r : RingCtx) (bs : List SrcBlk) (m : Nat) : Int × Int :=
  let w := (span (ddcLo ch c m) (ddcHi ch c m + 1)).map fun n => if n < c.restartAt then (0, 0) else Config.ddcMix (srcSample s r bs n) (ncoAt c n)
  if ddcUnity c.cfg then (halfStages (ddcPreset c.cfg) (ddcTaps c.cfg) (ddcN c.cfg) w).headD (0, 0)
  else Config.ddcResample (ddcPreset c.cfg) (ddcN c.cfg) (ddcR c.cfg) (ddcPos ch c m % 2 ^ 32) w

/-- One output behind the output stage, and whether it saturated (R121). -/
def ddcOutput (s : State) (ch : Nat) (c : DdcSt) (r : RingCtx) (bs : List SrcBlk) (m : Nat) : Int × Int × Bool :=
  if m < c.zeroTo then (0, 0, false) else
  let v := ddcChain s ch c r bs m
  let i := roundDivI (v.1 * 2 ^ c.gain) 65536
  let q := roundDivI (v.2 * 2 ^ c.gain) 65536
  let ci := clampI (-32768) 32767 i
  let cq := clampI (-32768) 32767 q
  (ci, cq, ci != i || cq != q)

/-- The block that starts at the next output: bytes, saturated outputs, open words, and the outputs, none where invalid. Outputs that reach
source sample `cut` are invalid. -/
def ddcBlock (s : State) (ch : Nat) (r : RingCtx) (bs : List SrcBlk) (cut : Option Nat) (gapBefore : Bool) : Bytes × Nat × Nat × List (Option (Int × Int)) :=
  let c := vget s.ddc ch
  let m0 := c.nextM
  let opn := cut.map fun n => max m0 (ddcReach ch c n)
  let settle := settleOf (ddcSpans s ch c r bs) opn m0 256
  let valid := fun (j : Nat) => !(settle.1 ≤ j && j < settle.1 + settle.2)
  let out := (List.range 256).map fun j => ddcOutput s ch c r bs (m0 + j)
  let good := out.zipIdx.filter fun p => valid p.2
  let sat := (good.filter fun p => p.1.2.2).length
  let peak := (good.map fun p => max p.1.1.natAbs p.1.2.1.natAbs).foldl max 0
  let zero := fun (j : Nat) => m0 + j < c.zeroTo
  let words := out.zipIdx.flatMap fun (v, j) =>
    if valid j || zero j then [unsgn 16 v.1, unsgn 16 v.2.1] else (List.range 2).map fun k => Config.free (s.freeNo + 2 * j + k) % 65536
  let firstValid := if settle.1 = 0 && settle.2 != 0 && settle.2 < 256 then settle.2 else 0
  let p := ddcPos ch c (m0 + firstValid) / 2 ^ 32
  let src := (bs.find? fun b => b.first ≤ p && p < b.first + 256).getD (bs.getLast?.getD default)
  let flags := (bs.filter fun b => b.first ≤ ddcHi ch c (m0 + 255) && max (ddcLo ch c m0) c.restartAt < b.first + 256).foldl
    (fun (f : BitVec 32) b => f ||| BitVec.ofNat 32 (blockField s r b.ent 4 4)) 0
  let flags := flags ||| BitVec.ofNat 32 (b2n (sat != 0) + 32 * b2n gapBefore)
  let per := ddcPeriod c
  let hd := [0x01, 0x02] ++ le 2 (0x0300 + ch) ++ le 4 flags.toNat ++ le 8 m0 ++ timeB (ddcTime ch c m0) ++ le 2 settle.1 ++ le 2 settle.2 ++
    le 4 per ++ le 4 (roundDiv (c.rate * 10 ^ 5) (2 * ddcDec c.cfg)) ++ le 8 (blockField s r src.ent 40 8) ++ le 2 sat ++ le 2 peak ++ le 4 (per / 2 ^ 32) ++
    le 1 (ddcSource ch c.cfg) ++ le 1 (ddcPreset c.cfg) ++ le 2 0
  (withCrc hd ++ words.flatMap (le 2), sat, 2 * settle.2, out.zipIdx.map fun (v, j) => if valid j then some (v.1, v.2.1) else none)

/-- Output m joins its window of averages (R135): windows are aligned to SAMPLE_INDEX, and channel power is that before GAIN_SHIFT (R121). -/
def averageStep (ch : Nat) (c : DdcSt) (v : Option (Int × Int)) (m : Nat) : DdcSt :=
  let w := 2 ^ fld c.thr 31 28
  if m < c.window || !bitAt c.thr 48 then c else
  let p := (if m % w = 0 then some 0 else c.power).bind fun a => v.map fun v => a + (v.1.natAbs ^ 2 + v.2.natAbs ^ 2) * 4 ^ (12 - c.gain)
  if (m + 1) % w = 0 then { c with power := some 0, averages := c.averages ++ [(ddcTime ch c m, p)] } else { c with power := p }

/-- Publish the block that starts at the next output, behind a gap descriptor that is due (R126 to R131); nothing where the ring holds it. -/
def ddcEmit (ch : Nat) (cut : Option Nat) (s : State) : State :=
  let c := vget s.ddc ch
  match ddcSrcRing s c ch with
  | none => s
  | some r =>
    let bs := srcBlocks s r c.srcPos
    let unit := 0x0300 + ch
    let gapBefore := !c.gaps.isEmpty
    let (s, rest, _) := gapsOut (ddcRing c.cfg) unit 0 c.gaps (ddcTime ch c c.nextM) s
    let s := ddcMod ch (fun c => { c with gaps := rest }) s
    if !rest.isEmpty then s else
    let b := ddcBlock s ch r bs cut gapBefore
    let (s, p) := publish true (ddcRing c.cfg) ⟨b.1, 1, ddcTime ch c c.nextM, c.nextM⟩ s
    if p == .waits then s else
    let sp := ddcSpans s ch c r bs
    let settled := c.syncing && c.zeroTo < c.nextM + 256
    ddcMod ch (fun c =>
      let c := (b.2.2.2.zipIdx c.nextM).foldl (fun c v => averageStep ch c v.1 v.2) c
      { c with
        nextM := c.nextM + 256, gain := ddcGain c.cfg, sat := wrapAdd 32 c.sat b.2.1, blocks := c.blocks + (if p == .kept then 1 else 0)
        synced := c.synced || settled, syncing := c.syncing && !settled
        spans := sp.filter fun x => c.nextM + 256 < x.stop }) { s with freeNo := s.freeNo + b.2.2.1 }

/-- A channel runs: enabled, converting, and no restart is due. -/
def ddcRuns (s : State) (ch : Nat) : Bool := bitAt (vget s.ddc ch).cfg 0 && s.power.state == .active

/-- First wideband sample of an input at or after an instant. -/
def wideAt (s : State) (i : Nat) (t : Time) : Nat :=
  let x := vget s.inputs i
  if x.nextTime ≤ t then (sampleAt s i t + 1) / 2 else (x.conv - (x.nextTime - t) * 65536 / convPeriod s i + 1) / 2

/-- The source sample from which on a pending restart ends the present grid; that of the old source where the source changes (R130, R131). -/
def ddcCut (s : State) (ch : Nat) (c : DdcSt) : Option Nat :=
  c.restart.map fun q => if ddcSource ch (c.cfgNext.getD c.cfg) = ddcSource ch c.cfg then q.at_ else wideAt s (ddcSource ch c.cfg) q.time

/-- The next block of a channel, once its whole support stands in the source ring and none of it reaches a pending restart (R130). -/
def ddcNext (ch : Nat) (s : State) : State :=
  let c := vget s.ddc ch
  match ddcSrcRing s c ch with
  | none => s
  | some r =>
    let stop := srcEnd s r (srcBlocks s r c.srcPos)
    if ddcRuns s ch && ddcHi ch c (c.nextM + 255) < ((ddcCut s ch c).map (min stop)).getD stop then ddcEmit ch none s else s

/-! ### Restarts (R130, R131) -/

/-- Time of wideband sample n of an input's present stream. -/
def wideTime (s : State) (i n : Nat) : Time := sampleTime s i (2 * n)

/-- Position after the last gap descriptor of a ring. -/
def lastGapPos (s : State) (r : RingCtx) : Nat :=
  ((r.entries.filter (srcGap s r)).getLast?.map fun e => e.pos + e.len).getD 0

/-- Steps 2 to 6 of R130 at source sample n, whose time is t, in a stream of a wideband rate. SYNCED of a synchronising reset is set with the
first output that has settled (R133). -/
def ddcBegin (ch n : Nat) (t : Time) (keep sync : Bool) (rate : Nat) (c : DdcSt) : DdcSt :=
  let c := if keep then c else { c with nref := n, refTime := t, rate := rate }
  let m := if keep then ddcAfter ch c n else 0
  let w := 2 ^ fld c.thr 31 28
  ncoPrune n { c with
    restart := none, cfgNext := none, restartAt := n, nextM := m, spans := [⟨m, m + ddcSettle c.cfg⟩], zeroTo := if sync then ddcSettle c.cfg else 0
    synced := keep, syncing := sync, gain := ddcGain c.cfg, window := ceilDiv m w * w, power := some 0, averages := [], above := false, hold := 0 }

/-- Step 1 of R130: the blocks that have begun before source sample n are completed, as far as the output ring takes them. -/
def ddcClose (ch n : Nat) : Nat → State → State
  | 0, s => s
  | k + 1, s =>
    let c := vget s.ddc ch
    if ddcRuns s ch && ddcPos ch c c.nextM / 2 ^ 32 < n then
      let s' := ddcEmit ch (some n) s
      if (vget s'.ddc ch).nextM = c.nextM then s' else ddcClose ch n k s'
    else s

/-- Every block that began before source sample n, and whether all of them are complete. -/
def ddcCloseAll (ch n : Nat) (s : State) : State × Bool :=
  let c := vget s.ddc ch
  let s := ddcClose ch n ((n * 2 ^ 32 - ddcPos ch c c.nextM) / (256 * ddcDec c.cfg) + 2) s
  let c := vget s.ddc ch
  (s, !(ddcRuns s ch && ddcPos ch c c.nextM / 2 ^ 32 < n))

/-- The record that a restart puts in force, with FREQ_WORD taken as a retune at the restart sample (R131) and the ratio chosen anew (R119). A
new source counts its own samples: the accumulator goes on from the old source's sample `cut` (R117). -/
def ddcInstall (s : State) (ch n cut : Nat) (c : DdcSt) : DdcSt :=
  let w := ddcResolve s ch (c.cfgNext.getD c.cfg)
  let moved := ddcSource ch w != ddcSource ch c.cfg
  let pos := if moved || !bitAt c.cfg 0 then ((ringOf s (captureRing s (ddcSource ch w))).map (lastGapPos s)).getD 0 else c.srcPos
  let c := if moved then { c with acc := BitVec.ofNat 48 (ncoAt c cut), accAt := n, ncoPast := [] } else c
  let f := BitVec.ofNat 48 (fld w 239 192)
  let same := f == c.freq || fld w 239 192 == fld c.cfg 239 192
  let c := { c with cfg := w, srcPos := pos }
  if same then c else ncoSet n f none c

/-- A stream restart of an input has still to reach its capture ring. -/
def runComing (s : State) (i : Nat) : Bool := (vget s.inputs i).gap.isSome || (vget s.store.skid i).blocks.any fun b => b.length == 64

/-- A pending restart takes effect once its source has reached the restart sample (R130, R131, R133); answers whether it did. -/
def ddcTakeCfg (ch : Nat) (s : State) : State × Bool :=
  let c := vget s.ddc ch
  match c.restart, ddcCut s ch c with
  | some q, some cut =>
    let old := ddcSource ch c.cfg
    let src := ddcSource ch (c.cfgNext.getD c.cfg)
    let fresh := src != old || !bitAt c.cfg 0
    let pos := fun r => if fresh then lastGapPos s r else c.srcPos
    match (ringOf s (captureRing s src)).bind fun r => (srcBlocks s r (pos r)).find? fun b => decide (q.at_ < b.first + 256) with
    | none => (s, false)
    | some b =>
      let n := max q.at_ b.first
      let t := if n = b.first then b.ent.time else q.time
      let reached := ((ddcSrcRing s c ch).map fun r => srcEnd s r (srcBlocks s r c.srcPos)).getD 0
      let cut := if src = old then n else if (vget s.inputs old).running then cut else min cut reached
      if fresh && runComing s src || src != old && bitAt c.cfg 0 && reached < cut then (s, false) else
      match ddcCloseAll ch cut s with
      | (s, false) => (s, false)
      | (s, true) => (ddcMod ch (fun c => ddcBegin ch n t q.keep q.sync (wideRate s src) (ddcInstall s ch n cut c)) s, true)
  | _, _ => (s, false)

/-- The channel meets a gap in its source (R131): its old grid ends, and it restarts at the first sample after the gap, with the record of a
restart that was to come by then. Answers whether it did. -/
def ddcTakeGap (ch : Nat) (s : State) : State × Bool :=
  let c := vget s.ddc ch
  match (ddcSrcRing s c ch).bind fun r => (r.entries.find? fun e => c.srcPos ≤ e.pos && srcGap s r e).map fun g => (r, g) with
  | none => (s, false)
  | some (r, g) =>
    match (srcBlocks s r (g.pos + g.len)).head? with
    | none => (s, false)
    | some b =>
      let stop := match (srcBlocks s r c.srcPos).getLast? with | some l => l.first + 256 | none => 0
      match ddcCloseAll ch stop s with
      | (s, false) => (s, false)
      | (s, true) =>
        let c := vget s.ddc ch
        let gap : PendGap := ⟨gapCause g, ddcTime ch c c.nextM, 0, c.nextM, ddcPeriod c⟩
        let acc := BitVec.ofNat 48 (ncoAt c (if b.first < stop then stop else b.first))
        let due := c.restart.any fun q => ddcSource ch (c.cfgNext.getD c.cfg) == ddcSource ch c.cfg && decide (q.at_ ≤ b.first)
        let c := { c with gaps := gapAdd gap c.gaps, acc := acc, accAt := b.first, ncoPast := [] }
        let d := ddcInstall s ch b.first stop (if due then c else { c with cfgNext := none })
        let d := ddcBegin ch b.first b.ent.time false false (wideRate s (ddcSource ch c.cfg)) { d with srcPos := g.pos + g.len }
        (ddcMod ch (fun _ => if due then d else { d with cfgNext := c.cfgNext, restart := c.restart }) s, true)

/-- Trigger conditions on a channel meet its restart (R194). -/
def ddcCondGap (ch : Nat) (s : State) : State :=
  let c := vget s.ddc ch
  let t := ddcTime ch c c.nextM
  formElem 5 (0x0300 + ch) true t 0 (if ddcRing c.cfg < 0x90 then s else formElem 1 (ddcRing c.cfg) true t 0 s)

/-- DDC_RESTART (R130, R131, R133): at a gap of the source, or at the restart sample. -/
def ddcRestart (ch : Nat) (s : State) : State :=
  match if ddcRuns s ch then ddcTakeGap ch s else (s, false) with
  | (s, true) => ddcCondGap ch s
  | (_, false) => match ddcTakeCfg ch s with
    | (s, true) => ddcCondGap ch s
    | (s, false) => s

/-- First wideband sample of the first source block that begins after now (R131). -/
def nextBlockStart (s : State) (i : Nat) : Nat :=
  let x := vget s.inputs i
  if now s < x.nextTime || !x.running then x.conv / 2 else x.conv / 2 + 256

/-- A restart at the first sample of the first source block that begins after now (R131). -/
def ddcSoon (s : State) (i : Nat) (keep : Bool) : DdcRestart := ⟨keep, nextBlockStart s i, false, wideTime s i (nextBlockStart s i)⟩

/-- UNIT.REINIT of a channel (R131): restart at the next source block boundary; settings and accumulator kept. -/
def ddcReinit (ch : Nat) (s : State) : State :=
  let c := vget s.ddc ch
  if bitAt c.cfg 0 && c.restart.isNone then ddcMod ch (fun c => { c with restart := some (ddcSoon s (ddcSource ch c.cfg) false) }) s else s

/-! ### Retunes and synchronising resets -/

/-- DDC_RETUNE_APPLY (R117, R131, R138): the stored words follow, those of a record that waits for a restart too. -/
def ddcRetune (ch : Nat) (s : State) : State :=
  let c := vget s.ddc ch
  match c.retune with
  | none => s
  | some rt =>
    let n := wideAt s (ddcSource ch c.cfg) rt.at_
    let store := fun (w : BitVec 288) => let w := setFld w 239 192 rt.freq.toNat; match rt.phase with | some p => setFld w 287 256 p.toNat | none => w
    ddcMod ch (fun c =>
      let c := { c with retune := none, cfg := store c.cfg, cfgNext := c.cfgNext.map store }
      let c := ncoSet n rt.freq (if rt.reset then some (BitVec.ofNat 48 (fld c.cfg 287 256 * 65536)) else none) c
      if rt.reset then let m := ddcReach ch c n; { c with spans := c.spans ++ [⟨m, m + ddcSettle c.cfg⟩] } else c) s

/-- The synchronising reset of one channel at a sync instant (R133): the pending change and the retune that is due apply at n0, where the
accumulator is loaded. A channel with outputs restarts there once its source's samples have come; of one without, whose outputs nothing
shows, the grid and SYNCED stand at once (DEDUCED log 42). Of a source that does not convert, n0 is the first sample of its next stream. -/
def ddcSyncOne (t : Time) (ch : Nat) (s : State) : State :=
  let c := vget s.ddc ch
  let w := c.cfgNext.getD c.cfg
  let src := ddcSource ch w
  let n := if (vget s.inputs src).running then wideAt s src t else 0
  let rt := c.retune.filter fun r => r.at_ ≤ t
  let w := match rt with | some r => setFld w 239 192 r.freq.toNat | none => w
  let w := match rt.bind (·.phase) with | some p => setFld w 287 256 p.toNat | none => w
  let load := fun (c : DdcSt) => ncoSet n (BitVec.ofNat 48 (fld w 239 192)) (some (BitVec.ofNat 48 (fld w 287 256 * 65536)))
    { c with retune := if rt.isSome then none else c.retune, cfgNext := some w }
  if bitAt w 0 then ddcMod ch (fun c => { load c with restart := some ⟨false, n, true, wideTime s src n⟩ }) s
  else ddcMod ch (fun c => { ddcBegin ch n (wideTime s src n) false true (wideRate s src) (ddcInstall s ch n n (load c)) with synced := true, syncing := false }) s

/-- The sync instant that an engine has reached (R132): that of a SYNC_IN edge, which waits while the source die changes its rate; the next
REFIN edge for MODE 0; APPLY_TIME for MODE 2. A MODE 1 arming waits for its edge. -/
def syncInstant (e : Nat) (s : State) : Option Time :=
  let x := vget s.ddcEng e
  match x.pin with
  | some t => if switchIs s e 2 then none else some t
  | none => x.sync.bind fun y => if y.1 = 0 then some (now s) else if y.1 = 2 && y.2 ≤ now s then some y.2 else none

/-- SYNC_RESET (R132, R133). An edge that has come leaves an armed reset of MODE 0 or 2 armed. -/
def syncReset (e : Nat) (s : State) : State :=
  match syncInstant e s with
  | none => s
  | some t => (List.range 16).foldl (fun s k => ddcSyncOne t (16 * e + k) s)
      { s with ddcEng := vmod s.ddcEng e fun x => { x with pin := none, sync := if x.pin.isSome then x.sync else none } }

/-- A SYNC_IN edge at t reaches an engine (R132), and the reset that was armed for it. -/
def syncPin (t : Time) (e : Nat) (s : State) : State :=
  { s with ddcEng := vmod s.ddcEng e fun x =>
      if bitAt x.cfg 0 || x.sync.any (·.1 == 1) then { x with pin := some t, sync := x.sync.filter (·.1 != 1) } else x }

/-! ### Threshold averages (R135, R136) -/

/-- Event source of a channel (R136). -/
def threshSource (ch : Nat) : Nat := 0x50 + 2 * (ch / 16) + ch % 16 / 8

/-- DDC_THRESH_AVERAGE (R135, R136): the next window that has ended. -/
def threshAverage (ch : Nat) (s : State) : State :=
  let c := vget s.ddc ch
  match c.averages with
  | [] => s
  | (t, p) :: rest =>
    let c' := { c with averages := rest }
    match p with
    | none => ddcMod ch (fun _ => { c' with hold := 0 }) s
    | some sum =>
      let elem := fun (above : Bool) (s : State) => formElem 5 (0x0300 + ch) false t (b2n above) s
      let avg := logCode sum (2 ^ fld c.thr 31 28 * 2 ^ 54)
      let thr := fld c.thr 15 0
      let hit := if c.above then avg + fld c.thr 27 16 ≤ thr else thr ≤ avg
      let n := if hit then c.hold + 1 else 0
      if n < fld c.thr 47 32 then elem c.above (ddcMod ch (fun _ => { c' with hold := n }) s) else
      let s := elem (!c.above) (ddcMod ch (fun _ => { c' with above := !c.above, hold := 0 }) s)
      if bitAt c.thr (if c.above then 50 else 49) then raiseAt t (threshSource ch) (if c.above then 2 else 1) (0x0300 + ch) (le 2 avg) s
      else s

/-! ### Verbs (R138, R139) -/

/-- DDC.STATUS record for a channel as it would stand with a record in force. -/
def ddcRecord (s : State) (ch : Nat) (cfg : BitVec 288) : Bytes :=
  let c := vget s.ddc ch
  le 1 (unitState s (BitVec.ofNat 16 (0x0300 + ch))) ++ le 1 (b2n c.synced + 2 * b2n c.above + 4 * b2n c.restart.isSome) ++ le 1 (ddcN cfg) ++
  le 1 (ddcPreset cfg) ++ le 5 (ddcR cfg) ++ le 7 0 ++ le 6 (ddcAchieved s ch cfg) ++ le 2 0 ++ le 4 (ddcLeff cfg) ++ le 4 (ddcSettle cfg) ++
  le 4 (ddcGd2 cfg) ++ le 4 c.sat ++ le 8 c.blocks

/-- DDC.TUNE (R117, R138). -/
def vDdcTune : Verb where
  op := 0x0502
  fits := fun s h => isA s .ddc h
  checks := fun c s => [badArg (argT c 16).isNone, busy (vget s.ddc (idx c.unit)).retune.isSome]
  act := fun c s =>
    let t := (argT c 16).getD 0
    let late := !argT0 c 16 && t < now s
    okWith (ddcMod (idx c.unit) (fun x => { x with retune := some ⟨argW c 0 48, some (argW c 8 32), argBit c 12 0, max t (now s)⟩ }) s) (le 1 (b2n late))

/-- DDC.SET_THRESHOLD (R137, R138). -/
def vDdcSetThreshold : Verb where
  op := 0x0503
  fits := fun s h => isA s .ddc h
  checks := fun c _ => [badArg (fld (argW c 0 64) 47 32 == 0)]
  act := fun c s => ok (ddcMod (idx c.unit) (fun x =>
    let w := 2 ^ fld (argW c 0 64) 31 28
    { x with thr := setFld (argW c 0 64) 63 51 0, hold := 0, window := ceilDiv x.nextM w * w, power := some 0, averages := [] }) s)

/-- DDC.SYNC (R132, R138). -/
def vDdcSync : Verb where
  op := 0x0504
  fits := fun s h => isA s .ddcEng h
  checks := fun c s => [badArg (2 < argN c 0 1), badArg (argT c 4).isNone, busy (vget s.ddcEng (idx c.unit)).sync.isSome]
  act := fun c s =>
    let t := (argT c 4).getD 0
    let late := argN c 0 1 == 2 && !argT0 c 4 && t < now s
    okWith { s with ddcEng := vmod s.ddcEng (idx c.unit) fun x => { x with sync := some (argN c 0 1, max t (now s)) } } (le 1 (b2n late))

/-- DDC.ENGINE (R137, R138). -/
def vDdcEngine : Verb where
  op := 0x0505
  fits := fun s h => isA s .ddcEng h
  checks := fun c _ => [badArg (anySet (argW c 0 32) [(31, 1)])]
  act := fun c s => ok { s with ddcEng := vmod s.ddcEng (idx c.unit) fun x => { x with cfg := argW c 0 32 } }

/-- DDC.STATUS (R138, R139). -/
def vDdcStatus : Verb where
  op := 0x0507
  fits := fun s h => isA s .ddc h
  act := fun c s =>
    let ch := idx c.unit
    okWith (if argBit c 0 0 then ddcMod ch (fun x => { x with sat := 0 }) s else s) (ddcRecord s ch (vget s.ddc ch).cfg)

def execDdcTune (c : Cmd) (s : State) : Host.Outcome State Fault Refusal := settle s (runVerb vDdcTune c s)
def execDdcSetThreshold (c : Cmd) (s : State) : Host.Outcome State Fault Refusal := settle s (runVerb vDdcSetThreshold c s)
def execDdcSync (c : Cmd) (s : State) : Host.Outcome State Fault Refusal := settle s (runVerb vDdcSync c s)
def execDdcEngine (c : Cmd) (s : State) : Host.Outcome State Fault Refusal := settle s (runVerb vDdcEngine c s)
def execDdcStatus (c : Cmd) (s : State) : Host.Outcome State Fault Refusal := settle s (runVerb vDdcStatus c s)
def execDdcRetuneApply (ch : Fin 128) (s : State) : Host.Outcome State Fault Refusal := settle s (ddcRetune ch s)
def execDdcRestart (ch : Fin 128) (s : State) : Host.Outcome State Fault Refusal := settle s (ddcRestart ch s)
def execSyncReset (e : Fin 8) (s : State) : Host.Outcome State Fault Refusal := settle s (syncReset e s)
def execDdcThreshAverage (ch : Fin 128) (s : State) : Host.Outcome State Fault Refusal := settle s (threshAverage ch s)

end Sys2Proof.Machine
end

