-- ==== Sys2Proof/Machine/Packs.lean ====
section
/-! DEFINITION. Packs and transform engines (R33 to R50, R162 to R188): membership, demands, admission to engines, dead engines, spares, fencing and self-tests. -/
set_option Elab.async false
namespace Sys2Proof.Machine
open Sys2Proof

/-! ### Fractions -/

/-- A fraction of naturals, numerator and denominator. -/
abbrev Frac := Nat × Nat

def fAdd (a b : Frac) : Frac := if a.1 = 0 then b else if b.1 = 0 then a else (a.1 * b.2 + b.1 * a.2, a.2 * b.2)
def fSub (a b : Frac) : Frac := if b.1 = 0 then a else (a.1 * b.2 - b.1 * a.2, a.2 * b.2)
def fMul (a : Frac) (n d : Nat) : Frac := (a.1 * n, a.2 * d)
def fLe (a b : Frac) : Bool := a.1 * b.2 ≤ b.1 * a.2
def fSum (l : List Frac) : Frac := l.foldl fAdd (0, 1)
def fFloor (a : Frac) : Nat := a.1 / a.2
def fCeil (a : Frac) : Nat := ceilDiv a.1 a.2

/-! ### Source rings -/

/-- The input whose capture ring a ring is (R341). -/
def ringInput (s : State) (id : Nat) : Option Nat := (ringOf s id).bind fun r => if r.type == 4 then some (idx r.owner) else none

/-- The channel whose output ring a ring is (R341). -/
def ringDdc (s : State) (id : Nat) : Option Nat := (ringOf s id).bind fun r => if r.type == 5 then some (idx r.owner) else none

/-- Complex rate of a sample ring in Hz (R141, R151). -/
def ringRate (s : State) (id : Nat) : Frac :=
  match ringInput s id, ringDdc s id with
  | some i, _ => (wideRate s i * 10 ^ 8, 2 ^ 33)
  | _, some ch => let c := (vget s.ddc ch).cfg; (wideRate s (ddcSource ch c) * 10 ^ 8, 2 * max 1 (ddcDec c))
  | _, _ => (0, 1)

/-- Byte rate of a sample ring with its headers (R298, R340). -/
def ringBytes (s : State) (id : Nat) : Frac := fMul (ringRate s id) 17 4

/-- The input or channel that fills a sample ring is enabled. -/
def sourceOn (s : State) (id : Nat) : Bool :=
  match ringInput s id, ringDdc s id with
  | some i, _ => bitAt (vget s.inputs i).cfg 0 && captureRing s i == id
  | _, some ch => bitAt (vget s.ddc ch).cfg 0 && ddcRing (vget s.ddc ch).cfg == id
  | _, _ => false

/-- A ring may be a source: an input's capture ring, or a channel's output ring (R140, R150). That the source is enabled is judged at the
start (R149, R185). -/
def sourceOk (s : State) (id : Nat) : Bool := (ringDdc s id).isSome || (ringInput s id).isSome

/-- Period of the complex samples of a source, 2^-32 ns, from a block's header (R70, R127). -/
def srcPeriod (s : State) (r : RingCtx) (b : SrcBlk) : Nat :=
  (blockField s r b.ent 32 4 + blockField s r b.ent 52 4 * 2 ^ 32) * (if b.raw then 2 else 1)

/-- Time of a source sample (R69). -/
def srcTime (s : State) (r : RingCtx) (bs : List SrcBlk) (n : Nat) : Time :=
  match ((bs.filter fun b => b.first ≤ n).getLast?).orElse (fun _ => bs.head?) with
  | none => 0
  | some b => ((b.ent.time : Int) + ((n : Int) - b.first) * srcPeriod s r b / 65536).toNat

/-- OR of the FLAGS [5:0] of source blocks that hold samples [a, b) (R349). -/
def srcFlags (s : State) (r : RingCtx) (bs : List SrcBlk) (a b : Nat) : BitVec 32 :=
  (bs.filter fun x => x.first < b && a < x.first + 256).foldl (fun (f : BitVec 32) x => f ||| BitVec.ofNat 32 (blockField s r x.ent 4 4 % 64)) 0

/-- Samples [a, b) hold no invalid one (R156). -/
def srcValid (s : State) (r : RingCtx) (bs : List SrcBlk) (a b : Nat) : Bool := (srcSpans s r bs).all fun p => p.stop ≤ a || b ≤ p.first

/-! ### Analyses and channelisers: demand and load (R147, R162) -/

def xLog2N (c : BitVec 256) : Nat := fld c 28 24
def xHop (c : BitVec 256) : Nat := 2 ^ (xLog2N c - fld c 33 32)
def xM (c : BitVec 256) : Nat := fld c 79 64
def xDet (c : BitVec 256) : Nat := fld c 39 37
def xFmt (c : BitVec 256) : Nat := fld c 41 40
def xOut (c : BitVec 256) : Nat := fld c 115 96
def xWin (c : BitVec 256) : Nat := fld c 36 34
def xFirst (c : BitVec 256) : Nat := fld c 143 128
def xCount (c : BitVec 256) : Nat := if fld c 160 144 = 0 then 2 ^ xLog2N c - xFirst c else fld c 160 144
def xSrc (c : BitVec 256) : Nat := fld c 19 0

/-- Demand of an analysis, butterfly-equivalents a second (R162). -/
def xDemand (s : State) (c : BitVec 256) : Frac := fMul (ringRate s (xSrc c)) (2 ^ fld c 33 32 * (xLog2N c + 2)) 2

/-- Demand of a channeliser (R147). -/
def chDemand (s : State) (c : ChanSt) : Frac := fMul (ringRate s c.ring) ((if c.ovs then 2 else 1) * (4 * c.log2N + c.taps)) 8

/-- Demand in M/s, rounded up. -/
def mUp (d : Frac) : Nat := fCeil (fMul d 1 1000000)

/-- Engines in service in a pack at any depth (R162). -/
def inService (s : State) (p : Handle) : List Handle := (expand s p).filter fun h => isA s .te h && !(vget s.te (idx h)).fault

/-- Admitted work: pack and demand of every running analysis and channeliser. -/
def admitted (s : State) : List (Handle × Frac) :=
  (s.xforms.filter (·.running)).map (fun x => (x.pack, xDemand s x.cfg)) ++ (s.chans.filter (·.running)).map fun c => (c.pack, chDemand s c)

/-- Load of an engine from admitted work (R162). -/
def engineLoad (s : State) (work : List (Handle × Frac)) (h : Handle) : Frac :=
  fSum (work.filterMap fun w => let es := inService s w.1; if es.contains h then some (fMul w.2 1 es.length) else none)

/-- L in per mille (R163). -/
def admitL (s : State) : Nat := if s.power.thermalWarn then 700 else 850

/-- Margin left on an engine at L (R163, R165). -/
def engineMargin (s : State) (h : Handle) : Frac := fSub (40000000 * admitL s, 1) (engineLoad s (admitted s) h)

/-- AVAILABLE of a pack, butterfly-equivalents a second (R165). -/
def packAvailable (s : State) (p : Handle) : Frac :=
  match (inService s p).map (engineMargin s) with
  | [] => (0, 1)
  | m :: ms => fMul (ms.foldl (fun a b => if fLe a b then a else b) m) ((inService s p).length) 1

/-- A demand can be admitted on a pack (R163). -/
def engineAdmits (s : State) (p : Handle) (d : Frac) : Bool :=
  let es := inService s p
  !es.isEmpty && es.all fun h => fLe (fAdd (engineLoad s (admitted s) h) (fMul d 1 es.length)) (40000000 * admitL s, 1)

/-- The refusal payload of R165, figures in M/s or MB/s. -/
def refusal (reason demand available l : Nat) : Bytes := le 1 reason ++ [0, 0, 0] ++ le 4 demand ++ le 4 available ++ le 2 l

/-- The engine check of a start, with its payload (R163, R165). -/
def engineCond (s : State) (p : Handle) (d : Frac) : Cond :=
  noRoom (!engineAdmits s p d) (refusal 1 (mUp d) (fFloor (fMul (packAvailable s p) 1 1000000)) (admitL s))

/-! ### Membership (R33 to R38, R46) -/

/-- Change slot n of a pack. -/
def slotMod (h : Handle) (n : Nat) (f : Slot → Slot) (s : State) : State :=
  packMod h (fun p => { p with slots := p.slots.zipIdx.map fun (x, i) => if i = n then f x else x }) s

/-- Change engine e. -/
def teMod (e : Nat) (f : TeSt → TeSt) (s : State) : State := { s with te := vmod s.te e f }

/-- Lowest free handle for a created pack (R37). -/
def freePack (s : State) : Option Nat :=
  ((List.range 0x7FF7).map (· + 0x8008)).find? fun h => h != 0x80FF && (packOf s (BitVec.ofNat 16 h)).isNone

/-- Units other than packs under a handle. -/
def leaves (s : State) (h : Handle) : List Handle := (expand s h).filter fun u => (packOf s u).isNone

/-- Lowest empty slot, or the next new one (R33). -/
def lowSlot (p : PackSt) : Nat := (p.slots.findIdx? fun x => x.member.isNone).getD p.slots.length

/-- An addition breaks R35 or R36, or the member is no unit. -/
def addBad (s : State) (p m : Handle) : Bool :=
  (unitOf s m).isNone || [0x0000, 0x0010, 0x1000, 0x1100, 0x1101].contains m.toNat || (expand s m).contains p || m == p ||
  (packOf s m).isSome && ((ancestors s p).contains m) ||
  (let pl := planeOf s m
   pl != 0xFF && (p :: ancestors s p).any fun a => planeOf s a != 0xFF && planeOf s a != pl)

/-- A pack with no empty slot is no longer DEGRADED for one (R178). -/
def packMended (h : Handle) (s : State) : State := packMod h (fun p => { p with degraded := p.degraded && p.slots.any (·.member.isNone) }) s

/-- PACK.CREATE (R33, R37, R187). -/
def vPackCreate : Verb where
  op := 0x0201
  fits := fun s h => isA s .device h
  checks := fun _ s => [noRoom (freePack s).isNone []]
  act := fun _ s =>
    let h := (freePack s).getD 0
    let p : PackSt := { handle := BitVec.ofNat 16 h, slots := [] }
    okWith { s with packs := (s.packs ++ [p]).mergeSort fun a b => a.handle.toNat ≤ b.handle.toNat } (le 2 h)

/-- PACK.ADD (R33 to R38, R187). -/
def vPackAdd : Verb where
  op := 0x0202
  whole := true
  fits := fun s h => isA s .pack h
  checks := fun c s =>
    let m := argW c 0 16
    let n := argN c 2 2
    match packOf s c.unit with
    | none => []
    | some p =>
      [badArg (addBad s c.unit m), badArg (parentOf s m).isSome, badArg (n < 256 && ((p.slots[n]?).any fun x => x.member.isSome)),
       badArg (256 ≤ n && n != 0xFFFF), noRoom (n == 0xFFFF && 256 ≤ lowSlot p) [],
       badState (!isIdle s c.unit || ((unitOf s m).isSome && unitState s m != 0))]
  act := fun c s =>
    match packOf s c.unit with
    | none => ok s
    | some p =>
      let n := if argN c 2 2 = 0xFFFF then lowSlot p else argN c 2 2
      let s := packMod c.unit (fun p => { p with slots := p.slots ++ List.replicate (n + 1 - p.slots.length) {} }) s
      okWith (packWatch (some (argN c 0 2)) (packMended c.unit (slotMod c.unit n (fun x => { x with member := some (argW c 0 16) }) s))) (le 2 n)

/-- A transform engine that leaves a slot carries which it was (R179). -/
def leftNote (m p : Handle) (n : Nat) (s : State) : State := if isA s .te m then teMod (idx m) (fun t => { t with left := some (p, n) }) s else s

/-- PACK.REMOVE (R33, R38, R187). -/
def vPackRemove : Verb where
  op := 0x0203
  whole := true
  fits := fun s h => isA s .pack h
  checks := fun c s =>
    match packOf s c.unit with
    | none => []
    | some p =>
      let m := (p.slots[argN c 0 2]?).bind (·.member)
      [badArg m.isNone, badState (!isIdle s c.unit || (m.any fun h => unitState s h != 0))]
  act := fun c s =>
    match (packOf s c.unit).bind fun p => (p.slots[argN c 0 2]?).bind (·.member) with
    | none => ok s
    | some m => okWith (packWatch (some m.toNat) (leftNote m c.unit (argN c 0 2) (slotMod c.unit (argN c 0 2) (fun x => { x with member := none }) s))) (le 2 m.toNat)

/-- PACK.DISSOLVE (R50, R187). -/
def vPackDissolve : Verb where
  op := 0x0204
  whole := true
  fits := fun s h => isA s .pack h
  checks := fun c s => [badState (!isIdle s c.unit || isDefaultPack c.unit)]
  act := fun c s =>
    ok { s with packs := (s.packs.filter fun p => p.handle != c.unit).map fun p =>
      { p with slots := p.slots.map fun x => if x.member == some c.unit then { x with member := none } else x } }

/-- PACK.LIST (R187). -/
def vPackList : Verb where
  op := 0x0205
  whole := true
  fits := fun s h => isA s .pack h
  checks := fun c s => [badArg (!spanOk s (argN c 0 6) (2 * ((packOf s c.unit).map (·.slots.length)).getD 0))]
  act := fun c s =>
    let p := (packOf s c.unit).map (·.slots) |>.getD []
    okWith (destWrite (argN c 0 6) (p.flatMap fun x => le 2 ((x.member.map (·.toNat)).getD 0xFFFF)) s) (le 2 p.length)

/-- Load of a pack in butterfly-equivalents a second: the loads of its engines in service (R167). -/
def packLoad (s : State) (p : Handle) : Frac := fSum ((inService s p).map (engineLoad s (admitted s)))

/-- A pack holds admitted work at any depth (R167). -/
def packHolds (s : State) (p : Handle) : Bool := (admitted s).any fun w => w.1 == p || (ancestors s w.1).contains p

/-- Headroom in 0.01 %, from a token rate in M/s and a load (R167). -/
def headroom (rate : Nat) (load : Frac) : Int := (((rate * 1000000 * load.2 : Nat) : Int) - load.1) * 10000 / load.1

/-- PACK.STATUS (R187, R188). -/
def vPackStatus : Verb where
  op := 0x0206
  whole := true
  fits := fun s h => isA s .pack h
  act := fun c s =>
    match packOf s c.unit with
    | none => ok s
    | some p =>
      let n := (inService s c.unit).length
      let sub := s.packs.filter fun q => q.handle == c.unit || (ancestors s q.handle).contains c.unit
      let res := le 1 (unitState s c.unit) ++ le 1 (b2n p.gapRisk + 2 * b2n (sub.any fun q => q.slots.any (·.member.isNone))) ++ le 2 p.slots.length ++
        le 2 n ++ le 2 (s.fab.vfab / 10) ++ le 4 (n * 40000) ++ le 4 (fFloor (fMul (packLoad s c.unit) 1 1000000)) ++ le 4 p.tokenRate ++
        le 2 (if packHolds s c.unit then unsgn 16 (clampI (-32768) 32767 (headroom p.tokenRate (packLoad s c.unit))) else 0x7FFF) ++
        le 2 ((admitted s).filter fun w => w.1 == c.unit).length ++ le 4 p.staleWrites ++ le 4 p.promotions ++ le 4 p.recomputed ++ le 12 0
      okWith (if argBit c 0 0 then packMod c.unit (fun p => { p with staleWrites := 0, promotions := 0, recomputed := 0 }) s else s) res

/-! ### Dead engines, spares and fencing (R173 to R180) -/

/-- Outstanding items are marked for recomputation (R174). -/
def markRedo (items : List WorkItem) (s : State) : State :=
  { s with
    xforms := s.xforms.map fun x => { x with redo := x.redo ++ (items.filter fun w => w.kind == .xform && w.id == x.id).map (·.index) }
    chans := s.chans.map fun c => { c with redo := c.redo ++ (items.filter fun w => w.kind == .chan && w.id == c.id).map (·.index) } }

/-- An engine leaves its slot, whose epoch rises, and its items are marked for recomputation; a spare is due for the slot (R174 to R176, R178). -/
def leaveSlot (e : Nat) (p : Handle) (n : Nat) (s : State) : State :=
  let items := (vget s.te e).items
  let s := slotMod p n (fun x => { x with epoch := x.epoch + 1, member := none, promote := some (BitVec.ofNat 16 (0x0400 + e)) }) s
  markRedo items (teMod e (fun t => { t with items := [], left := some (p, n), deadAt := s.cyc }) s)

/-- DECLARE_ENGINE_DEAD (R46, R174): an engine with outstanding items and no handshake for 10 µs. -/
def declareDead (e : Nat) (s : State) : State :=
  let h := BitVec.ofNat 16 (0x0400 + e)
  let t := vget s.te e
  match parentOf s h with
  | none => s
  | some (p, n) =>
    if t.items.isEmpty || since s t.handshake < 10 * usC then s else
    let ep := (((packOf s p).bind fun q => q.slots[n]?).map (·.epoch)).getD 0 + 1
    let s := leaveSlot e p n (teMod e (fun t => { t with fault := true }) s)
    let s := raise 0x68 0 h.toNat (le 2 p.toNat ++ le 1 n ++ [0] ++ le 4 ep.toNat ++ le 2 t.items.length) s
    packWatch (some h.toNat) (boxNow 4 0x0401 h.toNat (le 2 p.toNat ++ le 1 n ++ [0] ++ le 4 ep.toNat) s)

/-- The lowest filled slot of the spare pool (R176). -/
def lowSpare (s : State) : Option (Nat × Handle) :=
  (packOf s 0x80FF).bind fun p => (p.slots.zipIdx.findSome? fun (x, i) => x.member.map fun m => (i, m))

/-- Step 2 of R176 for one slot; without a spare R178. -/
def promoteSlot (p : Handle) (n : Nat) (old : Handle) (s : State) : State :=
  match lowSpare s with
  | none =>
    let s := packMod p (fun q => { q with degraded := true }) (slotMod p n (fun x => { x with promote := none }) s)
    packWatch (some old.toNat) (raise 0x6D 0 p.toNat (le 1 n) s)
  | some (k, m) =>
    let s := slotMod 0x80FF k (fun x => { x with member := none }) s
    let s := slotMod p n (fun x => { x with member := some m, promote := none }) s
    let s := packMod p (fun q => { q with promotions := wrapAdd 32 q.promotions 1 }) s
    let ep := (((packOf s p).bind fun q => q.slots[n]?).map (·.epoch)).getD 0
    packWatch (some m.toNat) (raise 0x69 0 m.toNat (le 2 p.toNat ++ le 1 n ++ [0] ++ le 4 ep.toNat ++ le 2 old.toNat) s)

/-- PROMOTE_SPARE (R176, R178): the slots of a pack that wait, in order of their declarations and the lower handle among equals. -/
def promote (p : Handle) (s : State) : State :=
  match packOf s p with
  | none => s
  | some q =>
    let ws := (q.slots.zipIdx.filterMap fun (x, i) => x.promote.map fun h => (i, h)).mergeSort fun a b =>
      let ta := (vget s.te (idx a.2)).deadAt
      let tb := (vget s.te (idx b.2)).deadAt
      ta < tb || (ta == tb && a.2.toNat ≤ b.2.toNat)
    ws.foldl (fun s w => promoteSlot p w.1 w.2 s) s

/-- Handle of an engine of the store junction: TE00 to TE71, then E00 to E15 (R26). -/
def engineHandle (e : Nat) : Handle := BitVec.ofNat 16 (if e < 72 then 0x0400 + e else 0x0500 + (e - 72))

/-- The write carries the present epoch of the slot that the engine fills (R175). An event engine in no pack stands for a pack of one, with
its own handle, slot 0 and epoch 0 (R205; DEDUCED, log 66). -/
def epochHolds (s : State) (h p : Handle) (n : Nat) (ep : BitVec 32) : Bool :=
  (((packOf s p).bind fun q => q.slots[n]?).any fun x => x.member == some h && x.epoch == ep) ||
  (isA s .eng h && (parentOf s h).isNone && p == h && n == 0 && ep == 0)

/-- A transform engine whose write was stale is in QUARANTINE, which is no state of a member: it leaves the slot that it fills by then
(R39, R179; log 66). -/
def quarantineNow (e : Nat) (s : State) : State :=
  let s := teMod e (fun t => { t with quarantine := true }) s
  match parentOf s (BitVec.ofNat 16 (0x0400 + e)) with
  | none => s
  | some (p, n) => if p == 0x80FF then slotMod p n (fun x => { x with member := none }) s else leaveSlot e p n s

/-- The junction discards a write (R26, R175). From a transform engine that has left a slot: STALE_WRITES, an entry, EV_STALE_EPOCH and
QUARANTINE, and from a quarantined one the count alone (R179). -/
def staleWrite (e : Nat) (p : Handle) (n : Nat) (ep : BitVec 32) (s : State) : State :=
  let h := engineHandle e
  let s := packMod p (fun q => { q with staleWrites := wrapAdd 32 q.staleWrites 1 }) s
  if 72 ≤ e || (vget s.te e).left.isNone || (vget s.te e).quarantine then s else
  let det := le 2 p.toNat ++ le 1 n ++ [0] ++ le 4 ep.toNat ++ le 4 ((((packOf s p).bind fun q => q.slots[n]?).map (·.epoch.toNat)).getD 0)
  packWatch (some h.toNat) (quarantineNow e (raise 0x6A 0 h.toNat det (boxNow 4 0x0402 h.toNat det s)))

/-- ENGINE_STORE_WRITE (R26, R175, R179). -/
def engineWrite (e : Nat) (p : Handle) (n : Nat) (ep : BitVec 32) (a : Addr) (d : Bytes) (s : State) : State :=
  if epochHolds s (engineHandle e) p n ep then
    (if regionOf s.grade a == .store && regionOf s.grade (a + d.length - 1) == .store then storeWrite a d s else s)
  else staleWrite e p n ep s

/-- PACK.SELFTEST (R180, R187). -/
def vPackSelftest : Verb where
  op := 0x0207
  fits := fun s h => isA s .te h
  checks := fun c s =>
    [badState ((parentOf s c.unit).any (·.1 != 0x80FF) || !isIdle s 0x80FF || (vget s.te (idx c.unit)).selftest.isSome)]
  act := fun c s => later (teMod (idx c.unit) (fun t => { t with selftest := some (some c) }) s)

/-- SELFTEST_DONE (R180). -/
def selftestDone (e : Nat) (pass : Bool) (test : BitVec 32) (s : State) : State :=
  let h := BitVec.ofNat 16 (0x0400 + e)
  match (vget s.te e).selftest with
  | none => s
  | some c =>
    let s := teMod e (fun t => { t with
      selftest := none, fault := !pass && (t.fault || (parentOf s h).any (·.1 == 0x80FF)), quarantine := t.quarantine && !pass }) s
    let s := match parentOf s h, packOf s 0x80FF with
      | none, some p =>
        if pass then
          let n := lowSlot p
          if 256 ≤ n then s else
          slotMod 0x80FF n (fun x => { x with member := some h }) (packMod 0x80FF (fun p => { p with slots := p.slots ++ List.replicate (n + 1 - p.slots.length) {} }) s)
        else s
      | some (p, n), _ => if pass || p != 0x80FF then s else teMod e (fun t => { t with left := some (p, n) }) (slotMod p n (fun x => { x with member := none }) s)
      | _, _ => s
    let s := raise 0x6B (if pass then 1 else 2) h.toNat ([0, 0, 0, 0] ++ le 4 (if pass then 0 else test.toNat)) s
    completeO c 0x0207 OK (le 1 (b2n (!pass)) ++ [0, 0, 0] ++ le 4 (if pass then 0 else test.toNat)) s

def execPackCreate (c : Cmd) (s : State) : Host.Outcome State Fault Refusal := settle s (runVerb vPackCreate c s)
def execPackAdd (c : Cmd) (s : State) : Host.Outcome State Fault Refusal := settle s (runVerb vPackAdd c s)
def execPackRemove (c : Cmd) (s : State) : Host.Outcome State Fault Refusal := settle s (runVerb vPackRemove c s)
def execPackDissolve (c : Cmd) (s : State) : Host.Outcome State Fault Refusal := settle s (runVerb vPackDissolve c s)
def execPackList (c : Cmd) (s : State) : Host.Outcome State Fault Refusal := settle s (runVerb vPackList c s)
def execPackStatus (c : Cmd) (s : State) : Host.Outcome State Fault Refusal := settle s (runVerb vPackStatus c s)
def execPackSelftest (c : Cmd) (s : State) : Host.Outcome State Fault Refusal := settle s (runVerb vPackSelftest c s)
def execSelftestDone (e : Fin 72) (pass : Bool) (test : BitVec 32) (s : State) : Host.Outcome State Fault Refusal := settle s (selftestDone e pass test s)
def execDeclareEngineDead (e : Fin 72) (s : State) : Host.Outcome State Fault Refusal := settle s (declareDead e s)
def execPromoteSpare (p : Handle) (s : State) : Host.Outcome State Fault Refusal := settle s (promote p s)
def execEngineStoreWrite (e : Fin 88) (p : Handle) (n : Nat) (ep : BitVec 32) (a : Addr) (d : Bytes) (s : State) : Host.Outcome State Fault Refusal :=
  settle s (engineWrite e p n ep a d s)

end Sys2Proof.Machine
end

