-- ==== Sys2Proof/Machine/Xform.lean ====
section
/-! DEFINITION. Spectral analyses (R150 to R160, R183 to R186) and channelisers (R140 to R149): definitions, spectra and steps taken in order, frames, and the verbs that need no admission. -/
set_option Elab.async false
namespace Sys2Proof.Machine
open Sys2Proof

/-! ### Encodings (R157) -/

/-- a / b to the nearest, ties to even. -/
def roundEven (a b : Nat) : Nat :=
  let q := a / b
  let r := a % b
  if b < 2 * r || (2 * r = b && q % 2 = 1) then q + 1 else q

/-- IEEE 754 binary32 of x / y, as its bits (R157 FLOAT32). -/
def float32 (x y : Nat) : Nat :=
  if x = 0 then 0 else
  let d : Int := (Nat.log2 x : Int) - Nat.log2 y
  let e := if (if 0 ≤ d then y * 2 ^ d.toNat ≤ x else y ≤ x * 2 ^ (-d).toNat) then d else d - 1
  if e < -126 then roundEven (x * 2 ^ 149) y
  else
    let k := 23 - e
    let m := if 0 ≤ k then roundEven (x * 2 ^ k.toNat) y else roundEven x (y * 2 ^ (-k).toNat)
    min ((e + 127).toNat * 2 ^ 23 + (m - 2 ^ 23)) 0x7F800000

/-- Bits of the log code of the n-th root of x / y (R155 log average). -/
def rootBits (n x y : Nat) : Nat → Nat → Nat
  | 0, c => c
  | k + 1, c =>
    let c' := c + 2 ^ k
    rootBits n x y k (if pow10le ((2 * (c' : Int) - 1 - 128000) * n) 5120 x y then c' else c)

/-- Log code of the arithmetic mean of powers in dB; a zero power lies below every code. -/
def logMean (ps : List Nat) : Nat :=
  if ps.any (· == 0) || ps.isEmpty then 0 else rootBits ps.length (ps.foldl (· * ·) 1) (2 ^ (64 * ps.length)) 16 0

/-- The whole part of the n-th root of p, bit by bit from 2^k down. -/
def rootNat (n p : Nat) : Nat → Nat → Nat
  | 0, r => r
  | k + 1, r => rootNat n p k (if (r + 2 ^ k) ^ n ≤ p then r + 2 ^ k else r)

/-- binary32 of the arithmetic mean of powers in dB, as linear power (R155, R157): the geometric mean, 0 where a power is 0. Its root is taken
to 2^-128 of full scale with a last bit that says whether something is left, so that the nearest value is right. -/
def floatMean (ps : List Nat) : Nat :=
  if ps.any (· == 0) || ps.isEmpty then 0 else
  let p := ps.foldl (· * ·) 1 * 2 ^ (64 * ps.length)
  let r := rootNat ps.length p 136 0
  float32 (2 * r + b2n (r ^ ps.length != p)) (2 ^ 129)

/-- The LOG16 code would exceed 65,535 (R157). -/
def logOver (x y : Nat) : Bool := pow10le (2 * 65536 - 1 - 128000) 5120 x y

/-- Power of a bin value, in 2^-64 of full scale (R152). -/
def binPower (v : Int × Int) : Nat := v.1.natAbs ^ 2 + v.2.natAbs ^ 2

/-! ### Source support -/

/-- Ring and blocks of a source from a position. -/
def srcView (s : State) (id pos : Nat) : Option (RingCtx × List SrcBlk) := (ringOf s id).map fun r => (r, srcBlocks s r pos)

/-- Samples [a, b) are held (R177). -/
def srcHeld (s : State) (r : RingCtx) (bs : List SrcBlk) (a b : Nat) : Bool := b ≤ srcEnd s r bs && (bs.head?.any fun x => x.first ≤ a)

/-- First block at or after a start time, zero for any (R144, R154). -/
def startBlock (r : RingCtx) (s : State) (pos : Nat) (t : Time) : Option SrcBlk :=
  ((r.entries.filter fun e => pos ≤ e.pos && !srcGap s r e && t ≤ e.time).head?).map fun e =>
    let f := blockField s r e 1 1
    ⟨e, if f = 0 then e.index / 2 else e.index, f == 0⟩

/-- First block after the next source gap from a position, with the position after the gap and the cause it gives (R156, R277). -/
def afterGap (s : State) (r : RingCtx) (pos : Nat) : Option (Nat × SrcBlk × Nat) :=
  (r.entries.find? fun e => pos ≤ e.pos && srcGap s r e).bind fun g => ((srcBlocks s r (g.pos + g.len)).head?).map fun b => (g.pos + g.len, b, gapCause g)

/-! ### Spectra (R151 to R156, R350) -/

/-- Change analysis id. -/
def xMod (id : Nat) (f : XformSt → XformSt) (s : State) : State := { s with xforms := lmod (·.id == id) f s.xforms }

/-- Retained bins of a list over all bins (R151). -/
def xKeep {α : Type} (c : BitVec 256) (l : List α) : List α := (l.drop (xFirst c)).take (xCount c)

/-- Source period of an analysis, 2^-32 ns. -/
def viewPeriod (s : State) (r : RingCtx) (bs : List SrcBlk) : Nat := (bs.head?.map (srcPeriod s r)).getD 0

/-- Time of output g (R155). -/
def xOutTime (s : State) (c : BitVec 256) (o : Nat) (r : RingCtx) (bs : List SrcBlk) (g : Nat) : Time :=
  srcTime s r bs (o + g * xM c * xHop c) + ((xM c - 1) * xHop c + 2 ^ xLog2N c - 1) * viewPeriod s r bs / 131072

/-! ### The transform (R151 to R153) -/

/-- cos(2πk/n) in 2^-30, for n a multiple of 4: exact at quarter turns. -/
def cosT (k n : Nat) : Int :=
  let k := k % n
  let k := if n < 2 * k then n - k else k
  let q := fun (k : Nat) => if k = 0 then 2 ^ 30 else if 4 * k = n then 0 else Config.cosine k n
  if 4 * k ≤ n then q k else -q (n / 2 - k)

/-- x · e^(−2πi k/n), times 2^30. -/
def rotated (k n : Nat) (x : Int × Int) : Int × Int :=
  let c := cosT k n
  let s := cosT (k + 3 * n / 4) n
  (x.1 * c + x.2 * s, x.2 * c - x.1 * s)

/-- The weighted sum of samples at a frequency of f/n of the sample rate, from phase index `from_`, scaled to unity gain of the weights and
to `scale` over 2^15 of full code (R143, R152). -/
def tone (scale f n from_ : Nat) (ws : List Int) (xs : List (Int × Int)) : Int × Int :=
  let sum := ((ws.zip xs).zipIdx.map fun x => let v := rotated (f * (from_ + x.2)) n x.1.2; (x.1.1 * v.1, x.1.1 * v.2)).foldl (fun a b => (a.1 + b.1, a.2 + b.2)) (0, 0)
  let g := ws.sum
  let den := 2 ^ 45 * g.natAbs
  let sg : Int := if g < 0 then -1 else 1
  (roundDivI (sg * sum.1 * scale) den, roundDivI (sg * sum.2 * scale) den)

/-- The window's coefficients in the order of the samples (R152, R153). -/
def windowTaps (log2N window param : Nat) (table : List Int) : List Int :=
  (List.range (2 ^ log2N)).map fun n => if window = 0 then 1 else if window = 6 then table.getD n 0 else Config.window window param log2N n

/-- The bins of a spectrum in ascending frequency, in 2^-32 of full scale: bin b is the part of the samples at (b − N/2)/N of the rate, with
the window at unity coherent gain (R151 to R153). -/
def spectrum (log2N window param : Nat) (table : List Int) (xs : List (Int × Int)) : List (Int × Int) :=
  let n := 2 ^ log2N
  let ws := windowTaps log2N window param table
  (List.range n).map fun b => tone (2 ^ 32) (b + n - n / 2) n 0 ws xs

/-- One spectrum over the samples that the ring holds (R151 to R156, R177). -/
def xCompute (s : State) (x : XformSt) (p : Nat) (redo : Bool) : DoneItem :=
  let n := 2 ^ xLog2N x.cfg
  let o := x.origin.getD 0
  let lo := o + p * xHop x.cfg
  match srcView s (xSrc x.cfg) x.srcPos with
  | none => ⟨p, redo, some 9, false, 0, 0, 0, []⟩
  | some (r, bs) =>
    let held := srcHeld s r bs lo (lo + n)
    let ok := held && srcValid s r bs lo (lo + n)
    ⟨p, redo, if held then none else some 9, ok, srcTime s r bs lo + (n - 1) * viewPeriod s r bs / 131072, xOutTime s x.cfg o r bs (p / xM x.cfg),
      srcFlags s r bs lo (lo + n), if ok then spectrum (xLog2N x.cfg) (xWin x.cfg) (fld x.cfg 63 48) (x.window.getD []) ((span lo (lo + n)).map (srcSample s r bs)) else []⟩

/-- Condition j of a trigger's definition (R223). -/
def condDef (d : Bytes) (j : Nat) : Bytes := bytesAt d (64 + 48 * j) 48

def condKind (k : Bytes) : Nat := numAt k 0 1
def condSource (k : Bytes) : Nat := numAt k 4 4

/-- A MASK condition of an armed trigger has still to read the spectrum of an analysis at a time (R198). -/
def tapWanted (s : State) (id : Nat) (t : Time) : Bool :=
  s.events.eng.toList.any fun g => g.trig.toList.any fun g => g.armed && (List.range 4).any fun j =>
    let k := condDef (g.defn.getD []) j
    condKind k == 2 && condSource k == id && (vget g.conds j).seen < t

/-- The next completed spectrum is taken in order: it joins its group, whose output is lost with any spectrum that was not computed (R155,
R156, R173, R177). -/
def xTake (s : State) (x : XformSt) (d : DoneItem) : XformSt :=
  let p := x.publish
  let last := (p + 1) % xM x.cfg = 0
  let x := { x with publish := p + 1, completed := x.completed.filter fun c => c.index != p }
  let x := if p % xM x.cfg = 0 then { x with groupTime := d.outTime, group := [], groupFlags := 0, groupLost := none } else x
  let x := if d.lost.isSome then { x with groupLost := some (x.groupLost.getD (d.lost.getD 9)) } else
    let ps := (List.range (2 ^ xLog2N x.cfg)).map fun b => binPower (d.vals.getD b (0, 0))
    { x with
      group := if d.ok then x.group ++ [(ps, xKeep x.cfg d.vals)] else x.group
      groupFlags := x.groupFlags ||| d.flags ||| (if d.redo then 0x80 else 0)
      tap := (p, d.time, d.ok, if d.ok then ps.map fun q => logCode q (2 ^ 64) else []) :: x.tap.filter fun e => tapWanted s x.id e.2.1 }
  match x.groupLost with
  | some cause => if last then { x with formed := x.formed + 1, group := [], groupFlags := 0, groupLost := none,
                                        gaps := gapAdd ⟨cause, x.groupTime, 1, p / xM x.cfg, 0⟩ x.gaps } else x
  | none => x

/-- One output value per retained bin as numerator and denominator, or the codes of the log average (R155). -/
def xPowers (c : BitVec 256) (group : List (List Nat)) : List (Nat × Nat) :=
  let n := group.length
  (xKeep c (List.range (2 ^ xLog2N c))).map fun b =>
    let ps := group.map fun g => g.getD b 0
    match xDet c with
    | 0 => (ps.headD 0, 2 ^ 64)
    | 1 => (ps.foldl max 0, 2 ^ 64)
    | 2 => (ps.foldl min (ps.headD 0), 2 ^ 64)
    | _ => (ps.sum, n * 2 ^ 64)

/-- Block exponent and values of a COMPLEX output (R157). -/
def xComplex (vs : List (Int × Int)) (free : Nat) : Int × List (Int × Int) × Bool :=
  let big := (vs.map fun v => max v.1.natAbs v.2.natAbs).foldl max 0
  let e : Int := if big = 0 then sgn 16 (free % 65536) else (Nat.log2 big : Int) - 31
  let k := e + 17
  let f := fun (v : Int) => if 0 ≤ k then roundDivI v (2 ^ k.toNat) else v * 2 ^ (-k).toNat
  let c := fun (v : Int) => clampI (-32768) 32767 (f v)
  (e, vs.map (fun v => (c v.1, c v.2)), big != 0 && vs.any fun v => c v.1 != f v.1 || c v.2 != f v.2)

/-- Payload, exponent, and whether a value saturated, of an output (R155, R157); free where the group has no valid spectrum (R156). -/
def xPayload (s : State) (x : XformSt) : Bytes × Int × Bool × Nat :=
  let c := x.cfg
  let bins := xCount c
  let ps := x.group.map (·.1)
  if x.group.isEmpty then
    let n := bins * (if xFmt c = 0 then 2 else 4)
    ((List.range n).map fun i => BitVec.ofNat 8 (Config.free (s.freeNo + i)), 0, false, n)
  else if xFmt c = 2 then
    let v := xComplex ((x.group.head?.map (·.2)).getD []) (Config.free s.freeNo)
    (v.2.1.flatMap fun w => le 2 (unsgn 16 w.1) ++ le 2 (unsgn 16 w.2), v.1, v.2.2, 1)
  else if xDet c = 4 then
    let each := (xKeep c (List.range (2 ^ xLog2N c))).map fun b => ps.map fun g => g.getD b 0
    if xFmt c = 0 then (each.flatMap fun l => le 2 (logMean l), 0, false, 0) else (each.flatMap fun l => le 4 (floatMean l), 0, false, 0)
  else
    let out := xPowers c ps
    if xFmt c = 0 then (out.flatMap fun v => le 2 (logCode v.1 v.2), 0, out.any fun v => logOver v.1 v.2, 0)
    else (out.flatMap fun v => le 4 (float32 v.1 v.2), 0, false, 0)

/-- Gap descriptors of an analysis that are due go into its output ring, if it has one (R156, R186); whether none is left. -/
def xGaps (id : Nat) (stop : Time) (s : State) : State × Bool :=
  match s.xforms.find? fun x => x.id == id with
  | none => (s, true)
  | some x =>
    if xOut x.cfg < 0x90 then (xMod id (fun x => { x with gaps := [] }) s, true) else
    match gapsOut (xOut x.cfg) x.pack.toNat 1 x.gaps stop s with
    | (s, rest, n) => (xMod id (fun x => { x with gaps := rest, lost := wrapAdd 32 x.lost n }) s, rest.isEmpty)

/-- The output whose group is whole goes into the ring, if there is one, behind the gap descriptors that are due (R155, R350); held while the
ring is full (R343). An output that the ring drops is under the ring's own gap descriptor (R186, R345). -/
def xEmit (id : Nat) (s : State) : State × Bool :=
  match s.xforms.find? fun x => x.id == id with
  | none => (s, false)
  | some x =>
    let c := x.cfg
    let stop := x.groupTime
    let ring := xOut c
    match xGaps id stop s with
    | (s, false) => (s, false)
    | (s, true) =>
    let (pay, e, sat, used) := xPayload s x
    let inv := x.group.isEmpty
    let flags := x.groupFlags.toNat ||| (b2n inv * 0x40 + b2n sat * 0x400)
    let special := le 1 (xLog2N c) ++ le 1 (xFmt c) ++ le 1 (xDet c) ++ le 1 (xWin c) ++ le 1 id ++ le 1 (fld c 33 32) ++ le 2 (xM c) ++
      le 4 (xFirst c) ++ le 4 (xCount c) ++ le 2 (unsgn 16 e) ++ le 2 x.group.length ++ le 4 (xSrc c)
    let (s, p) := if ring < 0x90 then (s, none) else
      match publish true ring ⟨frameBytes 0x02 x.pack.toNat flags x.formed stop special pay, 0x02, stop, x.formed⟩ s with
      | (s, p) => (s, some p)
    if p == some .waits then (s, false) else
    let redo := x.groupFlags.getLsbD 7
    (xMod id (fun x => { x with
      formed := x.formed + 1, group := [], groupFlags := 0, lastTime := stop, outputs := x.outputs + b2n (p == some .kept)
      lost := wrapAdd 32 x.lost (b2n (p == some .dropped))
      invalid := if inv then wrapAdd 32 x.invalid 1 else x.invalid, recomputed := if redo then wrapAdd 32 x.recomputed 1 else x.recomputed })
      { s with freeNo := s.freeNo + used }, true)

/-! ### Channeliser steps (R141 to R146, R351) -/

/-- Change channeliser id. -/
def cMod (id : Nat) (f : ChanSt → ChanSt) (s : State) : State := { s with chans := lmod (·.id == id) f s.chans }

def cHop (c : ChanSt) : Nat := if c.ovs then 2 ^ (c.log2N - 1) else 2 ^ c.log2N
def cLen (c : ChanSt) : Nat := c.taps * 2 ^ c.log2N

/-- Time of step n (R144). -/
def cTime (s : State) (c : ChanSt) (r : RingCtx) (bs : List SrcBlk) (n : Nat) : Time :=
  srcTime s r bs (c.origin.getD 0 + n * cHop c) + (cLen c - 1) * viewPeriod s r bs / 131072

/-- Bytes of one step of a bundle (R351). -/
def stepBytes (c : ChanSt) (count : Nat) : Nat := if c.fmt8 then ceilDiv count 2 * 4 else count * 4

/-- Whole steps that a frame holds; 0 where a step is split (R351). -/
def frameSteps (c : ChanSt) (count : Nat) : Nat := if stepBytes c count ≤ 8192 then min 32 (8192 / stepBytes c count) else 0

/-- Output words of a run of channels (R143). -/
def chanWords (fmt8 : Bool) (vs : List (Int × Int)) : List Nat :=
  let b8 := fun (v : Int) => unsgn 8 (clampI (-128) 127 (roundDivI v 256))
  if fmt8 then
    (List.range (ceilDiv vs.length 2)).map fun i =>
      let a := vs.getD (2 * i) (0, 0)
      let b := vs.getD (2 * i + 1) (0, 0)
      b8 a.1 + b8 a.2 * 256 + b8 b.1 * 65536 + b8 b.2 * 2 ^ 24
  else vs.map fun v => unsgn 16 v.1 + unsgn 16 v.2 * 65536

/-- A frame of a bundle (R351). -/
def chanFrame (c : ChanSt) (b : Bundle) (steps : List (Nat × List Nat × Bool × Nat × Nat × Time)) (part : Nat) (split : Nat) (words : List Nat) : Ent :=
  let h := steps.headD (0, [], false, 0, 0, 0)
  let flags := steps.foldl (fun f x => f ||| x.2.2.2.2.1 ||| (b2n x.2.2.1 * 0x40 + b2n (x.2.2.2.1 != 0) * 0x400)) split
  let inv := (steps.zipIdx.map fun (x, i) => if x.2.2.1 then 2 ^ i else 0).sum
  let special := le 1 c.log2N ++ le 1 (b2n c.ovs + 2 * b2n c.fmt8) ++ le 1 c.taps ++ le 1 c.shift ++ le 2 c.id ++ le 2 steps.length ++
    le 4 b.first ++ le 4 b.count ++ le 4 part ++ le 4 c.ring ++ le 4 inv
  ⟨frameBytes 0x03 c.pack.toNat flags h.1 h.2.2.2.2.2 special (words.flatMap (le 4)), 0x03, h.2.2.2.2.2, h.1⟩

/-- The frames that close a bundle's waiting steps: one of whole steps, or the parts of one step (R146, R351). -/
def chanFrames (c : ChanSt) (b : Bundle) : List Ent :=
  if b.steps.isEmpty then [] else
  if 0 < frameSteps c b.count then [chanFrame c b b.steps 0 0 (b.steps.flatMap fun x => x.2.1)]
  else
    let ws := b.steps.flatMap fun x => x.2.1
    let n := ceilDiv ws.length 2048
    (List.range n).map fun k =>
      chanFrame c b b.steps (k * 2048 * (if c.fmt8 then 2 else 1)) (0x100 + if k + 1 = n then 0x200 else 0) ((ws.drop (2048 * k)).take 2048)

/-- Change the bundle that starts at a channel. -/
def bundleMod (id first : Nat) (f : Bundle → Bundle) (s : State) : State := cMod id (fun c => { c with bundles := lmod (·.first == first) f c.bundles }) s

/-- Frames go into a ring in order; how many went before one had to wait. -/
def framesOut (ring : Nat) : List Ent → State → State × Nat
  | [], s => (s, 0)
  | e :: es, s => match publish true ring e s with
    | (s, .waits) => (s, 0)
    | (s, _) => match framesOut ring es s with
      | (s, n) => (s, n + 1)

/-- Close the frame in progress of a bundle; whether it could (R343, R351). Of a split step, the parts that are in the ring stay there
(R146). -/
def bundleClose (id first : Nat) (s : State) : State × Bool :=
  match (s.chans.find? fun c => c.id == id).bind fun c => (c.bundles.find? fun b => b.first == first).map fun b => (c, b) with
  | none => (s, true)
  | some (c, b) =>
    let es := chanFrames c b
    match framesOut b.ring (es.drop b.sent) s with
    | (s, n) =>
      if es.length ≤ b.sent + n then (bundleMod id first (fun b => { b with steps := [], sent := 0 }) s, true)
      else (bundleMod id first (fun b => { b with sent := b.sent + n }) s, false)

/-- A bundle's frame is whole (R351). -/
def bundleFull (c : ChanSt) (b : Bundle) : Bool := !b.steps.isEmpty && max 1 (frameSteps c b.count) ≤ b.steps.length

/-- Close every whole frame; whether all could. -/
def bundlesFlush (id : Nat) (all : Bool) (s : State) : State × Bool :=
  match s.chans.find? fun c => c.id == id with
  | none => (s, true)
  | some c => c.bundles.foldl (fun (p : State × Bool) b => if all || bundleFull c b then
      (match bundleClose id b.first p.1 with | (s, o) => (s, p.2 && o)) else p) (s, true)

/-- The gap descriptors that are due go to each bundle ring before the next step (R144). -/
def chanGaps (c : ChanSt) (stop : Time) (s : State) : State :=
  let each := fun (ring : Nat) (s : State) => (List.range c.gaps.length).foldl (fun s k =>
    let g := c.gaps.getD k default
    let e := ((c.gaps[k + 1]?).map (·.start)).getD stop
    publishNow ring (gapEnt s c.pack.toNat 1 { g with lost := gapLost g e } e) s) s
  cMod c.id (fun c => { c with gaps := [] }) (c.bundles.foldl (fun s b => each b.ring s) s)

/-- The channels of a step in ascending frequency, in 2^-16 of full code (R141 to R143): channel c is the part of the samples at (c − N/2)/N
of the rate under the prototype at unity gain, its phase counted from the start sample, so that it stays continuous. -/
def chanBins (c : ChanSt) (step : Nat) (xs : List (Int × Int)) : List (Int × Int) :=
  let n := 2 ^ c.log2N
  let ws := (List.range (cLen c)).map (Config.prototype c.log2N c.taps)
  (List.range n).map fun k => tone (2 ^ 31) (k + n - n / 2) n (step * cHop c) ws xs

/-- One step over the samples that the ring holds (R141 to R144, R177). -/
def cCompute (s : State) (c : ChanSt) (p : Nat) (redo : Bool) : DoneItem :=
  let lo := c.origin.getD 0 + p * cHop c
  match srcView s c.ring c.srcPos with
  | none => ⟨p, redo, some 9, false, 0, 0, 0, []⟩
  | some (r, bs) =>
    let held := srcHeld s r bs lo (lo + cLen c)
    let t := cTime s c r bs p
    ⟨p, redo, if held then none else some 9, held && srcValid s r bs lo (lo + cLen c), t, t, srcFlags s r bs lo (lo + cLen c),
      if held then chanBins c p ((span lo (lo + cLen c)).map (srcSample s r bs)) else []⟩

/-- A bundle is in effect at a step's time: from the first step at or after its addition, up to the first at or after its removal (R145). -/
def bundleOn (b : Bundle) (t : Time) : Bool := b.addAt.all (fun a => a ≤ t) && b.removeAt.all fun a => t < a

/-- The next completed step is taken in order: its channels go to the bundles in effect (R143 to R146, R173). -/
def cTake (id : Nat) (d : DoneItem) (s : State) : State :=
  let s := cMod id (fun c => { c with publish := d.index + 1, completed := c.completed.filter fun x => x.index != d.index }) s
  match s.chans.find? fun c => c.id == id with
  | none => s
  | some c =>
    let t := d.time
    if d.lost.isSome then cMod id (fun c => { c with gaps := gapAdd ⟨d.lost.getD 9, t, 1, d.index, 0⟩ c.gaps }) s
    else
      let s := chanGaps c t s
      let sc := (List.range (2 ^ c.log2N)).map fun k => let v := d.vals.getD k (0, 0); (roundDivI (v.1 * 2 ^ c.shift) 65536, roundDivI (v.2 * 2 ^ c.shift) 65536)
      let cl := sc.map fun v => (clampI (-32768) 32767 v.1, clampI (-32768) 32767 v.2)
      let fl := d.flags.toNat + (if d.redo then 0x80 else 0)
      let sat := fun (b : Bundle) => ((((List.zip sc cl).drop b.first).take b.count).filter fun v => v.1 != v.2).length
      let put := fun (b : Bundle) =>
        if !bundleOn b t then b else
        { b with steps := b.steps ++ [(d.index, chanWords c.fmt8 ((cl.drop b.first).take b.count), !d.ok, sat b, fl, t)], since := if b.steps.isEmpty then s.cyc else b.since }
      cMod id (fun c => { c with
        bundles := c.bundles.map put, produced := c.produced + 1, invalid := if d.ok then c.invalid else wrapAdd 32 c.invalid 1
        saturated := wrapAdd 32 c.saturated ((c.bundles.map fun b => if bundleOn b t then sat b else 0).sum), lastTime := t }) s

/-- BUNDLE_TAKE_EFFECT (R145): the next step's time has come to that of the change. -/
def bundleTake (id first : Nat) (s : State) : State :=
  match (s.chans.find? fun c => c.id == id).bind fun c => (c.bundles.find? fun b => b.first == first).map fun b => (c, b) with
  | none => s
  | some (c, b) =>
    let t := match srcView s c.ring c.srcPos with
      | some (r, bs) => cTime s c r bs c.publish
      | none => now s
    if b.addAt.any fun a => a ≤ t then bundleMod id first (fun b => { b with addAt := none }) s
    else if b.removeAt.any fun a => a ≤ t then
      (match bundleClose id first s with
       | (s, true) => cMod id (fun c => { c with bundles := c.bundles.filter fun b => b.first != first }) s
       | (s, false) => s)
    else s

/-- CHAN_FRAME_CLOSE (R351): 1 ms after the support of the frame's first step ended. -/
def chanFrameClose (id first : Nat) (s : State) : State :=
  match (s.chans.find? fun c => c.id == id).bind fun c => c.bundles.find? fun b => b.first == first with
  | some b => if !b.steps.isEmpty && msC ≤ since s b.since then (bundleClose id first s).1 else s
  | none => s

/-! ### What a source has delivered -/

/-- The source of a ring delivers samples. -/
def sourceRuns (s : State) (id : Nat) : Bool :=
  match ringInput s id, ringDdc s id with
  | some i, _ => (vget s.inputs i).running && captureRing s i == id
  | _, some ch => ddcRuns s ch && ddcRing (vget s.ddc ch).cfg == id
  | _, _ => false

/-- An analysis has delivered every spectrum whose time lies before an instant (R200, R233): its next spectrum lies there or later, or none is
to come. -/
def xDelivered (s : State) (x : XformSt) (t : Time) : Bool :=
  !x.running || t ≤ x.startTime ||
  match srcView s (xSrc x.cfg) x.srcPos, x.origin with
  | some (r, bs), some o =>
    let lo := o + x.publish * xHop x.cfg
    bs.isEmpty || t ≤ srcTime s r bs lo + (2 ^ xLog2N x.cfg - 1) * viewPeriod s r bs / 131072 ||
    (srcEnd s r bs < lo + 2 ^ xLog2N x.cfg && !sourceRuns s (xSrc x.cfg))
  | _, _ => true

/-! ### XFORM verbs (R185) -/

/-- ENBW of a window table, 1/65,536 bin (R152, R153). -/
def tableEnbw (w : List Int) : Nat :=
  let g := w.sum.natAbs
  if g = 0 then 0 else roundDiv (w.length * (w.map fun x => x.natAbs ^ 2).sum * 65536) (g * g)

/-- ENBW of an analysis (R152). -/
def xEnbw (c : BitVec 256) (w : Option (List Int)) : Nat :=
  match xWin c, w with
  | 0, _ => 65536
  | 1, _ => 98304
  | 2, _ => 131334
  | 3, _ => 247071
  | 6, some t => tableEnbw t
  | k, _ => Config.enbw k (fld c 63 48) (xLog2N c)

/-- Latency bound of R159, ns. -/
def xLatency (c : BitVec 256) : Nat := 5000 + ceilDiv (2 ^ xLog2N c * (xLog2N c + 2)) 80

/-- Bytes of one spectral frame (R347, R350). -/
def xFrameBytes (c : BitVec 256) : Nat := 64 + ceilDiv (xCount c * (if xFmt c = 0 then 2 else 4)) 64 * 64

/-- A ring may take a unit's output: none, or a ring of the type owned by the unit and large enough (R341, R614). -/
def outRingOk (s : State) (id type : Nat) (h : Handle) (need : Nat) : Bool :=
  id < 0x90 || (ringOf s id).any fun r => r.type == type && r.owner == h && need ≤ ringSize r

/-- A source ring holds at least 1 ms (R160). -/
def holdsMs (s : State) (id : Nat) : Bool := (ringOf s id).any fun r => let b := ringBytes s id; b.1 ≤ ringSize r * 1000 * b.2

/-- The XFORM_CFG record that a command carries: reserved bits as 0 (R8, R183). -/
def xCfgArg (c : Cmd) : BitVec 256 :=
  setFld (setFld (setFld (setFld (setFld (setFld (argW c 0 256) 23 20 0) 31 29 0) 47 42 0) 95 80 0) 127 116 0) 255 161 0

/-- BAD_ARG conditions of XFORM.CREATE (R150 to R160, R183, R185). -/
def xBad (s : State) (p : Handle) (c : BitVec 256) : Bool :=
  xLog2N c < 6 || 16 < xLog2N c || 6 < xWin c || 4 < xDet c || xFmt c == 3 ||
  xM c == 0 || (xWin c == 4 && 10240 < fld c 63 48) || (xWin c == 5 && (fld c 63 48 < 512 || 2048 < fld c 63 48)) || 65536 < fld c 160 144 ||
  2 ^ xLog2N c ≤ xFirst c || 2 ^ xLog2N c < xFirst c + xCount c || (xFmt c == 2 && (xDet c != 0 || xM c != 1)) ||
  !sourceOk s (xSrc c) || !holdsMs s (xSrc c) || !outRingOk s (xOut c) 6 p (xFrameBytes c)

/-- The counts of R150 as a refusal (R164, R165). -/
def xCountCond (s : State) (p : Handle) (c : BitVec 256) : Cond :=
  noRoom (256 ≤ s.xforms.length || 32 ≤ (s.xforms.filter fun x => x.pack == p).length)
    (refusal 3 (mUp (xDemand s c)) (fFloor (fMul (packAvailable s p) 1 1000000)) 0)

/-- Lowest number below n that is not in a list. -/
def lowFree (n : Nat) (used : List Nat) : Nat := ((List.range n).find? fun i => !used.contains i).getD 0

/-- XFORM.CREATE (R150, R185). -/
def vXformCreate : Verb where
  op := 0x0701
  whole := true
  fits := fun s h => isA s .pack h
  checks := fun c s =>
    let w := xCfgArg c
    [badArg (xBad s c.unit w), xCountCond s c.unit w, keptCond s [xSrc w, xOut w]]
  act := fun c s =>
    let w := xCfgArg c
    let id := lowFree 256 (s.xforms.map (·.id))
    okWith { s with xforms := s.xforms ++ [{ id := id, pack := c.unit, cfg := w }] }
      (le 2 id ++ le 2 0 ++ le 4 (mUp (xDemand s w)) ++ le 4 (xEnbw w none) ++ le 4 (xLatency w))

/-- The analysis that a command names on its pack. -/
def xArg (c : Cmd) (s : State) : Option XformSt := s.xforms.find? fun x => x.id == argN c 0 2 && x.pack == c.unit

/-- Coefficients of a user table in bytes; none where R153 refuses them. -/
def readTable (b : Bytes) (n : Nat) : Option (List Int) :=
  let ws := (List.range n).map fun i => numAt b (4 * i) 4
  if ws.any fun w => w / 2 ^ 18 != (if w / 2 ^ 17 % 2 = 1 then 2 ^ 14 - 1 else 0) then none else
  let cs := ws.map fun w => sgn 18 (w % 2 ^ 18)
  if cs.sum = 0 then none else some cs

/-- XFORM.LOAD_WINDOW (R153, R185). -/
def vXformLoadWindow : Verb where
  op := 0x0702
  whole := true
  fits := fun s h => isA s .pack h
  checks := fun c s =>
    let n := ((xArg c s).map fun x => 2 ^ xLog2N x.cfg).getD 0
    [badArg ((xArg c s).isNone || !spanOk s (argN c 4 6) (4 * n) || (kennelRead s (argN c 4 6) (4 * n)).any fun b => (readTable b n).isNone), badState ((xArg c s).any (·.running))]
  act := fun c s =>
    match xArg c s with
    | none => ok s
    | some x =>
      let n := 2 ^ xLog2N x.cfg
      match kennelRead s (argN c 4 6) (4 * n) with
      | none => answer s FAULT
      | some b =>
        let t := readTable b n
        okWith (xMod x.id (fun x => { x with window := t }) (kennelNote (argN c 4 6) (4 * n) s)) (le 8 0 ++ le 4 (tableEnbw (t.getD [])))

/-- XFORM.STOP (R185): the answer follows the last whole output. -/
def vXformStop : Verb where
  op := 0x0704
  whole := true
  fits := fun s h => isA s .pack h
  checks := fun c s => [badArg (xArg c s).isNone, badState ((xArg c s).any fun x => !x.running || x.stopping.isSome)]
  act := fun c s => later (xMod (argN c 0 2) (fun x => { x with stopping := some c }) s)

/-- XFORM.DELETE (R185). -/
def vXformDelete : Verb where
  op := 0x0705
  whole := true
  fits := fun s h => isA s .pack h
  checks := fun c s => [badArg (xArg c s).isNone, badState ((xArg c s).any (·.running))]
  act := fun c s => ok { s with xforms := s.xforms.filter fun x => x.id != argN c 0 2 }

/-- Backlog of an item in source samples: from the last support sample of its oldest unissued work to the newest (R171). -/
def backlog (o hop len next : Nat) (redo : List Nat) (stop : Nat) : Nat :=
  stop - (o + (redo.foldl min next) * hop + len)

/-- BACKLOG_US (R171, R186). -/
def xBacklogUs (s : State) (x : XformSt) : Nat :=
  match srcView s (xSrc x.cfg) x.srcPos, x.origin with
  | some (r, bs), some o => backlog o (xHop x.cfg) (2 ^ xLog2N x.cfg) x.next x.redo (srcEnd s r bs) * viewPeriod s r bs / 2 ^ 32 / 1000
  | _, _ => 0

/-- XFORM.STATUS (R185, R186). -/
def vXformStatus : Verb where
  op := 0x0707
  whole := true
  fits := fun s h => isA s .pack h
  checks := fun c s => [badArg (xArg c s).isNone]
  act := fun c s =>
    match xArg c s with
    | none => ok s
    | some x => okWith s (le 1 (b2n x.running) ++ [0] ++ le 2 x.pack.toNat ++ le 4 (mUp (xDemand s x.cfg)) ++ le 8 x.outputs ++ le 4 x.invalid ++
        le 4 x.recomputed ++ le 4 x.lost ++ le 4 (xEnbw x.cfg x.window) ++ timeB x.lastTime ++ le 4 (xBacklogUs s x))

/-! ### CHAN verbs (R149) -/

/-- The channeliser that a command names on its pack. -/
def cArg (c : Cmd) (s : State) : Option ChanSt := s.chans.find? fun x => x.id == argN c 0 2 && x.pack == c.unit

/-- A channeliser as CHAN.CREATE gives it. -/
def chanOfArgs (c : Cmd) (id : Nat) : ChanSt :=
  { id := id, pack := c.unit, ring := argN c 0 4 % 2 ^ 20, log2N := argN c 4 1, ovs := argBit c 5 0, fmt8 := argBit c 5 1, taps := argN c 6 1, shift := argN c 7 1 }

/-- CHAN.CREATE (R140, R149). -/
def vChanCreate : Verb where
  op := 0x0601
  whole := true
  fits := fun s h => isA s .pack h
  checks := fun c s =>
    let x := chanOfArgs c 0
    [badArg (x.log2N < 4 || 16 < x.log2N || !([8, 12, 16].contains x.taps) || 24 < x.shift || !sourceOk s x.ring),
     noRoom (64 ≤ s.chans.length) [], keptCond s [x.ring]]
  act := fun c s =>
    let id := lowFree 64 (s.chans.map (·.id))
    okWith { s with chans := s.chans ++ [chanOfArgs c id] } (le 2 id ++ le 2 0 ++ le 4 (fCeil (fMul (chDemand s (chanOfArgs c id)) 1 1000000000)))

/-- Largest frame of a bundle in bytes (R351). -/
def bundleFrameBytes (c : ChanSt) (count : Nat) : Nat :=
  64 + ceilDiv (if 0 < frameSteps c count then frameSteps c count * stepBytes c count else 8192) 64 * 64

/-- CHAN.BUNDLE (R145, R149). -/
def vChanBundle : Verb where
  op := 0x0602
  whole := true
  fits := fun s h => isA s .pack h
  checks := fun c s =>
    let a := argN c 4 4
    let n := argN c 8 4
    [badArg (match cArg c s with
      | none => true
      | some x => n == 0 || 2 ^ x.log2N < a + n || (x.bundles.any fun b => a < b.first + b.count && b.first < a + n) ||
          argN c 12 4 < 0x90 || !outRingOk s (argN c 12 4) 7 c.unit (bundleFrameBytes x n)), keptCond s [argN c 12 4]]
  act := fun c s =>
    match cArg c s with
    | none => ok s
    | some x =>
      let at_ := if x.running then some (now s + 100 * 65536000) else none
      ok (cMod x.id (fun x => { x with bundles := x.bundles ++ [{ first := argN c 4 4, count := argN c 8 4, ring := argN c 12 4, addAt := at_ }] }) s)

/-- CHAN.UNBUNDLE (R145, R149). -/
def vChanUnbundle : Verb where
  op := 0x0603
  whole := true
  fits := fun s h => isA s .pack h
  checks := fun c s => [badArg (!((cArg c s).any fun x => x.bundles.any fun b => b.first == argN c 4 4 && b.removeAt.isNone))]
  act := fun c s =>
    match cArg c s with
    | none => ok s
    | some x =>
      if x.running then ok (bundleMod x.id (argN c 4 4) (fun b => { b with removeAt := some (now s + 100 * 65536000) }) s)
      else ok (cMod x.id (fun x => { x with bundles := x.bundles.filter fun b => b.first != argN c 4 4 }) s)

/-- CHAN.STOP (R149). -/
def vChanStop : Verb where
  op := 0x0605
  whole := true
  fits := fun s h => isA s .pack h
  checks := fun c s => [badArg (cArg c s).isNone, badState ((cArg c s).any fun x => !x.running || x.stopping.isSome)]
  act := fun c s => later (cMod (argN c 0 2) (fun x => { x with stopping := some c }) s)

/-- CHAN.DELETE (R149). -/
def vChanDelete : Verb where
  op := 0x0606
  whole := true
  fits := fun s h => isA s .pack h
  checks := fun c s => [badArg (cArg c s).isNone, badState ((cArg c s).any (·.running))]
  act := fun c s => ok { s with chans := s.chans.filter fun x => x.id != argN c 0 2 }

/-- CHAN.STATUS (R149). -/
def vChanStatus : Verb where
  op := 0x0607
  whole := true
  fits := fun s h => isA s .pack h
  checks := fun c s => [badArg (cArg c s).isNone]
  act := fun c s =>
    match cArg c s with
    | none => ok s
    | some x => okWith s (le 1 (b2n x.running) ++ le 3 0 ++ le 8 x.produced ++ le 4 x.invalid ++ le 4 x.saturated ++ le 4 x.bundles.length ++ timeB x.lastTime)

def execXformCreate (c : Cmd) (s : State) : Host.Outcome State Fault Refusal := settle s (runVerb vXformCreate c s)
def execXformLoadWindow (c : Cmd) (s : State) : Host.Outcome State Fault Refusal := settle s (runVerb vXformLoadWindow c s)
def execXformStop (c : Cmd) (s : State) : Host.Outcome State Fault Refusal := settle s (runVerb vXformStop c s)
def execXformDelete (c : Cmd) (s : State) : Host.Outcome State Fault Refusal := settle s (runVerb vXformDelete c s)
def execXformStatus (c : Cmd) (s : State) : Host.Outcome State Fault Refusal := settle s (runVerb vXformStatus c s)
def execChanCreate (c : Cmd) (s : State) : Host.Outcome State Fault Refusal := settle s (runVerb vChanCreate c s)
def execChanBundle (c : Cmd) (s : State) : Host.Outcome State Fault Refusal := settle s (runVerb vChanBundle c s)
def execChanUnbundle (c : Cmd) (s : State) : Host.Outcome State Fault Refusal := settle s (runVerb vChanUnbundle c s)
def execChanStop (c : Cmd) (s : State) : Host.Outcome State Fault Refusal := settle s (runVerb vChanStop c s)
def execChanDelete (c : Cmd) (s : State) : Host.Outcome State Fault Refusal := settle s (runVerb vChanDelete c s)
def execChanStatus (c : Cmd) (s : State) : Host.Outcome State Fault Refusal := settle s (runVerb vChanStatus c s)
def execBundleTakeEffect (id : Fin 64) (first : Nat) (s : State) : Host.Outcome State Fault Refusal := settle s (bundleTake id first s)
def execChanFrameClose (id : Fin 64) (first : Nat) (s : State) : Host.Outcome State Fault Refusal := settle s (chanFrameClose id first s)

end Sys2Proof.Machine
end

