-- ==== Sys2Proof/Machine/Events.lean ====
section
/-! DEFINITION. Triggers and records (R189 to R214, R220 to R225): elements, conditions, firings, pins, envelope streams, and the TRIG and REC verbs that need no admission. -/
set_option Elab.async false
namespace Sys2Proof.Machine
open Sys2Proof

/-- Change engine e. -/
def engMod (e : Nat) (f : EvEng → EvEng) (s : State) : State := { s with events := { s.events with eng := vmod s.events.eng e f } }

/-- Change trigger t of engine e. -/
def trigMod (e t : Nat) (f : TrigSt → TrigSt) (s : State) : State := engMod e (fun g => { g with trig := vmod g.trig t f }) s

/-- Trigger t of engine e. -/
def trigOf (s : State) (e t : Nat) : TrigSt := vget (vget s.events.eng e).trig t

/-- Span ring j of a definition. -/
def spanRing (d : Bytes) (j : Nat) : Nat := numAt d (48 + 4 * j) 4

/-- Nanoseconds as a length of time. -/
def nsT (n : Nat) : Time := n * 65536

/-! ### Demand (R204, R205) -/

/-- A raw capture ring (R63). -/
def isRawRing (s : State) (id : Nat) : Bool := (ringInput s id).any fun i => !isWide s i

/-- Demand of a condition, element operations a second (R204). -/
def condDemand (s : State) (k : Bytes) : Frac :=
  let d := vget s.dens (condSource k - 0x0600)
  match condKind k with
  | 0 => (0, 1)
  | 1 => ringRate s (condSource k)
  | 2 => match s.xforms.find? fun x => x.id == condSource k with
    | some x => fMul (ringRate s (xSrc x.cfg)) (xCount x.cfg * (numAt k 1 1 % 2 + numAt k 1 1 / 2 % 2)) (xHop x.cfg)
    | none => (0, 1)
  | 3 => ((numAt k 14 2 + 1 - numAt k 12 2) * (numAt k 18 2 + 1 - numAt k 16 2) * 1000000, max 1 (fld d.cfg 95 64))
  | 4 => ((numAt k 14 2 + 1 - numAt k 12 2) * 1000000, max 1 (fld d.occCfg 63 32))
  | _ => (1000000, 1)

/-- Demand of a definition. -/
def defDemand (s : State) (d : Bytes) : Frac := fSum ((List.range 4).map fun j => condDemand s (condDef d j))

/-- Demand of an envelope stream on a source (R204). -/
def envDemand (s : State) (src : Nat) : Frac := fMul (ringRate s src) (if isRawRing s src then 2 else 1) 1

/-- Admitted demand of an event engine. -/
def engDemand (s : State) (e : Nat) : Frac :=
  fAdd (fSum ((vget s.events.eng e).trig.toList.map fun g => if g.armed then defDemand s (g.defn.getD []) else (0, 1)))
    (fSum ((s.events.envs.filter fun v => v.engine.val == e).map fun v => envDemand s v.src))

/-! ### Frequency masks (R195 to R197) -/

/-- Level of a mask at a bin; none outside it (R196). -/
def maskLevel (b : Nat) : List (Nat × Nat) → Option Int
  | [] => none
  | [p] => if p.1 = b * 256 then some p.2 else none
  | p :: q :: ps =>
    if b * 256 < p.1 then none
    else if b * 256 ≤ q.1 then some ((p.2 : Int) + ((q.2 : Int) - p.2) * ((b * 256 : Nat) - (p.1 : Int)) / ((q.1 : Int) - p.1))
    else maskLevel b (q :: ps)

/-- Bins that violate the masks of a condition, relaxed by h (R197). -/
def violations (masks : Vector (List (Nat × Nat)) 32) (k : Bytes) (h : Nat) (bins : List Nat) (codes : List Nat) : Nat :=
  (bins.filter fun b =>
    let c : Int := codes.getD b 0
    (bitAt (BitVec.ofNat 8 (numAt k 1 1)) 0 && (maskLevel b (vget masks (numAt k 16 1))).any fun l => l + h < c) ||
    (bitAt (BitVec.ofNat 8 (numAt k 1 1)) 1 && (maskLevel b (vget masks (numAt k 17 1))).any fun l => c < l - h)).length

/-! ### Elements (R190, R191) -/

/-- What an element shows: valid, meets, stays (R191, R193). -/
abbrev Tested := Bool × Bool × Bool

/-- Last entry of a data block at or before an instant, and the blocks of its stream. -/
def blocksAt (s : State) (r : RingCtx) (t : Time) : Option (SrcBlk × List SrcBlk) :=
  ((r.entries.filter fun e => !srcGap s r e && e.time ≤ t).getLast?).bind fun e =>
    let from_ := ((r.entries.filter fun g => srcGap s r g && g.pos < e.pos).getLast?.map fun g => g.pos + g.len).getD 0
    let bs := srcBlocks s r from_
    (bs.find? fun b => b.ent.pos == e.pos).map fun b => (b, bs)

/-- The complex sample of a ring at an instant (R190 LEVEL). -/
def levelSample (s : State) (id : Nat) (t : Time) : Option (Bool × Nat) :=
  (ringOf s id).bind fun r => (blocksAt s r t).bind fun (b, bs) =>
    let j := ceilDiv ((t - b.ent.time) * 65536) (max 1 (srcPeriod s r b))
    let n := b.first + j
    if 256 ≤ j || srcTime s r bs n != t then none else
    let v := srcSample s r bs n
    some (srcValid s r bs n (n + 1), logCode (v.1.natAbs ^ 2 + v.2.natAbs ^ 2) (2 ^ 30))

/-- The element of a condition at an instant, if its source has one there. -/
def elemAt (s : State) (e : Nat) (k : Bytes) (c : CondSt) (t : Time) : Option Tested :=
  let h := numAt k 2 2
  let a := numAt k 12 4
  let formed := (c.formed.find? fun x => x.1 == t && !x.2.1).map (·.2.2)
  match condKind k with
  | 1 => if t ≤ c.seen then none else (levelSample s (condSource k) t).map fun (ok, v) =>
      let l := a % 65536
      if numAt k 1 1 = 0 then (ok, l ≤ v, l ≤ v + h) else (ok, v ≤ l, v ≤ l + h)
  | 2 => if t ≤ c.seen then none else
    (s.xforms.find? fun x => x.id == condSource k).bind fun x => (x.tap.find? fun p => p.2.1 == t).map fun p =>
      let bins := span (xFirst x.cfg) (xFirst x.cfg + xCount x.cfg)
      let m := (vget s.events.eng e).masks
      (p.2.2.1, a ≤ violations m k 0 bins p.2.2.2, a ≤ violations m k h bins p.2.2.2)
  | 3 => formed.map fun v => let n := numAt k 20 4; (true, (n : Int) ≤ v, ((n * 15 / 16 : Nat) : Int) ≤ v)
  | 4 => formed.map fun v => let n := numAt k 16 2; (true, (n : Int) ≤ v, (n : Int) - h ≤ v)
  | 5 => formed.map fun v => (true, v == 1, v == 1)
  | 0 => none
  | _ => formed.map fun _ => (true, true, true)

/-- A gap descriptor of a sample ring lies between two instants (R194). -/
def ringGapIn (s : State) (id : Nat) (a b : Time) : Bool :=
  (ringOf s id).any fun r => r.entries.any fun e => srcGap s r e && a < e.time && e.time ≤ b

/-- A pulse that has passed before an instant ends (R191). -/
def pulseEnd (k : Bytes) (t : Time) (c : CondSt) : CondSt :=
  if 6 ≤ condKind k && c.isTrue && c.until_.any fun u => u < t then { c with isTrue := false, run := 0, until_ := none } else c

/-- A condition as a source gap, a restart or a blind span leaves it (R194). -/
def condClear (c : CondSt) : CondSt := { c with isTrue := false, run := 0, until_ := none }

/-- A condition's source shows a gap up to an instant (R194). -/
def condGap (s : State) (k : Bytes) (t : Time) (c : CondSt) : Bool :=
  (c.formed.any fun x => x.2.1 && x.1 ≤ t) || (condKind k == 1 && ringGapIn s (condSource k) c.seen t)

/-- A condition takes in the element that its source shows at an instant, if any (R192, R193). -/
def condStep (s : State) (e : Nat) (k : Bytes) (t : Time) (gap : Bool) (c : CondSt) : CondSt :=
  let el := elemAt s e k c t
  let c := { c with formed := c.formed.filter fun x => t < x.1, seen := if el.isSome || gap then max c.seen t else c.seen }
  match el with
  | none => c
  | some (valid, met, stays) =>
    if !valid then c
    else if c.isTrue then
      (if !stays then { c with isTrue := false, run := 0 } else if 6 ≤ condKind k then { c with until_ := some (t + nsT (numAt k 24 8)) } else c)
    else if met then
      let on := if c.run = 0 then t else c.onset
      let fires := numAt k 8 4 ≤ c.run + 1
      { c with run := c.run + 1, onset := on, isTrue := fires,
               until_ := if fires && 6 ≤ condKind k then some (t + nsT (numAt k 24 8)) else none }
    else { c with run := 0 }

/-- States of the conditions as a number (R199). -/
def condBits (v : Vector CondSt 4) : Nat := (v.toList.zipIdx.map fun (c, j) => if c.isTrue then 2 ^ j else 0).sum

/-- A truth table of a definition (R199). -/
def truth (d : Bytes) (off st : Nat) : Bool := (numAt d off 2 >>> st) % 2 == 1

/-! ### Pins (R206 to R212) -/

/-- Samples of a data block in its own numbering, and their period in 2^-32 ns (R63, R70, R127). -/
def blkLen (s : State) (r : RingCtx) (e : EntryAt) : Nat := if blockField s r e 1 1 = 0 then 512 else 256
def blkPeriod (s : State) (r : RingCtx) (e : EntryAt) : Nat := blockField s r e 32 4 + blockField s r e 52 4 * 2 ^ 32

/-- Time of the last sample of a block. -/
def blkLast (s : State) (r : RingCtx) (e : EntryAt) : Time := e.time + (blkLen s r e - 1) * blkPeriod s r e / 65536

/-- Spans of a ring that hold blocks, as ranges of positions. -/
def pinRanges (s : State) (id : Nat) : List (Nat × Nat) :=
  (s.events.pins.filter fun p => p.ring == id && pinHolds p).map fun p => (p.firstPos, p.endPos)

/-- Bytes in a union of ranges (R209). -/
def unionLen (l : List (Nat × Nat)) : Nat :=
  ((l.mergeSort fun a b => a.1 ≤ b.1).foldl (fun (a : Nat × Nat) r => (max a.1 r.2, a.2 + (r.2 - max a.1 r.1))) (0, 0)).2

/-- EV_RECORD_COMPLETE at the last span of a record (R212). -/
def recordDone (rec : BitVec 32) (s : State) : State :=
  let ps := s.events.pins.filter fun p => p.record == rec
  match ps with
  | [] => s
  | p :: _ => if ps.all (·.complete) then raise 0xA8 0 0x0B00 (le 4 rec.toNat ++ le 1 ps.length ++ le 1 p.engine ++ le 1 p.trigger) s else s

/-- A pin is released, by policy or by command (R209, R211). -/
def pinRelease (p : PinSt) (s : State) : State :=
  let p := { p with state := .released }
  raise 0xAA 0 0x0B00 (pinDetail p) (pinReport p (pinSet p s))

/-- The policy acts on a complete pin (R209). -/
def pinAct (p : PinSt) (s : State) : State :=
  let q := policyOf s p.ring
  match q.copy, ringOf s p.ring with
  | true, some r =>
    let s := pinSet { p with state := .copying, copyRing := q.copyRing, copied := 0, nextPos := p.firstPos, data := [] } s
    let off := p.firstPos % ringSize r
    let n := p.endPos - p.firstPos
    let k := min n (ringSize r - off)
    let put := fun (o len : Nat) (s : State) =>
      if len = 0 then s else fetchQueue q.channel { src := r.base + o, dst := 0, length := len, flags := 0, tag := p.record, pin := some (p.record, p.span) } s
    put 0 (n - k) (put off k s)
  | _, _ => policyMod p.ring (fun q => { q with releases := wrapAdd 32 q.releases 1 }) (pinRelease p s)

/-- The oldest complete pin of a ring (R209). -/
def pinOldest (s : State) (id : Nat) : Option PinSt :=
  (s.events.pins.filter fun p => p.ring == id && p.state == .pinned).foldl
    (fun (m : Option PinSt) p => match m with | some q => if p.firstPos < q.firstPos then some p else some q | none => some p) none

/-- The pin budget for a new range of positions (R209). -/
def pinBudget (id size : Nat) (new : Nat × Nat) : Nat → State → State
  | 0, s => s
  | n + 1, s =>
    if 2 * unionLen (new :: pinRanges s id) ≤ size then s else
    match pinOldest s id with
    | none => s
    | some p => pinBudget id size new n (pinAct p s)

/-- The limits of R207 leave no room for a span of a record in a ring. -/
def pinLimit (s : State) (id : Nat) (rec : BitVec 32) : Bool :=
  4096 ≤ (pinRanges s id).length ||
  65536 ≤ (((s.events.pins.filter fun p => pinHolds p && p.record != rec).map (·.record)).eraseDups).length

/-- The pin budget rule makes room for a span beyond a limit (R207): the oldest complete pins of the ring, one by one. -/
def pinRoom (id : Nat) (rec : BitVec 32) : Nat → State → State
  | 0, s => s
  | n + 1, s => if !pinLimit s id rec then s else match pinOldest s id with
    | none => s
    | some p => pinRoom id rec n (pinAct p s)

/-- The ring as a span sees it (R594): where a counter step lies within its interval, the times of the blocks are counted from those at the
firing by SAMPLE_INDEX. -/
def spanTimes (s : State) (r : RingCtx) (p : PinSt) : RingCtx :=
  if p.stepped then
    { r with entries := r.entries.map fun e => { e with
        time := p.base.1 + blockField s r e 8 8 * blkPeriod s r e / 65536 - p.base.2 * blkPeriod s r e / 65536 } }
  else r

/-- The block that a span of a firing counts times from (R594): the newest at or before TRIG_TIME. -/
def spanBase (s : State) (r : RingCtx) (p : PinSt) : PinSt :=
  let ds := r.entries.filter fun e => e.kind != 0x10
  match (ds.filter fun e => e.time ≤ p.trigTime).getLast? with
  | none => p
  | some e => { p with
    base := (e.time, blockField s r e 8 8), stepped := s.time.steppedTo.any fun a => a ≤ p.trigTime && p.startTime < a }

/-- First block that holds a sample at or after an instant, whether the instant is older than the oldest data, and the position
after the entries up to another instant. -/
def spanBlocks (s : State) (r : RingCtx) (start stop : Time) : Nat × Bool × Nat :=
  let ds := r.entries.filter fun e => e.kind != 0x10
  let first := (ds.find? fun e => start ≤ blkLast s r e).map (·.pos) |>.getD r.producer
  let short := ds.head?.any fun e => start < e.time
  let last := ((r.entries.filter fun e => first ≤ e.pos && e.time ≤ stop).getLast?.map fun e => e.pos + e.len).getD first
  (first, short, last)

/-- Bytes that a ring is still to take up to an instant (R209). -/
def spanRest (s : State) (r : RingCtx) (stop : Time) : Nat :=
  let newest := ((r.entries.filter fun e => e.kind != 0x10).getLast?.map (blkLast s r)).getD (now s)
  ceilDiv (fCeil (fMul (ringBytes s r.id) (stop - newest) secT)) 1088 * 1088

/-- One span of a record is pinned (R206 to R209), or carries NOT_PINNED. -/
def pinMake (p : PinSt) (s : State) : State :=
  let add := fun (p : PinSt) (s : State) => { s with events := { s.events with pins := s.events.pins ++ [p] } }
  let refuse := fun (s : State) =>
    let p := { p with state := .notPinned }
    policyMod p.ring (fun q => { q with refused := wrapAdd 32 q.refused 1 }) (raise 0xAB 0 0x0B00 (pinDetail p) (add p s))
  match ringOf s p.ring with
  | none => refuse s
  | some r =>
    let p := spanBase s r p
    let r := spanTimes s r p
    let (first, short, last) := spanBlocks s r p.startTime p.endTime
    let stop := last + spanRest s r p.endTime
    let s := pinRoom p.ring p.record s.events.pins.length s
    if pinLimit s p.ring p.record then refuse s else
    let s := pinBudget p.ring (ringSize r) (first, stop) s.events.pins.length s
    add { p with firstPos := first, endPos := stop, flags := if short then p.flags ||| 1 else p.flags } s

/-! ### Firings (R202, R206, R220) -/

/-- The RECORD_ID that the next record takes (R207). -/
def nextRecord (s : State) : BitVec 32 := if s.events.lastRecord = 0xFFFFFFFF then 1 else s.events.lastRecord + 1

/-- A definition's actions take a RECORD_ID at the firing, if they record (R207); 0 otherwise. -/
def recordFor (d : Bytes) (s : State) : State × BitVec 32 :=
  if bitAt (BitVec.ofNat 8 (numAt d 6 1)) 1 then ({ s with events := { s.events with lastRecord := nextRecord s } }, nextRecord s) else (s, 0)

/-- The later of two ends of a hold-off (R201). -/
def laterEnd : Option Time → Option Time → Option Time
  | some a, some b => some (max a b)
  | some a, none => some a
  | none, x => x

/-- The actions of a definition at an instant, with the RECORD_ID that they have (R202, R206, R220). -/
def fire (e t : Nat) (d : Bytes) (id : BitVec 32) (trig onset : Time) (forced : Bool) (s : State) : State :=
  let g := trigOf s e t
  let act := BitVec.ofNat 8 (numAt d 6 1)
  let m := numAt d 7 1
  let mspan := numAt (vget s.events.meas m) 28 1
  let s := if bitAt act 1 then
      ((List.range 4).filter fun j => 0x90 ≤ spanRing d j).foldl (fun s j => pinMake
        { record := id, engine := e, trigger := t, span := j, ring := spanRing d j, state := .open_, flags := if forced then 0x40 else 0
          trigTime := trig, onset := onset, startTime := trig - nsT (numAt d 24 8), endTime := trig + nsT (numAt d 32 8)
          firstPos := 0, endPos := 0, blocks := 0, firstSample := 0, lastSample := 0, recRing := numAt d 40 4
          meas := if bitAt act 2 && m < 64 && mspan == j then some (m, numAt d 44 4) else none } s) s
    else s
  let s := trigMod e t (fun g => { g with
    fired := wrapAdd 32 g.fired 1, lastTime := trig, win := if forced then g.win else none
    holdoff := laterEnd g.holdoff (if numAt d 16 8 = 0 then none else some (trig + nsT (numAt d 16 8))) }) s
  let s := if bitAt act 0 then
      raiseAt trig (0x70 + e) 1 (0x0500 + e) (le 1 t ++ le 1 (condBits g.conds) ++ [0, 0] ++ le 4 id.toNat ++ le 8 (trig - onset)) s
    else s
  if bitAt act 3 && g.armed then raise (0x70 + e) 3 (0x0500 + e) (le 1 t) (trigMod e t (fun g => { g with armed := false }) s) else s

/-- A trigger fires at once. -/
def fireNow (e t : Nat) (trig onset : Time) (forced : Bool) (s : State) : State × BitVec 32 :=
  let d := (trigOf s e t).defn.getD []
  match recordFor d s with
  | (s, id) => (fire e t d id trig onset forced s, id)

/-- Half the duration that a ring holds, at most 1 s (R171, R203). -/
def lagLimit (s : State) (id : Nat) : Time :=
  match ringOf s id with
  | none => secT
  | some r => let b := ringBytes s id; if b.1 = 0 then secT else min secT (ringSize r * secT * b.2 / (2 * b.1))

/-- The source ring whose backlog a condition has; none for the others (R203). -/
def condRing (s : State) (k : Bytes) : Option Nat :=
  match condKind k with
  | 1 => some (condSource k)
  | 2 => (s.xforms.find? fun x => x.id == condSource k).map fun x => xSrc x.cfg
  | _ => none

/-- The functions' last values where conditions were cleared: no firing results from that change (R194). -/
def rebased (d : Bytes) (old new : Vector CondSt 4) (g : TrigSt) : TrigSt :=
  if condBits new = condBits old then { g with f1 := g.f1 && truth d 2 (condBits old), f2 := g.f2 && truth d 4 (condBits old) }
  else { g with f1 := truth d 2 (condBits new), f2 := truth d 4 (condBits new) }

/-- TRIGGER_BLIND (R203): a condition whose backlog exceeds the lag limit skips elements up to half of it before the newest data. -/
def condBlind (e t j : Nat) (s : State) : State :=
  let g := trigOf s e t
  let c := vget g.conds j
  match (condRing s (condDef (g.defn.getD []) j)).bind fun id => (ringOf s id).map fun r => (id, r) with
  | none => s
  | some (id, r) =>
    let newest := ((r.entries.filter fun e => e.kind != 0x10).getLast?.map (blkLast s r)).getD 0
    let l := lagLimit s id
    if newest ≤ c.seen + l then s else
    let stop := newest - l / 2
    raiseAt c.seen (0x70 + e) 2 (0x0500 + e) (le 1 t ++ le 3 0 ++ timeB stop)
      (trigMod e t (fun g =>
        let cs := vmod g.conds j fun c => { condClear c with seen := stop }
        { rebased (g.defn.getD []) g.conds cs g with blind := wrapAdd 32 g.blind 1, conds := cs }) s)

/-- Earliest onset of the conditions that rose (R202). -/
def riseOnset (old new : Vector CondSt 4) (t : Time) : Time :=
  ((new.toList.zip old.toList).filter fun p => p.1.isTrue && !p.2.isTrue).foldl (fun m p => min m p.1.onset) t

/-- Runs of blocks of a ring between its source gaps. -/
def ringRuns (s : State) (r : RingCtx) : List (List SrcBlk) :=
  ((0 :: (r.entries.filter (srcGap s r)).map fun e => e.pos + e.len).map (srcBlocks s r)).filter fun l => !l.isEmpty

/-- The next sample of a run after an instant, of those that can be formed (R190 LEVEL). -/
def sampleAfter (s : State) (r : RingCtx) (bs : List SrcBlk) (t : Time) : Option Time :=
  let stop := srcEnd s r bs
  (bs.findSome? fun b =>
    let n := b.first + ceilDiv ((t + 1 - b.ent.time) * 65536) (max 1 (srcPeriod s r b))
    if n < b.first + 256 && n < stop then some n else none).map (srcTime s r bs)

/-- The least of some instants. -/
def earliest (l : List Time) : Option Time := match l with | [] => none | t :: ts => some (ts.foldl min t)

/-- The next instant at which a condition has an element or a source gap that it has not taken in (R190, R194). -/
def condNext (s : State) (k : Bytes) (c : CondSt) : Option Time :=
  earliest (c.formed.map (·.1) ++ match condKind k with
    | 1 => match ringOf s (condSource k) with
      | some r => (ringRuns s r).filterMap (fun bs => sampleAfter s r bs c.seen) ++
          ((r.entries.filter fun e => srcGap s r e && c.seen < e.time).map (·.time))
      | none => []
    | 2 => ((s.xforms.find? fun x => x.id == condSource k).map fun x => (x.tap.map (·.2.1)).filter fun u => c.seen < u).getD []
    | _ => [])

/-- The source of a condition has delivered every element up to an instant (R200). -/
def condDone (s : State) (k : Bytes) (t : Time) (c : CondSt) : Bool :=
  let h := condSource k
  match condKind k with
  | 0 => true
  | 1 => !sourceRuns s h || (ringOf s h).any fun r => (ringRuns s r).any fun bs => (sampleAfter s r bs (t - 1)).isSome
  | 2 => match s.xforms.find? fun x => x.id == h with
    | some x => xDelivered s x (t + 1)
    | none => true
  | 3 => let d := vget s.dens (h - 0x0600); !d.running || t < (d.frameStart + max 1 (fld d.cfg 95 64)) * 65536000
  | 4 => let d := vget s.dens (h - 0x0600); !d.occRunning || t < (d.slotStart + max 1 (fld d.occCfg 63 32)) * 65536000
  | 5 => let ch := h - 0x0300; !ddcRuns s ch || t < ddcTime ch (vget s.ddc ch) (vget s.ddc ch).nextM
  | 7 => !c.due.any fun u => u ≤ t
  | _ => t ≤ now s

/-- Firings that were forced for an instant still to come, once an instant has reached them (R220). -/
def forcedDue (e t : Nat) (at_ : Time) (s : State) : State :=
  let l := (trigOf s e t).forced
  (l.filter fun x => x.1 ≤ at_).foldl (fun s x => fire e t x.2.2 x.2.1 x.1 x.1 true s)
    (trigMod e t (fun g => { g with forced := l.filter fun x => at_ < x.1 }) s)

/-- The conditions of an armed trigger take in the instant and the trigger is evaluated (R194, R199 to R202). -/
def trigTake (e t : Nat) (d : Bytes) (at_ : Time) (s : State) : State :=
  let g := trigOf s e t
  let was := Vector.ofFn fun j : Fin 4 => pulseEnd (condDef d j) at_ g.conds[j]
  let gap := Vector.ofFn fun j : Fin 4 => condGap s (condDef d j) at_ g.conds[j]
  let old := Vector.ofFn fun j : Fin 4 => if gap[j] then condClear was[j] else was[j]
  let new := Vector.ofFn fun j : Fin 4 => condStep s e (condDef d j) at_ gap[j] old[j]
  let g := rebased d was old g
  let n1 := truth d 2 (condBits new)
  let n2 := truth d 4 (condBits new)
  let win := g.win.filter fun w => at_ ≤ w.2
  let win := if numAt d 1 1 = 1 && n1 && !g.f1 then some (at_, at_ + nsT (numAt d 8 8)) else win
  let rise := if numAt d 1 1 = 0 then n1 && !g.f1 else n2 && !g.f2 && win.any fun w => w.1 < at_
  let s := trigMod e t (fun g => { g with conds := new, f1 := n1, f2 := n2, win := win }) s
  if !rise then s
  else if g.holdoff.any fun h => at_ < h then trigMod e t (fun g => { g with suppressed := wrapAdd 32 g.suppressed 1 }) s
  else (fireNow e t at_ (riseOnset old new at_) false s).1

/-- TRIGGER_ELEMENT (R200 to R202): a firing forced for an instant that has come (R220); or the next instant at which a condition of an armed
trigger has an element, once every condition's source has delivered up to it. In QUIET nothing is evaluated (R221). -/
def trigEval (e t : Nat) (at_ : Time) (s : State) : State :=
  if (trigOf s e t).forced.any fun x => x.1 ≤ at_ && at_ ≤ now s then forcedDue e t at_ s else
  if !(trigOf s e t).armed || s.power.state != .active then s else
  let s := (List.range 4).foldl (fun s j => condBlind e t j s) s
  let g := trigOf s e t
  match g.defn with
  | none => s
  | some d =>
    let next := earliest ((List.range 4).filterMap fun j => condNext s (condDef d j) (vget g.conds j))
    if next == some at_ && (List.range 4).all fun j => condDone s (condDef d j) at_ (vget g.conds j) then trigTake e t d at_ s else s

/-- TIMER_DUE (R190): the due instant of a TIMER condition yields an element, and the next falls one period later. -/
def timerDue (e t j : Nat) (s : State) : State :=
  let g := trigOf s e t
  let k := condDef (g.defn.getD []) j
  match (vget g.conds j).due with
  | none => s
  | some u =>
    if !g.armed || condKind k != 7 || now s < u then s else
    let p := numAt k 16 8
    trigMod e t (fun g => { g with conds := vmod g.conds j fun c => { c with
      formed := c.formed ++ [(u, false, 1)], due := if p = 0 then none else some (u + nsT p) } }) s

/-- SEQ_WINDOW_EXPIRE (R200). -/
def seqExpire (e t : Nat) (s : State) : State :=
  trigMod e t (fun g => { g with win := g.win.filter fun w => now s ≤ w.2 }) s

/-- HOLDOFF_END (R201). -/
def holdoffEnd (e t : Nat) (s : State) : State :=
  trigMod e t (fun g => { g with holdoff := g.holdoff.filter fun h => now s < h }) s

/-- The first due instant of a TIMER condition that has not passed (R190). -/
def timerFrom (k : Bytes) (now : Time) : Option Time :=
  let u := (timeOf (numAt k 32 12)).getD 0
  let p := nsT (numAt k 16 8)
  if condKind k != 7 then none else if now ≤ u then some u else if p = 0 then none else some (u + ceilDiv (now - u) p * p)

/-- A trigger that is armed, or re-initialised, begins with every condition false (R189, R221, R223). -/
def trigFresh (s : State) (g : TrigSt) : TrigSt :=
  { g with
    f1 := truth (g.defn.getD []) 2 0, f2 := truth (g.defn.getD []) 4 0, win := none, holdoff := none
    conds := Vector.ofFn fun j => { seen := now s, due := timerFrom (condDef (g.defn.getD []) j) (now s) } }

/-! ### Spans (R208, R212) -/

/-- A data block holds the last sample of a span, or a later one: the sample after the block lies past the span's end (R208). -/
def spanCovered (s : State) (r : RingCtx) (p : PinSt) : Bool :=
  r.entries.any fun e => e.kind != 0x10 && (p.endTime - e.time) * 65536 < blkLen s r e * blkPeriod s r e

/-- A measurement job joins the engine's queue, or is skipped (R218). -/
def measQueue (e : Nat) (rec : BitVec 32) (sp m ring trig : Nat) (s : State) : State × Bool :=
  if (vget s.events.eng e).jobs.length < 64 then (engMod e (fun g => { g with jobs := g.jobs ++ [(rec, sp, m, ring, trig)] }) s, true)
  else
    (raise 0xAE 0 (0x0500 + e) (le 4 rec.toNat ++ le 1 sp ++ le 1 m) (engMod e (fun g => { g with skipped := wrapAdd 32 g.skipped 1 }) s), false)

/-- The span as it stands once complete (R206, R208, R212). -/
def spanClose (s : State) (r : RingCtx) (p : PinSt) : PinSt :=
  let (first, _, last) := spanBlocks s r p.startTime p.endTime
  let first := max first p.firstPos
  let p := { p with firstPos := first, endPos := max first last }
  let es := pinEntries r p
  let ds := es.filter fun e => e.kind != 0x10
  let idx0 := match ds.head? with
    | some e => ceilDiv ((p.startTime - e.time) * 65536) (max 1 (blkPeriod s r e))
    | none => 0
  let idx1 := match ds.getLast? with
    | some e => min (blkLen s r e - 1) ((p.endTime - e.time) * 65536 / max 1 (blkPeriod s r e))
    | none => 0
  let n := ds.length
  let bad := ds.zipIdx.any fun (e, i) =>
    let lo := if i = 0 then idx0 else 0
    let hi := if i + 1 = n then idx1 + 1 else blkLen s r e
    let a := blockField s r e 28 2
    let l := blockField s r e 30 2
    l != 0 && a < hi && lo < a + l
  let gap := es.any (·.kind == 0x10) || !spanCovered s r p
  let fl := orFlags s r es
  { p with
    complete := true, state := .pinned, blocks := n, firstSample := idx0, lastSample := idx1
    flags := p.flags ||| BitVec.ofNat 32 (2 * b2n gap + 4 * b2n bad + 8 * (fl / 2 % 2) + 16 * (fl / 4 % 2)) }

/-- SPAN_COMPLETE (R208, R212, R218): the last block of a span is written, or its ring receives no more data by the span's end. -/
def spanComplete (rec : BitVec 32) (sp : Nat) (s : State) : State :=
  match s.events.pins.find? fun p => p.record == rec && p.span == sp && !p.complete with
  | none => s
  | some p =>
    match ringOf s p.ring with
    | none => if now s < p.endTime then s else let p := { p with complete := true, state := .notPinned }; recordDone rec (pinReport p (pinSet p s))
    | some r =>
      let r := spanTimes s r p
      if !(spanCovered s r p || (p.endTime ≤ now s && !sourceRuns s p.ring)) then s
      else if p.state == .notPinned then let p := { p with complete := true }; recordDone rec (pinReport p (pinSet p s))
      else if p.state != .open_ then recordDone rec (pinSet { p with complete := true } s)
      else
        let p := spanClose s r p
        let (s, p) := match p.meas with
          | none => (s, p)
          | some (m, ring) => match measQueue p.engine rec sp m ring p.trigger s with
            | (s, true) => (s, { p with flags := p.flags ||| 0x20 })
            | (s, false) => (s, p)
        recordDone rec (pinReport p (pinSet p s))

/-- The copy of a pin leaves its channel's queue. -/
def pinUnqueue (p : PinSt) (s : State) : State :=
  let k := some (p.record, p.span)
  (List.range 32).foldl (fun s n =>
    let c := vget s.fetch.ch n
    let other := fun (d : FetchDesc) => d.pin != k
    if (c.queue ++ c.waiting).all other then s else
    let head := c.queue.head?.any fun d => d.pin == k
    fetchMod n (fun c =>
      let c := { c with queue := c.queue.filter other, waiting := c.waiting.filter other }
      if head then fetchNext s.grade c else c) s) s

/-- PIN_COPY_COMPLETE (R209, R212): every block is in COPY_RING and the pin is released; the copy waits while the ring is full (R343). -/
def pinCopyComplete (rec : BitVec 32) (sp : Nat) (s : State) : State :=
  match s.events.pins.find? fun p => p.record == rec && p.span == sp && p.state == .copying with
  | none => s
  | some p =>
    if p.copied < p.blocks || (ringOf s p.ring).any fun r => (pinEntries r p).any fun e => p.nextPos ≤ e.pos then s else
    let p := { p with state := .copied }
    match pinCopyOut true p s with
    | none => s
    | some (s, at_) =>
      let p := { p with copyPos := at_, data := [] }
      let s := policyMod p.ring (fun q => { q with copies := wrapAdd 32 q.copies 1 }) (pinUnqueue p (pinReport p (pinSet p s)))
      raise 0xA9 0 0x0B00 (pinDetail p) s

/-- REC.RELEASE of one span (R211): a copy stops, and the blocks already copied stay in COPY_RING. A span that was still open completes its
record's tally (R212). -/
def pinReleaseNow (p : PinSt) (s : State) : State :=
  let s := if p.state == .copying then (pinCut p (pinUnqueue p s)).1 else s
  let s := pinRelease { p with complete := true, data := [] } s
  if p.complete then s else recordDone p.record s

/-! ### Envelope streams (R213, R214, R352) -/

/-- Change stream id. -/
def envMod (id : Nat) (f : EnvSt → EnvSt) (s : State) : State := { s with events := { s.events with envs := lmod (·.id == id) f s.events.envs } }

/-- Blocks of a source with the numbering that an envelope uses: converter samples of a raw ring, complex samples otherwise. -/
def envFirst (b : SrcBlk) : Nat := if b.raw then b.ent.index else b.first
def envLen (b : SrcBlk) : Nat := if b.raw then 512 else 256

/-- Samples [a, b) of a source: none where invalid, else the value that the envelope compares. -/
def envSamples (s : State) (r : RingCtx) (bs : List SrcBlk) (a b : Nat) : List (Option Int) :=
  (bs.filter fun x => envFirst x < b && a < envFirst x + envLen x).flatMap fun x =>
    let lo := blockField s r x.ent 28 2
    let n := blockField s r x.ent 30 2
    (span (max a (envFirst x) - envFirst x) (min b (envFirst x + envLen x) - envFirst x)).map fun j =>
      if lo ≤ j && j < lo + n then none
      else if x.raw then some (sgn 16 (blockField s r x.ent (64 + 2 * j) 2))
      else
        let w := blockField s r x.ent (64 + 4 * j) 4
        some (((sgn 16 (w % 65536)).natAbs ^ 2 + (sgn 16 (w / 65536)).natAbs ^ 2 : Nat) : Int)

/-- The word of one interval (R213, R214), and whether it is empty. -/
def envWord (raw : Bool) (l : List (Option Int)) : BitVec 32 × Bool :=
  match l.filterMap id with
  | [] => (if raw then 0x80007FFF else 0x0000FFFF, true)
  | v :: vs =>
    let lo := vs.foldl min v
    let hi := vs.foldl max v
    let enc := fun (x : Int) => if raw then unsgn 16 x else logCode x.toNat (2 ^ 30)
    (BitVec.ofNat 32 (enc lo + 65536 * enc hi), false)

/-- An envelope frame (R352). -/
def envFrame (s : State) (v : EnvSt) : Ent :=
  let raw := isRawRing s v.src
  let per := match ringInput s v.src, ringDdc s v.src with
    | some i, _ => samplePeriod s i
    | _, some ch => ddcPeriod (vget s.ddc ch)
    | _, _ => 0
  let special := le 1 v.id ++ le 1 (b2n raw) ++ le 2 0 ++ le 4 v.k ++ le 4 v.words.length ++ le 4 v.src ++ le 8 (v.k * per)
  ⟨frameBytes 0x04 (0x0500 + v.engine) v.flags.toNat v.first.1 v.first.2.1 special (v.words.flatMap fun w => le 4 w.toNat), 0x04, v.first.2.1, v.first.1⟩

/-- Gap descriptors of a stream that are due go into its ring (R214); whether none is left. -/
def envGaps (v : EnvSt) (stop : Time) (s : State) : State × Bool :=
  match gapsOut v.out (0x0500 + v.engine) 2 v.gaps stop s with
  | (s, rest, _) => (envMod v.id (fun v => { v with gaps := rest }) s, rest.isEmpty)

/-- Close the frame in progress behind the gap descriptors that are due; false while the ring is full under BLOCK (R343). -/
def envClose (id : Nat) (s : State) : State × Bool :=
  match s.events.envs.find? fun v => v.id == id with
  | none => (s, true)
  | some v =>
    if v.words.isEmpty then (s, true) else
    match envGaps v v.first.2.1 s with
    | (s, false) => (s, false)
    | (s, true) =>
      match publish true v.out (envFrame s v) s with
      | (s, .waits) => (s, false)
      | (s, _) => (envMod id (fun v => { v with words := [], flags := 0 }) s, true)

/-- Time of interval n of a stream on its present grid. -/
def envTime (s : State) (r : RingCtx) (bs : List SrcBlk) (n : Nat) : Time :=
  match ((bs.filter fun b => envFirst b ≤ n).getLast?).orElse fun _ => bs.head? with
  | none => 0
  | some b => b.ent.time + (n - envFirst b) * blkPeriod s r b.ent / 65536

/-- A stream takes its next interval, or restarts after a gap in its source (R213, R214): a RING_PUBLISH step of the stream. -/
def envNext (id : Nat) (s : State) : State :=
  match (s.events.envs.find? fun v => v.id == id).bind fun v => (ringOf s v.src).map fun r => (v, r) with
  | none => s
  | some (v, r) =>
    if s.power.state != .active || v.stopping.isSome then s else
    let bs := srcBlocks s r v.srcPos
    let stop := match bs.getLast? with | some b => envFirst b + envLen b | none => 0
    match v.origin with
    | none =>
      (match (r.entries.filter fun e => v.srcPos ≤ e.pos && !srcGap s r e && v.startTime ≤ blkLast s r e).head? with
       | none => s
       | some e =>
         let pos := ((r.entries.filter fun g => srcGap s r g && g.pos < e.pos).getLast?.map fun g => g.pos + g.len).getD v.srcPos
         envMod id (fun v => { v with
           origin := some (blockField s r e 8 8 + ceilDiv ((v.startTime - e.time) * 65536) (max 1 (blkPeriod s r e))), srcPos := max v.srcPos pos, next := 0 }) s)
    | some o =>
      let a := o + v.next * v.k
      if a + v.k ≤ stop && (bs.head?.any fun b => envFirst b ≤ a) then
        let w := envWord (isRawRing s v.src) (envSamples s r bs a (a + v.k))
        let t := envTime s r bs a
        let fl := ((bs.filter fun b => envFirst b < a + v.k && a < envFirst b + envLen b).foldl
          (fun (f : BitVec 32) b => f ||| BitVec.ofNat 32 (blockField s r b.ent 4 4 % 64)) 0) ||| (if w.2 then 0x40 else 0)
        let s := envMod id (fun v => { v with
          next := v.next + 1, words := v.words ++ [w.1], flags := v.flags ||| fl, first := if v.words.isEmpty then (v.next, t, s.cyc) else v.first }) s
        if 2048 ≤ v.words.length + 1 then (envClose id s).1 else s
      else
        match afterGap s r v.srcPos with
        | none => s
        | some (pos, b, cause) =>
          match envClose id s with
          | (s, false) => s
          | (s, true) =>
            let per := match bs.head? with | some x => blkPeriod s r x.ent | none => 0
            let g : PendGap := ⟨cause, envTime s r bs a, 0, v.next, v.k * per⟩
            envMod id (fun v => { v with srcPos := pos, origin := some (envFirst b), next := 0, gaps := gapAdd g v.gaps }) s

/-- Every envelope stream of an engine that has begun restarts with a gap descriptor of a cause (R221, R223). -/
def envRestart (e cause : Nat) (s : State) : State :=
  (s.events.envs.filter fun v => v.engine.val == e && v.origin.isSome).foldl (fun s v =>
    let s := (envClose v.id s).1
    match ringOf s v.src with
    | none => s
    | some r =>
      let bs := srcBlocks s r v.srcPos
      let per := match bs.head? with | some x => blkPeriod s r x.ent | none => 0
      let g : PendGap := ⟨cause, envTime s r bs (v.origin.getD 0 + v.next * v.k), 0, v.next, v.k * per⟩
      envMod v.id (fun v => { v with origin := none, startTime := now s, next := 0, words := [], flags := 0, gaps := gapAdd g v.gaps }) s) s

/-- ENV_FRAME_CLOSE (R352): 1 ms after the frame's first interval ended. -/
def envFrameClose (id : Nat) (s : State) : State :=
  match s.events.envs.find? fun v => v.id == id with
  | some v => if !v.words.isEmpty && msC ≤ since s v.first.2.2 then (envClose id s).1 else s
  | none => s

/-- UNIT.REINIT of an event engine (R223). -/
def eventReinit (e : Nat) (s : State) : State := envRestart e 11 (engMod e (fun g => { g with trig := g.trig.map (trigFresh s) }) s)

/-- Return from QUIET (R221): every condition as after a source gap, every envelope stream restarted. -/
def eventsResume (s : State) : State :=
  (List.range 16).foldl (fun s e => envRestart e 7 (engMod e (fun g => { g with trig := g.trig.map fun t =>
    let d := t.defn.getD []
    { t with conds := Vector.ofFn fun j => { condClear (vget t.conds j) with seen := now s, formed := [], due := timerFrom (condDef d j) (now s) }
             f1 := truth d 2 0, f2 := truth d 4 0 } }) s)) s

/-! ### TRIG verbs (R224) -/

/-- A ring is of a type and owned by a handle; below 0x90 none. -/
def ownedRing (s : State) (id type : Nat) (h : Handle) : Bool := id < 0x90 || (ringOf s id).any fun r => r.type == type && r.owner == h

/-- A sample ring exists under an ID. -/
def sampleRing (s : State) (id : Nat) : Bool := (ringOf s id).any fun r => r.type == 4 || r.type == 5

/-- A condition breaks R190 to R195 or its record (R223). -/
def condBad (s : State) (k : Bytes) : Bool :=
  let kind := condKind k
  let opt := numAt k 1 1
  let dur := numAt k 8 4
  let src := condSource k
  if kind = 0 then false else
  8 < kind || dur = 0 || 16777215 < dur || (6 ≤ kind && dur != 1) ||
  (match kind with
   | 1 => 1 < opt || !sampleRing s src
   | 2 => opt = 0 || 3 < opt || !(s.xforms.any fun x => x.id == src) || numAt k 12 4 = 0 || 65536 < numAt k 12 4 ||
      (opt % 2 = 1 && 32 ≤ numAt k 16 1) || (2 ≤ opt && 32 ≤ numAt k 17 1)
   | 3 => opt != 0 || 65535 < src || !isA s .dens (BitVec.ofNat 16 src) || numAt k 14 2 < numAt k 12 2 || numAt k 18 2 < numAt k 16 2
   | 4 => opt != 0 || 65535 < src || !isA s .dens (BitVec.ofNat 16 src) || numAt k 14 2 < numAt k 12 2
   | 5 => opt != 0 || 65535 < src || !isA s .ddc (BitVec.ofNat 16 src)
   | 6 => opt != 0 || 65535 < src || !isA s .tdc (BitVec.ofNat 16 src)
   | 7 => opt != 0 || (timeOf (numAt k 32 12)).isNone
   | _ => opt != 0)

/-- A span of n ns is longer than half the duration that a ring holds (R224, R340). -/
def spanLong (s : State) (id n : Nat) : Bool :=
  (ringOf s id).any fun r => let b := ringBytes s id; ringSize r * 1000000000 * b.2 < 2 * n * b.1

/-- The TRIG_DEF record that a command carries: reserved bits as 0 (R8, R223). -/
def trigDefn (c : Cmd) : Bytes :=
  (padTo 256 c.args).zipIdx.map fun (b, i) =>
    if 40 ≤ i && i < 64 then (if i % 4 = 2 then b &&& 0x0F else if i % 4 = 3 then 0 else b)
    else if 64 ≤ i && 44 ≤ (i - 64) % 48 then 0 else b

/-- BAD_ARG conditions of TRIG.DEFINE. -/
def trigBad (s : State) (h : Handle) (d : Bytes) : Bool :=
  15 < numAt d 0 1 || 1 < numAt d 1 1 || 15 < numAt d 6 1 || (63 < numAt d 7 1 && numAt d 7 1 != 0xFF) ||
  (numAt d 1 1 = 1 && (numAt d 8 8 = 0 || 10 ^ 12 < numAt d 8 8)) || 10 ^ 12 < numAt d 16 8 ||
  (List.range 4).all (fun j => condKind (condDef d j) = 0) || (List.range 4).any (fun j => condBad s (condDef d j)) ||
  !ownedRing s (numAt d 40 4) 11 h || !ownedRing s (numAt d 44 4) 13 h ||
  (List.range 4).any fun j => 0x90 ≤ spanRing d j && (!sampleRing s (spanRing d j) || spanLong s (spanRing d j) (numAt d 24 8 + numAt d 32 8))

/-- The trigger that a command's first byte names. -/
def trigArg (c : Cmd) (s : State) : TrigSt := trigOf s (idx c.unit) (argN c 0 1)
def trigNo (c : Cmd) : Cond := badArg (15 < argN c 0 1)

/-- TRIG.DEFINE (R224). -/
def vTrigDefine : Verb where
  op := 0x0801
  fits := fun s h => isA s .eng h
  checks := fun c s =>
    let d := trigDefn c
    [badArg (trigBad s c.unit d), badState (trigArg c s).armed,
     keptCond s ([numAt d 40 4, numAt d 44 4] ++ (List.range 4).map (spanRing d) ++ ((List.range 4).map (condDef d)).map fun k => if condKind k = 1 then condSource k else 0)]
  act := fun c s =>
    let d := trigDefn c
    okWith (trigMod (idx c.unit) (argN c 0 1) (fun g => { defn := some d, forced := g.forced }) s) (le 4 0 ++ le 4 (mUp (defDemand s d)))

/-- Breakpoints of a mask in bytes, reserved bits ignored (R8); none where R195 refuses them. -/
def readMask (b : Bytes) (n : Nat) : Option (List (Nat × Nat)) :=
  let ws := (List.range n).map fun i => (numAt b (8 * i) 3, numAt b (8 * i + 4) 2)
  let rec up : List Nat → Bool
    | x :: y :: l => x < y && up (y :: l)
    | _ => true
  if ws.any (fun w => 65535 * 256 < w.1) || !up (ws.map (·.1)) then none else some ws

/-- A definition uses mask m. -/
def usesMask (d : Bytes) (m : Nat) : Bool :=
  (List.range 4).any fun j => let k := condDef d j
    condKind k = 2 && ((numAt k 1 1 % 2 = 1 && numAt k 16 1 = m) || (2 ≤ numAt k 1 1 && numAt k 17 1 = m))

/-- TRIG.LOAD_MASK (R195, R224). -/
def vTrigLoadMask : Verb where
  op := 0x0802
  fits := fun s h => isA s .eng h
  checks := fun c s =>
    let n := argN c 2 2
    [badArg (31 < argN c 0 1 || n < 2 || 1024 < n || !spanOk s (argN c 4 6) (8 * n) || (kennelRead s (argN c 4 6) (8 * n)).any fun b => (readMask b n).isNone),
     badState ((vget s.events.eng (idx c.unit)).trig.toList.any fun g => g.armed && usesMask (g.defn.getD []) (argN c 0 1))]
  act := fun c s =>
    let n := argN c 2 2
    match kennelRead s (argN c 4 6) (8 * n) with
    | none => answer s FAULT
    | some b => ok (engMod (idx c.unit) (fun g => { g with masks := vmod g.masks (argN c 0 1) fun _ => (readMask b n).getD [] }) (kennelNote (argN c 4 6) (8 * n) s))

/-- TRIG.DISARM (R224). -/
def vTrigDisarm : Verb where
  op := 0x0804
  fits := fun s h => isA s .eng h
  checks := fun c s => [trigNo c, badState (!(trigArg c s).armed)]
  act := fun c s => ok (trigMod (idx c.unit) (argN c 0 1) (fun g => { g with armed := false, win := none, holdoff := none }) s)

/-- TRIG.FORCE (R220, R224). -/
def vTrigForce : Verb where
  op := 0x0805
  fits := fun s h => isA s .eng h
  checks := fun c s => [trigNo c, badArg ((argT c 4).isNone || (argT c 4).any fun t => now s + secT < t), badState (trigArg c s).defn.isNone]
  act := fun c s =>
    let t := if argT0 c 4 then now s else (argT c 4).getD 0
    if t ≤ now s then
      (match fireNow (idx c.unit) (argN c 0 1) t t true s with
       | (s, id) => okWith s (le 4 id.toNat))
    else
      let d := (trigArg c s).defn.getD []
      match recordFor d s with
      | (s, id) => okWith (trigMod (idx c.unit) (argN c 0 1) (fun g => { g with forced := g.forced ++ [(t, id, d)] }) s) (le 4 id.toNat)

/-- TRIG.SIGNAL (R190, R224). -/
def vTrigSignal : Verb where
  op := 0x0806
  fits := fun s h => isA s .eng h
  checks := fun c s =>
    [trigNo c, badArg (!((List.range 4).any fun j => condKind (condDef ((trigArg c s).defn.getD []) j) = 8)), badArg (argT c 4).isNone]
  act := fun c s =>
    let t := if argT0 c 4 then now s else (argT c 4).getD 0
    ok (trigMod (idx c.unit) (argN c 0 1) (fun g =>
      if !g.armed then g else
      { g with conds := Vector.ofFn fun j =>
          let x := g.conds[j]
          if condKind (condDef (g.defn.getD []) j) = 8 then { x with formed := x.formed ++ [(t, false, 1)] } else x }) s)

/-- TRIG.DELETE (R224). -/
def vTrigDelete : Verb where
  op := 0x0807
  fits := fun s h => isA s .eng h
  checks := fun c s => [trigNo c, badState (trigArg c s).armed]
  act := fun c s => ok (trigMod (idx c.unit) (argN c 0 1) (fun g => { forced := g.forced }) s)

/-- Headroom of an event engine as R188 gives it; 0x7FFF with no admitted work (R205). -/
def engHeadroom (s : State) (e : Nat) : Nat :=
  let d := engDemand s e
  if d.1 = 0 then 0x7FFF else unsgn 16 (clampI (-32768) 32767 (headroom (vget s.events.eng e).tokenRate d))

/-- TRIG.STATUS (R224). -/
def vTrigStatus : Verb where
  op := 0x0808
  fits := fun s h => isA s .eng h
  checks := fun c s => [badArg (15 < argN c 0 1 || (trigArg c s).defn.isNone)]
  act := fun c s =>
    let e := idx c.unit
    let g := trigArg c s
    let res := le 1 (b2n g.armed) ++ le 1 (condBits g.conds) ++ le 2 0 ++ le 4 g.fired ++ le 4 g.suppressed ++ le 4 g.blind ++ timeB g.lastTime ++
      le 4 (mUp (engDemand s e)) ++ le 2 (engHeadroom s e)
    okWith (if argBit c 1 0 then trigMod e (argN c 0 1) (fun g => { g with fired := 0, suppressed := 0, blind := 0 }) s else s) res

/-! ### REC verbs (R225) -/

/-- REC.RING_POLICY (R209, R225). -/
def vRecRingPolicy : Verb where
  op := 0x0901
  fits := fun s h => isA s .ringMgr h
  checks := fun c s =>
    [badArg (!sampleRing s (argN c 0 4)), badArg (1 < argN c 4 1 || 31 < argN c 5 1),
     badArg (argN c 4 1 == 1 && !(ringOf s (argN c 8 4)).any fun r => r.type == 12),
     badState (s.events.pins.any fun p => p.ring == argN c 0 4 && p.state == .copying),
     keptCond s [argN c 0 4, if argN c 4 1 = 1 then argN c 8 4 else 0]]
  act := fun c s =>
    ok (policyMod (argN c 0 4) (fun q => { q with copy := argN c 4 1 == 1, channel := argN c 5 1, copyRing := if argN c 4 1 = 1 then argN c 8 4 else 0 }) s)

/-- Spans that REC.RELEASE names. -/
def releaseArg (c : Cmd) (s : State) : List PinSt :=
  s.events.pins.filter fun p => p.record == argW c 0 32 && pinHolds p && (argN c 4 1 == 0xFF || p.span == argN c 4 1)

/-- REC.RELEASE (R211, R225). -/
def vRecRelease : Verb where
  op := 0x0902
  fits := fun s h => isA s .ringMgr h
  checks := fun c s => [badArg (releaseArg c s).isEmpty]
  act := fun c s => ok ((releaseArg c s).foldl (fun s p => pinReleaseNow p s) s)

/-- REC.ENV_STOP (R225): the answer follows the last whole word. -/
def vRecEnvStop : Verb where
  op := 0x0904
  fits := fun s h => isA s .eng h
  checks := fun c s => [badArg (!(s.events.envs.any fun v => v.id == argN c 0 1 && v.engine.val == idx c.unit && v.stopping.isNone))]
  act := fun c s => later (envMod (argN c 0 1) (fun v => { v with stopping := some c }) s)

/-- REC.STATUS (R225). -/
def vRecStatus : Verb where
  op := 0x0905
  fits := fun s h => isA s .ringMgr h
  checks := fun c s => [badArg (!sampleRing s (argN c 0 4))]
  act := fun c s =>
    let id := argN c 0 4
    let q := policyOf s id
    let share := ((ringOf s id).map fun r => min 65535 (unionLen (pinRanges s id) * 65536 / ringSize r)).getD 0
    okWith s (le 2 share ++ le 2 0 ++ le 4 (pinRanges s id).length ++ le 4 q.copies ++ le 4 q.releases ++ le 4 q.partials ++ le 4 q.refused)

def execTrigDefine (c : Cmd) (s : State) : Host.Outcome State Fault Refusal := settle s (runVerb vTrigDefine c s)
def execTrigLoadMask (c : Cmd) (s : State) : Host.Outcome State Fault Refusal := settle s (runVerb vTrigLoadMask c s)
def execTrigDisarm (c : Cmd) (s : State) : Host.Outcome State Fault Refusal := settle s (runVerb vTrigDisarm c s)
def execTrigForce (c : Cmd) (s : State) : Host.Outcome State Fault Refusal := settle s (runVerb vTrigForce c s)
def execTrigSignal (c : Cmd) (s : State) : Host.Outcome State Fault Refusal := settle s (runVerb vTrigSignal c s)
def execTrigDelete (c : Cmd) (s : State) : Host.Outcome State Fault Refusal := settle s (runVerb vTrigDelete c s)
def execTrigStatus (c : Cmd) (s : State) : Host.Outcome State Fault Refusal := settle s (runVerb vTrigStatus c s)
def execTriggerElement (e t : Fin 16) (at_ : Time) (s : State) : Host.Outcome State Fault Refusal := settle s (trigEval e t at_ s)
def execTimerDue (e t : Fin 16) (j : Fin 4) (s : State) : Host.Outcome State Fault Refusal := settle s (timerDue e t j s)
def execSeqWindowExpire (e t : Fin 16) (s : State) : Host.Outcome State Fault Refusal := settle s (seqExpire e t s)
def execHoldoffEnd (e t : Fin 16) (s : State) : Host.Outcome State Fault Refusal := settle s (holdoffEnd e t s)
def execSpanComplete (rec : BitVec 32) (sp : Nat) (s : State) : Host.Outcome State Fault Refusal := settle s (spanComplete rec sp s)
def execPinCopyComplete (rec : BitVec 32) (sp : Nat) (s : State) : Host.Outcome State Fault Refusal := settle s (pinCopyComplete rec sp s)
def execRecRingPolicy (c : Cmd) (s : State) : Host.Outcome State Fault Refusal := settle s (runVerb vRecRingPolicy c s)
def execRecRelease (c : Cmd) (s : State) : Host.Outcome State Fault Refusal := settle s (runVerb vRecRelease c s)
def execRecEnvStop (c : Cmd) (s : State) : Host.Outcome State Fault Refusal := settle s (runVerb vRecEnvStop c s)
def execRecStatus (c : Cmd) (s : State) : Host.Outcome State Fault Refusal := settle s (runVerb vRecStatus c s)
def execEnvFrameClose (id : Fin 64) (s : State) : Host.Outcome State Fault Refusal := settle s (envFrameClose id s)

end Sys2Proof.Machine
end

