-- ==== Sys2Proof/Machine/Meas.lean ====
section
/-! DEFINITION. Measurements of records (R215 to R219, R226): definitions, jobs, and the measurement record. -/
set_option Elab.async false
namespace Sys2Proof.Machine
open Sys2Proof

/-- Fields of a definition as MEAS.DEFINE gives them (R226). -/
def measLog2N (d : Bytes) : Nat := numAt d 1 1
def measSel (d : Bytes) : BitVec 16 := BitVec.ofNat 16 (numAt d 2 2)
def measK (d : Bytes) : Nat := numAt d 4 4

/-- Bits of an integer square root, from the highest. -/
def sqrtBits (x : Nat) : Nat → Nat → Nat
  | 0, c => c
  | k + 1, c => let c' := c + 2 ^ k; sqrtBits x k (if c' * c' ≤ x then c' else c)

/-- floor of the square root of a number below 2^96. -/
def sqrtN (x : Nat) : Nat := sqrtBits x 48 0

/-- One sample of a span: its number in the source's complex stream, its time, and its I and Q where valid. -/
structure MeasSample where
  n : Nat
  time : Time
  val : Option (Int × Int)
deriving DecidableEq, Repr, Inhabited

/-- Ring and position range that hold the blocks of a span: the source ring, or the copy (R226). -/
def measPlace (s : State) (p : PinSt) : Option (RingCtx × Nat × Nat) :=
  if p.state == .copied then (ringOf s p.copyRing).map fun r =>
    (r, p.copyPos, (((leadBlocks p.copied (r.entries.filter fun e => p.copyPos ≤ e.pos)).getLast?).map fun e => e.pos + e.len).getD p.copyPos)
  else (ringOf s p.ring).map fun r => (r, p.firstPos, p.endPos)

/-- Runs of blocks between gap descriptors. -/
def blockRuns (s : State) (r : RingCtx) (lo hi : Nat) : List (List SrcBlk) :=
  let es := r.entries.filter fun e => lo ≤ e.pos && e.pos < hi
  let starts := lo :: (es.filter fun e => e.kind == 0x10).map fun e => e.pos + e.len
  (starts.map fun a => (srcBlocks s r a).filter fun b => b.ent.pos < hi).filter fun l => !l.isEmpty

/-- Complex samples of a span in order of time, as runs between gaps (R215); raw blocks are converted as R112 states. -/
def measSamples (s : State) (p : PinSt) : List (List MeasSample) :=
  match measPlace s p with
  | none => []
  | some (r, lo, hi) =>
    (blockRuns s r lo hi).map fun bs =>
      let bad := srcSpans s r bs
      bs.flatMap fun b =>
        let per := srcPeriod s r b
        (List.range 256).filterMap fun j =>
          let t := b.ent.time + j * per / 65536
          if t < p.startTime || p.endTime < t then none else
          let n := b.first + j
          some ⟨n, t, if bad.any fun q => q.first ≤ n && n < q.stop then none else some (srcSample s r bs n)⟩

/-- |x|² of a sample. -/
def power2 (v : Int × Int) : Nat := v.1.natAbs ^ 2 + v.2.natAbs ^ 2

/-- Power average of the spectra of N points, hop N/2, whose support lies wholly within the span and is valid: sums per bin and
their number (R216). -/
def avgSpectrum (log2N : Nat) (l : List MeasSample) : List Nat × Nat :=
  let n := 2 ^ log2N
  let arr := l.toArray
  let starts := (List.range (2 * l.length / n)).map fun k => k * (n / 2)
  starts.foldl (fun (a : List Nat × Nat) o =>
    let w := (List.range n).map fun i => arr.getD (o + i) default
    let whole := o + n ≤ l.length && w.all (fun x => x.val.isSome) && (w.getLast?.map (·.n)) == some ((w.headD default).n + n - 1)
    if !whole then a else
    let ps := (spectrum log2N 2 0 [] (w.filterMap (·.val))).map binPower
    ((List.range n).map fun b => a.1.getD b 0 + ps.getD b 0, a.2 + 1)) ([], 0)

/-- Centre of a source in mHz, as numerator and denominator (R61, R116). -/
def srcCentre (s : State) (id : Nat) : Int × Nat :=
  let fs := fun (i : Nat) (k : Int) => ((wideRate s i * 10 ^ 11 : Nat) * k, 2 ^ 33 * 2 ^ 48)
  let mid := fun (i : Nat) => (2 ^ 47 * (if bitAt (vget s.inputs i).cfg 2 then 3 else 1) : Int)
  match ringInput s id, ringDdc s id with
  | some i, _ => fs i (mid i)
  | _, some ch => let c := vget s.ddc ch; let i := ddcSource ch c.cfg; fs i (mid i + sgn 48 c.freq.toNat)
  | _, _ => (0, 1)

/-- Frequency in mHz of a place on the bin axis, given in 1/q of a bin from bin 0's centre, rounded to nearest (R151, R215). -/
def binFreq (s : State) (id n : Nat) (place : Int) (q : Nat) : Int :=
  let c := srcCentre s id
  let r := ringRate s id
  let off := place - ((n / 2 * q : Nat) : Int)
  let den := r.2 * n * q
  roundDivI (c.1 * den + off * ((r.1 * 1000 : Nat) : Int) * c.2) (c.2 * den)

/-- The place, in 1/(2·p) of a bin, at which the cumulative power reaches k/1000 of the total, with p the power of the bin it lies in (R215). -/
def obwEdge (k total : Nat) : List Nat → Nat → Nat → Int × Nat
  | [], b, _ => ((b : Int), 1)
  | p :: ps, b, cum =>
    if k * total ≤ 1000 * (cum + p) && p != 0 then
      ((2000 * b * p : Nat) - (1000 * p : Nat) + 2 * ((k * total : Nat) - (1000 * cum : Nat) : Int), 2000 * p)
    else obwEdge k total ps (b + 1) (cum + p)

/-- Intervals of K samples of one run with the largest |x|² code of each; none for an empty one (R214, R217). -/
def burstCodes (k : Nat) (l : List MeasSample) : List (Time × Option Nat) :=
  let arr := l.toArray
  (List.range (l.length / max 1 k)).map fun i =>
    let w := (List.range k).map fun j => arr.getD (i * k + j) default
    let ps := w.filterMap fun x => x.val.map power2
    ((w.headD default).time, if ps.isEmpty then none else some (logCode (ps.foldl max 0) (2 ^ 30)))

/-- Burst starts, oldest first, and lengths of complete bursts, oldest first (R217). -/
def bursts (thr hyst : Nat) (l : List (Time × Option Nat)) : List Time × List Nat :=
  let a := l.zipIdx.foldl (fun (a : Option (Time × Bool) × List Time × List Nat) x =>
    match a.1, x.1.2 with
    | none, some c => if thr ≤ c then (some (x.1.1, x.2 == 0), a.2.1 ++ [x.1.1], a.2.2) else a
    | none, none => a
    | some (t0, cut), c =>
      if c.all fun v => v + hyst ≤ thr then (none, a.2.1, if cut then a.2.2 else a.2.2 ++ [x.1.1 - t0]) else a) (none, [], [])
  a.2

/-- Mean of lengths of time, in ps, rounded to nearest. -/
def meanPs (sum n : Nat) : Nat := roundDiv (sum * 1000) (65536 * n)

/-- A measurement record (R215 to R219). -/
def measRecord (s : State) (e trig m : Nat) (p : PinSt) : Bytes :=
  let d := vget s.events.meas m
  let sel := measSel d
  let runs := measSamples s p
  let all := runs.flatten
  let good := all.filter fun x => x.val.isSome
  let n := good.length
  let ps := good.map fun x => power2 (x.val.getD (0, 0))
  let t0 := (good.head?.map (·.time)).getD 0
  let mean := logCode ps.sum (n * 2 ^ 30)
  let big := ps.foldl max 0
  let peak := logCode big (2 ^ 30)
  let peakAt := ((good.find? fun x => power2 (x.val.getD (0, 0)) == big).map (·.time)).getD t0
  let amp := roundDiv ((ps.map fun q => sqrtN (q * 2 ^ 64)).sum) (max 1 n * 2 ^ 32)
  let len := 2 ^ measLog2N d
  let sp := avgSpectrum (measLog2N d) all
  let total := sp.1.sum
  let freq := fun (place : Int) (q : Nat) => binFreq s p.ring len place q
  let lo := obwEdge 5 total sp.1 0 0
  let hi := obwEdge 995 total sp.1 0 0
  let inBand := (sp.1.zipIdx.filter fun x => let f := freq x.2 1; sgn 64 (numAt d 12 8) ≤ f && f ≤ sgn 64 (numAt d 20 8)).map (·.1)
  let chan := logCode (inBand.sum * 65536) (131334 * max 1 sp.2 * 2 ^ 64)
  let centre := freq (((sp.1.zipIdx.map fun x => x.1 * x.2).sum : Nat) : Int) total
  let bs := bursts (numAt d 8 2) (numAt d 10 2) (runs.flatMap (burstCodes (measK d)))
  let want := fun (i : Nat) (ok : Bool) => bitAt sel i && ok
  let any := n != 0
  let v := [want 0 any, want 1 any, want 2 any, want 3 any, want 4 (sp.2 != 0 && total != 0), want 5 (sp.2 != 0), want 6 (sp.2 != 0 && total != 0),
            want 7 (!bs.2.isEmpty), want 8 (2 ≤ bs.1.length)]
  let f := fun (i k : Nat) (x : Nat) => le k (if v.getD i false then x else 0)
  withCrc (le 4 p.record.toNat ++ le 1 e ++ le 1 trig ++ le 1 p.span ++ le 1 m ++ le 4 p.ring ++ le 4 p.flags.toNat ++ timeB p.trigTime ++ timeB t0 ++
    le 8 n ++ le 2 (v.zipIdx.map fun x => if x.1 then 2 ^ x.2 else 0).sum ++ f 0 2 mean ++ f 1 2 peak ++ f 2 2 (peak - mean) ++ f 3 2 amp ++ f 5 2 chan ++
    le 4 (if bitAt sel 7 || bitAt sel 8 then bs.1.length else 0) ++ f 4 8 (unsgn 64 (freq lo.1 lo.2)) ++ f 4 8 (unsgn 64 (freq hi.1 hi.2)) ++
    f 6 8 (unsgn 64 centre) ++ f 7 8 (meanPs bs.2.sum bs.2.length) ++ f 8 8 (meanPs (bs.1.getLastD 0 - bs.1.headD 0) (bs.1.length - 1)) ++
    f 1 8 (meanPs (peakAt - t0) 1) ++ le 12 0)

/-- MEAS_COMPLETE (R218): the oldest job of an engine is done and its record is written. -/
def measComplete (e : Nat) (s : State) : State :=
  match (vget s.events.eng e).jobs with
  | [] => s
  | (rec, sp, m, ring, trig) :: js =>
    let s := engMod e (fun g => { g with jobs := js, done := wrapAdd 32 g.done 1 }) s
    match s.events.pins.find? fun p => p.record == rec && p.span == sp with
    | none => s
    | some p =>
      let s := if ring < 0x90 then s else offerNow ring ⟨measRecord s e trig m p, 0x12, p.trigTime, rec.toNat⟩ s
      raise 0xAD 0 (0x0500 + e) (le 4 rec.toNat ++ le 1 sp ++ le 1 m) s

/-- A definition is used by an armed trigger (R226). -/
def measUsed (s : State) (m : Nat) : Bool :=
  s.events.eng.toList.any fun g => g.trig.toList.any fun t => t.armed && numAt (t.defn.getD []) 6 1 / 4 % 2 = 1 && numAt (t.defn.getD []) 7 1 = m

/-- MEAS.DEFINE (R215, R226). -/
def vMeasDefine : Verb where
  op := 0x0A01
  fits := fun s h => isA s .device h
  checks := fun c s =>
    [badArg (63 < argN c 0 1 || argN c 1 1 < 8 || 16 < argN c 1 1 || 512 ≤ argN c 2 2 || argN c 4 4 < 2 || 65536 < argN c 4 4 || 3 < argN c 28 1 ||
       sgn 64 (argN c 20 8) < sgn 64 (argN c 12 8)),
     badState (measUsed s (argN c 0 1))]
  act := fun c s => ok { s with events := { s.events with meas := vmod s.events.meas (argN c 0 1) fun _ => padTo 29 c.args } }

/-- MEAS.RUN (R226). -/
def vMeasRun : Verb where
  op := 0x0A02
  fits := fun s h => isA s .eng h
  checks := fun c s =>
    [badArg (!(s.events.pins.any fun p => p.record == argW c 0 32 && p.span == argN c 4 1 && (p.state == .pinned || p.state == .copying || p.state == .copied))),
     badArg (63 < argN c 5 1 || (vget s.events.meas (argN c 5 1)).isEmpty || argN c 8 4 < 0x90 || !ownedRing s (argN c 8 4) 13 c.unit), keptCond s [argN c 8 4],
     busy (64 ≤ (vget s.events.eng (idx c.unit)).jobs.length)]
  act := fun c s => ok (measQueue (idx c.unit) (argW c 0 32) (argN c 4 1) (argN c 5 1) (argN c 8 4) 0xFF s).1

/-- MEAS.STATUS (R226). -/
def vMeasStatus : Verb where
  op := 0x0A03
  fits := fun s h => isA s .eng h
  act := fun c s =>
    let g := vget s.events.eng (idx c.unit)
    okWith s (le 4 g.jobs.length ++ le 4 g.done ++ le 4 g.skipped)

def execMeasDefine (c : Cmd) (s : State) : Host.Outcome State Fault Refusal := settle s (runVerb vMeasDefine c s)
def execMeasRun (c : Cmd) (s : State) : Host.Outcome State Fault Refusal := settle s (runVerb vMeasRun c s)
def execMeasStatus (c : Cmd) (s : State) : Host.Outcome State Fault Refusal := settle s (runVerb vMeasStatus c s)
def execMeasComplete (e : Fin 16) (s : State) : Host.Outcome State Fault Refusal := settle s (measComplete e s)

end Sys2Proof.Machine
end

