-- ==== Sys2Proof/Machine/Dens.lean ====
section
/-! DEFINITION. Density accumulators and occupancy units (R228 to R246, R267). -/
set_option Elab.async false
namespace Sys2Proof.Machine
open Sys2Proof

/-- Change accumulator i. -/
def densMod (i : Nat) (f : DensSt → DensSt) (s : State) : State := { s with dens := vmod s.dens i f }

def densCols (d : DensSt) : Nat := 2 ^ fld d.cfg 11 8
def densRows (d : DensSt) : Nat := 2 ^ fld d.cfg 15 12
def densPeriod (d : DensSt) : Nat := max 1 (fld d.cfg 95 64)
def densRing (d : DensSt) : Nat := fld d.cfg 147 128
def densBank (d : DensSt) : Nat := fld d.cfg 164 160
def densRaster (d : DensSt) : Nat := fld d.cfg 223 176
def occPeriod (d : DensSt) : Nat := max 1 (fld d.occCfg 63 32)
def occRing (d : DensSt) : Nat := fld d.occCfg 83 64
def occBank (d : DensSt) : Nat := fld d.occCfg 100 96

/-- The source analysis (R228). -/
def densXform (s : State) (d : DensSt) : Option XformSt := s.xforms.find? fun x => x.id == fld d.cfg 7 0

/-- K: retained bins of the source analysis (R229); 0 where there is none. -/
def densK (s : State) (d : DensSt) : Nat := ((densXform s d).map fun x => xCount x.cfg).getD 0

/-- Banks that the count array uses (R231). -/
def densBanks (d : DensSt) : List Nat := (List.range (ceilDiv (densCols d * densRows d * 2) 0x400000)).map (· + densBank d)

/-- A bank is ON and owned by accumulator i (R231). -/
def densOwns (s : State) (i b : Nat) : Bool :=
  b < 32 && (vget s.banks b).owner == BitVec.ofNat 16 (0x0600 + i) && (vget s.banks b).power == 0

/-- The boundary that follows the present instant (R232). -/
def nextBoundary (s : State) (period : Nat) : Nat := (nowUs s / period + 1) * period

/-- Address of cell n in the order of R231. -/
def cellAddr (d : DensSt) (n : Nat) : Addr := densBank d * 0x400000 + 2 * n

/-- Count of cell n. -/
def cellAt (s : State) (d : DensSt) (n : Nat) : Nat := leNat (rawRead s (cellAddr d n) 2)

/-- Every count in the order of R231. -/
def densCounts (s : State) (d : DensSt) : List Nat := (List.range (densCols d * densRows d)).map (cellAt s d)

/-- Zero every count in the banks that the accumulator owns. -/
def densWipe (i : Nat) (s : State) : State :=
  let d := vget s.dens i
  if (densBanks d).all (densOwns s i) then { s with mem := memZero s.mem (cellAddr d 0) (cellAddr d (densCols d * densRows d)) } else s

/-- A clear that is due by a boundary takes place (R240). -/
def densDue (i stop : Nat) (s : State) : State :=
  if (vget s.dens i).clearing.any fun b => b ≤ stop then densWipe i (densMod i (fun d => { d with clearing := d.clearing.filter fun b => stop < b }) s) else s

/-- Cells that stand at 65,535 (R230, R353). -/
def satCount (l : List Nat) : Nat := (l.filter (· == 65535)).length

/-- Cell of retained bin j with a code (R229). -/
def densCell (d : DensSt) (k j code : Nat) : Nat :=
  min ((fld d.cfg 31 16 - code) / max 1 (fld d.cfg 47 32)) (densRows d - 1) * densCols d + j * densCols d / k

/-- One valid spectrum adds to the cells of its bins; the first cell of a frame to reach 65,535 raises SATURATED (R230, R266). -/
def densAdd (i : Nat) (kept : List Nat) (flags : BitVec 32) (s : State) : State :=
  let d := vget s.dens i
  let s := kept.zipIdx.foldl (fun s (x, j) =>
    let n := densCell d kept.length j x
    scratchWrite 0 (cellAddr d n) (le 2 (min 65535 (cellAt s d n + 1))) s) s
  let s := densMod i (fun d => { d with spectra := d.spectra + 1, flags := d.flags ||| flags }) s
  if !d.satRaised && kept.zipIdx.any fun (x, j) => cellAt s d (densCell d kept.length j x) == 65535 then
    raise (0x80 + i) 2 (0x0600 + i) (le 4 (densBank d) ++ le 4 (satCount (densCounts s d))) (densMod i (fun d => { d with satRaised := true }) s)
  else s

/-- Bytes of a slot's row (R242). -/
def occRowLen (k : Nat) : Nat := ceilDiv k 512 * 64

/-- Address of a unit's row (R242). -/
def occRowAddr (d : DensSt) (row : Nat) : Addr := occBank d * 0x400000 + row * 0x2000

/-- One valid spectrum sets the bits of its occupied bins through the bit-set alias (R241, R242). -/
def occAdd (i : Nat) (kept : List Nat) (flags : BitVec 32) (s : State) : State :=
  let d := vget s.dens i
  let s := kept.zipIdx.foldl (fun s (x, j) =>
    if fld d.occCfg 15 0 ≤ x then scratchWrite 1 (occRowAddr d d.row + j / 8) [BitVec.ofNat 8 (2 ^ (j % 8))] s else s) s
  densMod i (fun d => { d with slotSpectra := d.slotSpectra + 1, slotFlags := d.slotFlags ||| flags }) s

/-- A valid spectrum reaches accumulator i at time t: the frame in progress, a later frame, or none (R232). -/
def densTake (i : Nat) (t : Time) (codes : List Nat) (flags : BitVec 32) (s : State) : State :=
  let d := vget s.dens i
  if !d.running || t < d.frameStart * 65536000 then s
  else if (d.frameStart + densPeriod d) * 65536000 ≤ t then densMod i (fun d => { d with next := d.next ++ [(t, codes, flags)] }) s
  else match densXform s d with
    | none => s
    | some x => densAdd i (xKeep x.cfg codes) flags (densDue i d.frameStart s)

/-- A valid spectrum reaches occupancy unit i at time t (R241). -/
def occTake (i : Nat) (t : Time) (codes : List Nat) (flags : BitVec 32) (s : State) : State :=
  let d := vget s.dens i
  if !d.occRunning || t < d.slotStart * 65536000 then s
  else if (d.slotStart + occPeriod d) * 65536000 ≤ t then densMod i (fun d => { d with occNext := d.occNext ++ [(t, codes, flags)] }) s
  else match densXform s d with
    | none => s
    | some x => occAdd i (xKeep x.cfg codes) flags s

/-- A spectrum of an analysis goes to the accumulators that read it (R228, R241); nothing is added in QUIET (R246). -/
def densFeed (id : Nat) (t : Time) (valid : Bool) (codes : List Nat) (flags : BitVec 32) (s : State) : State :=
  if !valid || s.power.state != .active then s else
  (List.range 8).foldl (fun s i =>
    if fld (vget s.dens i).cfg 7 0 == id then occTake i t codes flags (densTake i t codes flags s) else s) s

/-- NORM of a frame (R236). -/
def densNorm (d : DensSt) (counts : List Nat) : Nat := if bitAt d.cfg 52 then max 1 (counts.foldl max 0) else fld d.cfg 111 96

/-- Colour index of a count (R236). -/
def colourIdx (norm n : Nat) : Nat := ceilDiv (min n norm * 255) (max 1 norm)

/-- The buffer of the next render (R237). -/
def densBuffer (s : State) (i : Nat) (d : DensSt) : Nat :=
  match d.latest with
  | none => 0
  | some l =>
    let used := if !s.disp.enabled || s.disp.stopped then [] else (List.range 4).filterMap fun y =>
      if fld (vget s.disp.committed.layers y) 54 51 == i + 1 then vget s.disp.scanning y else none
    ((List.range 3).find? fun b => b != l && !used.contains b).getD 0

/-- Buffers of the raster lie wholly in the store, whose top 64 MB holds ring contexts (R236, R273, R305). -/
def rasterOk (g : Grade) (base size : Nat) : Bool :=
  0x000100000000 ≤ base && base + 3 * size ≤ storeEnd g

/-- Write the raster of a frame (R236); what would fall in the context region is dropped (R273). -/
def densRender (d : DensSt) (counts : List Nat) (norm b : Nat) (s : State) : State :=
  if !rasterOk s.grade (densRaster d) (4 * counts.length) then s else
  let base := densRaster d + b * 4 * counts.length
  storeWrite base ((counts.flatMap fun n => le 4 (d.colours.getD (colourIdx norm n) 0).toNat).take (rcb s.grade - base)) s

/-- The density frame of R353. -/
def densFrame (i : Nat) (d : DensSt) (counts : List Nat) (norm : Nat) : Ent :=
  let stop := (d.frameStart + densPeriod d) * 65536000
  let sat := satCount counts
  let special := le 1 (fld d.cfg 11 8) ++ le 1 (fld d.cfg 15 12) ++ le 1 (fld d.cfg 51 48) ++ le 1 (fld d.cfg 7 0) ++ le 2 (fld d.cfg 31 16) ++
    le 2 (fld d.cfg 47 32) ++ le 4 d.spectra ++ le 4 (densPeriod d) ++ le 4 sat ++ le 2 norm
  ⟨frameBytes 0x05 (0x0600 + i) (d.flags.toNat ||| (b2n d.stepped * 0x40 + b2n (sat != 0) * 0x400)) (d.frameStart / densPeriod d) stop special
    (counts.flatMap (le 2)), 0x05, stop, d.frameStart / densPeriod d⟩

/-- Counts after decay (R235). -/
def decayed (k n : Nat) : Nat := if k = 0 then n else n - ceilDiv n (2 ^ k)

/-- Sum over the rectangle of a DENSITY condition (R190, R223). -/
def regionSum (d : DensSt) (counts : List Nat) (k : Bytes) : Nat :=
  ((span (numAt k 16 2) (numAt k 18 2 + 1)).map fun r => ((span (numAt k 12 2) (numAt k 14 2 + 1)).map fun c =>
    if c < densCols d && r < densRows d then counts.getD (r * densCols d + c) 0 else 0).sum).sum

/-- The source analysis of an accumulator has delivered every spectrum before an instant (R233). -/
def densDelivered (s : State) (d : DensSt) (stop : Time) : Bool := (densXform s d).all fun x => xDelivered s x stop

/-- DENS_FRAME_COMPLETE: at the later of the end boundary and the end of the last spectrum's support, the four steps of R233, the clear of R240,
and the spectra of the next frame (R234). On an accumulator that is stopped, a clear whose boundary has come takes place. -/
def densFrameComplete (i : Nat) (s : State) : State :=
  let d := vget s.dens i
  let stop := (d.frameStart + densPeriod d) * 65536000
  if s.power.state != .active then s else
  if !d.running then densDue i (nowUs s) s else
  if !d.stepped && (now s < stop || !densDelivered s d stop) then s else
  let s := densDue i d.frameStart s
  let counts := densCounts s d
  let norm := densNorm d counts
  let s := if d.stepped then s else formElemBy 3 (0x0600 + i) false stop (fun k => regionSum d counts k) s
  let render := bitAt d.cfg 53
  let b := densBuffer s i d
  let s := if render then densRender d counts norm b s else s
  let s := if densRing d < 0x90 then s else publishNow (densRing d) (densFrame i d counts norm) s
  let clear := (vget s.dens i).clearing.any fun b => d.stepped || b ≤ d.frameStart + densPeriod d
  let after := if clear then counts.map fun _ => 0 else counts.map (decayed (fld d.cfg 51 48))
  let s := scratchWrite 0 (cellAddr d 0) (after.flatMap (le 2)) s
  let s := densMod i (fun d => { d with
    frameStart := if d.stepped then nowUs s / densPeriod d * densPeriod d else d.frameStart + densPeriod d
    stepped := false, clearing := d.clearing.filter fun b => !d.stepped && d.frameStart + densPeriod d < b, latest := if render then some b else d.latest, frames := wrapAdd 32 d.frames 1, spectra := 0, flags := 0
    satRaised := false, satCells := satCount counts, norm := norm, lastTime := now s, next := []
    running := d.stopping.isNone, stopping := none }) s
  let s := raise (0x80 + i) 1 (0x0600 + i) (le 4 b ++ le 4 (d.frameStart / densPeriod d)) s
  match d.stopping with
  | some c => complete c 0x0B04 OK [] s
  | none => d.next.foldl (fun s n => densTake i n.1 n.2.1 n.2.2 s) s

/-- Bits of a row (R242). -/
def occBits (s : State) (d : DensSt) (k : Nat) : List Bool :=
  let b := rawRead s (occRowAddr d d.row) (ceilDiv k 8)
  (List.range k).map fun j => (b.getD (j / 8) 0).getLsbD (j % 8)

/-- Occupied bins of a range. -/
def occIn (bits : List Bool) (first last : Nat) : Nat := (((bits.drop first).take (last + 1 - first)).filter (·)).length

/-- A fraction in 1/65,536, saturated at 65,535 (R244, R245). -/
def ratio16 (n d : Nat) : Nat := if d = 0 then 0 else min 65535 (n * 65536 / d)

/-- The occupancy frame of R353. -/
def occFrame (s : State) (i : Nat) (d : DensSt) (k : Nat) (bits : List Bool) : Ent :=
  let stop := (d.slotStart + occPeriod d) * 65536000
  let inv := d.slotSpectra = 0 || d.occStepped
  let special := le 4 k ++ le 4 (occPeriod d) ++ le 4 d.slotSpectra ++ le 4 (bits.filter (·)).length ++ le 2 (fld d.occCfg 15 0) ++ le 1 (fld d.cfg 7 0)
  ⟨frameBytes 0x06 (0x0600 + i) (d.slotFlags.toNat ||| b2n inv * 0x40) (d.slotStart / occPeriod d) stop special
    (rawRead s (occRowAddr d d.row) (occRowLen k)), 0x06, stop, d.slotStart / occPeriod d⟩

/-- OCC_SLOT_COMPLETE (R242 to R245): the frame, the element, the channels' slots, the event, and the other row cleared and in use. -/
def occSlotComplete (i : Nat) (s : State) : State :=
  let d := vget s.dens i
  let stop := (d.slotStart + occPeriod d) * 65536000
  if !d.occRunning || s.power.state != .active || (!d.occStepped && (now s < stop || !densDelivered s d stop)) then s else
  let k := densK s d
  let bits := occBits s d k
  let inv := d.slotSpectra = 0 || d.occStepped
  let s := if occRing d < 0x90 then s else publishNow (occRing d) (occFrame s i d k bits) s
  let s := if inv then s else formElemBy 4 (0x0600 + i) false stop (fun c =>
    ratio16 (occIn bits (numAt c 12 2) (numAt c 14 2)) (numAt c 14 2 + 1 - numAt c 12 2)) s
  let s := raise (0x80 + i) (if d.slotSpectra = 0 then 4 else 3) (0x0600 + i) (le 4 (occBank d) ++ le 4 (d.slotStart / occPeriod d)) s
  let s := scratchWrite 2 (occRowAddr d (1 - d.row)) (List.replicate 0x2000 0xFF) s
  let s := densMod i (fun d => { d with
    slotStart := if d.occStepped then nowUs s / occPeriod d * occPeriod d else d.slotStart + occPeriod d
    occStepped := false, row := 1 - d.row, slotSpectra := 0, slotFlags := 0, occNext := []
    chans := if inv then d.chans else d.chans.map fun (n, c) => (n, { c with slots := ((occIn bits c.first c.last != 0) :: c.slots).take 4095 })
    occRunning := d.occStopping.isNone, occStopping := none }) s
  match d.occStopping with
  | some c => complete c 0x0C04 OK [] s
  | none => d.occNext.foldl (fun s n => occTake i n.1 n.2.1 n.2.2 s) s

/-- Zero the counts and both rows of the banks that accumulator i still owns (R246). -/
def densZero (i : Nat) (s : State) : State :=
  let d := vget s.dens i
  let s := densWipe i s
  if densOwns s i (occBank d) then { s with mem := memZero s.mem (occRowAddr d 0) (occRowAddr d 2) } else s

/-- Counting resumes at the next boundary (R246). -/
def densAgain (s : State) (d : DensSt) : DensSt :=
  { d with frameStart := nextBoundary s (densPeriod d), slotStart := nextBoundary s (occPeriod d), spectra := 0, flags := 0, slotSpectra := 0, slotFlags := 0,
           next := [], occNext := [], stepped := false, occStepped := false, satRaised := false }

/-- UNIT.REINIT of an accumulator (R246). -/
def densReinit (i : Nat) (s : State) : State := densMod i (fun d => { densAgain s d with fault := false }) (densZero i s)

/-- Return from QUIET (R246): the row in use is cleared before its slot begins (R242). -/
def densResume (s : State) : State :=
  (List.range 8).foldl (fun s i =>
    let d := vget s.dens i
    let s := if d.occRunning && densOwns s i (occBank d) then scratchWrite 2 (occRowAddr d d.row) (List.replicate 0x2000 0xFF) s else s
    if d.running || d.occRunning then densMod i (densAgain s) s else s) s

/-- A step of the time counter ends the frame and the slot in progress (R398). -/
def densStepped (s : State) : State := { s with dens := s.dens.map fun d => { d with stepped := d.running, occStepped := d.occRunning } }

/-- Demand in cell updates a second (R239). -/
def densDemand (s : State) (d : DensSt) : Frac :=
  match densXform s d with
  | none => (0, 1)
  | some x => fMul (ringRate s (xSrc x.cfg)) (xCount x.cfg) (max 1 (xHop x.cfg))

/-- The source analysis runs. -/
def densSourceRuns (s : State) (d : DensSt) : Bool := (densXform s d).any (·.running)

/-- The DENS_CFG record that a command carries: reserved bits as 0 (R8, R246). -/
def densArg (c : Cmd) : BitVec 256 := setFld (setFld (setFld (setFld (setFld (argW c 0 256) 63 54 0) 127 112 0) 159 148 0) 175 165 0) 255 224 0

/-- BAD_ARG conditions of DENS.CONFIGURE (R229, R236, R246, R614). -/
def densBad (s : State) (h : Handle) (w : BitVec 256) : Bool :=
  let d : DensSt := { cfg := w }
  fld w 11 8 < 8 || 12 < fld w 11 8 || fld w 15 12 < 6 || 10 < fld w 15 12 ||
  fld w 47 32 = 0 || 4096 < fld w 47 32 || fld w 95 64 < 1000 || 10000000 < fld w 95 64 || fld w 111 96 = 0 || densRaster d % 4096 != 0 ||
  !rasterOk s.grade (densRaster d) (4 * densCols d * densRows d) || densK s d < densCols d || !outRingOk s (densRing d) 9 h (64 + densCols d * densRows d * 2)

/-- DENS.CONFIGURE (R267). -/
def vDensConfigure : Verb where
  op := 0x0B01
  fits := fun s h => isA s .dens h
  checks := fun c s => [badArg (densBad s c.unit (densArg c)), badState (vget s.dens (idx c.unit)).running, keptCond s [fld (densArg c) 147 128]]
  act := fun c s => ok (densMod (idx c.unit) (fun d => { d with cfg := densArg c }) s)

/-- DENS.LOAD_COLOURS (R238, R267). -/
def vDensLoadColours : Verb where
  op := 0x0B02
  fits := fun s h => isA s .dens h
  checks := fun c s => [badArg (!spanOk s (argN c 0 6) 1024)]
  act := fun c s =>
    match kennelRead s (argN c 0 6) 1024 with
    | none => answer s FAULT
    | some b => ok (densMod (idx c.unit) (fun d => { d with colours := (List.range 256).map fun i => BitVec.ofNat 32 (numAt b (4 * i) 4) }) (kennelNote (argN c 0 6) 1024 s))

/-- DENS.STOP (R240, R267): the answer follows the frame's steps. -/
def vDensStop : Verb where
  op := 0x0B04
  fits := fun s h => isA s .dens h
  checks := fun c s => [badState (!(vget s.dens (idx c.unit)).running || (vget s.dens (idx c.unit)).stopping.isSome)]
  act := fun c s => later (densMod (idx c.unit) (fun d => { d with stopping := some c }) s)

/-- DENS.CLEAR (R240, R267): at the next frame boundary of the time counter. -/
def vDensClear : Verb where
  op := 0x0B05
  fits := fun s h => isA s .dens h
  act := fun c s => let i := idx c.unit; ok (densMod i (fun d => { d with clearing := d.clearing ++ [nextBoundary s (densPeriod d)] }) s)

/-- DENS.STATUS (R267); the latest buffer before any render is not given. -/
def vDensStatus : Verb where
  op := 0x0B06
  fits := fun s h => isA s .dens h
  act := fun c s =>
    let d := vget s.dens (idx c.unit)
    let (b, s) := match d.latest with
      | some b => (b, s)
      | none => draw s
    okWith s (le 1 (b2n d.running) ++ le 1 b ++ le 2 0 ++ le 4 d.frames ++ le 4 d.satCells ++ le 2 d.norm ++ le 2 0 ++ timeB d.lastTime ++ le 4 (mUp (densDemand s d)))

/-- The OCC_CFG record that a command carries: reserved bits as 0 (R8, R246). -/
def occArg (c : Cmd) : BitVec 128 := setFld (setFld (setFld (setFld (argW c 0 128) 31 16 0) 95 84 0) 111 101 0) 127 124 0

/-- OCC.CONFIGURE (R246, R267, R614). -/
def vOccConfigure : Verb where
  op := 0x0C01
  fits := fun s h => isA s .dens h
  checks := fun c s =>
    let w := occArg c
    let d := vget s.dens (idx c.unit)
    [badArg (fld w 63 32 < 10 || 10000000 < fld w 63 32 || fld w 123 112 = 0 ||
       !outRingOk s (fld w 83 64) 10 c.unit (64 + occRowLen (densK s d))), badState d.occRunning, keptCond s [fld w 83 64]]
  act := fun c s => ok (densMod (idx c.unit) (fun d => { d with occCfg := occArg c }) s)

/-- OCC.CHANNEL (R244, R267). -/
def vOccChannel : Verb where
  op := 0x0C02
  fits := fun s h => isA s .dens h
  checks := fun c s =>
    let last := argN c 8 4
    [badArg (63 < argN c 0 1 || (last != 0xFFFFFFFF && (last < argN c 4 4 || densK s (vget s.dens (idx c.unit)) ≤ last)))]
  act := fun c s => ok (densMod (idx c.unit) (fun d => { d with
    chans := (d.chans.filter fun x => x.1 != argN c 0 1) ++ (if argN c 8 4 = 0xFFFFFFFF then [] else [(argN c 0 1, { first := argN c 4 4, last := argN c 8 4 })]) }) s)

/-- OCC.STOP (R267): the answer follows the slot in progress. -/
def vOccStop : Verb where
  op := 0x0C04
  fits := fun s h => isA s .dens h
  checks := fun c s => [badState (!(vget s.dens (idx c.unit)).occRunning || (vget s.dens (idx c.unit)).occStopping.isSome)]
  act := fun c s => later (densMod (idx c.unit) (fun d => { d with occStopping := some c }) s)

/-- The status entry of an occupancy channel (R244). -/
def occEntry (d : DensSt) (n : Nat) : Bytes :=
  match d.chans.find? fun x => x.1 == n with
  | none => le 4 0
  | some (_, c) => let l := c.slots.take (fld d.occCfg 123 112); le 2 (ratio16 (l.filter (·)).length l.length) ++ le 2 l.length

/-- OCC.STATUS (R267). -/
def vOccStatus : Verb where
  op := 0x0C05
  fits := fun s h => isA s .dens h
  checks := fun c s => [badArg (!spanOk s (argN c 0 6) 256)]
  act := fun c s => ok (destWrite (argN c 0 6) ((List.range 64).flatMap (occEntry (vget s.dens (idx c.unit)))) s)

/-- An accumulator loses a bank it uses (R231, R242): it stops with FAULT and raises BANK_LOST. -/
def densLoses (b i : Nat) (s : State) : State :=
  let d := vget s.dens i
  let a := d.running && (densBanks d).contains b
  let o := d.occRunning && occBank d == b
  if !a && !o then s else
  let s := densMod i (fun d => { d with
    fault := true, running := d.running && !a, stopping := if a then none else d.stopping
    occRunning := d.occRunning && !o, occStopping := if o then none else d.occStopping }) s
  let s := raise (0x80 + i) 5 (0x0600 + i) (le 4 b) s
  let s := if a then completeO d.stopping 0x0B04 FAULT [] s else s
  if o then completeO d.occStopping 0x0C04 FAULT [] s else s

/-- Rings in a bank that the ring manager loses stop (R341, R345). -/
def bankRings (b : Nat) (s : State) : State :=
  (s.rings.filter fun r => match regionOf s.grade r.base with | .bank k _ _ => k == b | _ => false).foldl (fun s r =>
    match ringHalt s r with
    | (r, ev) => emit ev (ringSet r s)) s

def execDensConfigure (c : Cmd) (s : State) : Host.Outcome State Fault Refusal := settle s (runVerb vDensConfigure c s)
def execDensLoadColours (c : Cmd) (s : State) : Host.Outcome State Fault Refusal := settle s (runVerb vDensLoadColours c s)
def execDensStop (c : Cmd) (s : State) : Host.Outcome State Fault Refusal := settle s (runVerb vDensStop c s)
def execDensClear (c : Cmd) (s : State) : Host.Outcome State Fault Refusal := settle s (runVerb vDensClear c s)
def execDensStatus (c : Cmd) (s : State) : Host.Outcome State Fault Refusal := settle s (runVerb vDensStatus c s)
def execDensFrameComplete (a : Fin 8) (s : State) : Host.Outcome State Fault Refusal := settle s (densFrameComplete a s)
def execOccConfigure (c : Cmd) (s : State) : Host.Outcome State Fault Refusal := settle s (runVerb vOccConfigure c s)
def execOccChannel (c : Cmd) (s : State) : Host.Outcome State Fault Refusal := settle s (runVerb vOccChannel c s)
def execOccStop (c : Cmd) (s : State) : Host.Outcome State Fault Refusal := settle s (runVerb vOccStop c s)
def execOccStatus (c : Cmd) (s : State) : Host.Outcome State Fault Refusal := settle s (runVerb vOccStatus c s)
def execOccSlotComplete (a : Fin 8) (s : State) : Host.Outcome State Fault Refusal := settle s (occSlotComplete a s)

end Sys2Proof.Machine
end

