-- ==== Sys2Proof/Machine/Disp.lean ====
section
/-! DEFINITION. The scan-out head (R247 to R269): the link, AUX, training, commits, frames, layers and composition; and the end of a bank's handover (R312). -/
set_option Elab.async false
namespace Sys2Proof.Machine
open Sys2Proof

/-- Change the head. -/
def dispMod (f : DispSt → DispSt) (s : State) : State := { s with disp := f s.disp }

def tPixel (t : BitVec 256) : Nat := fld t 159 128
def tHtotal (t : BitVec 256) : Nat := fld t 15 0 + fld t 31 16 + fld t 47 32 + fld t 63 48
def tVactive (t : BitVec 256) : Nat := fld t 79 64
def tVtotal (t : BitVec 256) : Nat := fld t 79 64 + fld t 95 80 + fld t 111 96 + fld t 127 112
def tRate (t : BitVec 256) : Nat := fld t 163 162
def tLanes (t : BitVec 256) : Nat := fld t 166 164
def tSsc (t : BitVec 256) : Bool := bitAt t 167
def tAuto (t : BitVec 256) : Bool := bitAt t 168

/-- Mb/s of a rate code (R247). -/
def dpMbps (r : Nat) : Nat := [1620, 2700, 5400, 8100].getD r 0

/-- A mode fits a link (R251). -/
def dpFits (t : BitVec 256) (rate lanes : Nat) : Bool :=
  tPixel t * 24000 * 1000 ≤ lanes * (dpMbps rate * 1000000) * (if tSsc t then 796 else 800)

/-- The link of a mode; none where it fits none that the sink supports (R251). A sink that could not be read is taken to support every link. -/
def dpChoose (t : BitVec 256) (sink : Option (Nat × Nat × Nat)) : Option (Nat × Nat) :=
  let k := sink.getD (3, 4, 3)
  if tAuto t then (((List.range 4).filter fun r => r ≤ k.1 && dpFits t r k.2.1).head?).map fun r => (r, k.2.1)
  else if tRate t ≤ k.1 && tLanes t ≤ k.2.1 && dpFits t (tRate t) (tLanes t) then some (tRate t, tLanes t) else none

/-- The mode fits a link that the sink supports; with no sink present, 4 lanes at 8.1 Gb/s (R251). -/
def dpCheck (t : BitVec 256) (sink : Option (Nat × Nat × Nat)) : Bool := if sink.isNone then dpFits t 3 4 else (dpChoose t sink).isSome

/-- The next link of step 4 of R252: a lower rate that fits, then fewer lanes. -/
def dpFallback (t : BitVec 256) (sink : Option (Nat × Nat × Nat)) (rate lanes : Nat) : Option (Nat × Nat) :=
  let rmax := (sink.map (·.1)).getD 3
  let down := fun (n l : Nat) => ((List.range n).reverse.filter fun r => dpFits t r l).map fun r => (r, l)
  (down rate lanes ++ ([2, 1].filter (· < lanes)).flatMap fun l => down (rmax + 1) l).head?

/-- DSS acquires anew (R262). -/
def dssRelock (s : State) : State :=
  { s with synth := { s.synth with loop := vmod s.synth.loop 3 fun l => { l with lock := .acquiring, unlockedSince := s.cyc } } }

def dssLocked (s : State) : Bool := (vget s.synth.loop 3).lock == .locked

/-- EV_LINK_TRAIN (R252). -/
def evTrain (type : Nat) (s : State) : State := raise 0x8D type 0x0700 (le 1 s.disp.rate ++ le 1 s.disp.lanes) s

/-- The ENABLE commands that wait complete. -/
def enableDone (st : Nat) (s : State) : State :=
  s.disp.enabling.foldl (fun s c => complete c 0x0D04 st [] s) (dispMod (fun d => { d with enabling := [] }) s)

/-- No fitting link trains (R252 step 6). -/
def trainFail (s : State) : State := enableDone FAULT (evTrain 3 (dispMod (fun d => { d with train := .fail, pattern := 0, stopped := true }) s))

/-- The head's own write of the sink's link configuration (R252 step 1). -/
def sinkWrite (addr : Nat) (data : Bytes) (s : State) : AuxRun :=
  { cmd := none, kind := 1, addr := addr, len := data.length, done := 0, buffer := 0, data := data, tries := 0, since := s.cyc }

/-- A transfer joins the queue. -/
def auxAsk (a : AuxRun) (s : State) : State := dispMod (fun d => { d with aux := d.aux ++ [a] }) s

/-- Step 1 of R252 for a link: the rate and lane count, then the spread, are written to the sink. -/
def trainSetup (r l : Nat) (s : State) : State :=
  let s := dispMod (fun d => { d with rate := r, lanes := l, train := .setup, tries := 0, pattern := 0, drive := (0, 0), stopped := true }) s
  auxAsk (sinkWrite 0x107 [if tSsc s.disp.committed.timing then 0x10 else 0] s) (auxAsk (sinkWrite 0x100 [BitVec.ofNat 8 ([6, 10, 20, 30].getD r 0), BitVec.ofNat 8 l] s) s)

/-- A commit whose target is the next frame stands from the first frame of a restart (R258). -/
def pendingTake (s : State) : State :=
  dispMod (fun d => match d.pending.find? fun p => p.1 == (d.frame + 1).toNat with
    | none => d
    | some (n, st) => { d with
        pending := d.pending.filter fun p => p.1 != n, committed := st, flipDue := true, scanning := Vector.replicate 4 none
        modeChanged := d.modeChanged || d.committed.timing.toNat % 2 ^ 169 != st.timing.toNat % 2 ^ 169 }) s

/-- Training starts at step 1 of R252, with the link of R251. -/
def trainStart (s : State) : State :=
  if !(s.disp.enabled && s.disp.hpd) then s else
  let s := pendingTake s
  match dpChoose s.disp.committed.timing s.disp.sink with
  | none => trainFail s
  | some (r, l) => trainSetup r l s

/-- Training that the sink brings about: none after FAIL (R252 step 6). -/
def trainAgain (s : State) : State := if s.disp.train == .fail then s else trainStart s

/-- The bond that holds a lane, or holds it from its next L reset (R248, R468, R500). -/
def laneBond (s : State) (j : Nat) : Option Nat :=
  (List.range 8).find? fun b =>
    let x := vget s.link.bond b
    [x.cfg, x.cfgNext.getD x.cfg].any fun c => (fld c 4 0 == j / 8 && bitAt c (16 + j % 8)) || (fld c 9 5 == j / 8 && bitAt c (24 + j % 8))

/-- The enabled Ethernet port that holds a lane (R407). -/
def laneEth (s : State) (j : Nat) : Option Nat := (List.range 16).find? fun p => bitAt (vget s.eth p).cfg 0 && fld (vget s.eth p).cfg 15 8 == j

/-! ### AUX (R250) -/

/-- Bytes of the transaction in progress. -/
def auxChunk (a : AuxRun) : Nat := min 16 (a.len - a.done)

/-- The transaction on the AUX channel: its kind, its address, which a native transfer advances, and the bytes that a write carries to the sink. -/
def auxRequest (s : State) : Option (Nat × Nat × Bytes) :=
  s.disp.aux.head?.map fun a => (a.kind, if a.kind < 2 then a.addr + a.done else a.addr, if a.kind % 2 = 1 then (a.data.drop a.done).take (auxChunk a) else [])

/-- The transfer in progress ends; the next begins. -/
def auxNext (s : State) : State :=
  dispMod (fun d => { d with aux := match d.aux.drop 1 with
    | [] => []
    | a :: as => { a with since := s.cyc } :: as }) s

/-- What the head reads of the sink (R249, R269): the capabilities at 0x00000, the link status at 0x00202. -/
def sinkRead (addr : Nat) (data : Bytes) (s : State) : State :=
  let b := fun i => (data.getD i 0).toNat
  if addr = 0 then
    let r := if 0x1E ≤ b 1 then 3 else if 0x14 ≤ b 1 then 2 else if 0x0A ≤ b 1 then 1 else 0
    trainAgain (dispMod (fun d => { d with sink := some (r, b 2 % 32, b 2 / 64 % 2 + b 3 / 128 * 2) }) s)
  else
    let lane := fun i => (b (i / 2) >>> (4 * (i % 2))) % 16 % 8 == 7
    if s.disp.train == .trained && !((List.range s.disp.lanes).all lane && b 2 % 2 == 1) then trainStart s else s

/-- A transfer of the head's own has ended, with its data or without an answer: training goes on to what follows it (R249, R252). -/
def sinkDone (a : AuxRun) (s : State) : State :=
  if a.kind = 0 && a.addr = 0 then trainAgain s
  else if a.kind = 1 && a.addr = 0x107 && s.disp.train == .setup && !(s.disp.aux.any fun x => x.cmd.isNone && x.kind == 1) then
    dispMod (fun d => { d with train := .clock, tries := 0, pattern := 1 }) s
  else s

/-- A failed attempt: up to 7 retries, then the transfer ends with TIMEOUT (R250, R268). -/
def auxFail (a : AuxRun) (s : State) : State :=
  if a.tries < 7 then dispMod (fun d => { d with aux := { a with tries := a.tries + 1, since := s.cyc } :: d.aux.drop 1 }) s
  else
    let s := auxNext s
    match a.cmd with
    | some c => complete c 0x0D05 TIMEOUT (le 2 a.done) s
    | none => sinkDone a s

/-- A reply arrives (R250). -/
def auxReply (r : AuxReply) (s : State) : State :=
  match s.disp.aux with
  | [] => s
  | a :: as =>
    match r with
    | .defer => auxFail a s
    | .nack =>
      let s := auxNext s
      (match a.cmd with
       | some c => complete c 0x0D05 OK (le 2 a.done) s
       | none => sinkDone a s)
    | .ack data =>
      let rd := a.kind % 2 == 0
      let got := data.take (auxChunk a)
      let n := if rd then got.length else auxChunk a
      if n = 0 then auxFail a s else
      match a.cmd with
      | none => if a.kind = 1 then sinkDone a (auxNext s) else sinkRead a.addr got (auxNext s)
      | some c =>
        let s := if rd then destWrite (a.buffer + a.done) got s else s
        let a := { a with done := a.done + n, tries := 0, since := s.cyc }
        if a.done < a.len then dispMod (fun d => { d with aux := a :: as }) s
        else complete c 0x0D05 OK (le 2 a.done) (auxNext s)

/-- AUX_REPLY_TIMEOUT (R250): 400 µs. -/
def auxTimeout (s : State) : State :=
  match s.disp.aux with
  | [] => s
  | a :: _ => if since s a.since < 400 * usC then s else auxFail a s

/-! ### HPD (R249) -/

/-- HPD_IN falls. -/
def hpdFall (s : State) : State := if !s.disp.hpd then s else dispMod (fun d => { d with hpd := false, hpdFell := some s.cyc }) s

/-- An unplug: HPD has been low for 2 ms. -/
def hpdUnplug (s : State) : State :=
  if s.disp.hpd || s.disp.unplugged || !(s.disp.hpdFell.any fun c => 2 * msC ≤ since s c) then s else
  raise 0x8C 2 0x0700 [] (dispMod (fun d => { d with unplugged := true, stopped := true, sink := none, pattern := 0, train := if d.train == .fail then .fail else .off }) s)

/-- HPD_IN rises: PLUG after an unplug, IRQ after 0.25 ms (R249). -/
def hpdRise (s : State) : State :=
  if s.disp.hpd then s else
  let s := hpdUnplug s
  let low := (s.disp.hpdFell.map (since s)).getD 0
  let own := fun (addr len : Nat) => ({ cmd := none, kind := 0, addr := addr, len := len, done := 0, buffer := 0, tries := 0, since := s.cyc } : AuxRun)
  let plug := s.disp.unplugged
  let s := dispMod (fun d => { d with hpd := true, hpdFell := none, unplugged := false }) s
  if plug then auxAsk (own 0 16) (raise 0x8C 1 0x0700 [] s)
  else
    let s := if s.disp.train == .off then trainStart s else s
    if 25000 ≤ low then auxAsk (own 0x202 3) (raise 0x8C 3 0x0700 [] s) else s

/-! ### Training (R252) -/

/-- The training pattern of equalisation (R252 step 3). -/
def eqPattern (d : DispSt) : Nat := if d.rate = 3 then 4 else if d.rate = 2 && d.sink.any (fun k => k.2.2 % 2 = 1) then 3 else 2

/-- The drive that a request for a voltage swing and a pre-emphasis gives: DisplayPort permits a sum of at most 3 (R247). -/
def driveOf (want : Fin 4 × Fin 4) : Nat × Nat := (want.1, min want.2.val (3 - want.1.val))

/-- A try of clock recovery or equalisation has ended, with the drive that the sink asks for where it failed (R252). -/
def trainStep (pass : Bool) (want : Fin 4 × Fin 4) (s : State) : State :=
  let d := s.disp
  if !(d.train == .clock || d.train == .equal) || !dssLocked s then s else
  let s := if pass then s else dispMod (fun d => { d with drive := driveOf want }) s
  if pass then
    (if d.train == .clock then dispMod (fun d => { d with train := .equal, tries := 0, pattern := eqPattern d }) s
     else enableDone OK (evTrain 1 (dispMod (fun d => { d with train := .trained, tries := 0, pattern := 0 }) s)))
  else if d.train == .clock && driveOf want != d.drive then dispMod (fun d => { d with tries := 0 }) s
  else if d.tries + 1 < 5 then dispMod (fun d => { d with tries := d.tries + 1 }) s
  else if !tAuto d.committed.timing then trainFail s
  else match dpFallback d.committed.timing d.sink d.rate d.lanes with
    | none => trainFail s
    | some (r, l) => let s := trainSetup r l s; evTrain 2 s

/-! ### Layers and composition (R253 to R256, R264) -/

def lFormat (l : BitVec 256) : Nat := fld l 49 48
def lOn (l : BitVec 256) : Bool := bitAt l 50
def lDens (l : BitVec 256) : Nat := fld l 54 51
def lBpp (l : BitVec 256) : Nat := if lFormat l = 0 then 2 else if lFormat l = 1 then 3 else 4
def lW (l : BitVec 256) : Nat := fld l 127 112
def lH (l : BitVec 256) : Nat := fld l 143 128

/-- An address lies in the store, or in a bank that the head owns (R253, R305). -/
def dispAddrOk (s : State) (a : Addr) : Bool :=
  match regionOf s.grade a with
  | .store | .context => true
  | .bank b 0 _ => (vget s.banks b).owner == 0x0700
  | _ => false

/-- Bytes from a layer's first to its last pixel. -/
def layerLen (l : BitVec 256) : Nat := (lH l - 1) * fld l 79 64 + lW l * lBpp l

/-- Every byte of a layer's source lies where the head may read (R253, R261). -/
def layerHeld (s : State) (l : BitVec 256) : Bool :=
  let a := fld l 47 0
  ((List.range (ceilDiv (layerLen l) 0x400000)).all fun k => dispAddrOk s (a + k * 0x400000)) && dispAddrOk s (a + layerLen l - 1)

/-- BAD_ARG of a layer at commit (R253, R254, R256, R265). -/
def layerBad (s : State) (l : BitVec 256) : Bool :=
  lFormat l == 3 || (lOn l &&
    (lW l == 0 || lH l == 0 || 4096 < lW l || 4096 < lH l || 4095 < fld l 95 80 || 4095 < fld l 111 96 ||
     (if lDens l = 0 then
        fld l 47 0 % 64 != 0 || fld l 79 64 % 64 != 0 || fld l 79 64 < lW l * lBpp l || !inOneRow s.grade (fld l 47 0) (layerLen l) || !layerHeld s l
      else nInputs s.grade < lDens l || densCols (vget s.dens (lDens l - 1)) < lW l || densRows (vget s.dens (lDens l - 1)) < lH l)))

/-- BAD_ARG of a timing at commit (R263), with the LANES codes of R265. -/
def timingBad (t : BitVec 256) : Bool :=
  fld t 15 0 < 320 || 3840 < fld t 15 0 || tVactive t < 128 || 2160 < tVactive t || fld t 31 16 == 0 || fld t 47 32 == 0 || fld t 63 48 == 0 ||
  fld t 95 80 == 0 || fld t 111 96 == 0 || fld t 127 112 == 0 || 8192 < tHtotal t || 4096 < tVtotal t || tPixel t < 25000 || 600000 < tPixel t ||
  !([1, 2, 4].contains (tLanes t))

/-- A layer's source for the frame being scanned: its base, stride and format (R255, R256). -/
def layerSource (s : State) (l : BitVec 256) (n : Nat) : Option (Addr × Nat × Nat) :=
  if lDens l = 0 then some (fld l 47 0, fld l 79 64, lFormat l)
  else
    let d := vget s.dens (lDens l - 1)
    (vget s.disp.scanning n).map fun b => (densRaster d + b * densCols d * densRows d * 4, 4 * densCols d, 2)

/-- Red, green, blue and alpha of a stored pixel (R254). -/
def pixelAt (s : State) (fmt : Nat) (a : Addr) : Nat × Nat × Nat × Nat :=
  let v := leNat (viewBytes s a 4)
  if fmt = 0 then
    let (r, g, b) := (v / 2048 % 32, v / 32 % 64, v % 32)
    (r * 8 + r / 4, g * 4 + g / 16, b * 8 + b / 4, 255)
  else (v / 65536 % 256, v / 256 % 256, v % 256, if fmt = 1 then 255 else v / 16777216 % 256)

/-- An address in the capture store. -/
def inStore (s : State) (a : Addr) : Bool := match regionOf s.grade a with | .store | .context => true | _ => false

/-- A layer that is scanned from a scratch bank that has passed to another owner: its reads are denied (R261). -/
def layerDenied (s : State) (n : Nat) : Bool :=
  let l := vget s.disp.committed.layers n
  lOn l && lDens l == 0 && !layerHeld s l

/-- Composite one layer over what lies below (R255). -/
def composeOne (s : State) (x y : Nat) (below : Nat × Nat × Nat) (n : Nat) : Nat × Nat × Nat :=
  let l := vget s.disp.committed.layers n
  let (lx, ly) := (fld l 95 80, fld l 111 96)
  if !lOn l || bitAt s.disp.off n || x < lx || lx + lW l ≤ x || y < ly || ly + lH l ≤ y then below else
  match layerSource s l n with
  | none => below
  | some (base, stride, fmt) =>
    if (s.disp.storeDark && inStore s base) || layerDenied s n then below else
    let (r, g, b, pa) := pixelAt s fmt (base + (y - ly) * stride + (x - lx) * (if fmt = 0 then 2 else if fmt = 1 then 3 else 4))
    let ga := fld l 151 144
    let a := if fmt = 2 then roundDiv (pa * ga) 255 else ga
    let mix := fun (p q : Nat) => roundDiv (a * p + (255 - a) * q) 255
    (mix r below.1, mix g below.2.1, mix b below.2.2)

/-- The pixel that the head shows at a position of the active area: red, green, blue (R255). -/
def scanPixel (s : State) (x y : Nat) : Nat × Nat × Nat :=
  let t := s.disp.committed.timing
  (List.range 4).foldl (composeOne s x y) (fld t 199 192, fld t 191 184, fld t 183 176)

/-! ### Commits and frames (R257 to R262) -/

/-- Line now being scanned, counted from the first active line. -/
def dispLine (s : State) : Nat :=
  let t := s.disp.committed.timing
  since s s.disp.frameAt * tPixel t / 100000 / max 1 (tHtotal t)

/-- A commit takes effect (R262): what changed decides whether video stops. -/
def commitApply (st : DispState) (s : State) : State :=
  let old := s.disp.committed.timing
  let t := st.timing
  let s := dispMod (fun d => { d with committed := st, flipDue := true, scanning := Vector.replicate 4 none }) s
  if !s.disp.enabled then s else
  let mode := old.toNat % 2 ^ 169 != t.toNat % 2 ^ 169
  let s := dispMod (fun d => { d with modeChanged := d.modeChanged || mode }) s
  let link := dpChoose t s.disp.sink != some (s.disp.rate, s.disp.lanes) || tSsc old != tSsc t
  if (s.disp.train == .trained || s.disp.train == .setup || s.disp.train == .clock || s.disp.train == .equal) && mode && link then trainStart (dssRelock (dispMod (fun d => { d with stopped := true }) s))
  else if tPixel old != tPixel t then dssRelock (dispMod (fun d => { d with stopped := true }) s)
  else s

/-- The vertical blank that follows the frame in progress (R257, R258), with the main stream attributes of the next frame (R247). -/
def verticalBlank (s : State) : State :=
  let d := s.disp
  if !d.enabled || d.stopped then s else
  let s := match d.pending.find? fun p => p.1 == (d.frame + 1).toNat with
    | none => s
    | some (n, st) => commitApply st (dispMod (fun d => { d with pending := d.pending.filter fun p => p.1 != n }) s)
  dispMod (fun d => { d with msa := some d.committed.timing }) s

/-- A layer misses its deadline (R260, R261); a layer that is not fetched raises none (R264). -/
def layerUnderrun (n line : Nat) (s : State) : State :=
  let d := s.disp
  let l := vget d.committed.layers n
  let dark := d.storeDark && (layerSource s l n).any fun x => inStore s x.1
  if !d.enabled || d.stopped || !lOn l || bitAt d.off n || dark || tVactive d.committed.timing ≤ line then s else
  raise 0x8A 0 0x0700 (le 4 n ++ le 4 line ++ le 4 d.frame.toNat)
    (dispMod (fun d => { d with off := setBit d.off n true, underruns := vmod d.underruns n fun u => wrapAdd 16 u 1 }) s)

/-- Layers whose reads are denied from a line on (R261). -/
def layersDenied (line : Nat) (s : State) : State :=
  (List.range 4).foldl (fun s n => if layerDenied s n then layerUnderrun n (max line (fld (vget s.disp.committed.layers n) 111 96)) s else s) s

/-- Scan-out cannot read a word of the store: an underrun of the layer that it belongs to (R277). -/
def headLoses (a : Addr) (s : State) : State :=
  (List.range 4).foldl (fun s n =>
    let l := vget s.disp.committed.layers n
    match layerSource s l n with
    | none => s
    | some (base, stride, _) =>
      if base ≤ a && a < base + stride * lH l then layerUnderrun n (fld l 111 96 + (a - base) / max 1 stride) s else s) s

/-- STORE_ACCESS_ISSUE (R277, R280, R281, R285): a channel's next access, and what its reader does with a word that cannot be read. -/
def storeIssue (ch : Nat) (arrivals : List StoreReq) (e : Ecc) (s : State) : State :=
  if nCh s.grade ≤ ch then s else
  match storePick ch arrivals s with
  | (s, none) => s
  | (s, some (r, a)) =>
    let e := eccOf s r a e
    let s := eccTake ch r.rank a e s
    if e != .uncorrectable then s
    else if r.write then writeLost a s
    else if r.rank = 2 then headLoses a s else if r.rank = 3 then contextLost a s else s

/-- The first active line of a frame (R256, R259, R260, R262, R264). -/
def frameStart (s : State) : State :=
  let d := s.disp
  if !d.enabled || d.train != .trained || !dssLocked s then s else
  let s := dispMod (fun d => { d with
    frame := d.frame + 1, frameAt := s.cyc, off := 0, stopped := false, flipDue := false, modeChanged := false, storeDark := s.power.state == .quiet
    lastFlip := if d.flipDue then now s else d.lastFlip
    scanning := Vector.ofFn fun n =>
      let l := vget d.committed.layers n
      if lOn l && lDens l != 0 then (vget s.dens (lDens l - 1)).latest else none }) s
  let s := if d.flipDue then raise 0x88 0 0x0700 (le 4 s.disp.frame.toNat) s else s
  let s := if d.modeChanged then raise 0x8B 0 0x0700 (le 1 s.disp.rate ++ le 1 s.disp.lanes ++ le 2 0 ++ le 4 s.disp.frame.toNat) s else s
  layersDenied 0 s

/-- The head is still reading the sink's capabilities, which training follows (R249). -/
def sinkAsked (s : State) : Bool := s.disp.sink.isNone && s.disp.aux.any fun a => a.cmd.isNone && a.kind == 0 && a.addr == 0

/-- UNIT.REINIT of the head (R265). -/
def dispReinit (s : State) : State :=
  (fun s => if sinkAsked s then s else trainStart s) (dispMod (fun d => { d with staged := d.committed, pending := [], stopped := true, train := .off, pattern := 0, tries := 0 }) s)

/-! ### Verbs (R268) -/

/-- DISP.TIMING (R257): reserved bits read 0. -/
def vDispTiming : Verb where
  op := 0x0D01
  fits := fun s h => isA s .disp h
  act := fun c s => ok (dispMod (fun d => { d with staged := { d.staged with timing := setFld (setFld (argW c 0 256) 175 169 0) 255 200 0 } }) s)

/-- DISP.LAYER (R257): reserved bits read 0. -/
def vDispLayer : Verb where
  op := 0x0D02
  fits := fun s h => isA s .disp h
  checks := fun c _ => [badArg (3 < argN c 0 1)]
  act := fun c s =>
    let l := setFld (setFld (argW c 16 256) 63 55 0) 255 152 0
    ok (dispMod (fun d => { d with staged := { d.staged with layers := vmod d.staged.layers (argN c 0 1) fun _ => l } }) s)

/-- DISP.COMMIT (R257, R258). -/
def vDispCommit : Verb where
  op := 0x0D03
  fits := fun s h => isA s .disp h
  checks := fun _ s =>
    let st := s.disp.staged
    [badArg (timingBad st.timing || st.layers.toList.any (layerBad s)), noRoom (!dpCheck st.timing s.disp.sink) []]
  act := fun _ s =>
    let d := s.disp
    if !d.enabled then okWith (commitApply d.staged s) (le 4 1 ++ le 4 0)
    else if d.stopped then
      okWith (commitApply d.staged (dispMod (fun d => { d with pending := [] }) s)) (le 4 (d.frame + 1).toNat ++ le 4 0)
    else
      let late := !(dispLine s < tVactive d.committed.timing - 64)
      let target := (d.frame + (if late then 2 else 1)).toNat
      let s := dispMod (fun d => { d with pending := (d.pending.filter fun p => p.1 != target) ++ [(target, d.staged)],
                                          lateCommits := if late then wrapAdd 32 d.lateCommits 1 else d.lateCommits }) s
      okWith (if late then raise 0x89 0 0x0700 (le 4 target) s else s) (le 4 target ++ le 4 (b2n late))

/-- DISP.ENABLE (R248, R252, R268). -/
def vDispEnable : Verb where
  op := 0x0D04
  fits := fun s h => isA s .disp h
  checks := fun c s => [badArg (1 < argN c 0 1),
    badState (argN c 0 1 == 1 && (List.range 4).any fun i => (laneBond s (136 + i)).isSome || (laneEth s (136 + i)).isSome)]
  act := fun c s =>
    let d := s.disp
    if argN c 0 1 = 0 then
      let s := dispMod (fun d => { d with enabled := false, train := .off, pattern := 0, stopped := true, pending := [], committed := ((d.pending.getLast?).map (·.2)).getD d.committed }) s
      let s := { s with synth := { s.synth with loop := vmod s.synth.loop 3 fun l => { l with lock := .off } } }
      ok (enableDone FAULT s)
    else if d.enabled && d.train == .trained then ok s
    else
      let s := if d.enabled then s else dssRelock s
      let s := dispMod (fun d => { d with
        enabled := true, enabling := d.enabling ++ [c], frame := if d.enabled then d.frame else 0, stopped := true, train := if d.train == .fail then .off else d.train }) s
      later (if (d.enabled && d.train != .fail) || sinkAsked s then s else trainStart s)

/-- DISP.AUX (R250, R268). -/
def vDispAux : Verb where
  op := 0x0D05
  fits := fun s h => isA s .disp h
  checks := fun c s =>
    let n := argN c 8 2
    let a := argN c 16 6
    [badArg (3 < argN c 0 1 || n == 0 || 128 < n || !(mapped s a && mapped s (a + n - 1) && inOneRow s.grade a n))]
  act := fun c s =>
    let n := argN c 8 2
    let a := argN c 16 6
    let run := fun (data : Bytes) => auxAsk { cmd := some c, kind := argN c 0 1, addr := argN c 4 4, len := n, done := 0, buffer := a, data := data, tries := 0, since := s.cyc }
    if argN c 0 1 % 2 = 0 then later (run [] s)
    else match kennelRead s a n with
      | none => answer s FAULT
      | some b => later (run b (kennelNote a n s))

/-- DISP.STATUS (R269). -/
def vDispStatus : Verb where
  op := 0x0D06
  fits := fun s h => isA s .disp h
  act := fun c s =>
    let d := s.disp
    let sink := d.sink.getD (0, 0, 0)
    let res := le 1 (unitState s 0x0700) ++ le 1 (b2n d.enabled + 2 * b2n d.hpd + 4 * b2n (d.train == .trained) + 8 * b2n (!d.pending.isEmpty)) ++ le 1 d.rate ++
      le 1 d.lanes ++ le 4 d.frame.toNat ++ timeB d.lastFlip ++ le 4 (((d.pending.getLast?).map (·.1)).getD 0) ++ d.underruns.toList.flatMap (le 2) ++
      le 4 d.lateCommits ++ le 1 sink.1 ++ le 1 sink.2.1 ++ le 1 sink.2.2 ++ [0] ++
      le 4 (if d.enabled && !d.stopped then dispLine s % max 1 (tVtotal d.committed.timing) else 0) ++ le 4 0
    okWith (if argBit c 0 0 then dispMod (fun d => { d with underruns := Vector.replicate 4 0, lateCommits := 0 }) s else s) res

/-! ### The end of a handover (R312) -/

/-- HANDOVER_DRAIN_DONE (R312): step 3, the drain time, what the old owner's units do, and the accesses that were held. -/
def handoverDrainDone (b : Nat) (s : State) : State :=
  let k := vget s.banks b
  match k.handover with
  | none => s
  | some (c, at_) =>
    let ns := since s at_ * 10
    let s := bankMod b (fun k => { k with owner := k.pendingOwner, pendingOwner := 0xFFFF, handover := none, held := [] }) s
    let s := raise 0xA1 0 (0x0900 + b) (le 2 k.owner.toNat ++ le 2 k.pendingOwner.toNat ++ le 4 ns) s
    let s := if k.owner == 0x0B00 then bankRings b s else s
    let s := (List.range 8).foldl (fun s i => if k.owner == BitVec.ofNat 16 (0x0600 + i) then densLoses b i s else s) s
    let s := if k.owner == 0x0700 then layersDenied (dispLine s) s else s
    let s := completeO c 0x0F01 OK (le 4 ns) s
    k.held.foldl (fun s h => accDo b (if h.1 then 1 else 0) s h.2 s) s

def execDispTiming (c : Cmd) (s : State) : Host.Outcome State Fault Refusal := settle s (runVerb vDispTiming c s)
def execDispLayer (c : Cmd) (s : State) : Host.Outcome State Fault Refusal := settle s (runVerb vDispLayer c s)
def execDispCommit (c : Cmd) (s : State) : Host.Outcome State Fault Refusal := settle s (runVerb vDispCommit c s)
def execDispEnable (c : Cmd) (s : State) : Host.Outcome State Fault Refusal := settle s (runVerb vDispEnable c s)
def execDispAux (c : Cmd) (s : State) : Host.Outcome State Fault Refusal := settle s (runVerb vDispAux c s)
def execDispStatus (c : Cmd) (s : State) : Host.Outcome State Fault Refusal := settle s (runVerb vDispStatus c s)
def execAuxReply (r : AuxReply) (s : State) : Host.Outcome State Fault Refusal := settle s (auxReply r s)
def execAuxReplyTimeout (s : State) : Host.Outcome State Fault Refusal := settle s (auxTimeout s)
def execHpdInFall (s : State) : Host.Outcome State Fault Refusal := settle s (hpdFall s)
def execHpdUnplug (s : State) : Host.Outcome State Fault Refusal := settle s (hpdUnplug s)
def execHpdInRise (s : State) : Host.Outcome State Fault Refusal := settle s (hpdRise s)
def execDpTrainStep (pass : Bool) (want : Fin 4 × Fin 4) (s : State) : Host.Outcome State Fault Refusal := settle s (trainStep pass want s)
def execVerticalBlank (s : State) : Host.Outcome State Fault Refusal := settle s (verticalBlank s)
def execFrameStart (s : State) : Host.Outcome State Fault Refusal := settle s (frameStart s)
def execStoreAccessIssue (ch : Fin 64) (arrivals : List StoreReq) (ecc : Ecc) (s : State) : Host.Outcome State Fault Refusal := settle s (storeIssue ch arrivals ecc s)
def execLayerUnderrun (l : Fin 4) (line : Nat) (s : State) : Host.Outcome State Fault Refusal := settle s (layerUnderrun l line s)
def execHandoverDrainDone (b : Fin 32) (s : State) : Host.Outcome State Fault Refusal := settle s (handoverDrainDone b s)

end Sys2Proof.Machine
end

