-- ==== Sys2Proof/Machine/Work.lean ====
section
/-! DEFINITION. Work items of a pack (R144, R154 to R156, R171 to R178): issue, completion in order, lag, source gaps, restarts and stops. -/
set_option Elab.async false
namespace Sys2Proof.Machine
open Sys2Proof

/-- A running analysis or channeliser as its pack issues it: samples [origin + n·hop, + len) are the support of item n. -/
structure Work where
  kind : WorkKind
  id : Nat
  ring : Nat
  srcPos : Nat
  startTime : Time
  origin : Option Nat
  hop : Nat
  len : Nat
  next : Nat
  redo : List Nat
  skips : List (Nat × Nat × Time)
  stopping : Bool
deriving DecidableEq, Repr, Inhabited

def workOfX (x : XformSt) : Work :=
  ⟨.xform, x.id, xSrc x.cfg, x.srcPos, x.startTime, x.origin, xHop x.cfg, 2 ^ xLog2N x.cfg, x.next, x.redo, x.skips, x.stopping.isSome⟩

def workOfC (c : ChanSt) : Work :=
  ⟨.chan, c.id, c.ring, c.srcPos, c.startTime, c.origin, cHop c, cLen c, c.next, c.redo, c.skips, c.stopping.isSome⟩

/-- Running work admitted directly on a pack. -/
def worksOf (s : State) (p : Handle) : List Work :=
  ((s.xforms.filter fun x => x.pack == p && x.running).map workOfX) ++ ((s.chans.filter fun c => c.pack == p && c.running).map workOfC)

/-- One item of work by kind and number. -/
def workNow (s : State) (k : WorkKind) (id : Nat) : Option Work :=
  match k with
  | .xform => (s.xforms.find? fun x => x.id == id && x.running).map workOfX
  | .chan => (s.chans.find? fun c => c.id == id && c.running).map workOfC

/-- The item is out at an engine. -/
def outstanding (s : State) (k : WorkKind) (id : Nat) : Bool := s.te.toList.any fun t => t.items.any fun w => w.kind == k && w.id == id

/-- Engines of a pack forget the items of one piece of work. -/
def dropItems (k : WorkKind) (id : Nat) (s : State) : State :=
  { s with te := s.te.map fun t => { t with items := t.items.filter fun w => !(w.kind == k && w.id == id) } }

/-! ### Taking completed items in order (R155, R173) -/

/-- The tap entry that was just taken goes to the accumulators (R228, R241). -/
def tapFeed (id : Nat) (d : DoneItem) (s : State) : State :=
  match (s.xforms.find? fun x => x.id == id).bind fun x => x.tap.head? with
  | some (n, t, ok, codes) => if n != d.index || d.lost.isSome then s else densFeed id t ok codes (d.flags ||| (if d.redo then 0x80 else 0)) s
  | none => s

/-- An item of a pack was computed again (R173, R188). -/
def countRedo (p : Handle) (d : DoneItem) (s : State) : State :=
  if d.redo && d.lost.isNone then packMod p (fun q => { q with recomputed := wrapAdd 32 q.recomputed 1 }) s else s

/-- Take completed spectra of an analysis in order and publish whole groups, as far as both go. The outputs of abandoned spectra, from the one
in progress on, go under a gap descriptor (R171). -/
def pumpX (id : Nat) : Nat → State → State
  | 0, s => s
  | n + 1, s =>
    match s.xforms.find? fun x => x.id == id && x.running with
    | none => s
    | some x =>
      if x.formed < x.publish / xM x.cfg then
        (match xEmit id s with
         | (s, true) => pumpX id n s
         | (s, false) => s)
      else
        match x.skips.find? fun k => k.1 == x.publish with
        | some (a, b, t) =>
          pumpX id n (xMod id (fun x => { x with
            publish := b, formed := b / xM x.cfg, skips := x.skips.filter fun k => k.1 != a, group := [], groupFlags := 0, groupLost := none
            gaps := gapAdd ⟨8, t, b / xM x.cfg - a / xM x.cfg, a / xM x.cfg, 0⟩ x.gaps }) s)
        | none =>
          match x.completed.find? fun k => k.index == x.publish with
          | none => s
          | some d => pumpX id n (countRedo x.pack d (tapFeed id d (xMod id (fun x => xTake s x d) s)))

/-- Take completed steps of a channeliser in order, closing frames as they become whole. -/
def pumpC (id : Nat) : Nat → State → State
  | 0, s => s
  | n + 1, s =>
    match bundlesFlush id false s with
    | (s, false) => s
    | (s, true) =>
      match s.chans.find? fun c => c.id == id && c.running with
      | none => s
      | some c =>
        match c.skips.find? fun k => k.1 == c.publish with
        | some (a, b, t) =>
          pumpC id n (cMod id (fun c => { c with
            publish := b, skips := c.skips.filter fun k => k.1 != a, gaps := gapAdd ⟨8, t, b - a, a, 0⟩ c.gaps }) s)
        | none =>
          match c.completed.find? fun k => k.index == c.publish with
          | none => s
          | some d => pumpC id n (countRedo c.pack d (cTake id d s))

/-- Take what can be taken of one piece of work. -/
def pump (k : WorkKind) (id : Nat) (s : State) : State :=
  match k with
  | .xform => match s.xforms.find? fun x => x.id == id with
    | some x => pumpX id (3 * (x.completed.length + x.skips.length) + 3) s
    | none => s
  | .chan => match s.chans.find? fun c => c.id == id with
    | some c => pumpC id (2 * (c.completed.length + c.skips.length) + 2) s
    | none => s

/-! ### Restarts (R144, R148, R154, R156) -/

/-- The gap descriptor of a restart of an analysis: from its next output on the grid that ends, counted in outputs; none where that grid has
not begun. -/
def xGapNow (cause : Nat) (x : XformSt) (s : State) : List PendGap :=
  match srcView s (xSrc x.cfg) x.srcPos, x.origin with
  | some (r, bs), some o => gapAdd ⟨cause, xOutTime s x.cfg o r bs x.formed, 0, x.formed, xM x.cfg * xHop x.cfg * viewPeriod s r bs⟩ x.gaps
  | _, _ => x.gaps

def cGapNow (cause : Nat) (c : ChanSt) (s : State) : List PendGap :=
  match srcView s c.ring c.srcPos, c.origin with
  | some (r, bs), some _ => gapAdd ⟨cause, cTime s c r bs c.publish, 0, c.publish, cHop c * viewPeriod s r bs⟩ c.gaps
  | _, _ => c.gaps

/-- A restart of an analysis: a new grid from a ring position, with its origin if known (R156); the MASK conditions see a gap (R194). -/
def xRestart (cause id srcPos : Nat) (origin : Option Nat) (s : State) : State :=
  match s.xforms.find? fun x => x.id == id with
  | none => s
  | some x =>
    let g := xGapNow cause x s
    let s := formElem 2 id true ((g.getLast?.map (·.start)).getD (now s)) 0 s
    dropItems .xform id (xMod id (fun x => { x with
      srcPos := srcPos, origin := origin, startTime := now s, next := 0, publish := 0, formed := 0, issued := [], completed := [], redo := [], skips := []
      group := [], groupFlags := 0, groupLost := none, gaps := g }) s)

/-- A restart of a channeliser (R144): its frames close first (R351). -/
def cRestart (cause id srcPos : Nat) (origin : Option Nat) (s : State) : State :=
  match s.chans.find? fun c => c.id == id with
  | none => s
  | some c =>
    let g := cGapNow cause c s
    let s := (bundlesFlush id true s).1
    dropItems .chan id (cMod id (fun c => { c with
      srcPos := srcPos, origin := origin, startTime := now s, next := 0, publish := 0, issued := [], completed := [], redo := [], skips := [], gaps := g }) s)

/-- Restart running work at the next source block (R148, R183). -/
def workRestart (cause : Nat) (s : State) (w : Work) : State :=
  let pos := ((ringOf s w.ring).map (·.producer)).getD 0
  match w.kind with
  | .xform => xRestart cause w.id pos none s
  | .chan => cRestart cause w.id pos none s

/-- UNIT.REINIT of a pack (R13, R148, R181): every definition stays; running work restarts with cause PACK_REINIT. -/
def packReinitNow (p : Handle) (s : State) : State :=
  ((p :: (s.packs.map (·.handle)).filter fun q => (ancestors s q).contains p).flatMap (worksOf s)).foldl (workRestart 10) s

/-- Re-initialisations that have waited for a replacement (R181). -/
def packReinits (s : State) : State :=
  (s.packs.filter fun p => !p.reinits.isEmpty).foldl (fun s p =>
    if packSettled s p.handle then
      p.reinits.foldl (fun s c => complete c 0x0101 OK [] s) (packReinitNow p.handle (packMod p.handle (fun q => { q with reinits := [] }) s))
    else s) s

/-- In QUIET no analysis and no channeliser runs (R148, R183). -/
def workHalt (s : State) : State :=
  { s with
    te := s.te.map fun t => { t with items := [] }
    xforms := s.xforms.map fun x => if x.running then { x with next := x.publish, issued := [], completed := [], redo := [] } else x
    chans := s.chans.map fun c => if c.running then { c with next := c.publish, issued := [], completed := [], redo := [] } else c }

/-- Return from QUIET: as after a source gap (R148, R183). -/
def workResume (s : State) : State := (s.packs.flatMap fun p => worksOf s p.handle).foldl (workRestart 7) s

/-! ### Issue (R171, R173, R176) -/

/-- The first block of a grid is found (R144, R154). -/
def workBegin (s : State) (w : Work) : State :=
  if w.origin.isSome || w.stopping then s else
  match (ringOf s w.ring).bind fun r => startBlock r s w.srcPos w.startTime with
  | none => s
  | some b => match w.kind with
    | .xform => xMod w.id (fun x => { x with origin := some b.first, srcPos := b.ent.pos }) s
    | .chan => cMod w.id (fun c => { c with origin := some b.first, srcPos := b.ent.pos }) s

/-- Everything of an analysis or channeliser up to its next item is taken, and no whole output waits for its ring. -/
def workPublished (s : State) (w : Work) : Bool :=
  match w.kind with
  | .xform => (s.xforms.find? fun x => x.id == w.id).any fun x => x.publish == x.next && x.publish / xM x.cfg ≤ x.formed
  | .chan => (s.chans.find? fun c => c.id == w.id).any fun c => c.publish == c.next && c.bundles.all fun b => !bundleFull c b

/-- A source gap restarts work that has taken and written everything before it (R144, R156). -/
def workGap (s : State) (w : Work) : State :=
  match w.origin, srcView s w.ring w.srcPos with
  | some o, some (r, bs) =>
    if o + w.next * w.hop + w.len ≤ srcEnd s r bs || !w.redo.isEmpty || outstanding s w.kind w.id || w.stopping || !workPublished s w then s else
    (match afterGap s r w.srcPos with
     | none => s
     | some (pos, b, cause) => match w.kind with
       | .xform => xRestart cause w.id pos (some b.first) s
       | .chan => cRestart cause w.id pos (some b.first) s)
  | _, _ => s

/-- An item that is not computed, for a cause. -/
def lostItem (cause : Nat) (d : DoneItem) : DoneItem := { d with lost := some cause, vals := [] }

/-- FABRIC_LAG (R171): unissued items, those marked for recomputation among them, whose support begins more than half the lag limit before the
newest sample are abandoned, and with them each output that needs one. -/
def workLag (pack : Handle) (s : State) (w : Work) : State :=
  match w.origin, srcView s w.ring w.srcPos with
  | some o, some (r, bs) =>
    let per := max 1 (viewPeriod s r bs)
    let limit := lagLimit s w.ring * 65536 / per
    if backlog o w.hop w.len w.next w.redo (srcEnd s r bs) ≤ limit then s else
    let m := match w.kind with
      | .xform => ((s.xforms.find? fun x => x.id == w.id).map fun x => xM x.cfg).getD 1
      | .chan => 1
    let keep := ceilDiv (srcEnd s r bs - 1 - limit / 2 - o) w.hop
    let b := if keep ≤ w.next then w.next else ceilDiv keep m * m
    let old := w.redo.filter fun n => decide (n < keep)
    if b = w.next && old.isEmpty then s else
    let outs := (old.map (· / m)).eraseDups.filter fun g => !(w.next / m ≤ g && g < b / m)
    let lost := outs.length + (b / m - w.next / m)
    let s := match w.kind with
      | .xform => xMod w.id (fun x => { x with
          skips := if b = w.next then x.skips else x.skips ++ [(w.next, b, xOutTime s x.cfg o r bs (w.next / m))], next := b
          redo := x.redo.filter fun n => !old.contains n
          completed := x.completed ++ old.map fun n => lostItem 8 (xCompute s x n true) }) s
      | .chan => cMod w.id (fun c => { c with
          skips := if b = w.next then c.skips else c.skips ++ [(w.next, b, cTime s c r bs w.next)], next := b
          redo := c.redo.filter fun n => !old.contains n
          completed := c.completed ++ old.map fun n => lostItem 8 (cCompute s c n true) }) s
    raise 0x6E 0 pack.toNat (le 1 (if w.kind == .xform then 0 else 1) ++ [0] ++ le 2 w.id ++ le 4 lost) s
  | _, _ => s

/-- The item of a piece of work that comes next: a marked one first, then the next whose support is in the ring; with its last support sample's time. -/
def workReady (s : State) (w : Work) : Option (WorkItem × Time) :=
  match w.origin, srcView s w.ring w.srcPos with
  | some o, some (r, bs) =>
    let at_ := fun n => srcTime s r bs (o + n * w.hop + w.len - 1)
    if !w.redo.isEmpty then let n := w.redo.foldl min (w.redo.headD 0); some (⟨w.kind, w.id, n, true⟩, at_ n)
    else if !w.stopping && o + w.next * w.hop + w.len ≤ srcEnd s r bs then some (⟨w.kind, w.id, w.next, false⟩, at_ w.next)
    else none
  | _, _ => none

/-- The next item of a pack: recomputation first, then the oldest support. -/
def packReady (s : State) (p : Handle) : Option WorkItem :=
  let l := (worksOf s p).filterMap (workReady s)
  let pick := fun (l : List (WorkItem × Time)) => l.foldl (fun (b : Option (WorkItem × Time)) x => match b with
    | none => some x
    | some y => if x.2 < y.2 then some x else some y) none
  ((pick (l.filter fun x => x.1.redo)).orElse fun _ => pick l).map (·.1)

/-- The engine in the slot with the fewest items outstanding, the lowest among equals, with room (R173). -/
def packEngine (s : State) (p : Handle) : Option Nat :=
  ((inService s p).map fun h => idx h).foldl (fun (b : Option Nat) e =>
    if 2 ≤ (vget s.te e).items.length then b else
    match b with
    | none => some e
    | some f => if (vget s.te e).items.length < (vget s.te f).items.length then some e else some f) none

/-- An item leaves its work's list of items to issue, and its samples are read (R173, R176, R177). -/
def workTaken (i : WorkItem) (s : State) : State :=
  match i.kind with
  | .xform => xMod i.id (fun x => { x with
      issued := (x.issued.filter fun d => d.index != i.index) ++ [xCompute s x i.index i.redo]
      redo := if i.redo then x.redo.erase i.index else x.redo, next := if i.redo then x.next else x.next + 1 }) s
  | .chan => cMod i.id (fun c => { c with
      issued := (c.issued.filter fun d => d.index != i.index) ++ [cCompute s c i.index i.redo]
      redo := if i.redo then c.redo.erase i.index else c.redo, next := if i.redo then c.next else c.next + 1 }) s

/-- An item counts as complete (R173). -/
def workDone (i : WorkItem) (s : State) : State :=
  let own := fun (l : List DoneItem) => l.filter fun d => d.index == i.index
  let rest := fun (l : List DoneItem) => l.filter fun d => d.index != i.index
  match i.kind with
  | .xform => xMod i.id (fun x => if x.running then { x with issued := rest x.issued, completed := x.completed ++ own x.issued } else x) s
  | .chan => cMod i.id (fun c => if c.running then { c with issued := rest c.issued, completed := c.completed ++ own c.issued } else c) s

/-- The support of an item is still held in its source ring (R177). -/
def itemHeld (s : State) (i : WorkItem) : Bool :=
  match workNow s i.kind i.id with
  | none => false
  | some w => match w.origin, srcView s w.ring w.srcPos with
    | some o, some (r, bs) => srcHeld s r bs (o + i.index * w.hop) (o + i.index * w.hop + w.len)
    | _, _ => false

/-- ISSUE_WORK_ITEM (R173): outputs that can go go; grids begin, restart or skip; at the spectrum boundary spares are promoted (R176);
then the next item goes to its slot. An item marked for recomputation whose support is gone is not computed (R177). -/
def issueWork (p : Handle) (s : State) : State :=
  if s.power.state != .active then s else
  let s := (worksOf s p).foldl (fun s w => pump w.kind w.id s) s
  let s := (worksOf s p).foldl workBegin s
  let s := (worksOf s p).foldl workGap s
  let s := (worksOf s p).foldl (workLag p) s
  match packReady s p with
  | none => s
  | some i =>
    let s := (p :: ((s.packs.map (·.handle)).filter fun q => (ancestors s q).contains p)).foldl (fun s q => promote q s) s
    if i.redo && !itemHeld s i then packReinits (pump i.kind i.id (workDone i (workTaken i s))) else
    match packEngine s p with
    | none => s
    | some e => workTaken i (teMod e (fun t => { t with items := t.items ++ [i], handshake := if t.items.isEmpty then s.cyc else t.handshake }) s)

/-- WORK_ITEM_COMPLETE (R173): a handshake of the engine; completed items are taken in order. -/
def workComplete (e n : Nat) (s : State) : State :=
  match (vget s.te e).items[n]? with
  | none => s
  | some i =>
    let s := teMod e (fun t => { t with items := t.items.eraseIdx n, handshake := s.cyc }) s
    packReinits (pump i.kind i.id (workDone i s))

/-! ### Stops (R149, R185, R225) -/

/-- Nothing of a piece of work is left to finish. -/
def workEmpty (s : State) (k : WorkKind) (id next publish : Nat) (redo : List Nat) : Bool := publish == next && redo.isEmpty && !outstanding s k id

/-- Time of the next output that an analysis would write: on its grid, or now where that has not begun. -/
def xStopTime (s : State) (x : XformSt) : Time :=
  match srcView s (xSrc x.cfg) x.srcPos, x.origin with
  | some (r, bs), some o => xOutTime s x.cfg o r bs x.formed
  | _, _ => now s

def cStopTime (s : State) (c : ChanSt) : Time :=
  match srcView s c.ring c.srcPos, c.origin with
  | some (r, bs), some _ => cTime s c r bs c.publish
  | _, _ => now s

/-- An analysis that was asked to stop has written its last whole output, and the gap descriptors that are still due (R172, R185). -/
def stopXform (pack : Handle) (id : Nat) (s : State) : State :=
  let s := pump .xform id s
  match s.xforms.find? fun x => x.id == id && x.pack == pack && x.running with
  | none => s
  | some x => match x.stopping with
    | none => s
    | some c =>
      if !workEmpty s .xform id x.next x.publish x.redo || x.formed < x.publish / xM x.cfg then s else
      match xGaps id (xStopTime s x) s with
      | (s, false) => s
      | (s, true) => packWatch none (complete c 0x0704 OK [] (xMod id (fun x => { x with
          running := false, stopping := none, origin := none, group := [], groupFlags := 0, groupLost := none, skips := [], issued := [], completed := [] }) s))

/-- A channeliser that was asked to stop has written its last whole step, and the gap descriptors that are still due (R149, R172). A bundle
that was to be removed is gone (R145). -/
def stopChan (pack : Handle) (id : Nat) (s : State) : State :=
  let s := pump .chan id s
  match s.chans.find? fun c => c.id == id && c.pack == pack && c.running with
  | none => s
  | some c => match c.stopping with
    | none => s
    | some q =>
      if !workEmpty s .chan id c.next c.publish c.redo then s else
      match bundlesFlush id true s with
      | (s, false) => s
      | (s, true) => packWatch none (complete q 0x0605 OK [] (cMod id (fun c => { c with
          running := false, stopping := none, origin := none, skips := [], issued := [], completed := []
          bundles := (c.bundles.filter fun b => b.removeAt.isNone).map fun b => { b with addAt := none } }) (chanGaps c (cStopTime s c) s)))

/-- An envelope stream that was asked to stop has written its last whole word, and the gap descriptors that are still due (R214, R225). -/
def stopEnv (h : Handle) (id : Nat) (s : State) : State :=
  match s.events.envs.find? fun v => v.id == id && BitVec.ofNat 16 (0x0500 + v.engine.val) == h with
  | none => s
  | some v => match v.stopping with
    | none => s
    | some c =>
      let t := match ringOf s v.src with
        | some r => envTime s r (srcBlocks s r v.srcPos) (v.origin.getD 0 + v.next * v.k)
        | none => now s
      match envClose id s with
      | (s, false) => s
      | (s, true) => match envGaps ((s.events.envs.find? fun v => v.id == id).getD v) t s with
      | (s, false) => s
      | (s, true) => complete c 0x0904 OK [] { s with events := { s.events with envs := s.events.envs.filter fun v => v.id != id } }

def execIssueWorkItem (p : Handle) (s : State) : Host.Outcome State Fault Refusal := settle s (issueWork p s)
def execWorkItemComplete (e : Fin 72) (item : Fin 2) (s : State) : Host.Outcome State Fault Refusal := settle s (workComplete e item s)

end Sys2Proof.Machine
end

