-- ==== Sys2Proof/Machine/Admit.lean ====
section
/-! DEFINITION. Admission (R163 to R166, R205, R239, R297, R298), the commands it judges, and the rate lock (R167 to R170). -/
set_option Elab.async false
namespace Sys2Proof.Machine
open Sys2Proof

/-! ### Bandwidth of the store (R271, R297, R298) -/

/-- The rate state that admission counts with (R297). -/
def admitRate (s : State) : Nat := s.store.quietSaved.getD (rateState s)

/-- Usable bandwidth of a rate state, bytes a second (R271). -/
def usableOf (s : State) (r : Nat) : Nat := nStacks s.grade * (4 - r) * 163840000000

/-- Reservations, bytes a second (R297). -/
def storeReserved (s : State) : Frac :=
  fAdd (32000000000, 1) (fSum ((List.range (nInputs s.grade)).map fun i => (dieN s i * 10 ^ 8 * 34, 2 ^ 32 * 16)))

/-- A byte rate with 17/16 for headers (R298). -/
def withHeaders (r : Frac) : Frac := fMul r 17 16

/-- Outputs a second of an analysis (R155). -/
def xRate (s : State) (c : BitVec 256) : Frac := fMul (ringRate s (xSrc c)) 1 (max 1 (xHop c * xM c))

/-- Byte rate of an analysis's output without headers. -/
def xBytes (s : State) (c : BitVec 256) : Frac := fMul (xRate s c) (xCount c * (if xFmt c = 0 then 2 else 4)) 1

/-- Byte rate of a trigger tap (R298). -/
def tapBytes (s : State) (id : Nat) : Frac :=
  match s.xforms.find? fun x => x.id == id with
  | some x => fMul (ringRate s (xSrc x.cfg)) (xCount x.cfg * 2) (max 1 (xHop x.cfg))
  | none => (0, 1)

/-- Readers of the trigger tap of an analysis: armed MASK conditions, density arrays and occupancy units (R298). -/
def tapReaders (s : State) (id : Nat) : Nat :=
  (s.events.eng.toList.map fun e => (e.trig.toList.map fun g => if g.armed then
    ((List.range 4).filter fun j => let k := condDef (g.defn.getD []) j; condKind k = 2 && condSource k = id).length else 0).sum).sum +
  (s.dens.toList.map fun d => if fld d.cfg 7 0 = id then b2n d.running + b2n d.occRunning else 0).sum

/-- Byte rate of a bundle without headers (R351). -/
def bundleBytes (s : State) (c : ChanSt) (b : Bundle) : Frac := fMul (ringRate s c.ring) (stepBytes c b.count) (max 1 (cHop c))

/-- Byte rate of an envelope stream without headers (R213). -/
def envBytes (s : State) (src k : Nat) : Frac := fMul (ringRate s src) (if isRawRing s src then 8 else 4) (max 1 k)

/-- Byte rates of a density frame and of a raster, without headers (R239, R353). -/
def densBytes (d : DensSt) : Frac := (densCols d * densRows d * 2 * 1000000, densPeriod d)
def rasterBytes (d : DensSt) : Frac := (densCols d * densRows d * 4 * 1000000, densPeriod d)
def occBytes (s : State) (d : DensSt) : Frac := (occRowLen (densK s d) * 1000000, occPeriod d)

/-- The record of a channel as it will stand once a pending restart is done. -/
def ddcWill (s : State) (ch : Nat) : BitVec 288 := (vget s.ddc ch).cfgNext.getD (vget s.ddc ch).cfg

/-- Complex output rate of a channel's record, Hz. -/
def ddcHz (s : State) (ch : Nat) (c : BitVec 288) : Frac := (wideRate s (ddcSource ch c) * 10 ^ 8, 2 * max 1 (ddcDec c))

/-- Byte rate with headers at which a ring's producer writes (R298); 0 where the spec gives the producer no rate. -/
def producerBytes (s : State) (id : Nat) : Frac :=
  match ringInput s id, ringDdc s id with
  | some _, _ => ringBytes s id
  | _, some ch => if ddcRing (ddcWill s ch) == id then fMul (ddcHz s ch (ddcWill s ch)) 17 4 else (0, 1)
  | _, _ =>
    withHeaders (fSum (
      ((s.xforms.filter fun x => x.running && xOut x.cfg == id).map fun x => xBytes s x.cfg) ++
      ((s.chans.filter (·.running)).flatMap fun c => (c.bundles.filter fun b => b.ring == id).map (bundleBytes s c)) ++
      ((s.events.envs.filter fun v => v.out == id).map fun v => envBytes s v.src v.k) ++
      ((s.dens.toList.filter fun d => d.running && densRing d == id).map densBytes) ++
      ((s.dens.toList.filter fun d => d.occRunning && occRing d == id).map (occBytes s))))

/-- Demand of a reader of a ring through the store (R298). -/
def readerBytes (s : State) (id : Nat) : Frac :=
  match (ringOf s id).map fun r => regionOf s.grade r.base with
  | some .store => producerBytes s id
  | _ => (0, 1)

/-- Admitted demand of the whole device, bytes a second (R297, R298). -/
def storeAdmitted (s : State) : Frac :=
  fSum (
    ((s.xforms.filter (·.running)).map fun x =>
      fAdd (ringBytes s (xSrc x.cfg)) (fAdd (if xOut x.cfg < 0x90 then (0, 1) else withHeaders (xBytes s x.cfg))
        (let n := tapReaders s x.id; if n = 0 then (0, 1) else fMul (tapBytes s x.id) (n + 1) 1))) ++
    ((s.chans.filter (·.running)).map fun c =>
      fAdd (ringBytes s c.ring) (withHeaders (fSum (c.bundles.map (bundleBytes s c))))) ++
    ((List.range 128).map fun ch =>
      let c := ddcWill s ch
      if !bitAt c 0 then (0, 1) else
      fAdd (ringBytes s (captureRing s (ddcSource ch c))) (if ddcRing c < 0x90 then (0, 1) else fMul (ddcHz s ch c) 17 4)) ++
    (s.events.eng.toList.map fun e => fSum (e.trig.toList.map fun g => if !g.armed then (0, 1) else
      fSum ((List.range 4).map fun j => let k := condDef (g.defn.getD []) j; if condKind k = 1 then ringBytes s (condSource k) else (0, 1)))) ++
    (s.events.envs.map fun v => fAdd (ringBytes s v.src) (if v.out < 0x90 then (0, 1) else withHeaders (envBytes s v.src v.k))) ++
    (s.dens.toList.map fun d =>
      fAdd (if d.running then fAdd (if bitAt d.cfg 53 then rasterBytes d else (0, 1)) (if densRing d < 0x90 then (0, 1) else withHeaders (densBytes d)) else (0, 1))
        (if d.occRunning && 0x90 ≤ occRing d then withHeaders (occBytes s d) else (0, 1))) ++
    (s.streams.map fun t => readerBytes s t.ring) ++
    (s.vita.map fun v => readerBytes s (numAt v.2.defn 4 4 % 2 ^ 20)))

/-- MB/s rounded up. -/
def mbUp (f : Frac) : Nat := fCeil (fMul f 1 1000000)

/-- What is left of the usable bandwidth, MB/s. -/
def storeLeft (s : State) : Nat := fFloor (fMul (fSub (usableOf s (admitRate s), 1) (fAdd (storeReserved s) (storeAdmitted s))) 1 1000000)

/-- The store check of a start that takes `s` to `s'` (R297, R298, R165). -/
def storeCond (s s' : State) : Cond :=
  let add := fSub (storeAdmitted s') (storeAdmitted s)
  noRoom (add.1 != 0 && !fLe (fAdd (storeReserved s') (storeAdmitted s')) (usableOf s (admitRate s), 1)) (refusal 2 (mbUp add) (storeLeft s) 0)

/-! ### Down-conversion channels (R131, R138) -/

/-- A command changes a field of the first two rows of R131. -/
def ddcChanged (ch : Nat) (a b : BitVec 288) : Bool :=
  ddcN a != ddcN b || ddcR a != ddcR b || ddcPreset a != ddcPreset b || bitAt a 4 != bitAt b 4 || ddcSource ch a != ddcSource ch b ||
  (!bitAt b 4 && ddcRate a != ddcRate b)

/-- The state with a channel's record replaced. -/
def ddcWith (s : State) (ch : Nat) (w : BitVec 288) : State := ddcMod ch (fun c => { c with cfg := w, cfgNext := none }) s

/-- The DDC_CH record that a command carries (R137): reserved bits as 0, the ratio as target mode chooses it (R119). -/
def ddcArg (c : Cmd) (s : State) : BitVec 288 :=
  ddcResolve s (idx c.unit) (setFld (setFld (setFld (setFld (setFld (argW c 0 288) 31 14 0) 63 52 0) 127 104 0) 191 176 0) 255 240 0)

/-- Refusals of DDC.CONFIGURE and DDC.QUERY but BUSY (R138). -/
def ddcConds (ch : Nat) (h : Handle) (w : BitVec 288) (s : State) : List Cond :=
  let i := ddcSource ch w
  let on := bitAt w 0
  [badArg (ddcPreset w == 3 || 16 < fld w 9 5 || 12 < ddcGain w || !ddcRateOk s ch w ||
     !outRingOk s (ddcRing w) 5 h 1088),
   badState (pairedOut s i), badState (on && !bitAt (vget s.inputs i).cfg 0), badState (on && ddcRing w < 0x90),
   noRoom (on && !ddcCapOk s ch w) [], storeCond s (ddcWith s ch w), keptCond s [ddcRing w]]

/-- What DDC.CONFIGURE changes (R131): a restart is due, or the record stands at once, a new FREQ_WORD as a retune. -/
def ddcApply (ch : Nat) (w : BitVec 288) (s : State) : State :=
  let x := vget s.ddc ch
  let changed := ddcChanged ch x.cfg w
  let enabling := bitAt w 0 && !bitAt x.cfg 0
  if bitAt w 0 && (enabling || changed) then
    ddcMod ch (fun x => { x with cfgNext := some w, restart := some (ddcSoon s (ddcSource ch w) (enabling && x.synced && !changed)) }) s
  else ddcMod ch (fun x => { x with
    cfg := w, synced := x.synced && !changed
    retune := if fld w 239 192 = fld x.cfg 239 192 then x.retune else some ⟨BitVec.ofNat 48 (fld w 239 192), none, false, now s⟩ }) s

/-- DDC.CONFIGURE (R131, R138). -/
def vDdcConfigure : Verb where
  op := 0x0501
  fits := fun s h => isA s .ddc h
  checks := fun c s =>
    let x := vget s.ddc (idx c.unit)
    let w := ddcArg c s
    ddcConds (idx c.unit) c.unit w s ++ [busy x.restart.isSome, busy (x.retune.isSome && fld w 239 192 != fld x.cfg 239 192)]
  act := fun c s =>
    let s' := ddcApply (idx c.unit) (ddcArg c s) s
    okWith s' (ddcRecord s' (idx c.unit) (ddcArg c s))

/-- DDC.QUERY (R138): the record as if applied; nothing changes. -/
def vDdcQuery : Verb where
  op := 0x0506
  fits := fun s h => isA s .ddc h
  checks := fun c s => ddcConds (idx c.unit) c.unit (ddcArg c s) s
  act := fun c s => okWith s (ddcRecord (ddcApply (idx c.unit) (ddcArg c s) s) (idx c.unit) (ddcArg c s))

/-! ### V_FAB and the starts of pack work (R163 to R169) -/

/-- The level that the device's model predicts for all admitted work plus 15 %, within 0.60 to 0.85 V (R168, R169). -/
def vFabFor (s : State) : Nat := max 6000 (min 8500 (Config.vFab (fCeil (fMul (fSum ((admitted s).map (·.2))) 115 100000000))))

/-- A start is accepted: its answer follows once V_FAB has risen; at once where it stands or in QUIET (R169). The packs that it loads report
their state (R47). -/
def startDone (c : Cmd) (op : Nat) (s : State) : State × Option (Nat × Bytes) :=
  let s := packWatch none s
  if s.power.state != .active || vFabFor s ≤ s.fab.vfab then ok s
  else later { s with fab := { s.fab with waits := s.fab.waits ++ [⟨c, BitVec.ofNat 16 op, vFabFor s⟩] } }

/-- V_FAB_RAISE_DONE (R169). -/
def vFabDone (s : State) : State :=
  match s.fab.waits with
  | [] => s
  | w :: ws =>
    if s.power.state != .active then s else
    complete w.cmd w.opcode.toNat OK [] { s with fab := { s.fab with vfab := max s.fab.vfab w.level, waits := ws } }

/-- In QUIET V_FAB is 0.60 V, and no start waits for it (R169; DEDUCED log 70). -/
def fabQuiet (s : State) : State :=
  s.fab.waits.foldl (fun s w => complete w.cmd w.opcode.toNat OK [] s) { s with fab := { s.fab with vfab := 6000, waits := [] } }

/-- The state with an analysis running; a START_TIME of zero asks for the next block to begin (R185; DEDUCED log 42). -/
def xRunning (id : Nat) (t : Time) (s : State) : State :=
  let c := ((s.xforms.find? fun x => x.id == id).map (·.cfg)).getD 0
  xMod id (fun x => { x with
    running := true, startTime := if t = 0 then now s else t, origin := none, srcPos := if t = 0 then ((ringOf s (xSrc c)).map (·.producer)).getD 0 else 0
    formed := 0, next := 0, publish := 0, issued := [], completed := [], redo := [], skips := [], group := [], groupFlags := 0, groupLost := none, gaps := [], tap := [] }) s

/-- XFORM.START (R154, R163 to R169, R185). -/
def vXformStart : Verb where
  op := 0x0703
  whole := true
  fits := fun s h => isA s .pack h
  checks := fun c s =>
    match xArg c s with
    | none => [badArg true]
    | some x =>
      [badArg (argT c 4).isNone, badState x.running, badState (xWin x.cfg == 6 && x.window.isNone), badState (!sourceOn s (xSrc x.cfg)),
       engineCond s x.pack (xDemand s x.cfg), storeCond s (xRunning x.id 0 s)]
  act := fun c s => startDone c 0x0703 (xRunning (argN c 0 2) ((argT c 4).getD 0) s)

/-- XFORM.QUERY (R185): nothing changes. -/
def vXformQuery : Verb where
  op := 0x0706
  whole := true
  fits := fun s h => isA s .pack h
  checks := fun c s =>
    let w := xCfgArg c
    [badArg (xBad s c.unit w), xCountCond s c.unit w, keptCond s [xSrc w, xOut w]]
  act := fun c s =>
    let w := xCfgArg c
    let id := lowFree 256 (s.xforms.map (·.id))
    let d := xDemand s w
    let s' := { s with xforms := s.xforms ++ [{ id := id, pack := c.unit, cfg := w, running := true }] }
    let verdict := if !engineAdmits s c.unit d then 1 else if (storeCond s s').1 then 2 else 0
    okWith s (le 2 id ++ le 2 0 ++ le 4 (mUp d) ++ le 4 (xEnbw w none) ++ le 4 (xLatency w) ++
      le 4 (fFloor (fMul (packAvailable s c.unit) 1 1000000)) ++ le 1 verdict)

/-- The state with a channeliser running. -/
def cRunning (id : Nat) (t : Time) (s : State) : State :=
  let ring := ((s.chans.find? fun c => c.id == id).map (·.ring)).getD 0
  cMod id (fun x => { x with
    running := true, startTime := if t = 0 then now s else t, origin := none, srcPos := if t = 0 then ((ringOf s ring).map (·.producer)).getD 0 else 0
    next := 0, publish := 0, issued := [], completed := [], redo := [], skips := [], gaps := [], bundles := x.bundles.map fun b => { b with addAt := none, steps := [] } }) s

/-- CHAN.START (R144, R147, R149, R169). -/
def vChanStart : Verb where
  op := 0x0604
  whole := true
  fits := fun s h => isA s .pack h
  checks := fun c s =>
    match cArg c s with
    | none => [badArg true]
    | some x =>
      [badArg (argT c 4).isNone, badState x.running, badState x.bundles.isEmpty, badState (!sourceOn s x.ring),
       engineCond s x.pack (chDemand s x), storeCond s (cRunning x.id 0 s)]
  act := fun c s => startDone c 0x0604 (cRunning (argN c 0 2) ((argT c 4).getD 0) s)

/-! ### Event engines (R204, R205, R213, R224, R225) -/

/-- The demand with an item added fits L × 64 G/s (R205). -/
def engCond (s : State) (e : Nat) (add : Frac) : Cond :=
  let cap := 64000000 * admitL s
  let have_ := engDemand s e
  noRoom (!fLe (fAdd have_ add) (cap, 1)) (refusal 1 (mUp add) (fFloor (fMul (fSub (cap, 1) have_) 1 1000000)) (admitL s))

/-- The source of a condition runs (R224). -/
def condRuns (s : State) (k : Bytes) : Bool :=
  let d := vget s.dens (condSource k - 0x0600)
  match condKind k with
  | 1 => sourceRuns s (condSource k)
  | 2 => s.xforms.any fun x => x.id == condSource k && x.running
  | 3 => d.running
  | 4 => d.occRunning
  | 5 => bitAt (ddcWill s (condSource k - 0x0300)) 0
  | _ => true

/-- A mask that a definition uses is not loaded. -/
def maskMissing (s : State) (e : Nat) (d : Bytes) : Bool := (List.range 32).any fun m => usesMask d m && (vget (vget s.events.eng e).masks m).isEmpty

/-- TRIG.ARM (R205, R224). -/
def vTrigArm : Verb where
  op := 0x0803
  fits := fun s h => isA s .eng h
  checks := fun c s =>
    let e := idx c.unit
    let t := argN c 0 1
    let s0 := trigMod e t (fun g => { g with armed := false }) s
    let d := ((trigArg c s).defn).getD []
    [trigNo c, badState (trigArg c s).defn.isNone, badState (!(List.range 4).all fun j => condRuns s (condDef d j)), badState (maskMissing s e d),
     engCond s0 e (defDemand s d), storeCond s0 (trigMod e t (fun g => { g with armed := true }) s)]
  act := fun c s => ok (trigMod (idx c.unit) (argN c 0 1) (fun g => { trigFresh s g with armed := true }) s)

/-- An envelope stream as REC.ENVELOPE gives it. -/
def envOfArgs (c : Cmd) (s : State) : EnvSt :=
  { id := lowFree 64 (s.events.envs.map (·.id)), engine := Fin.ofNat 16 (idx c.unit), src := argN c 0 4, k := argN c 4 4, out := argN c 8 4,
    startTime := if argT0 c 12 then now s else (argT c 12).getD 0 }

/-- The state with an envelope stream added. -/
def envWith (v : EnvSt) (s : State) : State := { s with events := { s.events with envs := s.events.envs ++ [v] } }

/-- REC.ENVELOPE (R205, R213, R225, R614). -/
def vRecEnvelope : Verb where
  op := 0x0903
  fits := fun s h => isA s .eng h
  checks := fun c s =>
    let v := envOfArgs c s
    [badArg (v.k < 2 || 65536 < v.k || !sampleRing s v.src || v.out < 0x90 || !outRingOk s v.out 8 c.unit 8256 || (argT c 12).isNone),
     engCond s (idx c.unit) (envDemand s v.src), noRoom (64 ≤ s.events.envs.length) [], storeCond s (envWith v s), keptCond s [v.src, v.out]]
  act := fun c s => let v := envOfArgs c s; okWith (envWith v s) (le 1 v.id)

/-! ### Density and occupancy (R231, R239, R241, R267) -/

/-- DENS.START (R231, R237, R239, R267). -/
def vDensStart : Verb where
  op := 0x0B03
  fits := fun s h => isA s .dens h
  checks := fun c s =>
    let i := idx c.unit
    let d := vget s.dens i
    let cap := 48000000 * admitL s
    [badState (!(densBanks d).all (densOwns s i)), badState (!densSourceRuns s d),
     noRoom (!fLe (densDemand s d) (cap, 1)) (refusal 1 (mUp (densDemand s d)) (cap / 1000000) (admitL s)),
     storeCond s (densMod i (fun d => { d with running := true }) s)]
  act := fun c s =>
    let i := idx c.unit
    let d := vget s.dens i
    let s := if d.running then s else densMod i (fun d => { d with
      running := true, fault := false, frameStart := nextBoundary s (densPeriod d), latest := none, spectra := 0, flags := 0, satRaised := false
      next := [], stepped := false }) s
    okWith s (le 4 0 ++ le 4 (mUp (densDemand s d)))

/-- OCC.START (R241, R242, R244, R267). -/
def vOccStart : Verb where
  op := 0x0C03
  fits := fun s h => isA s .dens h
  checks := fun c s =>
    let i := idx c.unit
    let d := vget s.dens i
    [badState (!densSourceRuns s d), badState (!densOwns s i (occBank d)), storeCond s (densMod i (fun d => { d with occRunning := true }) s)]
  act := fun c s =>
    let i := idx c.unit
    let d := vget s.dens i
    if d.occRunning then ok s else
    let s := scratchWrite 2 (occRowAddr d 0) (List.replicate 0x2000 0xFF) s
    ok (densMod i (fun d => { d with
      occRunning := true, fault := false, slotStart := nextBoundary s (occPeriod d), row := 0, slotSpectra := 0, slotFlags := 0, occNext := [], occStepped := false
      chans := d.chans.map fun (n, k) => (n, { k with slots := [] }) }) s)

/-! ### The rate lock (R167 to R170) and the pool's self-tests (R180) -/

/-- Units that report a headroom: packs that hold admitted work and event engines with admitted work, with their loads (R167, R205). -/
def reporters (s : State) : List (Handle × Frac) :=
  ((s.packs.filter fun p => packHolds s p.handle).map fun p => (p.handle, packLoad s p.handle)) ++
  ((List.range 16).map fun e => (BitVec.ofNat 16 (0x0500 + e), engDemand s e)).filter fun u => u.2.1 != 0

/-- A token rate in M/s is below, or above, pct % of a load. -/
def rateBelow (pct rate : Nat) (load : Frac) : Bool := rate * 100000000 * load.2 < pct * load.1
def rateAbove (pct rate : Nat) (load : Frac) : Bool := pct * load.1 < rate * 100000000 * load.2

/-- GAP_RISK of one unit (R170). -/
def gapRisk (s : State) (u : Handle × Frac × Nat) : State :=
  let e := u.1.toNat - 0x0500
  let pack := 0x8000 ≤ u.1.toNat
  let old := if pack then (packOf s u.1).any (·.gapRisk) else (vget s.events.eng e).gapRisk
  let set := fun (b : Bool) (s : State) => if pack then packMod u.1 (fun p => { p with gapRisk := b }) s else engMod e (fun g => { g with gapRisk := b }) s
  let hd := le 2 (unsgn 16 (clampI (-32768) 32767 (headroom u.2.2 u.2.1))) ++ le 2 (s.fab.vfab / 10)
  if !old && rateBelow 105 u.2.2 u.2.1 && s.fab.vfab == 8500 then raise 0x6C 1 u.1.toNat hd (set true s)
  else if old && !rateBelow 110 u.2.2 u.2.1 then raise 0x6C 2 u.1.toNat hd (set false s)
  else s

/-- RATE_LOCK_UPDATE (R167, R168, R170), with the token rates that units report. -/
def rateLock (rates : List (Handle × Nat)) (s : State) : State :=
  if s.power.state != .active then s else
  let us := (reporters s).filterMap fun u => (rates.find? fun r => r.1 == u.1).map fun r => (u.1, u.2, r.2)
  let s := us.foldl (fun s u => if 0x8000 ≤ u.1.toNat then packMod u.1 (fun p => { p with tokenRate := u.2.2 }) s
    else engMod (u.1.toNat - 0x0500) (fun g => { g with tokenRate := u.2.2 }) s) s
  let s := us.foldl gapRisk s
  let v := s.fab.vfab
  let high := !us.isEmpty && us.all fun u => rateAbove 125 u.2.2 u.2.1
  let n := if high then s.fab.above + 1 else 0
  if (reporters s).isEmpty then { s with fab := { s.fab with vfab := max 6000 (v - 25), above := 0 } }
  else if us.any (fun u => rateBelow 115 u.2.2 u.2.1) && v < 8500 then { s with fab := { s.fab with vfab := min 8500 (v + 25), above := 0 } }
  else if 50 ≤ n && 6000 < v then { s with fab := { s.fab with vfab := max 6000 (v - 25), above := n } }
  else { s with fab := { s.fab with above := n } }

/-- POOL_SELFTEST_TIMER (R180): the next member of the idle pool, every 10 s. -/
def poolTimer (s : State) : State :=
  if since s s.fab.poolTest.1 < 10 * secC || !isReady s || !isIdle s 0x80FF then s else
  match packOf s 0x80FF with
  | none => s
  | some p =>
    let full := p.slots.zipIdx.filterMap fun (x, i) => x.member.map fun m => (i, m)
    match (full.find? fun f => s.fab.poolTest.2 ≤ f.1).orElse fun _ => full.head? with
    | none => { s with fab := { s.fab with poolTest := (s.cyc, 0) } }
    | some (i, m) => teMod (idx m) (fun t => { t with selftest := some (t.selftest.getD none) }) { s with fab := { s.fab with poolTest := (s.cyc, i + 1) } }

def execDdcConfigure (c : Cmd) (s : State) : Host.Outcome State Fault Refusal := settle s (runVerb vDdcConfigure c s)
def execDdcQuery (c : Cmd) (s : State) : Host.Outcome State Fault Refusal := settle s (runVerb vDdcQuery c s)
def execXformStart (c : Cmd) (s : State) : Host.Outcome State Fault Refusal := settle s (runVerb vXformStart c s)
def execXformQuery (c : Cmd) (s : State) : Host.Outcome State Fault Refusal := settle s (runVerb vXformQuery c s)
def execChanStart (c : Cmd) (s : State) : Host.Outcome State Fault Refusal := settle s (runVerb vChanStart c s)
def execTrigArm (c : Cmd) (s : State) : Host.Outcome State Fault Refusal := settle s (runVerb vTrigArm c s)
def execRecEnvelope (c : Cmd) (s : State) : Host.Outcome State Fault Refusal := settle s (runVerb vRecEnvelope c s)
def execDensStart (c : Cmd) (s : State) : Host.Outcome State Fault Refusal := settle s (runVerb vDensStart c s)
def execOccStart (c : Cmd) (s : State) : Host.Outcome State Fault Refusal := settle s (runVerb vOccStart c s)
def execVFabRaiseDone (s : State) : Host.Outcome State Fault Refusal := settle s (vFabDone s)
def execRateLockUpdate (rates : List (Handle × Nat)) (s : State) : Host.Outcome State Fault Refusal := settle s (rateLock rates s)
def execPoolSelftestTimer (s : State) : Host.Outcome State Fault Refusal := settle s (poolTimer s)

end Sys2Proof.Machine
end

