-- ==== Sys2Proof/Machine/RingVerbs.lean ====
section
/-! DEFINITION. RING and STREAM verbs, RING_PUBLISH and stream-out (R336 to R346, R358 to R364). -/
set_option Elab.async false
namespace Sys2Proof.Machine
open Sys2Proof

/-! ### What names a ring -/

/-- A configuration names a ring as the output of its owner (R363). -/
def ringOutput (s : State) (id : Nat) : Bool :=
  (List.range 8).any (fun i => captureRing s i == id) || (List.range 128).any (fun ch => ddcRing (ddcWill s ch) == id) ||
  s.xforms.any (fun x => xOut x.cfg == id) || s.chans.any (fun c => c.bundles.any (·.ring == id)) || s.events.envs.any (·.out == id) ||
  s.events.eng.toList.any (fun e => e.trig.toList.any fun g => g.defn.any fun d => numAt d 40 4 == id || numAt d 44 4 == id) ||
  s.events.eng.toList.any (fun e => e.jobs.any fun j => j.2.2.2.1 == id) || s.events.policies.any (fun p => p.copy && p.copyRing == id) ||
  s.dens.toList.any (fun d => densRing d == id || occRing d == id) || s.tdc.ch.toList.any (fun t => fld t.cfg 59 40 == id) || fld s.hk.cfg 51 32 == id

/-- A configuration names a ring as a source (R363). -/
def ringSource (s : State) (id : Nat) : Bool :=
  s.xforms.any (fun x => xSrc x.cfg == id) || s.chans.any (·.ring == id) || s.events.envs.any (·.src == id) || s.events.policies.any (fun p => p.copy && p.ring == id) ||
  s.events.eng.toList.any (fun e => e.trig.toList.any fun g => g.defn.any fun d => (List.range 4).any fun j =>
    spanRing d j == id || (condKind (condDef d j) = 1 && condSource (condDef d j) = id)) ||
  s.vita.any fun v => numAt v.2.defn 4 4 % 2 ^ 20 == id

/-- OWNER against TYPE (R341). -/
def ownerFits (s : State) (type : Nat) (h : Handle) : Bool :=
  match type with
  | 1 => h == 0xFFFF
  | 2 => h == 0x0010
  | 3 | 12 => h == 0x0B00
  | 4 => isA s .input h
  | 5 => isA s .ddc h
  | 6 | 7 => isA s .pack h
  | 8 | 11 | 13 => isA s .eng h
  | 9 | 10 => isA s .dens h
  | 14 => h == 0x1020
  | 15 => isA s .tdc h
  | _ => false

/-- Where a ring of a type may lie (R341), with a bank in the ring manager's ownership. -/
def placeFits (s : State) (type base size : Nat) : Bool :=
  match regionOf s.grade base with
  | .store => inOneRow s.grade base size && base + size ≤ mbxBase s.grade
  | .bank b 0 p => [1, 2, 3, 11, 13].contains type && p % 0x400000 + size ≤ 0x400000 && (vget s.banks b).owner == 0x0B00
  | .host _ off => [1, 2, 3, 11, 13, 14, 15].contains type && off + size ≤ 0x2000000000
  | _ => false

/-- Regions of two rings share a byte. -/
def ringsOverlap (base size : Nat) (r : RingCtx) : Bool := base < r.base + ringSize r && r.base < base + size

/-- Largest fixed entry of a type (R341, R614). -/
def fixedEntry (type : Nat) : Nat := if type = 3 then 32 else if type = 13 then 128 else 64

/-- RING.CREATE (R337, R341, R363). -/
def vRingCreate : Verb where
  op := 0x1101
  fits := fun s h => isA s .ringMgr h
  checks := fun c s =>
    let id := argN c 0 4
    let size := 2 ^ argN c 10 1
    let base := argN c 4 6
    [badArg (id < 0x90 || 0xFFFFF < id || argN c 10 1 < 12 || 36 < argN c 10 1 || base % 4096 != 0 || 2 < argN c 14 1 || !ownerFits s (argN c 11 1) (argW c 12 16) ||
       !placeFits s (argN c 11 1) base size || s.rings.any (ringsOverlap base size)),
     badState (0x90 ≤ id && (ringOf s id).isSome)]
  act := fun c s =>
    let r : RingCtx := { id := argN c 0 4, base := argN c 4 6, log2 := argN c 10 1, type := argN c 11 1, owner := argW c 12 16, policy := argN c 14 1, watermark := argN c 16 2 }
    ok { s with rings := s.rings.takeWhile (·.id < r.id) ++ [r] ++ s.rings.dropWhile (·.id < r.id) }

/-- RING.DELETE (R363). -/
def vRingDelete : Verb where
  op := 0x1102
  fits := fun s h => isA s .ringMgr h
  checks := fun c s =>
    let id := argN c 0 4
    [badArg (ringOf s id).isNone, badState (id < 0x90), badState (ringOutput s id || ringSource s id), badState (s.streams.any (·.ring == id)),
     badState (s.events.pins.any fun p => p.ring == id && pinHolds p)]
  act := fun c s => ok { s with rings := s.rings.filter (·.id != argN c 0 4) }

/-- RING.MODIFY (R345, R362, R363). -/
def vRingModify : Verb where
  op := 0x1103
  fits := fun s h => isA s .ringMgr h
  checks := fun c s =>
    match ringOf s (argN c 0 4) with
    | none => [badArg true]
    | some r =>
      let keep := argN c 8 2 == 0xFFFE
      [badArg (2 < argN c 4 1 || (!keep && !ownerFits s r.type (argW c 8 16))), badState (!keep && argW c 8 16 != r.owner && ringOutput s r.id),
       badState (argBit c 10 0 && !r.stopped), badState r.kept]
  act := fun c s =>
    match ringOf s (argN c 0 4) with
    | none => ok s
    | some r =>
      let r := { r with policy := argN c 4 1, watermark := argN c 6 2, owner := if argN c 8 2 = 0xFFFE then r.owner else argW c 8 16 }
      if argBit c 10 0 then ok (ringSet (ringFreed s { r with stopped := false, consumer := r.producer }) s) else ok (ringSet r s)

/-- RING.CONSUME (R346, R363); held responses go into the room that it makes (R343). -/
def vRingConsume : Verb where
  op := 0x1104
  fits := fun s h => isA s .ringMgr h
  checks := fun c s =>
    match ringOf s (argN c 0 4) with
    | none => [badArg true]
    | some r => [badArg (argN c 8 8 % 32 != 0 || argN c 8 8 < r.consumer || r.producer < argN c 8 8), badState (r.reader != 0xFFFF)]
  act := fun c s =>
    let id := argN c 0 4
    let s := ringConsumeTo id (argN c 8 8) s
    ok (if 0x40 ≤ id && id < 0x80 then rspFlush (id - 0x40) 64 s else s)

/-- RING.STATUS (R340, R363). -/
def vRingStatus : Verb where
  op := 0x1105
  fits := fun s h => isA s .ringMgr h
  checks := fun c s => [badArg ((ringOf s (argN c 0 4)).isNone || (argN c 8 6 != 0 && !spanOk s (argN c 8 6) 64))]
  act := fun c s =>
    match ringOf s (argN c 0 4) with
    | none => ok s
    | some r =>
      let x := ctxBytes r
      okWith (if argN c 8 6 = 0 then s else destWrite (argN c 8 6) x s) (le 8 r.producer ++ le 8 r.consumer ++ le 8 (heldStart r) ++ [x.getD 29 0] ++ le 1 r.policy ++ le 1 r.type)

/-! ### RING_PUBLISH (R339) -/

/-- Entry kind, time and index of offered bytes in a ring of a type (R347). -/
def entryOf (s : State) (type : Nat) (b : Bytes) : Ent :=
  let kind := if isFrame type then numAt b 0 1 else if type = 11 then 0x11 else if type = 13 then 0x12 else if type = 3 then 0x13 else 0
  let t := (timeOf (numAt b (if kind = 0x13 then 4 else 16) 12)).getD (now s)
  ⟨b, kind, t, if kind = 0x10 then numAt b 40 8 else if kind = 0x11 || kind = 0x12 then numAt b 0 4 else if isFrame type then numAt b 8 8 else 0⟩

/-- Bytes form an entry of a ring of a type (R338, R341). -/
def entryFits (type : Nat) (b : Bytes) : Bool :=
  type != 1 && !b.isEmpty && (if isFrame type then b.length % 64 == 0 && [1, 2, 3, 4, 5, 6, 7, 8, 9, 0x10].contains (numAt b 0 1) else b.length == fixedEntry type)

/-- A channel whose output ring is full lags as R171 states (R343): outputs are abandoned and a FABRIC_LAG gap descriptor becomes due. -/
def ddcLag (ch : Nat) (s : State) : State :=
  let c := vget s.ddc ch
  match ddcSrcRing s c ch with
  | none => s
  | some r =>
    let bs := srcBlocks s r c.srcPos
    let limit := lagLimit s r.id * 65536 / max 1 ((bs.head?.map (srcPeriod s r)).getD 1)
    let stop := srcEnd s r bs
    if !ddcRuns s ch || stop ≤ ddcHi ch c c.nextM + limit then s else
    let k := ceilDiv (ddcAfter ch c (stop - limit / 2) - c.nextM) 256
    if k = 0 then s else
    let g : PendGap := ⟨8, ddcTime ch c c.nextM, 0, c.nextM, ddcPeriod c⟩
    ddcMod ch (fun c => { c with nextM := c.nextM + 256 * k, gaps := gapAdd g c.gaps }) s

/-- An envelope stream whose ring is full lags in the same way. -/
def envLag (id : Nat) (s : State) : State :=
  match (s.events.envs.find? fun v => v.id == id).bind fun v => (ringOf s v.src).map fun r => (v, r) with
  | none => s
  | some (v, r) =>
    let bs := srcBlocks s r v.srcPos
    let per := max 1 ((bs.head?.map fun b => blkPeriod s r b.ent).getD 1)
    let limit := lagLimit s r.id * 65536 / per
    let stop := match bs.getLast? with | some b => envFirst b + envLen b | none => 0
    let a := v.origin.getD 0 + v.next * v.k
    if v.origin.isNone || v.words.length < 2048 || stop ≤ a + limit then s else
    let k := ceilDiv (stop - limit / 2 - a) v.k
    let g : PendGap := ⟨8, v.first.2.1, 0, v.first.1, v.k * per⟩
    envMod id (fun v => { v with next := v.next + k, words := [], flags := 0, gaps := gapAdd g v.gaps }) s

/-- A producer offers what it has (R339): an entry as laid out, the next block of a channel, or the next interval of an envelope stream. -/
def ringPublish (id : Nat) (o : Offer) (s : State) : State :=
  match o with
  | .entry b =>
    (match ringOf s id with
     | none => s
     | some r => if !entryFits r.type b then s else (publish ([5, 6, 7, 8].contains r.type) id (entryOf s r.type b) s).1)
  | .narrowband h => if isA s .ddc h && (ddcRing (vget s.ddc (idx h)).cfg == id || id < 0x90) then ddcNext (idx h) (ddcLag (idx h) s) else s
  | .envelope e =>
    if s.events.envs.any fun v => v.id == e.val && v.out == id then
      (let s := if s.events.envs.any (fun v => v.id == e.val && 2048 ≤ v.words.length) then envLag e (envClose e s).1 else s
       if s.events.envs.any (fun v => v.id == e.val && 2048 ≤ v.words.length) then s else envNext e s)
    else s

/-! ### Streams (R358 to R361) -/

/-- Change the stream of a ring. -/
def streamMod (id : Nat) (f : StreamSt → StreamSt) (s : State) : State := { s with streams := lmod (·.ring == id) f s.streams }

/-- A stream packet (R358). -/
def packetBytes (type flags ring seq : Nat) (t : Time) (pos : Nat) (payload : Bytes) : Bytes :=
  le 1 type ++ le 1 flags ++ le 3 ring ++ [0] ++ le 2 payload.length ++ le 4 seq ++ timeB t ++ le 8 pos ++ payload

/-- A packet leaves on the stream's bond and channel (R359, R485). -/
def packetSend (st : StreamSt) (p : StreamPkt) (s : State) : State :=
  linkSend st.bond { ttype := 6, vc := 2 + st.vc, data := p.bytes, stream := some (p.seq, st.ring) } s

/-- A new packet of a stream: it goes out and waits for its acknowledgement. -/
def packetNew (st : StreamSt) (type flags : Nat) (t : Time) (pos len next inEntry : Nat) (payload : Bytes) (s : State) : State :=
  let p : StreamPkt := ⟨st.seq, pos, len, packetBytes type (flags + if st.restart then 8 else 0) st.ring st.seq t pos payload⟩
  packetSend st p (streamMod st.ring (fun x => { x with
    seq := wrapAdd 32 x.seq 1, sendPos := next, inEntry := inEntry, restart := false, unacked := x.unacked ++ [p], packets := x.packets + 1, payload := x.payload + payload.length }) s)

/-- A stream gap packet (R277, R359). -/
def packetGap (st : StreamSt) (r : RingCtx) (cause lost : Nat) (t stop : Time) (first next : Nat) (s : State) : State :=
  let g := gapBytes s r.owner.toNat cause 3 lost t stop first st.sendPos true
  let s := packetNew st 0x10 7 t st.sendPos 0 next 0 g s
  raise 0xD4 0 0x0B00 (le 4 st.ring ++ le 4 lost) (streamMod st.ring (fun x => { x with lostFirst := none, gaps := wrapAdd 32 x.gaps 1 }) s)

/-- Whole entries that fit one packet, from the first. -/
def wholeRun (max : Nat) : List EntryAt → List EntryAt
  | [] => []
  | e :: es => if e.len ≤ max then e :: wholeRun (max - e.len) es else []

/-- The next packet of a stream is formed (R359): the loss that the producer caused first, then entries from the send position. -/
def streamForm (st : StreamSt) (r : RingCtx) (s : State) : State :=
  let ahead := r.entries.filter fun e => st.sendPos < e.pos + e.len
  if st.stopping.isSome && st.inEntry = 0 then s else
  match st.lostFirst with
  | some (t, idx, n) =>
    (match r.entries.find? fun e => r.consumer ≤ e.pos with
     | none => s
     | some e => packetGap st r 14 n t e.time idx e.pos s)
  | none =>
    match ahead with
    | [] => s
    | e :: es =>
      let off := st.sendPos - e.pos
      let mid := off != 0 && st.inEntry == 0
      let run := if off = 0 then wholeRun st.maxPayload (e :: es) else []
      let len := if run.isEmpty then min st.maxPayload (e.len - off) else (run.map (·.len)).sum
      let used := if run.isEmpty then [e] else run
      if used.any (entryBad s r) then
        (match r.entries.find? fun x => used.all fun u => u.pos < x.pos with
         | none => s
         | some x => packetGap st r 12 used.length e.time x.time e.index x.pos s)
      else
        let data := ringRead s r st.sendPos len
        let last := off + len == e.len
        if mid then
          (let d := draw s
           packetNew st (d.1 % 256) (d.1 / 256 % 256) ((timeOf (d.1 / 65536 % 2 ^ 96)).getD 0) st.sendPos len (st.sendPos + len) 0 data d.2)
        else if run.isEmpty then
          packetNew st e.kind ((if off = 0 then 1 else 0) + if last then 2 else 0) e.time st.sendPos len (st.sendPos + len) (if last then 0 else off + len) data s
        else packetNew st e.kind 3 e.time st.sendPos len (st.sendPos + len) 0 data s

/-- STREAM_SEND_PACKET (R359, R360, R362): a packet to send again first. -/
def streamSend (id : Nat) (s : State) : State :=
  match (s.streams.find? fun x => x.ring == id).bind fun st => (ringOf s id).map fun r => (st, r) with
  | none => s
  | some (st, r) =>
    if !bondUp s st.bond || (s.power.state != .active && regionOf s.grade r.base == .store) then s else
    match st.resend with
    | p :: ps =>
      let p := { p with bytes := p.bytes.set 1 ((p.bytes.getD 1 0) ||| 0x10) }
      packetSend st p (streamMod id (fun x => { x with resend := ps, unacked := x.unacked ++ [p], packets := x.packets + 1, payload := x.payload + (p.bytes.length - 32), resent := wrapAdd 32 x.resent 1 }) s)
    | [] => streamForm st r s

/-- A stream that was asked to stop ends once nothing waits for an acknowledgement and no entry is half sent (R361). -/
def streamEnd (id : Nat) (s : State) : State :=
  match s.streams.find? fun x => x.ring == id with
  | none => s
  | some st => match st.stopping with
    | none => s
    | some c =>
      if !st.unacked.isEmpty || !st.resend.isEmpty || st.inEntry != 0 then s else
      let s := { s with streams := s.streams.filter fun x => x.ring != id }
      let s := match ringOf s id with | some r => ringSet { r with reader := 0xFFFF } s | none => s
      complete c 0x1202 OK [] s

/-- The bond's link layer has acknowledged a packet (R359): CONSUMER advances over whole acknowledged entries. -/
def streamAck (seq id : Nat) (s : State) : State :=
  let s := streamMod id (fun x => { x with unacked := x.unacked.filter fun p => p.seq != seq }) s
  match (s.streams.find? fun x => x.ring == id).bind fun st => (ringOf s id).map fun r => (st, r) with
  | none => s
  | some (st, r) =>
    let low := (((st.unacked ++ st.resend).filter (·.len != 0)).head?.map (·.pos)).getD st.sendPos
    let upto := (r.entries.filter fun e => e.pos + e.len ≤ low).getLast?.map fun e => e.pos + e.len
    streamEnd id (ringSet (ringFreed s { r with consumer := max r.consumer (upto.getD r.consumer) }) s)

/-- Streams of a bond that has left service (R360). -/
def streamReset (b : Nat) (s : State) : State :=
  { s with streams := s.streams.map fun x => if x.bond.val = b then { x with resend := x.unacked ++ x.resend, unacked := [] } else x }

/-- Lane payload of a rate, Gb/s (R469). -/
def lanePayload (r : Nat) : Nat := [1, 10, 25, 50].getD r 0

/-- Lanes of a bond in use: W (R503). -/
def bondWidth (b : BondSt) : Nat := ((List.range 16).filter fun i => bitAt b.mask i).length

/-- Capacity of a bond, bytes a second (R499). -/
def bondCapacity (b : BondSt) : Frac := (85 * bondWidth b * lanePayload b.rate * 1000000000 * 248, 100 * 8 * 256)

/-- Cost of a stream (R499). -/
def streamCost (s : State) (ring max : Nat) : Frac := fMul (producerBytes s ring) (max + 48) max

/-- Cost of a bond's streams. -/
def bondCost (s : State) (b : Nat) : Frac := fSum ((s.streams.filter fun x => x.bond.val == b).map fun x => streamCost s x.ring x.maxPayload)

/-- MAX_PAYLOAD of STREAM.START. -/
def startMax (c : Cmd) : Nat := 32 * (if argN c 6 1 = 0 then 256 else argN c 6 1)

/-- A stream as STREAM.START gives it. -/
def startStreamSt (c : Cmd) (r : RingCtx) : StreamSt :=
  { ring := r.id, bond := Fin.ofNat 8 (idx c.unit), vc := argN c 4 1, maxPayload := startMax c, sendPos := if argN c 5 1 = 1 then r.producer else r.consumer }

/-- STREAM.START (R359, R361, R364, R499). -/
def vStreamStart : Verb where
  op := 0x1201
  fits := fun s h => isA s .bond h
  checks := fun c s =>
    match ringOf s (argN c 0 4) with
    | none => [badArg true]
    | some r =>
      let b := idx c.unit
      let n := argN c 6 1
      [badArg ((match regionOf s.grade r.base with | .host _ _ => true | _ => false) || r.type == 1 || r.type == 2 || (1 ≤ n && n ≤ 7) || 1 < argN c 4 1 || 1 < argN c 5 1),
       badState (r.reader != 0xFFFF), noRoom (4096 ≤ s.streams.length || 1024 ≤ (s.streams.filter fun x => x.bond.val == b).length) [],
       noRoom (!fLe (fAdd (bondCost s b) (streamCost s r.id (startMax c))) (bondCapacity (vget s.link.bond b))) [],
       storeCond s { s with streams := s.streams ++ [startStreamSt c r] }]
  act := fun c s =>
    match ringOf s (argN c 0 4) with
    | none => ok s
    | some r =>
      let s := { s with streams := s.streams ++ [startStreamSt c r] }
      ok (ringSet (let r := { r with reader := c.unit }; if argN c 5 1 = 1 then ringFreed s { r with consumer := r.producer } else r) s)

/-- The stream of a command's ring on its bond. -/
def streamArg (c : Cmd) (s : State) : Option StreamSt := s.streams.find? fun x => x.ring == argN c 0 4 && x.bond.val == idx c.unit

/-- STREAM.STOP (R361, R364). -/
def vStreamStop : Verb where
  op := 0x1202
  fits := fun s h => isA s .bond h
  checks := fun c s => [badState (!(streamArg c s).any (·.stopping.isNone))]
  act := fun c s => later (streamMod (argN c 0 4) (fun x => { x with stopping := some c }) s)

/-- STREAM.STATUS (R364). -/
def vStreamStatus : Verb where
  op := 0x1203
  fits := fun s h => isA s .bond h
  checks := fun c s => [badArg (streamArg c s).isNone]
  act := fun c s =>
    match streamArg c s with
    | none => ok s
    | some x =>
      okWith (if argBit c 4 0 then streamMod x.ring (fun x => { x with packets := 0, payload := 0, gaps := 0, resent := 0 }) s else s)
        (le 4 x.seq ++ le 4 0 ++ le 8 x.packets ++ le 8 x.payload ++ le 4 x.gaps ++ le 4 x.resent ++ le 8 x.sendPos)

def execRingCreate (c : Cmd) (s : State) : Host.Outcome State Fault Refusal := settle s (runVerb vRingCreate c s)
def execRingDelete (c : Cmd) (s : State) : Host.Outcome State Fault Refusal := settle s (runVerb vRingDelete c s)
def execRingModify (c : Cmd) (s : State) : Host.Outcome State Fault Refusal := settle s (runVerb vRingModify c s)
def execRingConsume (c : Cmd) (s : State) : Host.Outcome State Fault Refusal := settle s (runVerb vRingConsume c s)
def execRingStatus (c : Cmd) (s : State) : Host.Outcome State Fault Refusal := settle s (runVerb vRingStatus c s)
def execRingPublish (ring : Nat) (o : Offer) (s : State) : Host.Outcome State Fault Refusal := settle s (ringPublish ring o s)
def execStreamStart (c : Cmd) (s : State) : Host.Outcome State Fault Refusal := settle s (runVerb vStreamStart c s)
/-- STREAM.STOP answers at once where nothing is left to send (R361). -/
def execStreamStop (c : Cmd) (s : State) : Host.Outcome State Fault Refusal := settle s (streamEnd (argN c 0 4) (runVerb vStreamStop c s))
def execStreamStatus (c : Cmd) (s : State) : Host.Outcome State Fault Refusal := settle s (runVerb vStreamStatus c s)
def execStreamSendPacket (ring : Nat) (s : State) : Host.Outcome State Fault Refusal := settle s (streamSend ring s)

end Sys2Proof.Machine
end

