-- ==== Sys2Proof/Machine/Link.lean ====
section
/-! DEFINITION. Cozor Link (R465 to R503): training, markers, flits, transactions, credits, width changes, re-adaptation, sleep and the LINK verbs. -/
set_option Elab.async false
namespace Sys2Proof.Machine
open Sys2Proof

/-- Change bond b. -/
def bondMod (b : Nat) (f : BondSt → BondSt) (s : State) : State := { s with link := { s.link with bond := vmod s.link.bond b f } }

/-- Change lane j. -/
def laneMod (j : Nat) (f : LaneSt → LaneSt) (s : State) : State := { s with link := { s.link with lane := vmod s.link.lane j f } }

/-- Lanes that a BOND_CFG selects, in ascending physical order: place i is logical lane i (R466, R467, R500). -/
def cfgLanes (w : BitVec 128) : List Nat :=
  (List.range 144).filter fun j => (fld w 4 0 == j / 8 && bitAt w (16 + j % 8)) || (fld w 9 5 == j / 8 && bitAt w (24 + j % 8))

/-- Lanes of bond b. -/
def bondLanes (s : State) (b : Nat) : List Nat := cfgLanes (vget s.link.bond b).cfg

/-- Logical lane of a lane of bond b (R467). -/
def logicalOf (s : State) (b j : Nat) : Nat := (bondLanes s b).idxOf j

/-- Mask of the logical lanes whose lane fits p. -/
def maskOf (s : State) (b : Nat) (p : Nat → Bool) : BitVec 16 :=
  ((bondLanes s b).zipIdx.foldl (fun (m : BitVec 16) x => if p x.1 then setBit m x.2 true else m) 0)

/-- Lanes in use. -/
def maskLanes (s : State) (b : Nat) (m : BitVec 16) : List Nat := ((bondLanes s b).zipIdx.filter fun x => bitAt m x.2).map (·.1)

/-- Number of lanes in a mask. -/
def maskWidth (m : BitVec 16) : Nat := ((List.range 16).filter fun i => bitAt m i).length

/-- A lane is mapped (R475 step 2). -/
def laneMapped (l : LaneSt) : Bool := l.ackSent && l.ackRecv

/-! ### Control blocks (R473, R474) -/

/-- A control block. -/
def ctlBlock (type lane bond rate : Nat) (spec : Bytes) : Bytes :=
  let b := le 1 type ++ le 1 lane ++ le 1 bond ++ le 1 rate ++ padTo 8 spec
  b ++ le 2 (crc16 b).toNat

/-- A received block is good and of a type. -/
def ctlOk (type : Nat) (blk : Bytes) : Bool := blk.length == 14 && numAt blk 12 2 == (crc16 (blk.take 12)).toNat && numAt blk 0 1 == type

/-- Send a block on lanes of a bond, n times. -/
def ctlSend (b type n : Nat) (lanes : List Nat) (spec : Nat → Bytes) (s : State) : State :=
  bondMod b (fun x => { x with
    ctlOut := lanes.flatMap fun j => List.replicate n (j, ctlBlock type (logicalOf s b j) b x.rate (spec j)) }) s

/-- Bytes 4 to 11 of CAP and CAP_ACK. -/
def capSpec (s : State) (b : Nat) : Bytes :=
  le 1 (fld (vget s.link.bond b).cfg 11 10) ++ le 1 (bondLanes s b).length ++ le 1 2 ++ le 1 1 ++ le 2 0x0F1A ++ le 2 (partId s.grade)

/-- Bytes 4 to 11 of WIDTH and WIDTH_ACK. -/
def widthSpec (w : WidthChange) : Bytes := le 2 w.mask.toNat ++ le 2 0 ++ le 4 w.marker

/-! ### Events (R502) -/

/-- EV_BOND. -/
def evBond (b type d0 : Nat) (addr : Nat) (s : State) : State :=
  let x := vget s.link.bond b
  raise (0x42 + b) type (0x0F00 + b) (le 1 d0 ++ le 1 (maskWidth x.mask) ++ le 2 x.mask.toNat ++ le 4 0 ++ le 8 addr) s

/-- Threshold of a lane (R478). -/
def laneThreshold (s : State) (j : Nat) : Nat :=
  match laneBond s j with
  | none => 0
  | some b => (vget s.link.lane j).fomCal * fld (vget s.link.bond b).cfg 55 48 / 100

/-- EV_LANE. -/
def evLane (j type b : Nat) (s : State) : State :=
  raise (0x30 + j / 8) type (0x0F10 + j) (le 1 b ++ le 1 (logicalOf s b j) ++ le 1 (vget s.link.lane j).fom ++ le 1 (laneThreshold s j)) s

/-! ### L reset (R497, R498) -/

/-- Every lane of a bond starts at step 1 of R475; a lane that no bond selects any more is unused. -/
def bondTrain (b : Nat) (s : State) : State :=
  let live := bitAt (vget s.link.bond b).cfg 40 && s.boot.mainOn
  let ls := bondLanes s b
  let next := fun (j : Fin 144) =>
    let l := vget s.link.lane j
    if ls.contains j.val then { l with
      state := if live then .training else .unused, logical := ls.idxOf j.val, caps := 0, ackSent := false, ackRecv := false, below := 0
      localPass := none, remotePass := none, rate := 0, fom := 0, fomCal := 0, marker := 0 }
    else if (laneBond s j.val).isNone && l.state != .unused then { l with state := .unused } else l
  let s := { s with link := { s.link with lane := Vector.ofFn next } }
  let s := bondMod b (fun x => { x with phase := if live then .cap else .down, rate := 0, prevRate := 0, firstMapped := none, waitRaised := false, mask := 0 }) s
  if live then ctlSend b 1 1 ls (fun _ => capSpec s b) s else s

/-- Event messages that a reset drops are reported as R357 states. -/
def bondDropEvents (b : Nat) (evs : List Tx) (s : State) : State :=
  match evs with
  | [] => s
  | e :: _ => { s with ev := { s.ev with bondLost := vmod s.ev.bondLost b fun l =>
      ⟨l.count + evs.length, if l.count = 0 then (timeOf (numAt e.data 4 12)).getD 0 else l.first⟩ } }

/-- What the link layer of a bond forgets: flits, events and completions go; D2H_WR and the Kennel's reads wait to be sent again; Fetch asks
again for its beats; streams send again (R332, R360, R498). -/
def bondForget (b : Nat) (s : State) : State :=
  let x := vget s.link.bond b
  let all := x.unacked.flatMap (·.ends) ++ x.txq.toList.flatten
  let s := bondDropEvents b (all.filter (·.ttype == 7)) s
  let keep := fun (v : Nat) => (all.filter fun t => t.ttype == 9 && t.vc == v) ++
    (if v = 0 then (x.reads.filter (·.fetch.isNone)).map fun r => hostReadTx s r.tag r.addr r.len else [])
  let s := (x.reads.filterMap (·.fetch)).foldl (fun s n => fetchMod n.val (fun c => { c with outstanding := none, heldSince := some (c.heldSince.getD s.cyc) }) s) s
  streamReset b (bondMod b (fun x => { x with
    partnerMax := 0, partnerLd := false, width := none, txSeq := 0, rxSeq := 0, rxAny := false, nakSent := false, ackOwed := (0, 0), unacked := []
    ackAdvance := s.cyc, replayRun := 0, txq := Vector.ofFn fun v => keep v.val, credits := Vector.replicate 4 0, freed := Vector.replicate 4 0
    waited := Vector.replicate 4 0, rxBytes := [], rxq := [], reads := x.reads.filter (·.fetch.isNone), txSleep := .l0, rxSleep := .l0
    txMarker := 0, rxMarker := 0, ackOut := none }) s)

/-- An L reset of a bond with its cause (R497, R498, R500). -/
def bondReset (b cause : Nat) (s : State) : State :=
  let x := vget s.link.bond b
  let was := bondIsUp x
  let lanes := bondLanes s b
  let s := if was then evBond b 2 cause 0 s else s
  let s := bondMod b (fun x => { x with phase := .down, resets := wrapAdd 32 x.resets 1, cause := cause, downSince := s.cyc }) s
  let s := bondForget b s
  let s := bondMod b (fun x => { x with cfg := x.cfgNext.getD x.cfg, cfgNext := none }) s
  let s := bondTrain b s
  if cause = 6 then s else
  bondMod b (fun x => { x with ctlOut :=
    (lanes.flatMap fun j => List.replicate 4 (j, ctlBlock 10 (logicalOf s b j) b 0 (le 1 cause))) ++ x.ctlOut }) s

/-- L_RESET: of an enabled bond, with a cause of R497. -/
def lReset (b cause : Nat) (s : State) : State :=
  if bitAt (vget s.link.bond b).cfg 40 && s.boot.mainOn && cause != 0 then bondReset b cause s else s

/-! ### Training (R475, R476) -/

/-- Step 3 of R475 (R477): unmapped lanes are ABSENT; with fewer than MIN_WIDTH lanes mapped TRAIN_WAIT is raised once and training returns
to step 1. -/
def mapEnd (b : Nat) (s : State) : State :=
  let x := vget s.link.bond b
  let ls := bondLanes s b
  let mapped := ls.filter fun j => laneMapped (vget s.link.lane j)
  if mapped.length < fld x.cfg 36 32 then
    let s := if x.waitRaised then s else evBond b 4 0 0 s
    bondMod b (fun x => { x with waitRaised := true }) (bondTrain b s)
  else
    let s := (ls.filter fun j => !mapped.contains j).foldl (fun s j => evLane j 4 b (laneMod j (fun l => { l with state := .absent, since := s.cyc }) s)) s
    bondMod b (fun x => { x with phase := .mapped, mask := maskOf s b fun j => mapped.contains j }) s

/-- A lane takes part in the training of its bond at step 2. -/
def capTake (j : Nat) (ack : Bool) (blk : Bytes) (s : State) : State :=
  match laneBond s j with
  | none => s
  | some b =>
    let x := vget s.link.bond b
    let l := vget s.link.lane j
    if x.phase != .cap || l.state != .training then s
    else if !ctlOk (if ack then 2 else 1) blk then (if ack then s else laneMod j (fun l => { l with caps := 0 }) s) else
    let s := bondMod b (fun x => { x with partnerMax := numAt blk 4 1 % 4, partnerLd := (numAt blk 6 1 / 2) % 2 == 1 }) s
    let send := !ack && 8 ≤ l.caps + 1 && !l.ackSent
    let s := laneMod j (fun l => { l with
      peer := numAt blk 1 1, caps := if ack then l.caps else l.caps + 1, ackSent := l.ackSent || send, ackRecv := l.ackRecv || ack }) s
    let s := if send then ctlSend b 2 1 [j] (fun _ => capSpec s b) s else s
    if !laneMapped (vget s.link.lane j) then s else
    let s := bondMod b (fun x => { x with firstMapped := some (x.firstMapped.getD s.cyc) }) s
    if (bondLanes s b).all fun k => laneMapped (vget s.link.lane k) then mapEnd b s else s

/-- LANE_MAP_TIMEOUT (R475 step 3): 100 ms since the first lane was mapped. -/
def laneMapTimeout (b : Nat) (s : State) : State :=
  let x := vget s.link.bond b
  match x.firstMapped with
  | none => s
  | some c => if x.phase != .cap || since s c < 100 * msC then s else mapEnd b s

/-- The rate that training steps towards (R475 step 4). -/
def targetRate (x : BondSt) : Nat := min (fld x.cfg 11 10) x.partnerMax

/-- STEP (R475 step 5). -/
def stepSend (b : Nat) (s : State) : State :=
  let x := vget s.link.bond b
  if x.phase == .mapped && x.rate < targetRate x then
    ctlSend b 3 1 (maskLanes s b x.mask) (fun _ => le 1 (x.rate + 1)) (bondMod b (fun x => { x with phase := .stepSent }) s)
  else s

/-- STEP_ACK (R475 steps 5 and 6). -/
def stepAck (j : Nat) (blk : Bytes) (s : State) : State :=
  match laneBond s j with
  | none => s
  | some b =>
    let x := vget s.link.bond b
    if x.phase == .stepSent && ctlOk 4 blk && numAt blk 4 1 == x.rate + 1 then
      if numAt blk 5 1 = 1 then
        let s := bondMod b (fun x => { x with prevRate := x.rate, rate := x.rate + 1, phase := .adapt }) s
        (maskLanes s b x.mask).foldl (fun s k => laneMod k (fun l => { l with rate := x.rate + 1 }) s) s
      else bondMod b (fun x => { x with phase := .ended }) s
    else s

/-- RECEIVER_ADAPTED (R475 steps 7 and 8): the check begins. -/
def receiverAdapted (b : Nat) (s : State) : State :=
  let x := vget s.link.bond b
  if x.phase == .adapt then
    (maskLanes s b x.mask).foldl (fun s k => laneMod k (fun l => { l with localPass := none, remotePass := none }) s) (bondMod b (fun x => { x with phase := .check }) s)
  else s

/-- Errors that a lane may count in a check (R476). -/
def errorLimit (rate : Nat) : Nat := if rate = 3 then 53 else 0

/-- Both ends return to the previous rate and stepping ends (R475 step 11). -/
def stepBack (b : Nat) (s : State) : State :=
  let x := vget s.link.bond b
  (maskLanes s b x.mask).foldl (fun s k => laneMod k (fun l => { l with rate := x.prevRate }) s) (bondMod b (fun x => { x with rate := x.prevRate, phase := .ended }) s)

/-- The bond judges its step once every lane has both results (R475 steps 10 and 11, R476). -/
def stepJudge (b : Nat) (s : State) : State :=
  let x := vget s.link.bond b
  let ls := (maskLanes s b x.mask).map fun j => vget s.link.lane j
  if x.phase != .result then s
  else if ls.any fun l => l.localPass == some false || l.remotePass == some false then stepBack b s
  else if ls.all fun l => l.localPass == some true && l.remotePass == some true then
    (maskLanes s b x.mask).foldl (fun s k => laneMod k (fun l => { l with fomCal := l.fom }) s) (bondMod b (fun x => { x with phase := .mapped }) s)
  else s

/-- PRBS_CHECK_DONE (R475 steps 8 and 9, R476, R478): errors and FOM of each lane; a lane without a count fails. -/
def prbsCheck (b : Nat) (found : List (Nat × Nat × Nat)) (s : State) : State :=
  let x := vget s.link.bond b
  if x.phase != .check then s else
  let ls := maskLanes s b x.mask
  let s := ls.foldl (fun s j =>
    match found.find? (·.1 == j) with
    | some (_, e, f) => laneMod j (fun l => { l with errors := e, fom := f % 256, lastCheck := now s, localPass := some (decide (e ≤ errorLimit x.rate)) }) s
    | none => laneMod j (fun l => { l with lastCheck := now s, localPass := some false }) s) s
  let s := bondMod b (fun x => { x with phase := .result, resultSince := s.cyc }) s
  let s := ctlSend b 5 1 ls (fun j => let l := vget s.link.lane j
    le 1 (b2n (l.localPass == some true)) ++ le 1 l.fom ++ le 2 0 ++ le 4 l.errors) s
  stepJudge b s

/-- RESULT (R476). -/
def resultTake (j : Nat) (blk : Bytes) (s : State) : State :=
  match laneBond s j with
  | none => s
  | some b =>
    let p := (vget s.link.bond b).phase
    if (p == .check || p == .result) && ctlOk 5 blk then stepJudge b (laneMod j (fun l => { l with remotePass := some (numAt blk 4 1 == 1) }) s) else s

/-- RESULT_TIMEOUT (R476). -/
def resultTimeout (b : Nat) (s : State) : State :=
  let x := vget s.link.bond b
  if x.phase == .result && 200 * usC ≤ since s x.resultSince && (maskLanes s b x.mask).any fun j => (vget s.link.lane j).remotePass.isNone then stepBack b s else s

/-- BOND_UP (R475 step 12, R490, R511): not before the fill of banks 0 to 15 under a link boot. -/
def bondRise (b : Nat) (s : State) : State :=
  let x := vget s.link.bond b
  let ready := (x.phase == .mapped && targetRate x ≤ x.rate) || x.phase == .ended
  let fills := s.boot.linkBoot && b == 0 && (List.range 16).any fun k => (vget s.banks k).filling.isSome
  if !ready || fills || !s.boot.mainOn then s else
  let s := (maskLanes s b x.mask).foldl (fun s j => laneMod j (fun l => { l with state := .inService, rate := x.rate, below := 0 }) s) s
  let s := bondMod b (fun x => { x with
    phase := .up, upTime := now s, idleSince := s.cyc, ackAdvance := s.cyc, txSeq := 0, rxSeq := 0, rxAny := false
    txq := vmod x.txq 0 fun q => ({ ttype := 8, vc := 0, addr := 512 } : Tx) :: q }) s
  let s := if b = 0 && !s.boot.b0WasUp then { s with boot := { s.boot with b0WasUp := true, linkWaitStart := s.cyc } } else s
  let s := evBond b 1 x.rate 0 s
  bondMod b (bondPump s.cyc) s

/-! ### Width changes (R492, R493) -/

/-- The switch to the new mask (R493 step 3). -/
def widthSwitch (b : Nat) (s : State) : State :=
  let x := vget s.link.bond b
  match x.width with
  | none => s
  | some w =>
    if maskWidth w.mask < fld x.cfg 36 32 then bondReset b 3 s else
    let gone := maskLanes s b (x.mask &&& ~~~ w.mask)
    let come := maskLanes s b (w.mask &&& ~~~ x.mask)
    let s := bondMod b (fun x => { x with mask := w.mask, width := none, idleSince := s.cyc }) s
    let s := gone.foldl (fun s j => if (vget s.link.lane j).state == .inService then
      evLane j 1 b (laneMod j (fun l => { l with state := .left, departures := wrapAdd 32 l.departures 1, since := s.cyc, below := 0 }) s) else s) s
    let s := come.foldl (fun s j => laneMod j (fun l => { l with state := .inService, rate := x.rate, below := 0, marker := x.rxMarker }) s) s
    evBond b 3 x.rate 0 s

/-- The switch once the agreed marker has passed (R493). -/
def widthDue (b count : Nat) (s : State) : State :=
  match (vget s.link.bond b).width with
  | some w => if w.acked && w.marker ≤ count then widthSwitch b s else s
  | none => s

/-- The device decides on a new mask (R493 step 1). -/
def widthStart (b : Nat) (m : BitVec 16) (lane : Option (Fin 144)) (s : State) : State :=
  let x := vget s.link.bond b
  let w : WidthChange := ⟨m, max (x.txMarker + 2) ((x.width.map (·.marker)).getD 0) % 2 ^ 32, false, lane⟩
  ctlSend b 7 1 (maskLanes s b (x.mask &&& m)) (fun _ => widthSpec w) (bondMod b (fun x => { x with width := some w }) s)

/-- A lane leaves its bond (R492): by a width change, or by an L reset below MIN_WIDTH. -/
def laneLeave (j : Nat) (s : State) : State :=
  match laneBond s j with
  | none => s
  | some b =>
    let x := vget s.link.bond b
    if !bondIsUp x || (vget s.link.lane j).state != .inService then s else
    let m := setBit ((x.width.map (·.mask)).getD x.mask) (logicalOf s b j) false
    if maskWidth m < fld x.cfg 36 32 then bondReset b 3 s else
    let s := evLane j 1 b (laneMod j (fun l => { l with state := .left, departures := wrapAdd 32 l.departures 1, since := s.cyc, below := 0 }) s)
    widthStart b m none s

/-- LANE_LOCK_LOST (R492, R497). -/
def laneLockLost (j : Nat) (s : State) : State :=
  match laneBond s j with
  | none => s
  | some b =>
    let x := vget s.link.bond b
    if bondIsUp x && (vget s.link.lane j).state == .inService && (maskLanes s b x.mask).all (fun k => k == j || (vget s.link.lane k).state != .inService) then
      bondReset b 7 s
    else laneLeave j s

/-- Lanes whose marker of one count arrived more than 64 ns away from that of every other (R479). -/
def skewed (s : State) (ls : List Nat) : List Nat :=
  ls.filter fun k => ls.all fun o => o == k ||
    (let a := (vget s.link.lane k).markerAt
     let c := (vget s.link.lane o).markerAt
     decide (64 < 10 * (max a c - min a c)))

/-- ALIGN (R479, R493): the lane's marker. Lanes two markers behind, and lanes skewed beyond 64 ns once the markers of one count are all in, are
left out; a bond whose lanes all disagree is reset. -/
def alignTake (j : Nat) (blk : Bytes) (s : State) : State :=
  match laneBond s j with
  | none => s
  | some b =>
    let x := vget s.link.bond b
    if !bondIsUp x || !ctlOk 6 blk then s else
    let c := numAt blk 4 4
    let s := laneMod j (fun l => { l with marker := c, markerAt := s.cyc }) s
    let s := bondMod b (fun x => { x with rxMarker := c, rxSleep := .l0, ackAdvance := if x.rxSleep == .l0 then x.ackAdvance else s.cyc }) s
    let ls := (maskLanes s b x.mask).filter fun k => (vget s.link.lane k).state == .inService
    let others := ls.filter (· != j)
    let late := others.filter fun k => 2 ≤ (c + 2 ^ 32 - (vget s.link.lane k).marker) % 2 ^ 32
    let far := others.filter fun k => let d := (c + 2 ^ 32 - (vget s.link.lane k).marker) % 2 ^ 32; 2 ≤ d && d < 2 ^ 31
    let skew := if others.isEmpty || others.any (fun k => (vget s.link.lane k).marker != c) then [] else skewed s ls
    let apart := late.length == others.length && (others.map fun k => (vget s.link.lane k).marker).eraseDups.length == others.length
    let s := if !others.isEmpty && (apart || skew.length == ls.length) then bondReset b 4 s
      else (far ++ skew).foldl (fun s k => laneLeave k s) s
    widthDue b c s

/-- An ALIGN goes out on every lane in use (R479). -/
def alignOut (b : Nat) (s : State) : State :=
  let x := vget s.link.bond b
  let s := ctlSend b 6 1 (maskLanes s b x.mask) (fun _ => le 4 x.txMarker ++ le 1 (maskWidth x.mask) ++ le 2 x.mask.toNat) s
  widthDue b x.txMarker (bondMod b (fun x => { x with txMarker := wrapAdd 32 x.txMarker 1 }) s)

/-- ALIGN_MARKER_SEND (R479). -/
def alignSend (b : Nat) (s : State) : State :=
  let x := vget s.link.bond b
  if !bondIsUp x || x.txSleep != .l0 then s else alignOut b s

/-- WIDTH (R493): both ends use the AND of two masks and the larger marker. -/
def widthTake (j : Nat) (blk : Bytes) (s : State) : State :=
  match laneBond s j with
  | none => s
  | some b =>
    let x := vget s.link.bond b
    if !bondIsUp x || !ctlOk 7 blk then s else
    let got := BitVec.ofNat 16 (numAt blk 4 2) &&& maskOf s b fun _ => true
    let mark := numAt blk 8 4
    let w : WidthChange := match x.width with
      | none => ⟨got, mark, true, none⟩
      | some o => if o.mask == got && o.marker == mark then { o with acked := true } else ⟨o.mask &&& got, max o.marker mark, true, o.lane⟩
    let s := ctlSend b 8 1 (maskLanes s b (x.mask &&& w.mask)) (fun _ => widthSpec w) (bondMod b (fun x => { x with width := some w }) s)
    if x.width.isSome then widthDue b x.rxMarker s else s

/-- WIDTH_ACK (R493 step 2). -/
def widthAck (j : Nat) (blk : Bytes) (s : State) : State :=
  match laneBond s j with
  | none => s
  | some b =>
    let x := vget s.link.bond b
    if !bondIsUp x || !ctlOk 8 blk then s else
    match x.width with
    | none => s
    | some w =>
      if w.mask.toNat == numAt blk 4 2 && w.marker == numAt blk 8 4 then
        widthDue b x.rxMarker (bondMod b (fun x => { x with width := some { w with acked := true } }) s)
      else s

/-- RETRAIN (R497). -/
def retrainTake (j : Nat) (blk : Bytes) (s : State) : State :=
  match laneBond s j with
  | none => s
  | some b => if ctlOk 10 blk && (vget s.link.bond b).phase != .cap then lReset b 6 s else s

/-- SLEEP (R495). -/
def sleepTake (j : Nat) (blk : Bytes) (s : State) : State :=
  match laneBond s j with
  | none => s
  | some b =>
    let t := numAt blk 4 1
    if bondUp s b && ctlOk 9 blk && (t == 1 || t == 2) then bondMod b (fun x => { x with rxSleep := if t = 1 then .ls else .ld }) s else s

/-! ### Flits (R480 to R484) -/

/-- Transactions at the front of a byte stream (R484); answers them and the bytes left. -/
def txParse : Nat → Bytes → List Tx → List Tx × Bytes
  | 0, b, acc => (acc, b)
  | n + 1, b, acc =>
    if b.length < 8 then (acc, b)
    else if (b.take 8).all (· == 0) then txParse n (b.drop 8) acc
    else if b.length < 16 then (acc, b)
    else
      let len := numAt b 2 2
      let total := ceilDiv (16 + len) 8 * 8
      if b.length < total then (acc, b) else
      let h0 := numAt b 0 1
      let h1 := numAt b 1 1
      txParse n (b.drop total) (acc ++ [{
        ttype := h0 % 16, cpl := (h0 / 16) % 2 == 1, vc := h1 % 4, status := h1 / 16, tag := numAt b 4 2, rlen := numAt b 6 2, addr := numAt b 8 8
        data := (b.drop 16).take len }])

/-- The transmitter sends again from the oldest unacknowledged flit (R483); eight times without an advance reset the bond. -/
def bondReplay (b : Nat) (s : State) : State :=
  let s := bondMod b (fun x => { x with replays := wrapAdd 32 x.replays 1, replayRun := x.replayRun + 1, ackAdvance := s.cyc }) s
  if 8 ≤ (vget s.link.bond b).replayRun then bondReset b 2 s else s

/-- An acknowledgement up to a FSEQ releases flits; the packets that end in them are acknowledged (R359, R483). -/
def flitAck (b : Nat) (a : BitVec 12) (s : State) : State :=
  let x := vget s.link.bond b
  match x.unacked.findIdx? fun f => f.fseq == a with
  | none => s
  | some i =>
    let done := x.unacked.take (i + 1)
    let s := bondMod b (fun x => { x with unacked := x.unacked.drop (i + 1), ackAdvance := s.cyc, replayRun := 0, idleSince := s.cyc }) s
    let s := (done.flatMap (·.ends)).foldl (fun s t => match t.stream with | some (q, r) => streamAck q r s | none => s) s
    bondMod b (bondPump s.cyc) s

/-- A flit is discarded: NAK once for a given expected FSEQ (R482). -/
def flitNak (b : Nat) (s : State) : State :=
  bondMod b (fun x => if x.nakSent then x else { x with
    nakSent := true, ackOut := some (BitVec.ofNat 16 ((x.rxSeq - 1).toNat + (if x.rxAny then 4096 else 0) + 8192)) }) s

/-- FLIT_RECEIVED (R471, R481 to R484). -/
def flitTake (b : Nat) (flit : Bytes) (bad : Nat) (s : State) : State :=
  if !bondUp s b then s else
  let s := bondMod b (fun x => { x with codewords := wrapAdd 32 x.codewords bad, rxSleep := .l0, ackAdvance := if x.rxSleep == .l0 then x.ackAdvance else s.cyc }) s
  if flit.length != 256 || numAt flit 252 4 != (crc32 (flit.take 252)).toNat then
    flitNak b (bondMod b (fun x => { x with crcErrs := wrapAdd 32 x.crcErrs 1 }) s)
  else
  let h := numAt flit 0 2
  let k := numAt flit 2 2
  let s := if (k / 4096) % 2 = 1 then flitAck b (BitVec.ofNat 12 k) s else s
  let s := if (k / 8192) % 2 = 1 && !(vget s.link.bond b).unacked.isEmpty then bondReplay b s else s
  if h / 4096 != 0 || !bondUp s b then s
  else if BitVec.ofNat 12 h != (vget s.link.bond b).rxSeq then flitNak b s
  else bondMod b (fun x =>
    let p := txParse 64 (x.rxBytes ++ (flit.drop 4).take 248) []
    { x with
      rxSeq := x.rxSeq + 1, rxAny := true, nakSent := false, rxBytes := p.2, rxq := x.rxq ++ p.1
      ackOwed := (x.ackOwed.1 + 1, if x.ackOwed.1 = 0 then s.cyc else x.ackOwed.2) }) s

/-- ACK_SEND_DUE (R482): an IDLE flit carries the acknowledgement. -/
def ackSend (b : Nat) (s : State) : State :=
  let x := vget s.link.bond b
  if bondIsUp x && x.txSleep == .l0 && x.ackOwed.1 != 0 && (32 ≤ x.ackOwed.1 || usC ≤ since s x.ackOwed.2) then
    bondMod b (fun x => { x with ackOwed := (0, 0), idleSince := s.cyc, ackOut := some (BitVec.ofNat 16 ((x.rxSeq - 1).toNat + 4096)) }) s
  else s

/-- REPLAY_TIMEOUT (R483). -/
def replayTimeout (b : Nat) (s : State) : State :=
  let x := vget s.link.bond b
  if bondIsUp x && !x.unacked.isEmpty && x.rxSleep == .l0 && 10 * usC ≤ since s x.ackAdvance then bondReplay b s else s

/-! ### Transactions (R485 to R490) -/

/-- The oldest received request of a virtual channel is another one: this one waits for its turn (R487). -/
def txWaits (x : BondSt) (t : Tx) : Bool :=
  match x.rxq.find? fun u => u.vc == t.vc && !u.cpl && u.ttype != 8 with
  | some u => u != t
  | none => false

/-- A received transaction has been performed: it leaves the queue and its credits are free (R490). -/
def txDone (b : Nat) (t : Tx) (s : State) : State :=
  bondMod b (fun x => { x with
    rxq := x.rxq.erase t, freed := vmod x.freed t.vc (· + txCost t)
    freedSince := if x.freed.toList.all (· == 0) then s.cyc else x.freedSince }) s

/-- The completion of a non-posted request (R485, R486). -/
def txReply (b : Nat) (t : Tx) (status : Nat) (data : Bytes) (s : State) : State :=
  linkSend b { ttype := t.ttype, cpl := true, vc := t.vc, status := status, tag := t.tag, data := data } (txDone b t s)

/-- A request is delivered: the bond is UP and it is the oldest of its channel. -/
def txTurn (s : State) (b : Nat) (t : Tx) : Bool := bondUp s b && !txWaits (vget s.link.bond b) t

/-- STATUS of a window access: 4 bytes, aligned, within the window (R439, R486). -/
def winStatus (addr len : Nat) : Nat := if len != 4 || addr % 4 != 0 then 2 else if 0x1000 ≤ addr then 1 else 0

/-- WIN_RD (R436, R439, R485, R486). -/
def winRdTake (b tag addr rlen : Nat) (s : State) : State :=
  let t : Tx := { ttype := 1, vc := 0, tag := tag, rlen := rlen, addr := addr }
  if !txTurn s b t then s else
  if winStatus addr rlen = 0 then match winRead .cozor addr s with
    | (v, s) => txReply b t 0 (le 4 v) s
  else txReply b t (winStatus addr rlen) [] s

/-- WIN_WR (R436, R439, R485, R486). -/
def winWrTake (b tag addr : Nat) (data : Bytes) (s : State) : State :=
  let t : Tx := { ttype := 2, vc := 0, tag := tag, addr := addr, data := data }
  if !txTurn s b t then s else
  if winStatus addr data.length = 0 then txReply b t 0 [] (winWrite .cozor addr (BitVec.ofNat 32 (leNat data)) s)
  else txReply b t (winStatus addr data.length) [] s

/-- Handle of a bond. -/
def bondHandle (b : Nat) : Handle := BitVec.ofNat 16 (0x0F00 + b)

/-- Under a link boot B0's accesses to banks 16 to 31 are denied; those to the others that are no writes meet NOT_READY (R509, R511). -/
def linkDenied (s : State) (b a : Nat) : Bool := stage s == 3 && s.boot.linkBoot && b == 0 && 0x4000000 ≤ a && a < 0x8000000

/-- STATUS of an adapter's read of device memory (R486, R488); none while a bank's handover holds it (R312). -/
def memRdStatus (s : State) (b a n : Nat) : Option Nat :=
  if !isReady s then some (if linkDenied s b a then 3 else 5)
  else if n < 32 || 4096 < n || n % 32 != 0 || a % 4096 + n > 4096 then some 2
  else match regionOf s.grade a with
  | .unmapped | .host _ _ => some 1
  | .mirror _ | .context => some 0
  | .store => some (if s.store.badWords.any fun w => a < w + 32 && w < a + n then 4 else 0)
  | .bank k _ p => match bankAns (vget s.banks k) (bondHandle b) with
    | .denied => some 3
    | .held => none
    | .notOn => some 0
    | .served => some (if (vget s.banks k).badWords.any fun w => p < w + 8 && w < p + n then 4 else 0)

/-- MEM_RD of the adapter (R311, R317, R488). -/
def memRdTake (b tag a n : Nat) (s : State) : State :=
  let t : Tx := { ttype := 3, vc := 0, tag := tag, rlen := n, addr := a }
  if !txTurn s b t then s else
  match memRdStatus s b a n with
  | none => if (vget s.link.bond b).rxq.contains t then s else bondMod b (fun x => { x with rxq := t :: x.rxq }) s
  | some st =>
    let s := if st = 0 || st = 4 then (match regionOf s.grade a with | .store | .context => storeTouch s | _ => s) else s
    match regionOf s.grade a, st with
    | .bank k _ _, 3 => txReply b t 3 [] (bankDeny k (bondHandle b) false s)
    | .bank k _ _, 0 =>
      if bankAns (vget s.banks k) (bondHandle b) == .notOn then txReply b t 0 (List.replicate n 0) (bankFail k (bondHandle b) s) else txReply b t 0 (viewBytes s a n) s
    | _, 0 => txReply b t 0 (viewBytes s a n) s
    | _, st => txReply b t st [] s

/-- STATUS that an adapter's write would have (R486, R488, R511): 0 where it is performed. -/
def memWrStatus (s : State) (b a n : Nat) : Nat :=
  let boot := stage s == 3 && s.boot.linkBoot && b == 0 && a < 0x4000000
  if !isReady s && !boot then (if linkDenied s b a then 3 else 5)
  else if n < 4 || 4096 < n || n % 4 != 0 || a % 4 != 0 then 2
  else match regionOf s.grade a, regionOf s.grade (a + n - 1) with
  | .unmapped, _ | .host _ _, _ | _, .unmapped | _, .host _ _ => 1
  | .mirror _, _ | .context, _ | _, .context | _, .mirror _ => 3
  | .bank k _ _, .bank m _ _ => if bankAns (vget s.banks k) (bondHandle b) == .denied || bankAns (vget s.banks m) (bondHandle b) == .denied then 3 else 0
  | _, _ => 0

/-- MEM_WR of the adapter (R486, R488): a write that fails is dropped and counted, with EV_BOND WRITE_ERR. -/
def memWrTake (b a : Nat) (data : Bytes) (s : State) : State :=
  let t : Tx := { ttype := 4, vc := 0, addr := a, data := data }
  if !txTurn s b t then s else
  if memWrStatus s b a data.length = 0 then txDone b t (devWrite (bondHandle b) (data.length / 64 + 2) a data s) else
  let s := match memWrStatus s b a data.length, regionOf s.grade a with
    | 3, .bank k _ _ => bankDeny k (bondHandle b) true s
    | _, _ => s
  evBond b 5 (vget s.link.bond b).rate a (bondMod b (fun x => { x with writeErrs := wrapAdd 32 x.writeErrs 1 }) (txDone b t s))

/-- WHISTLE of the adapter (R450, R487). -/
def whistleTake (b m : Nat) (v : BitVec 32) (s : State) : State :=
  let t : Tx := { ttype := 5, vc := 0, addr := m, data := le 4 v.toNat }
  if !txTurn s b t then s else txDone b t (whistle m v s)

/-- CREDIT (R490). -/
def creditTake (b : Nat) (incs : Vector (BitVec 16) 4) (s : State) : State :=
  if !bondUp s b then s else
  bondMod b (fun x => bondPump s.cyc { x with
    credits := Vector.ofFn fun v => x.credits[v] + (incs[v]).toNat
    rxq := x.rxq.filter fun t => !(t.ttype == 8 && t.addr == (incs.toList.foldr (fun w n => n * 65536 + w.toNat) 0)) }) s

/-- MEM_RD_COMPLETION (R486): the data, or the error, of a read of host memory. -/
def cplTake (b tag status : Nat) (data : Bytes) (s : State) : State :=
  match (vget s.link.bond b).reads.find? (·.tag == tag) with
  | none => s
  | some r =>
    if !bondUp s b then s else
    let s := bondMod b (fun x => { x with reads := x.reads.filter (·.tag != tag), rxq := x.rxq.filter fun t => !(t.cpl && t.tag == tag) }) s
    match r.fetch with
    | some n =>
      let c := vget s.fetch.ch n
      if c.outstanding != some tag then s else
      let at_ := (c.queue.head?.map fun d => d.src + beatOffset c).getD 0
      if status = 0 then fetchMod n (fun c => { c with outstanding := none, staged := some (padTo 64 data), heldSince := none }) s
      else fetchHalt n (if status = 4 then 3 else 1) 0 at_ s
    | none =>
      if status = 0 then { s with kennel := { s.kennel with hostData := s.kennel.hostData ++ (padTo r.len ((data.drop (r.addr % 32)).take r.len)).zipIdx.map fun (x, i) => (r.addr + i, x) } }
      else { s with kennel := { s.kennel with hostFailed := r.addr :: s.kennel.hostFailed } }

/-- CPL_TIMEOUT (R486): 10 ms without a completion. -/
def cplTimeout (b tag : Nat) (s : State) : State :=
  match (vget s.link.bond b).reads.find? (·.tag == tag) with
  | none => s
  | some r =>
    if since s r.since < 10 * msC then s else
    let s := evBond b 6 (vget s.link.bond b).rate (if r.fetch.isSome then r.addr else wireAddr s r.addr) (bondMod b (fun x => { x with reads := x.reads.filter (·.tag != tag) }) s)
    match r.fetch with
    | some n =>
      let c := vget s.fetch.ch n
      if c.outstanding != some tag then s else fetchHalt n 4 0 ((c.queue.head?.map fun d => d.src + beatOffset c).getD 0) s
    | none => { s with kennel := { s.kennel with hostFailed := r.addr :: s.kennel.hostFailed } }

/-- CREDIT_RETURN_DUE (R490). -/
def creditReturn (b : Nat) (s : State) : State :=
  let x := vget s.link.bond b
  if bondIsUp x && x.txSleep == .l0 && x.freed.toList.any (· != 0) && (usC ≤ since s x.freedSince || 128 ≤ vget x.freed 0) then
    linkSend b { ttype := 8, vc := 0, addr := x.freed.toList.foldr (fun w n => n * 65536 + w % 65536) 0 } (bondMod b (fun x => { x with freed := Vector.replicate 4 0 }) s)
  else s

/-! ### Lanes in service (R478, R494), sleep (R495, R496) -/

/-- FOM_CHECK (R478). -/
def fomCheck (j fom : Nat) (s : State) : State :=
  match laneBond s j with
  | none => s
  | some b =>
    let l := vget s.link.lane j
    if !bondUp s b || l.state != .inService then s else
    let n := if fom < laneThreshold s j then l.below + 1 else 0
    let s := laneMod j (fun l => { l with fom := fom, below := n }) s
    if fld (vget s.link.bond b).cfg 63 56 ≤ n then laneLeave j s else s

/-- Handle of a lane. -/
def laneHandle (j : Nat) : Handle := BitVec.ofNat 16 (0x0F10 + j)

/-- READAPT_TIMER (R494, R600, R603). -/
def readaptTimer (j : Nat) (s : State) : State :=
  match laneBond s j with
  | none => s
  | some b =>
    let l := vget s.link.lane j
    if !bondUp s b || l.state != .left || since s l.since < 10 * secC then s else
    laneMod j (fun l => { l with since := s.cyc, readapting := maintHas s 4 (laneHandle j) || !bitAt s.maint.cfg 1 }) (maintAsk 4 (laneHandle j) 1 0 none 0x1E04 s)

/-- LANE_READAPT_DONE (R494): the lane rejoins by a width change, or READAPT_FAIL. -/
def readaptDone (j errors fom : Nat) (s : State) : State :=
  match maintRunning s 4 (laneHandle j) with
  | none => s
  | some r =>
    let b := (laneBond s j).getD 0
    let l := vget s.link.lane j
    let x := vget s.link.bond b
    let pass := (laneBond s j).isSome && bondIsUp x && (l.state == .left || l.state == .absent) && decide (errors ≤ errorLimit x.rate)
    let s := laneMod j (fun l => { l with
      readapting := false, errors := errors, lastCheck := now s, since := s.cyc, fom := fom, fomCal := if pass then fom else l.fomCal }) s
    let s := if pass then evLane j 2 b (widthStart b (setBit ((x.width.map (·.mask)).getD x.mask) (logicalOf s b j) true) (some (Fin.ofNat 144 j)) s) else evLane j 3 b s
    completeO r.cmd 0x1E04 (if pass then OK else FAULT) [] (maintEnd r s)

/-- The transmitter has nothing to send and is owed nothing (R495). -/
def bondIdle (x : BondSt) : Bool :=
  x.txq.toList.all (·.isEmpty) && x.unacked.isEmpty && x.ackOwed.1 == 0 && x.freed.toList.all (· == 0) && x.width.isNone

/-- IDLE_SLEEP (R495). -/
def idleSleep (b : Nat) (s : State) : State :=
  let x := vget s.link.bond b
  let ls := fld x.cfg 79 64
  let ld := fld x.cfg 95 80
  if !bondIsUp x || !bondIdle x then s
  else if ld != 0 && x.partnerLd && x.txSleep != .ld && ld * msC ≤ since s x.idleSince then
    ctlSend b 9 4 (maskLanes s b x.mask) (fun _ => le 1 2) (bondMod b (fun x => { x with txSleep := .ld }) s)
  else if ls != 0 && x.txSleep == .l0 && ls * usC ≤ since s x.idleSince then
    ctlSend b 9 4 (maskLanes s b x.mask) (fun _ => le 1 1) (bondMod b (fun x => { x with txSleep := .ls }) s)
  else s

/-- TRANSMITTER_WAKE (R496). -/
def transmitterWake (b : Nat) (s : State) : State :=
  let x := vget s.link.bond b
  if !bondIsUp x || x.txSleep == .l0 || bondIdle x then s else
  let s := alignOut b (bondMod b (fun x => { x with txSleep := .l0, idleSince := s.cyc, downSince := s.cyc }) s)
  bondMod b (bondPump s.cyc) s

/-! ### Verbs (R500, R503) -/

/-- BOND_CFG with its reserved fields 0 (R500). -/
def bondCfgOf (c : Cmd) : BitVec 128 := setFld (setFld (setFld (argW c 0 128) 15 12 0) 47 41 0) 127 96 0

/-- An octet number is valid: 0 to 17, or 31. -/
def octetOk (o : Nat) : Bool := o ≤ 17 || o == 31

/-- Another bond or an Ethernet port has an octet (R407, R466). -/
def octetTaken (s : State) (b o : Nat) : Bool :=
  o ≤ 17 && ((List.range 8).any (fun k => k != b &&
      (let x := vget s.link.bond k
       fld x.cfg 4 0 == o || fld x.cfg 9 5 == o || x.cfgNext.any fun w => fld w 4 0 == o || fld w 9 5 == o)) ||
    (List.range 16).any fun p => bitAt (vget s.eth p).cfg 0 && fld (vget s.eth p).cfg 15 8 / 8 == o)

/-- A change that an enabled bond takes by an L reset (R500). -/
def bondMajor (old new : BitVec 128) : Bool :=
  fld old 9 0 != fld new 9 0 || fld old 11 10 != fld new 11 10 || fld old 31 16 != fld new 31 16 || fld old 39 37 != fld new 39 37 || bitAt old 40 != bitAt new 40

/-- LINK.BOND (R500, R503). -/
def vLinkBond : Verb where
  op := 0x1E01
  fits := fun s h => isA s .bond h
  checks := fun c s =>
    let w := bondCfgOf c
    let b := idx c.unit
    [badArg (!octetOk (fld w 4 0) || !octetOk (fld w 9 5) || fld w 36 32 == 0 || 16 < fld w 36 32 || fld w 55 48 < 30 || 95 < fld w 55 48 || fld w 63 56 == 0),
     badArg ((cfgLanes w).isEmpty || (fld w 9 5 == 31 && fld w 31 24 != 0)),
     badState (octetTaken s b (fld w 4 0) || octetTaken s b (fld w 9 5)),
     badState (s.disp.enabled && (cfgLanes w).any fun j => 136 ≤ j && j ≤ 139),
     badState (!bitAt w 40 && s.streams.any fun x => x.bond.val == b)]
  act := fun c s =>
    let b := idx c.unit
    let w := bondCfgOf c
    let x := vget s.link.bond b
    if bitAt x.cfg 40 && bondMajor x.cfg w then
      let keep := setFld (setFld (setFld x.cfg 95 48 (fld w 95 48)) 36 32 (fld w 36 32)) 47 41 0
      ok (bondMod b (fun x => { x with cfg := keep, cfgNext := some w }) s)
    else
      let s := bondMod b (fun x => { x with cfg := w, cfgNext := none }) s
      ok (if bitAt x.cfg 40 then s else bondTrain b s)

/-- LINK.RETRAIN (R497, R503). -/
def vLinkRetrain : Verb where
  op := 0x1E02
  fits := fun s h => isA s .bond h
  checks := fun c s => [badState (!bitAt (vget s.link.bond (idx c.unit)).cfg 40)]
  act := fun c s => ok (lReset (idx c.unit) 1 s)

/-- Two segments overlap. -/
def segMeets (o n : Nat) (g : Segment) : Bool := g.enable && o < g.offset + 2 ^ g.log2 && g.offset < o + n

/-- LINK.APERTURE (R489, R503). -/
def vLinkAperture : Verb where
  op := 0x1E03
  fits := fun s h => isA s .bond h
  checks := fun c s =>
    let o := argN c 8 5
    let l := argN c 13 1
    let i := argN c 14 1
    [badArg (argN c 0 8 % 4096 != 0 || o % 4096 != 0 || l < 12 || 37 < l || 15 < i || 1 < argN c 15 1 || 2 ^ 37 < o + 2 ^ l ||
      (argN c 15 1 == 1 && (vget s.link.bond (idx c.unit)).segs.toList.zipIdx.any fun (g, k) => k != i && segMeets o (2 ^ l) g))]
  act := fun c s => ok (bondMod (idx c.unit) (fun x => { x with segs := vmod x.segs (argN c 14 1) fun _ => ⟨argN c 0 8, argN c 8 5, argN c 13 1, argN c 15 1 == 1⟩ }) s)

/-- LINK.READAPT (R494, R503). -/
def vLinkReadapt : Verb where
  op := 0x1E04
  fits := fun s h => isA s .lane h
  checks := fun c s =>
    let j := idx c.unit
    [badState ((laneBond s j).isNone || (vget s.link.lane j).state == .inService), busy (maintHas s 4 c.unit)]
  act := fun c s => later (maintAsk 4 c.unit 0 0 (some c) 0x1E04 (laneMod (idx c.unit) (fun l => { l with readapting := true }) s))

/-- Link state (R503). -/
def linkCode (x : BondSt) : Nat := match x.phase with | .down => 0 | .up => 2 | _ => 1

/-- Sleep state code. -/
def sleepCode : SleepSt → Nat
  | .l0 => 0
  | .ls => 1
  | .ld => 2

/-- LINK.STATUS (R499, R503). -/
def vLinkStatus : Verb where
  op := 0x1E05
  fits := fun s h => isA s .bond h
  act := fun c s =>
    let b := idx c.unit
    let x := vget s.link.bond b
    okWith (if argBit c 0 0 then bondMod b (fun x => { x with resets := 0, replays := 0, crcErrs := 0, codewords := 0 }) s else s)
      (le 1 (unitState s c.unit) ++ le 1 (linkCode x) ++ le 1 x.rate ++ le 1 (maskWidth x.mask) ++ le 2 x.mask.toNat ++ le 1 (sleepCode x.txSleep) ++ le 1 (sleepCode x.rxSleep) ++
       le 4 x.resets ++ le 4 x.replays ++ le 4 x.crcErrs ++ le 4 x.codewords ++ le 4 (mbUp (bondCost s b)) ++ le 4 (fFloor (fMul (bondCapacity x) 1 1000000)) ++
       le 1 x.cause ++ le 3 0 ++ timeB x.upTime)

/-- LINK.LANE_STATUS (R503). -/
def vLinkLaneStatus : Verb where
  op := 0x1E06
  fits := fun s h => isA s .lane h
  act := fun c s =>
    let j := idx c.unit
    let l := vget s.link.lane j
    okWith s (le 1 (match l.state with | .unused => 0 | .training => 1 | .inService => 2 | .left => 3 | .absent => 4) ++ le 1 l.logical ++ le 1 l.fom ++ le 1 l.fomCal ++
      le 1 (laneThreshold s j) ++ le 1 l.rate ++ le 2 0 ++ le 4 l.errors ++ le 4 l.departures ++ timeB l.lastCheck)

def execLinkBond (c : Cmd) (s : State) : Host.Outcome State Fault Refusal := settle s (runVerb vLinkBond c s)
def execLinkRetrain (c : Cmd) (s : State) : Host.Outcome State Fault Refusal := settle s (runVerb vLinkRetrain c s)
def execLinkAperture (c : Cmd) (s : State) : Host.Outcome State Fault Refusal := settle s (runVerb vLinkAperture c s)
def execLinkReadapt (c : Cmd) (s : State) : Host.Outcome State Fault Refusal := settle s (runVerb vLinkReadapt c s)
def execLinkStatus (c : Cmd) (s : State) : Host.Outcome State Fault Refusal := settle s (runVerb vLinkStatus c s)
def execLinkLaneStatus (c : Cmd) (s : State) : Host.Outcome State Fault Refusal := settle s (runVerb vLinkLaneStatus c s)
def execLReset (b : Fin 8) (cause : Fin 8) (s : State) : Host.Outcome State Fault Refusal := settle s (lReset b cause s)
def execCap (lane : Fin 144) (blk : Bytes) (s : State) : Host.Outcome State Fault Refusal := settle s (capTake lane false blk s)
def execCapAck (lane : Fin 144) (blk : Bytes) (s : State) : Host.Outcome State Fault Refusal := settle s (capTake lane true blk s)
def execLaneMapTimeout (b : Fin 8) (s : State) : Host.Outcome State Fault Refusal := settle s (laneMapTimeout b s)
def execStep (b : Fin 8) (s : State) : Host.Outcome State Fault Refusal := settle s (stepSend b s)
def execStepAck (lane : Fin 144) (blk : Bytes) (s : State) : Host.Outcome State Fault Refusal := settle s (stepAck lane blk s)
def execReceiverAdapted (b : Fin 8) (s : State) : Host.Outcome State Fault Refusal := settle s (receiverAdapted b s)
def execPrbsCheckDone (b : Fin 8) (found : List (Fin 144 × Nat × Nat)) (s : State) : Host.Outcome State Fault Refusal :=
  settle s (prbsCheck b (found.map fun x => (x.1.val, x.2.1, x.2.2)) s)
def execResult (lane : Fin 144) (blk : Bytes) (s : State) : Host.Outcome State Fault Refusal := settle s (resultTake lane blk s)
def execResultTimeout (b : Fin 8) (s : State) : Host.Outcome State Fault Refusal := settle s (resultTimeout b s)
def execBondUp (b : Fin 8) (s : State) : Host.Outcome State Fault Refusal := settle s (bondRise b s)
def execAlign (lane : Fin 144) (blk : Bytes) (s : State) : Host.Outcome State Fault Refusal := settle s (alignTake lane blk s)
def execAlignMarkerSend (b : Fin 8) (s : State) : Host.Outcome State Fault Refusal := settle s (alignSend b s)
def execWidth (lane : Fin 144) (blk : Bytes) (s : State) : Host.Outcome State Fault Refusal := settle s (widthTake lane blk s)
def execWidthAck (lane : Fin 144) (blk : Bytes) (s : State) : Host.Outcome State Fault Refusal := settle s (widthAck lane blk s)
def execSleep (lane : Fin 144) (blk : Bytes) (s : State) : Host.Outcome State Fault Refusal := settle s (sleepTake lane blk s)
def execRetrain (lane : Fin 144) (blk : Bytes) (s : State) : Host.Outcome State Fault Refusal := settle s (retrainTake lane blk s)
def execFlitReceived (b : Fin 8) (flit : Bytes) (badCodewords : Nat) (s : State) : Host.Outcome State Fault Refusal := settle s (flitTake b flit badCodewords s)
def execAckSendDue (b : Fin 8) (s : State) : Host.Outcome State Fault Refusal := settle s (ackSend b s)
def execReplayTimeout (b : Fin 8) (s : State) : Host.Outcome State Fault Refusal := settle s (replayTimeout b s)
def execWinRd (b : Fin 8) (tag : BitVec 16) (addr rlen : Nat) (s : State) : Host.Outcome State Fault Refusal := settle s (winRdTake b tag.toNat addr rlen s)
def execWinWr (b : Fin 8) (tag : BitVec 16) (addr : Nat) (data : Bytes) (s : State) : Host.Outcome State Fault Refusal := settle s (winWrTake b tag.toNat addr data s)
def execMemRd (b : Fin 8) (tag : BitVec 16) (addr rlen : Nat) (s : State) : Host.Outcome State Fault Refusal := settle s (memRdTake b tag.toNat addr rlen s)
def execMemWr (b : Fin 8) (addr : Nat) (data : Bytes) (s : State) : Host.Outcome State Fault Refusal := settle s (memWrTake b addr data s)
def execWhistle (b : Fin 8) (m : Fin 64) (v : BitVec 32) (s : State) : Host.Outcome State Fault Refusal := settle s (whistleTake b m v s)
def execCredit (b : Fin 8) (incs : Vector (BitVec 16) 4) (s : State) : Host.Outcome State Fault Refusal := settle s (creditTake b incs s)
def execMemRdCompletion (b : Fin 8) (tag : BitVec 16) (status : Nat) (data : Bytes) (s : State) : Host.Outcome State Fault Refusal := settle s (cplTake b tag.toNat status data s)
def execCplTimeout (b : Fin 8) (tag : BitVec 16) (s : State) : Host.Outcome State Fault Refusal := settle s (cplTimeout b tag.toNat s)
def execCreditReturnDue (b : Fin 8) (s : State) : Host.Outcome State Fault Refusal := settle s (creditReturn b s)
def execFomCheck (lane : Fin 144) (fom : BitVec 8) (s : State) : Host.Outcome State Fault Refusal := settle s (fomCheck lane fom.toNat s)
def execReadaptTimer (lane : Fin 144) (s : State) : Host.Outcome State Fault Refusal := settle s (readaptTimer lane s)
def execLaneReadaptDone (lane : Fin 144) (errors fom : Nat) (s : State) : Host.Outcome State Fault Refusal := settle s (readaptDone lane errors fom s)
def execIdleSleep (b : Fin 8) (s : State) : Host.Outcome State Fault Refusal := settle s (idleSleep b s)
def execTransmitterWake (b : Fin 8) (s : State) : Host.Outcome State Fault Refusal := settle s (transmitterWake b s)
def execLaneLockLost (lane : Fin 144) (s : State) : Host.Outcome State Fault Refusal := settle s (laneLockLost lane s)

end Sys2Proof.Machine
end

