-- ==== Sys2Proof/Machine/TimeCtr.lean ====
section
/-! DEFINITION. The time counter (R395 to R404): its states, servo, steps, PTP, PPS and the TIME verbs. -/
set_option Elab.async false
namespace Sys2Proof.Machine
open Sys2Proof

/-- Change the time counter. -/
def timeMod (f : TimeSt → TimeSt) (s : State) : State := { s with time := f s.time }

/-- Change PTP. -/
def ptpMod (f : PtpSt → PtpSt) (s : State) : State := timeMod (fun t => { t with ptp := f t.ptp }) s

/-- Nominal INCREMENT, 2^-48 ns (R395). -/
def nominalInc : Nat := 10 * 2 ^ 48

/-- A part in a million of the nominal INCREMENT, times n. -/
def ppm (n : Nat) : Nat := nominalInc * n / 1000000

def tSource (s : State) : Nat := fld s.time.cfg 1 0
def tPort (s : State) : Nat := fld s.time.cfg 15 12
def tLockPs (s : State) : Nat := fld s.time.cfg 63 32
def tMaxSlew (s : State) : Nat := fld s.time.cfg 111 96

/-- A reference cycle passes (R395): the counter advances by INCREMENT, and an offset asked for by TIME.ADJUST is slewed at MAX_SLEW_PPM, the
whole within 500 ppm of nominal. -/
def clockTick (s : State) : State :=
  let d := min s.time.adjust.natAbs (ppm (tMaxSlew s))
  let lo : Int := (nominalInc : Int) - ppm 500 - s.time.increment
  let hi : Int := (nominalInc : Int) + ppm 500 - s.time.increment
  let e : Int := clampI lo hi (if s.time.adjust < 0 then -(d : Int) else d)
  { s with cyc := s.cyc + 1, time := { s.time with counter := ((s.time.counter : Int) + s.time.increment + e).toNat, adjust := s.time.adjust - e } }

/-- Keep the runs that make up the last 60 s (R399). -/
def keepMinute : Nat → List (Nat × Nat) → List (Nat × Nat)
  | _, [] => []
  | 0, _ => []
  | n + 1, (i, c) :: l => if n + 1 ≤ c then [(i, n + 1)] else (i, c) :: keepMinute (n + 1 - c) l

/-- A new INCREMENT; its run in LOCKED is kept (R399). -/
def setInc (v : Nat) (s : State) : State :=
  timeMod (fun t => { t with
    increment := v
    lockedInc := if t.state == .locked then keepMinute (60 * secC) ((t.increment, since s t.lockedSince) :: t.lockedInc) else t.lockedInc
    lockedSince := s.cyc }) s

/-- Mean INCREMENT over the runs. -/
def meanInc (l : List (Nat × Nat)) (v : Nat) : Nat :=
  let n := (l.map (·.2)).sum
  if n = 0 then v else roundDiv ((l.map fun x => x.1 * x.2).sum) n

/-- The counter changes state (R396, R399): EV_TIME_STATE. -/
def timeGo (new : TimeState) (s : State) : State :=
  let old := timeStateCode s
  let s := setInc s.time.increment s
  let s := timeMod (fun t => { t with
    state := new, accepted := 0, outlierRun := 0, lockedSince := s.cyc
    holdSecs := if t.state == .holdover then wrapAdd 32 t.holdSecs (since s t.holdFrom / secC) else t.holdSecs
    holdSince := if new == .holdover then s.cyc else t.holdSince
    holdFrom := if new == .holdover then s.cyc else t.holdFrom
    increment := if new == .holdover then meanInc t.lockedInc t.increment else t.increment
    slew := if new == .holdover then 0 else t.slew }) s
  raise 0xD8 0 0x0D00 (le 1 (timeStateCode s) ++ le 1 old ++ le 1 (tSource s)) s

/-- The source is lost (R396, R400, R402, R403). -/
def sourceLost (s : State) : State := if s.time.state == .locked then timeGo .holdover s else s

/-- The source returns (R396). -/
def sourceReturns (s : State) : State := if s.time.state == .holdover then timeGo .acquiring s else s

/-- The counter steps to a new value (R397, R398, R405): EV_TIME_STEP; the density periods in progress end and the marker fits restart; an
update period in progress ends at the next boundary of the counter (R100); the records whose interval it cuts note it (R594). -/
def timeStep (v : Nat) (s : State) : State :=
  let before := now s
  let s := timeMod (fun t => { t with counter := v, steps := wrapAdd 32 t.steps 1, stepsAll := t.stepsAll + 1, steppedTo := some (v / 2 ^ 32) }) s
  let s := densStepped { s with
    synth := { s.synth with markers := Vector.replicate 2 [] }
    events := { s.events with pins := s.events.pins.map fun p => { p with
      stepped := p.stepped || (!p.complete && p.startTime ≤ before && before ≤ p.endTime) } }
    cals := s.cals.map fun c => { c with periodFrom := min c.periodFrom (now s) } }
  raise 0xD9 0 0x0D00 (timeB before) s

/-- The servo takes an offset in ps (R397): its slew opposes the offset within MAX_SLEW_PPM, and INCREMENT stays within 500 ppm. The gains are
not stated: the size of the slew and the change of the frequency correction are free (log 20). -/
def servo (off : Int) (s : State) : State :=
  match draw s with
  | (v, s) =>
    let m := ppm (tMaxSlew s)
    let lim : Int := ppm 500
    let a : Int := v % (m + 1)
    let slew : Int := if off < 0 then a else if 0 < off then -a else 0
    let corr := clampI (-lim) lim ((v / (m + 1) % (2 * ppm 500 + 1) : Nat) - lim)
    let s := setInc ((nominalInc : Int) + clampI (-lim) lim (corr + slew)).toNat s
    timeMod (fun t => { t with integral := corr, slew := slew, measAt := s.cyc, lastOffset := off }) s

/-- The offset that the servo predicts, ps: the last one and what the slew has taken off since (R397). -/
def servoPredict (s : State) : Int := s.time.lastOffset + s.time.slew * since s s.time.measAt * 1000 / 2 ^ 48

/-- An outlier is discarded and counted; the fourth in a row leaves LOCKED (R396, R397). -/
def outlier (off : Int) (s : State) : State :=
  let s := timeMod (fun t => { t with outliers := wrapAdd 32 t.outliers 1, outlierRun := t.outlierRun + 1 }) s
  let s := raise (if tSource s = 3 then 0xDD else 0xDB) 3 0x0D00 (le 8 (unsgn 64 off)) s
  if 4 ≤ s.time.outlierRun then timeGo .acquiring s else s

/-- A measurement is accepted in ACQUIRING: 16 in a row within LOCK_PS lock, under PTP_HA once L1_SYNC is UP (R396, R402). -/
def acquire (off : Int) (s : State) : State :=
  let n := if decide (off.natAbs ≤ tLockPs s) then s.time.accepted + 1 else 0
  let s := timeMod (fun t => { t with accepted := n }) s
  let s := if bitAt s.time.cfg 2 && fld s.time.cfg 95 64 * 1000 ≤ off.natAbs then
      timeStep ((s.time.counter : Int) - off * 2 ^ 48 / 1000).toNat (timeMod (fun t => { t with lastOffset := off, measAt := s.cyc, slew := 0 }) s)
    else servo off s
  if 16 ≤ n && (tSource s != 2 || s.time.ptp.l1Up) then timeGo .locked s else s

/-- DISCIPLINE_MEASUREMENT (R396, R397). -/
def measure (off : Int) (s : State) : State :=
  match s.time.state with
  | .acquiring => acquire off s
  | .locked => if decide (8 * tLockPs s < (off - servoPredict s).natAbs) then outlier off s else servo off (timeMod (fun t => { t with outlierRun := 0 }) s)
  | _ => s

/-! ### PTP (R400 to R402) -/

/-- PTP is the source and its port is up. -/
def ptpOn (s : State) : Bool := (tSource s == 1 || tSource s == 2) && (vget s.eth (tPort s)).up

/-- 2^log seconds in reference cycles. -/
def logSecs (l : Int) : Nat := if l < 0 then secC / 2 ^ l.natAbs else secC * 2 ^ l.natAbs

/-- The device's clock identity: the EUI-64 of the port's MAC address (PRESUMED log 21). -/
def clockIdentity (s : State) : BitVec 64 :=
  let m := s.sec.otp.macBase.toNat + tPort s
  BitVec.ofNat 64 ((m / 2 ^ 24 % 2 ^ 24) * 2 ^ 40 + 0xFFFE * 2 ^ 24 + m % 2 ^ 24)

/-- Order of datasets, the lower better; ties by identity and port (R401). -/
def rankLt : List Nat → List Nat → Bool
  | _, [] => false
  | [], _ => true
  | a :: as, b :: bs => if a = b then rankLt as bs else decide (a < b)

def masterKey (m : PtpMaster) : List Nat := m.rank ++ [m.identity.toNat, m.port]

/-- The best master. -/
def bestMaster : List PtpMaster → Option PtpMaster
  | [] => none
  | m :: ms => match bestMaster ms with
    | none => some m
    | some b => if rankLt (masterKey b) (masterKey m) then some b else some m

/-- The selected master. -/
def selMaster (s : State) : Option PtpMaster := s.time.ptp.selected.bind fun k => s.time.ptp.masters.find? fun m => (m.identity, m.port) == k

/-- A message comes from the selected master in the domain. -/
def fromMaster (s : State) (domain : Nat) (id : BitVec 64) (port : Nat) : Bool := domain == fld s.time.cfg 11 4 && s.time.ptp.selected == some (id, port)

/-- An Announce (R401). -/
def ptpAnnounce (id : BitVec 64) (port : Nat) (rank : List Nat) (utc logA : Int) (s : State) : State :=
  let m : PtpMaster := ⟨id, port, rank, utc, logA, s.cyc⟩
  let s := ptpMod (fun p => { p with masters := m :: p.masters.filter fun x => !(x.identity == id && x.port == port) }) s
  let best := (bestMaster s.time.ptp.masters).map fun b => (b.identity, b.port)
  let s := if best == s.time.ptp.selected then s else
    let s := ptpMod (fun p => { p with selected := best, waiting := none, sync := none, delayReq := none, announceAt := s.cyc, syncAt := s.cyc, lost := true }) s
    match best with
    | some b => raise 0xDA 1 0x0D00 (le 8 b.1.toNat ++ le 2 b.2) s
    | none => s
  if s.time.ptp.selected == some (id, port) then ptpMod (fun p => { p with announceAt := s.cyc }) s else s

/-- A Sync arrives: the source is heard again, unless PTP_HA waits for L1_SYNC (R396, R402). -/
def ptpHeard (s : State) : State :=
  let s := ptpMod (fun p => { p with lost := false }) s
  if tSource s = 2 && !s.time.ptp.l1Up then s else sourceReturns s

/-- The exchange is complete (R401): offset and mean path delay in ps. -/
def ptpExchange (t3 t4 : Int) (s : State) : State :=
  match s.time.ptp.sync with
  | none => s
  | some (t1, t2) =>
    let off := ((t2 - t1) - (t4 - t3)) * 1000 / 131072 - sgn 16 (fld s.time.cfg 255 240)
    let path := ((t2 - t1) + (t4 - t3)) * 1000 / 131072
    measure off (timeMod (fun t => { t with pathDelay := path }) s)

/-- PTP_MESSAGE (R401, R409). -/
def ptpTake (m : PtpMsg) (s : State) : State :=
  if !ptpOn s then s else
  match m with
  | .announce d id port rank utc logA => if d = fld s.time.cfg 11 4 then ptpAnnounce id port rank utc logA s else s
  | .sync d id port q two logS t1 t2 corr =>
    if fromMaster s d id port && decide (-7 ≤ logS) && decide (logS ≤ 1) then
      ptpHeard (ptpMod (fun p => if two then { p with syncAt := s.cyc, logSync := logS, waiting := some (q, t2 - corr) }
        else { p with syncAt := s.cyc, logSync := logS, waiting := none, sync := some (t1, t2 - corr) }) s)
    else s
  | .followUp d id port q t1 corr =>
    if fromMaster s d id port then
      match s.time.ptp.waiting with
      | some (w, t2) => if w = q then ptpMod (fun p => { p with waiting := none, sync := some (t1 + corr, t2) }) s else s
      | none => s
    else s
  | .delayResp d id port q req logD t4 corr =>
    if fromMaster s d id port && req == clockIdentity s then
      match s.time.ptp.delayReq with
      | some (w, t3) => if w = q then ptpExchange t3 (t4 - corr) (ptpMod (fun p => { p with delayReq := none, logDelay := logD }) s) else s
      | none => s
    else s
  | .other => s

/-- A frame leaves port p (R408; log 13). -/
def ethSend (p kind : Nat) (b : Bytes) (s : State) : State :=
  { s with eth := vmod s.eth p fun x => { x with sent := wrapAdd 64 x.sent 1, out := ((kind, b) :: x.out).take 16 } }

/-- A Delay_Req message (R401; its fields beyond the domain, the identity and the sequence are PRESUMED of IEEE 1588, log 21). -/
def delayReqBytes (s : State) : Bytes :=
  [0x01, 0x02] ++ be 2 44 ++ be 1 (fld s.time.cfg 11 4) ++ [0, 0, 0] ++ List.replicate 8 0 ++ List.replicate 4 0 ++ be 8 (clockIdentity s).toNat ++ be 2 1 ++
    be 2 s.time.ptp.delaySeq ++ [0x01, 0x7F] ++ List.replicate 10 0

/-- The PTP source is lost (R396, R400): EV_PTP_MASTER LOST where a master was selected. -/
def ptpLose (s : State) : State :=
  let k := s.time.ptp.selected
  let s := ptpMod (fun p => { p with lost := true, selected := none, waiting := none, sync := none, delayReq := none, masters := p.masters.filter fun m => some (m.identity, m.port) != k }) s
  let s := match k with | some b => raise 0xDA 2 0x0D00 (le 8 b.1.toNat ++ le 2 b.2) s | none => s
  sourceLost s

/-- PTP_SOURCE_TIMEOUT (R400): three Announce intervals (PRESUMED log 21) without Announce, or four Sync intervals without Sync. -/
def ptpTimeout (s : State) : State :=
  match selMaster s with
  | none => s
  | some m =>
    if !(tSource s == 1 || tSource s == 2) then s else
    let a := decide (3 * logSecs m.logAnnounce ≤ since s s.time.ptp.announceAt)
    let y := decide (4 * logSecs s.time.ptp.logSync ≤ since s s.time.ptp.syncAt)
    let s := if a then raise 0xDB 1 0x0D00 [] s else s
    let s := if y then raise 0xDB 2 0x0D00 [] s else s
    if a || y then ptpLose s else s

/-- PTP_PORT goes down (R400). -/
def ptpPortDown (p : Nat) (s : State) : State :=
  if (tSource s == 1 || tSource s == 2) && tPort s == p then ptpLose (ptpMod (fun x => { x with l1Up := false }) s) else s

/-- L1_SYNC_CHANGE (R402). -/
def l1Change (up : Bool) (s : State) : State :=
  if tSource s != 2 || s.time.ptp.l1Up == up then s else
  let s := raise 0xDC (if up then 1 else 2) 0x0D00 (le 1 (tPort s)) (ptpMod (fun p => { p with l1Up := up }) s)
  if up then (if s.time.ptp.lost then s else sourceReturns s) else sourceLost s

/-! ### PPS (R403, R404) -/

/-- Half a second, and a second, in 2^-16 ns. -/
def halfSec : Nat := secT / 2

/-- An edge of PPS_IN at a time of the counter, in 2^-16 ns (R403, R417). -/
def ppsTake (t : Int) (s : State) : State :=
  if s.time.ppsLast.any fun c => since s c < 990 * msC then timeMod (fun x => { x with ppsIgnored := wrapAdd 32 x.ppsIgnored 1 }) s else
  let s := timeMod (fun x => { x with ppsLast := some s.cyc, ppsSince := s.cyc }) s
  match s.time.setPending with
  | p :: ps =>
    let last := (ps.getLast?.getD p).2.1
    let s := if tSource s = 3 && s.time.state == .locked then timeGo .acquiring s else s
    let s := timeStep ((s.time.counter : Int) + ((last : Int) - t) * 2 ^ 32).toNat s
    let s := timeMod (fun x => { x with setPending := [] }) s
    (p :: ps).foldl (fun s p => complete p.1 0x1402 OK [] s) s
  | [] =>
    if tSource s != 3 then s else
    let s := if s.time.ppsLost then raise 0xDD 2 0x0D00 [] (timeMod (fun x => { x with ppsLost := false }) s) else s
    let s := sourceReturns s
    let e := t - ofPs (sgn 32 (fld s.time.cfg 191 160))
    let r := e % (secT : Int)
    measure (psOf (if (halfSec : Int) ≤ r then r - secT else r)) s

/-- PPS_IN_MISSING (R403). -/
def ppsMissing (s : State) : State :=
  if tSource s != 3 || s.time.ppsLost || since s s.time.ppsSince < 1500 * msC then s else
  sourceLost (raise 0xDD 1 0x0D00 [] (timeMod (fun x => { x with ppsLost := true }) s))

/-- PPS_OUT_PULSE (R404): the fall of a pulse of full width, or the rise of a second that has not had one. -/
def ppsPulse (s : State) : State :=
  match s.time.ppsOut with
  | some c => if fld s.time.cfg 232 224 * msC ≤ since s c then timeMod (fun x => { x with ppsOut := none }) s else s
  | none =>
    let e := (now s : Int) - ofPs (sgn 32 (fld s.time.cfg 223 192))
    if e < 0 then s else
    let sec := (e / (secT : Int)).toNat
    if s.time.ppsSecond.any fun l => sec ≤ l then s else
    let mode := fld s.time.cfg 234 233
    let live := mode == 1 || (mode == 2 && (s.time.state == .locked || s.time.state == .holdover))
    timeMod (fun x => { x with ppsSecond := some sec, ppsOut := if live then some s.cyc else none }) s

/-- HOLDOVER_EXPIRED (R396). -/
def holdoverExpired (s : State) : State :=
  let m := fld s.time.cfg 159 128
  if s.time.state != .holdover || m = 0 || since s s.time.holdSince < m * secC then s else
  raise 0xDE 0 0x0D00 (le 4 (since s s.time.holdSince / secC)) (timeGo .free s)

/-! ### Verbs (R417) -/

/-- TIME.CONFIGURE (R396, R415): reserved bits read 0. A new source or port starts unheard. -/
def vTimeConfigure : Verb where
  op := 0x1401
  fits := fun s h => isA s .time h
  checks := fun c _ =>
    let w := argW c 0 256
    [badArg (127 < fld w 11 4 || fld w 31 16 == 0 || 1000 < fld w 31 16 || fld w 63 32 < 10 || 1000000000 < fld w 63 32 || fld w 95 64 < 100 || 1000000000 < fld w 95 64 ||
       fld w 111 96 == 0 || 500 < fld w 111 96 || fld w 232 224 == 0 || 500 < fld w 232 224 || fld w 234 233 == 3)]
  act := fun c s =>
    let w := setFld (setFld (argW c 0 256) 127 112 0) 239 235 0
    let old := tSource s
    let moved := old != fld w 1 0 || tPort s != fld w 15 12 || fld s.time.cfg 11 4 != fld w 11 4
    let s := timeMod (fun t => { t with cfg := w }) s
    let s := if moved then timeMod (fun t => { t with ptp := {}, ppsLost := false, ppsSince := s.cyc, accepted := 0 }) s else s
    ok (if tSource s = 0 then (if s.time.state == .free then s else timeGo .free s)
      else if s.time.state == .free then timeGo .acquiring s
      else if moved then sourceLost s else s)

/-- TIME.SET (R397, R417). -/
def vTimeSet : Verb where
  op := 0x1402
  fits := fun s h => isA s .time h
  checks := fun c s => [badArg ((argT c 0).isNone || 1 < argN c 12 1), badState (tSource s == 1 || tSource s == 2)]
  act := fun c s =>
    let t := (argT c 0).getD 0
    if argN c 12 1 = 0 then
      let s := if tSource s = 3 && s.time.state == .locked then timeGo .acquiring s else s
      ok (timeStep (t * 2 ^ 32) s)
    else later (timeMod (fun x => { x with setPending := x.setPending ++ [(c, t, s.cyc)] }) s)

/-- TIME_SET_TIMEOUT (R417). -/
def timeSetTimeout (s : State) : State :=
  let due := s.time.setPending.filter fun p => 1500 * msC ≤ since s p.2.2
  due.foldl (fun s p => complete p.1 0x1402 TIMEOUT [] s) (timeMod (fun x => { x with setPending := x.setPending.filter fun p => since s p.2.2 < 1500 * msC }) s)

/-- TIME.ADJUST (R417). -/
def vTimeAdjust : Verb where
  op := 0x1403
  fits := fun s h => isA s .time h
  checks := fun _ s => [badState (tSource s != 0)]
  act := fun c s => ok (timeMod (fun x => { x with adjust := x.adjust + sgn 64 (argN c 0 8) * 2 ^ 48 / 1000 }) s)

/-- TIME.READ (R417). -/
def vTimeRead : Verb where
  op := 0x1404
  fits := fun s h => isA s .time h
  act := fun _ s => okWith s (timeB (now s) ++ le 1 (timeStateCode s))

/-- Seconds in HOLDOVER (R417). -/
def holdSeconds (s : State) : Nat := s.time.holdSecs + (if s.time.state == .holdover then since s s.time.holdFrom / secC else 0)

/-- Counts of the time counter at zero (R415, R417). -/
def timeClear (s : State) : State :=
  timeMod (fun t => { t with steps := 0, outliers := 0, holdSecs := 0, holdFrom := s.cyc }) s

/-- TIME.STATUS (R417). -/
def vTimeStatus : Verb where
  op := 0x1405
  fits := fun s h => isA s .time h
  act := fun c s =>
    let m := selMaster s
    okWith (if argBit c 0 0 then timeClear s else s)
      (le 1 (timeStateCode s) ++ le 1 (tSource s) ++ le 1 (b2n s.time.ptp.l1Up) ++ [0] ++ le 8 (unsgn 64 s.time.lastOffset) ++ le 8 (unsgn 64 s.time.pathDelay) ++
       le 4 (unsgn 32 (roundDivI (s.time.integral * 1000000 * 65536) nominalInc)) ++ le 8 ((m.map (·.identity.toNat)).getD 0) ++ le 2 ((m.map (·.port)).getD 0) ++
       le 2 (unsgn 16 ((m.map (·.utcOffset)).getD 0)) ++ le 4 s.time.steps ++ le 4 s.time.outliers ++ le 4 (holdSeconds s))

def execTimeConfigure (c : Cmd) (s : State) : Host.Outcome State Fault Refusal := settle s (runVerb vTimeConfigure c s)
def execTimeSet (c : Cmd) (s : State) : Host.Outcome State Fault Refusal := settle s (runVerb vTimeSet c s)
def execTimeAdjust (c : Cmd) (s : State) : Host.Outcome State Fault Refusal := settle s (runVerb vTimeAdjust c s)
def execTimeRead (c : Cmd) (s : State) : Host.Outcome State Fault Refusal := settle s (runVerb vTimeRead c s)
def execTimeStatus (c : Cmd) (s : State) : Host.Outcome State Fault Refusal := settle s (runVerb vTimeStatus c s)
def execTimeSetTimeout (s : State) : Host.Outcome State Fault Refusal := settle s (timeSetTimeout s)
def execPtpMessage (m : PtpMsg) (s : State) : Host.Outcome State Fault Refusal := settle s (ptpTake m s)
def execPtpSourceTimeout (s : State) : Host.Outcome State Fault Refusal := settle s (ptpTimeout s)
def execL1SyncChange (up : Bool) (s : State) : Host.Outcome State Fault Refusal := settle s (l1Change up s)
def execPpsInMissing (s : State) : Host.Outcome State Fault Refusal := settle s (ppsMissing s)
def execPpsOutPulse (s : State) : Host.Outcome State Fault Refusal := settle s (ppsPulse s)
def execHoldoverExpired (s : State) : Host.Outcome State Fault Refusal := settle s (holdoverExpired s)

end Sys2Proof.Machine
end

