-- ==== Sys2Proof/Machine/Eth.lean ====
section
/-! DEFINITION. Ethernet ports and VITA 49.2 output (R407 to R417). -/
set_option Elab.async false
namespace Sys2Proof.Machine
open Sys2Proof

/-- Change port p. -/
def ethMod (p : Nat) (f : EthSt → EthSt) (s : State) : State := { s with eth := vmod s.eth p f }

/-! ### Fields of ETH_PORT_CFG (R415) -/

def eOn (w : BitVec 256) : Bool := bitAt w 0
def eRate (w : BitVec 256) : Nat := fld w 1 1
def eFec (w : BitVec 256) : Nat := fld w 3 2
def eLane (w : BitVec 256) : Nat := fld w 15 8
def eVlan (w : BitVec 256) : Nat := fld w 27 16
def eMtu (w : BitVec 256) : Nat := if bitAt w 4 then 9000 else 1500
def eIp4 (w : BitVec 256) : Nat := fld w 111 80
def eIp6 (w : BitVec 256) : Nat := fld w 255 128

/-- MAC address of port p (R408). -/
def ethMac (s : State) (p : Nat) : Nat := (s.sec.otp.macBase.toNat + p) % 2 ^ 48

/-- The EUI-64 link-local address of port p (R408). -/
def ethLocal (s : State) (p : Nat) : Nat :=
  let m := ethMac s p
  0xFE80 * 2 ^ 112 + (((m / 2 ^ 24) ^^^ 0x020000) * 2 ^ 40 + 0xFFFE * 2 ^ 24 + m % 2 ^ 24)

/-! ### Links (R389, R400, R416) -/

/-- A port's link drops: EV_ETH_LINK DOWN; PTP on it is lost (R389, R400, R416). -/
def ethDrop (p : Nat) (s : State) : State :=
  let x := vget s.eth p
  if x.up then ptpPortDown p (raise 0x4A 2 (0x0E00 + p) (le 1 (eRate x.cfg) ++ le 1 (eFec x.cfg)) (ethMod p (fun x => { x with up := false }) s)) else s

/-- ETH_LINK_CHANGE (R416, R417): a link that comes up ends the wait of the commands that asked for it. -/
def ethLink (p : Nat) (up : Bool) (s : State) : State :=
  let x := vget s.eth p
  if !s.boot.mainOn || !eOn x.cfg || x.up == up then s
  else if up then
    let s := raise 0x4A 1 (0x0E00 + p) (le 1 (eRate x.cfg) ++ le 1 (eFec x.cfg)) (ethMod p (fun x => { x with up := true, wait := [] }) s)
    x.wait.foldl (fun s w => complete w.1 w.2 OK [] s) s
  else ethDrop p s

/-- UNIT.REINIT of a port retrains its link (R44, R415): the command waits for it, unless the port is disabled. -/
def ethReinit (p : Nat) (c : Cmd) (op : Nat) (s : State) : Bool × State :=
  if eOn (vget s.eth p).cfg then (true, ethMod p (fun x => { x with wait := x.wait ++ [(c, op)] }) (ethDrop p s)) else (false, s)

/-- Another enabled port of the octet runs at another rate (R407). -/
def ethMixed (s : State) (p : Nat) (w : BitVec 256) : Bool :=
  (List.range 16).any fun q => q != p && eOn (vget s.eth q).cfg && eLane (vget s.eth q).cfg / 8 == eLane w / 8 && eRate (vget s.eth q).cfg != eRate w

/-- ETH.CONFIGURE (R388, R407, R415, R417): reserved bits and MAC_ADDR keep what they read. -/
def vEthConfigure : Verb where
  op := 0x1601
  fits := fun s h => isA s .eth h
  checks := fun c s =>
    let p := idx c.unit
    let w := argW c 0 256
    let x := (vget s.eth p).cfg
    let j := eLane w
    [badArg (eFec w == 3 || (eFec w == 2 && eRate w == 0) || 143 < j || eVlan w == 4095),
     badState (eOn w && ((List.range 8).any fun i => (laneBond s (j / 8 * 8 + i)).isSome)), badState (eOn w && (laneEth s j).any (· != p)), badState (eOn w && ethMixed s p w),
     badState (eOn w && s.disp.enabled && 136 ≤ j && j ≤ 139), badState (eOn w && fld (vget s.synth.loop (8 + j / 8)).cfg 3 2 != 0),
     badState (eOn x && eOn w && (eLane x != j || eRate x != eRate w))]
  act := fun c s =>
    let p := idx c.unit
    let w := setFld (setFld (setFld (setFld (argW c 0 256) 7 5 0) 31 31 0) 79 32 0) 127 112 0
    let x := vget s.eth p
    if !eOn w then
      let s := ethMod p (fun x => { x with cfg := w, wait := [] }) (ethDrop p s)
      ok (x.wait.foldl (fun s q => complete q.1 q.2 REFUSED_STATE [] s) s)
    else if x.up && eFec x.cfg == eFec w then ok (ethMod p (fun x => { x with cfg := w }) s)
    else later (ethMod p (fun x => { x with cfg := w, wait := x.wait ++ [(c, 0x1601)] }) (ethDrop p s))

/-- ETH.STATUS (R417). -/
def vEthStatus : Verb where
  op := 0x1604
  fits := fun s h => isA s .eth h
  act := fun c s =>
    let p := idx c.unit
    let x := vget s.eth p
    okWith (if argBit c 0 0 then ethMod p (fun x => { x with sent := 0, received := 0, dropped := 0, fecCorrected := 0, fecUncorrected := 0, vitaSkips := 0 }) s else s)
      (le 1 (unitState s c.unit) ++ le 1 (b2n x.up) ++ [0, 0] ++ le 8 x.sent ++ le 8 x.received ++ le 4 x.dropped ++ le 4 x.fecCorrected ++ le 4 x.fecUncorrected ++ le 4 x.vitaSkips)

/-! ### Received frames (R408) -/

/-- n bytes from an offset as a number in network order. -/
def beAt (b : Bytes) (off n : Nat) : Nat := leNat (bytesAt b off n).reverse

/-- 16-bit words of bytes in network order, summed. -/
def sum16 : Bytes → Nat
  | [] => 0
  | [a] => 256 * a.toNat
  | a :: b :: r => 256 * a.toNat + b.toNat + sum16 r

/-- The Internet checksum of bytes (log 13). -/
def inetSum (b : Bytes) : Nat :=
  let f := fun n => n % 65536 + n / 65536
  0xFFFF - f (f (sum16 b))

/-- A frame of port p: addresses, the port's tag, the type and what it holds (R408). -/
def ethFrame (s : State) (p dst type : Nat) (b : Bytes) : Bytes :=
  let w := (vget s.eth p).cfg
  be 6 dst ++ be 6 (ethMac s p) ++ (if eVlan w = 0 then [] else be 2 0x8100 ++ be 2 (fld w 30 28 * 8192 + eVlan w)) ++ be 2 type ++ b

/-- An ICMP reply in IPv4 (log 13). -/
def ip4Frame (s : State) (p dst toIp : Nat) (b : Bytes) : Bytes :=
  let h := fun (sum : Nat) => [0x45, 0] ++ be 2 (20 + b.length) ++ [0, 0, 0, 0, 64, 1] ++ be 2 sum ++ be 4 (eIp4 (vget s.eth p).cfg) ++ be 4 toIp
  ethFrame s p dst 0x0800 (h (inetSum (h 0)) ++ b)

/-- An ICMPv6 message in IPv6, its checksum made (log 13). -/
def ip6Frame (s : State) (p dst fromIp toIp : Nat) (b : Bytes) : Bytes :=
  let pseudo := be 16 fromIp ++ be 16 toIp ++ be 4 b.length ++ [0, 0, 0, 58]
  ethFrame s p dst 0x86DD ([0x60, 0, 0, 0] ++ be 2 b.length ++ [58, 255] ++ be 16 fromIp ++ be 16 toIp ++ b.take 2 ++ be 2 (inetSum (pseudo ++ b)) ++ b.drop 4)

/-- A UDP datagram to an IPv4 or IPv6 address in its frame, its checksums made (log 13). -/
def udpFrame (s : State) (p dstMac : Nat) (v6 : Bool) (toIp fromPort toPort : Nat) (b : Bytes) : Bytes :=
  let w := (vget s.eth p).cfg
  let len := 8 + b.length
  let pseudo := if v6 then be 16 (eIp6 w) ++ be 16 toIp ++ be 4 len ++ [0, 0, 0, 17] else be 4 (eIp4 w) ++ be 4 toIp ++ [0, 17] ++ be 2 len
  let u := fun (sum : Nat) => be 2 fromPort ++ be 2 toPort ++ be 2 len ++ be 2 sum ++ b
  let c := inetSum (pseudo ++ u 0)
  let u := u (if c = 0 then 0xFFFF else c)
  if v6 then ethFrame s p dstMac 0x86DD ([0x60, 0, 0, 0] ++ be 2 len ++ [17, 64] ++ be 16 (eIp6 w) ++ be 16 toIp ++ u)
  else
    let h := fun (sum : Nat) => [0x45, 0] ++ be 2 (20 + len) ++ [0, 0, 0, 0, 64, 17] ++ be 2 sum ++ be 4 (eIp4 w) ++ be 4 toIp
    ethFrame s p dstMac 0x0800 (h (inetSum (h 0)) ++ u)

/-- A PTP event message in the frame of its transport (R401): UDP to 224.0.1.129, or EtherType 0x88F7 to 01-1B-19-00-00-00. -/
def ptpFrame (s : State) (b : Bytes) : Bytes :=
  if fld s.time.cfg 3 3 = 0 then udpFrame s (tPort s) 0x01005E000181 false 0xE0000181 319 319 b else ethFrame s (tPort s) 0x011B19000000 0x88F7 b

/-- PTP_DELAY_REQ_SEND (R401, R409): at the interval that the master asks for. -/
def delayReqSend (t3 : Int) (s : State) : State :=
  let p := s.time.ptp
  if !ptpOn s || p.selected.isNone || p.sync.isNone || since s p.delayAt < logSecs p.logDelay then s else
  ethSend (tPort s) 3 (ptpFrame s (delayReqBytes s)) (ptpMod (fun p => { p with delayReq := some (p.delaySeq, t3), delaySeq := wrapAdd 16 p.delaySeq 1, delayAt := s.cyc }) s)

/-- A frame is dropped and counted (R408); RX_DROP at most once a second, with the frames dropped since the last (R416). -/
def ethRxDrop (p : Nat) (s : State) : State :=
  let x := vget s.eth p
  let n := x.dropEv.2 + 1
  let s := ethMod p (fun x => { x with dropped := wrapAdd 32 x.dropped 1, dropEv := (x.dropEv.1, n) }) s
  if x.dropEv.1.any fun c => since s c < secC then s
  else raise 0x4B 2 (0x0E00 + p) (le 4 n) (ethMod p (fun x => { x with dropEv := (some s.cyc, 0) }) s)

/-- An echo reply, at up to 1,000 in a second (R408). -/
def ethEcho (p : Nat) (f : Bytes) (s : State) : State :=
  let x := vget s.eth p
  let sec := s.cyc / secC
  let n := if x.echoes.1 = sec then x.echoes.2 else 0
  if 1000 ≤ n then ethRxDrop p s else ethSend p 2 f (ethMod p (fun x => { x with echoes := (sec, n + 1) }) s)

/-- The UDP port of PTP event and general messages (PRESUMED log 21). -/
def isPtpUdp (n : Nat) : Bool := n == 319 || n == 320

/-- What port p does with an IPv4 packet: echo of its own address, PTP on PTP_PORT, nothing else (R408). -/
def ethIp4 (p src : Nat) (b : Bytes) (s : State) : State :=
  let w := (vget s.eth p).cfg
  let h := numAt b 0 1 % 16 * 4
  let m := (b.take (beAt b 2 2)).drop h
  let mine := eIp4 w != 0 && beAt b 16 4 == eIp4 w
  if mine && numAt b 9 1 == 1 && numAt m 0 1 == 8 then
    let r := fun (sum : Nat) => [0, numAt m 1 1].map (BitVec.ofNat 8) ++ be 2 sum ++ m.drop 4
    ethEcho p (ip4Frame s p src (beAt b 12 4) (r (inetSum (r 0)))) s
  else if numAt b 9 1 == 17 && isPtpUdp (beAt m 2 2) && p == tPort s && fld s.time.cfg 3 3 == 0 then s
  else ethRxDrop p s

/-- What port p does with an IPv6 packet: neighbour solicitation and echo of its own addresses (R408). -/
def ethIp6 (p src : Nat) (b : Bytes) (s : State) : State :=
  let w := (vget s.eth p).cfg
  let m := (b.drop 40).take (beAt b 4 2)
  let mine := fun (a : Nat) => (eIp6 w != 0 && a == eIp6 w) || a == ethLocal s p
  let dst := beAt b 24 16
  let frm := beAt b 8 16
  if numAt b 6 1 == 58 && numAt m 0 1 == 135 && mine (beAt m 8 16) then
    ethSend p 1 (ip6Frame s p src (beAt m 8 16) frm ([136, 0, 0, 0, 0x60, 0, 0, 0] ++ bytesAt m 8 16 ++ [2, 1] ++ be 6 (ethMac s p))) s
  else if numAt b 6 1 == 58 && numAt m 0 1 == 128 && mine dst then
    ethEcho p (ip6Frame s p src dst frm ([129, 0, 0, 0] ++ m.drop 4)) s
  else ethRxDrop p s

/-- ETH_FRAME_RECEIVED (R408): a frame of destination, source, the port's tag, type and payload, without its check sequence. -/
def ethReceive (p : Nat) (f : Bytes) (s : State) : State :=
  let x := vget s.eth p
  if !x.up then s else
  let s := ethMod p (fun x => { x with received := wrapAdd 64 x.received 1 }) s
  let tagged := beAt f 12 2 == 0x8100
  let b := f.drop (if tagged then 18 else 14)
  let type := beAt f (if tagged then 16 else 12) 2
  let vlan := if tagged then beAt f 14 2 % 4096 else 0
  let src := beAt f 6 6
  let ip := eIp4 x.cfg
  if eMtu x.cfg < b.length || vlan != eVlan x.cfg then ethRxDrop p s
  else if type == 0x0806 then
    (if beAt b 6 2 == 1 && ip != 0 && beAt b 24 4 == ip then
      ethSend p 0 (ethFrame s p src 0x0806 ([0, 1, 8, 0, 6, 4, 0, 2] ++ be 6 (ethMac s p) ++ be 4 ip ++ bytesAt b 8 10)) s
     else ethRxDrop p s)
  else if type == 0x0800 then ethIp4 p src b s
  else if type == 0x86DD then ethIp6 p src b s
  else if type == 0x88F7 && p == tPort s && fld s.time.cfg 3 3 == 1 then s
  else ethRxDrop p s

/-! ### VITA 49.2 (R410 to R414) -/

/-- Fields of VITA_DEF (R415). -/
def vPort (d : Bytes) : Nat := numAt d 1 1
def vRing (d : Bytes) : Nat := numAt d 4 4 % 2 ^ 20
def vMax (d : Bytes) : Nat := numAt d 50 2
def vInterval (d : Bytes) : Nat := numAt d 44 4

/-- Change stream k. -/
def vitaMod (k : Nat) (f : VitaSt → VitaSt) (s : State) : State := { s with vita := s.vita.map fun (i, v) => if i == k then (i, f v) else (i, v) }

/-- The running analysis whose output ring a ring is. -/
def ringXform (s : State) (id : Nat) : Option XformSt := s.xforms.find? fun x => xOut x.cfg == id

/-- A ring may feed a stream (R410): a sample stream, or a spectral one; none where it may not. -/
def vitaKind (s : State) (id : Nat) : Option Bool :=
  match ringOf s id with
  | none => none
  | some r =>
    if r.type = 4 then (if isWide s (idx r.owner) then some true else none)
    else if r.type = 5 then some true
    else if r.type = 6 then (match ringXform s id with | some x => if xFmt x.cfg ≤ 1 then some false else none | none => none)
    else none

/-- Line rate of a port, bits a second. -/
def lineRate (w : BitVec 256) : Nat := if eRate w = 0 then 10312500000 else 25781250000

/-- Byte rates of the streams on a port with one ring added stay within 85 % of its line rate (R417). -/
def vitaFits (s : State) (p ring : Nat) : Bool :=
  fLe (fMul (fSum (producerBytes s ring :: (s.vita.filter fun v => vPort v.2.defn == p).map fun v => producerBytes s (vRing v.2.defn))) 800 85) (lineRate (vget s.eth p).cfg, 1)

/-- ETH.VITA_CREATE (R410, R411, R414, R417): it sends from the ring's PRODUCER on. -/
def vEthVitaCreate : Verb where
  op := 0x1602
  fits := fun s h => isA s .eth h
  checks := fun c s =>
    let d := bytesAt c.args 0 64
    let p := vPort d
    let used := s.vita.any fun v => v.1 == numAt d 0 1
    [badArg (63 < numAt d 0 1 || 15 < p || (numAt d 2 1 != 4 && numAt d 2 1 != 6) || (vitaKind s (vRing d)).isNone || vMax d % 4 != 0 || vMax d < 256 ||
       eMtu (vget s.eth p).cfg - 56 < vMax d || (vitaKind s (vRing d) == some true && vMax d < 1024) || vInterval d < 100 || 60000 < vInterval d ||
       (used && s.vita.length < 64)),
     badState (s.vita.any fun v => vRing v.2.defn == vRing d), badState (!eOn (vget s.eth p).cfg),
     noRoom (64 ≤ s.vita.length) [], noRoom (!vitaFits s p (vRing d)) [], storeCond s { s with vita := s.vita ++ [(numAt d 0 1, { defn := d, pos := 0 })] }]
  act := fun c s =>
    let d := bytesAt c.args 0 64
    ok { s with vita := s.vita ++ [(numAt d 0 1, { defn := d, pos := ((ringOf s (vRing d)).map (·.producer)).getD 0 })] }

/-- ETH.VITA_DELETE (R417): a packet goes out whole within one command, so none is in progress. -/
def vEthVitaDelete : Verb where
  op := 0x1603
  fits := fun s h => isA s .eth h
  checks := fun c s => [badArg (!s.vita.any fun v => v.1 == argN c 0 1)]
  act := fun c s => ok { s with vita := s.vita.filter fun v => v.1 != argN c 0 1 }

/-- An entry that a stream sends (R410): a wideband or narrowband block, or a spectral frame. -/
def vitaTakes (s : State) (r : RingCtx) (e : EntryAt) : Bool :=
  (e.kind == 1 && blockField s r e 1 1 != 0 || e.kind == 2 && blockField s r e 33 1 ≤ 1) && !entryBad s r e

/-- The next packet of a stream at its position (R411): the entries before it that are not sent, and the blocks or the frame that it carries. -/
def vitaNext (s : State) (r : RingCtx) (v : VitaSt) : List EntryAt × List EntryAt :=
  let ahead := r.entries.filter fun e => v.pos ≤ e.pos
  let skip := ahead.takeWhile fun e => !vitaTakes s r e
  let run := (ahead.drop skip.length).takeWhile fun e => vitaTakes s r e
  (skip, if (run.head?.map (·.kind)) == some 2 then run.take 1 else (run.takeWhile fun e => e.kind == 1).take (vMax v.defn / 1024))

/-- OR of FLAGS of the entries of a packet. -/
def vitaFlags (s : State) (r : RingCtx) (es : List EntryAt) : BitVec 32 :=
  es.foldl (fun (f : BitVec 32) e => f ||| BitVec.ofNat 32 (blockField s r e 4 4)) 0

/-- Enables and indicators, as a trailer and the state and event field hold them (R412, VITA 49.2; PRESUMED log 22). -/
def vitaState (s : State) (r : RingCtx) (v : VitaSt) (es : List EntryAt) : Nat :=
  let f := vitaFlags s r es
  let bad := es.any fun e => if e.kind == 2 then blockField s r e 4 4 / 64 % 2 == 1 else blockField s r e 30 2 != 0
  0xE7 * 2 ^ 24 + b2n (!bitAt f 2) * 2 ^ 19 + b2n (!bad) * 2 ^ 18 + b2n (!bitAt f 1) * 2 ^ 17 + b2n (bitAt f 0) * 2 ^ 13 + b2n (bitAt f 5 || v.skipped) * 2 ^ 12

/-- Bandwidth, centre and rate of a sample ring in 2^-20 Hz, its attenuation and GAIN_SHIFT (R61, R116, R122, R413). -/
def vitaBand (s : State) (id : Nat) : Int × Int × Int × Nat × Nat :=
  let fs := fun (i : Nat) => (dieN s i * 10 ^ 8 / 2 ^ 12 : Int)
  let fc := fun (i : Nat) => if inPaired s i then fs i / 2 else if bitAt (vget s.inputs i).cfg 2 then 3 * fs i / 4 else fs i / 4
  match ringInput s id, ringDdc s id with
  | some i, _ => (fs i * (if inPaired s i then 14 else 7) / 16, fc i, fs i * inMult s i / 2, (vget s.inputs i).atten, 0)
  | _, some ch =>
    let c := (vget s.ddc ch).cfg
    let i := ddcSource ch c
    let rate : Int := (fMul (ringRate s id) (2 ^ 20) 1).1 / (fMul (ringRate s id) (2 ^ 20) 1).2
    (rate * (if ddcPreset c = 1 then 85 else 80) / 100, fc i + sgn 48 (fld c 239 192) * (fs i * inMult s i / 2) / 2 ^ 48, rate, (vget s.inputs i).atten, ddcGain c)
  | _, _ => (0, 0, 0, 0, 0)

/-- Fields of a context packet but its change indicator (R413): bandwidth, centre, reference level in 2^-7 dBm, rate, over-range count,
state and event indicators, payload format, and for a spectral stream N, window, detector, M and bins. -/
def vitaFields (s : State) (r : RingCtx) (v : VitaSt) (es : List EntryAt) : List Int :=
  let e := es.headD default
  let frame := e.kind == 2
  let src := if frame then blockField s r e 52 4 % 2 ^ 20 else r.id
  let (bw, rf, rate, att, g) := vitaBand s src
  let att := if frame then att else blockField s r e 40 1
  let ovs := if frame then 0 else (es.map fun e => blockField s r e 48 2).sum
  let fmt : Nat := if !frame then 0x200003CF else if blockField s r e 33 1 = 0 then 0x100003CF else 0x0E0007DF
  [bw, rf, roundDivI (1280000 + 1280000 * att - 7706368 * g) 10000, (ovs : Nat), rate, (vitaState s r v es : Nat), (fmt : Nat)] ++
    (if frame then [((2 ^ blockField s r e 32 1 : Nat) : Int), (blockField s r e 35 1 : Nat), (blockField s r e 34 1 : Nat), (blockField s r e 38 2 : Nat), (blockField s r e 44 4 : Nat)] else [])

/-- Integer seconds and picoseconds of a packet (R410). -/
def vitaStamp (t : Time) : Bytes :=
  be 4 (t / secT % 2 ^ 32) ++ be 8 (t / 65536 % 1000000000 * 1000 + roundDiv (t % 65536 * 1000) 65536)

/-- A packet: header word, stream identifier, class identifier where the definition asks for one, timestamp, body (R410; the words of the header as VITA 49.2 lays them out,
PRESUMED log 22). -/
def vitaPacket (v : VitaSt) (type count pad : Nat) (t : Time) (body : Bytes) : Bytes :=
  let d := v.defn
  let cls := numAt d 3 1 % 2
  let len := (20 + 8 * cls + body.length) / 4
  be 4 (type * 2 ^ 28 + cls * 2 ^ 27 + (if type = 1 then 2 ^ 26 else 0) + 3 * 2 ^ 22 + 2 * 2 ^ 20 + count * 2 ^ 16 + len) ++ be 4 (numAt d 32 4) ++
    (if cls = 1 then be 4 (pad * 2 ^ 27 + numAt d 36 3) ++ be 2 (numAt d 40 2) ++ be 2 (numAt d 42 2) else []) ++ vitaStamp t ++ body

/-- Body of a context packet (R413; PRESUMED log 22). -/
def vitaContextBody (changed : Bool) (f : List Int) : Bytes :=
  let n := fun (i bits : Nat) => unsgn bits (f.getD i 0)
  let spec := 7 < f.length
  be 4 (b2n changed * 2 ^ 31 + 0x29618000 + if spec then 2 else 0) ++ (if spec then be 4 0x400 else []) ++
    be 8 (n 0 64) ++ be 8 (n 1 64) ++ be 4 (n 2 16) ++ be 4 (n 3 32) ++ be 8 (n 4 64) ++ be 4 (n 5 32) ++ be 4 (n 6 32) ++ be 4 0 ++
    (if spec then be 4 (n 9 32) ++ be 4 (n 8 32) ++ be 4 (n 7 32) ++ be 4 (n 7 32) ++ be 8 (n 4 64 / max 1 (n 7 32)) ++ be 8 (n 4 64) ++ be 4 (n 10 32) ++ be 4 0 ++
      be 4 0 ++ be 4 (n 11 32) ++ be 4 0 else [])

/-- A packet of a stream in its datagram and frame (R410, R415). -/
def vitaFrame (s : State) (v : VitaSt) (b : Bytes) : Bytes :=
  let d := v.defn
  let v6 := numAt d 2 1 == 6
  udpFrame s (vPort d) (beAt d 8 6) v6 (if v6 then beAt d 16 16 else beAt d 16 4) (numAt d 48 2) (numAt d 14 2) b

/-- A stream's ring and port can serve a packet now (R362, R414). -/
def vitaReady (s : State) (v : VitaSt) : Option RingCtx :=
  match ringOf s (vRing v.defn) with
  | none => none
  | some r => if (vget s.eth (vPort v.defn)).up && !(s.power.state != .active && regionOf s.grade r.base == .store) then some r else none

/-- The send position has left the held span (R414): the stream goes on at the oldest whole entry held. -/
def vitaSkip (k : Nat) (r : RingCtx) (v : VitaSt) (s : State) : State :=
  if heldStart r ≤ v.pos then s else
  let upto := (((r.entries.filter fun e => heldStart r ≤ e.pos).head?).map (·.pos)).getD r.producer
  let s := vitaMod k (fun v => { v with pos := upto, part := 0, skipped := true, lostFirst := none }) s
  raise 0x4B 1 (0x0E00 + vPort v.defn) (le 1 k ++ [0, 0, 0] ++ timeB (v.lostFirst.getD (now s))) (ethMod (vPort v.defn) (fun x => { x with vitaSkips := wrapAdd 32 x.vitaSkips 1 }) s)

/-- A context packet goes out where one is due for the next packet (R413): at the start, after a change, at the interval. -/
def vitaContext (k : Nat) (s : State) : State :=
  match (s.vita.find? fun v => v.1 == k).map (·.2) with
  | none => s
  | some v =>
    match vitaReady s v with
    | none => s
    | some r =>
      let es := (vitaNext s r v).2
      let due := decide (vInterval v.defn * msC ≤ since s v.contextAt)
      let send := fun (f : List Int) (t : Time) =>
        ethSend (vPort v.defn) 5 (vitaFrame s v (vitaPacket v 4 0 0 t (vitaContextBody (v.context != some f) f))) (vitaMod k (fun v => { v with context := some f, contextAt := s.cyc }) s)
      if heldStart r ≤ v.pos && !es.isEmpty then
        let f := vitaFields s r v es
        if v.context != some f || due then send f (es.headD default).time else s
      else match v.context with
        | some f => if due then send f (now s) else s
        | none => s

/-- 16-bit words, or words of n bytes, from the device's order to network order (R409). -/
def swapWords (n : Nat) : Nat → Bytes → Bytes
  | 0, _ => []
  | m + 1, b => (b.take n).reverse ++ swapWords n m (b.drop n)

/-- Payload of a data block: 256 samples, I before Q, invalid samples as zeros (R410, R412). -/
def vitaBlock (s : State) (r : RingCtx) (e : EntryAt) : Bytes :=
  let x := swapWords 2 512 (ringRead s r (e.pos + 64) 1024)
  let a := 4 * blockField s r e 28 2
  let n := 4 * blockField s r e 30 2
  if n = 0 then x else padTo 1024 (x.take a ++ List.replicate n 0 ++ x.drop (a + n))

/-- VITA_SEND (R411, R412, R414): the next data packet of a stream, behind the context packet that it needs. -/
def vitaSend (k : Nat) (s : State) : State :=
  match (s.vita.find? fun v => v.1 == k).map (·.2) with
  | none => s
  | some v0 =>
    match vitaReady s v0 with
    | none => s
    | some r =>
      let s := vitaContext k (vitaSkip k r v0 s)
      match (s.vita.find? fun v => v.1 == k).map (·.2) with
      | none => s
      | some v =>
        let (skip, es) := vitaNext s r v
        let v := { v with skipped := v.skipped || skip.any (entryBad s r) }
        match es with
        | [] => s
        | e :: _ =>
          let w := if blockField s r e 33 1 = 0 then 2 else 4
          let bins := blockField s r e 44 4 * w
          let n := if e.kind == 2 then min (bins - v.part) (vMax v.defn) else 0
          let raw := if e.kind == 2 then swapWords w (n / w) (ringRead s r (e.pos + 64 + v.part) n) else es.flatMap (vitaBlock s r)
          let pad := (4 - raw.length % 4) % 4
          let done := e.kind != 2 || bins ≤ v.part + n
          let last := (es.getLast?.getD e)
          let p := vitaPacket v 1 v.count (8 * pad) e.time (raw ++ List.replicate pad 0 ++ be 4 (vitaState s r v es))
          ethSend (vPort v.defn) 4 (vitaFrame s v p) (vitaMod k (fun x => { x with
            pos := if done then last.pos + last.len else e.pos
            part := if done then 0 else v.part + n, count := (v.count + 1) % 16, skipped := false }) s)

def execEthConfigure (c : Cmd) (s : State) : Host.Outcome State Fault Refusal := settle s (runVerb vEthConfigure c s)
def execEthVitaCreate (c : Cmd) (s : State) : Host.Outcome State Fault Refusal := settle s (runVerb vEthVitaCreate c s)
def execEthVitaDelete (c : Cmd) (s : State) : Host.Outcome State Fault Refusal := settle s (runVerb vEthVitaDelete c s)
def execEthStatus (c : Cmd) (s : State) : Host.Outcome State Fault Refusal := settle s (runVerb vEthStatus c s)
def execEthFrameReceived (p : Fin 16) (frame : Bytes) (s : State) : Host.Outcome State Fault Refusal := settle s (ethReceive p.val frame s)
def execPtpDelayReqSend (t3 : Int) (s : State) : Host.Outcome State Fault Refusal := settle s (delayReqSend t3 s)
def execEthLinkChange (p : Fin 16) (up : Bool) (s : State) : Host.Outcome State Fault Refusal := settle s (ethLink p.val up s)
def execVitaSend (id : Fin 64) (s : State) : Host.Outcome State Fault Refusal := settle s (vitaSend id.val s)
def execVitaContext (id : Fin 64) (s : State) : Host.Outcome State Fault Refusal := settle s (vitaContext id.val s)

end Sys2Proof.Machine
end

