-- ==== Sys2Proof/Machine/Crypto.lean ====
section
/-! DEFINITION. SHA-384 and ECDSA over brainpoolP384r1 (R573). The spec names the two standards; their constants are PRESUMED (log 25). -/
set_option Elab.async false
namespace Sys2Proof.Machine
open Sys2Proof

/-! ### SHA-384 -/

/-- Round constants. -/
def shaK : List (BitVec 64) :=
  [0x428A2F98D728AE22, 0x7137449123EF65CD, 0xB5C0FBCFEC4D3B2F, 0xE9B5DBA58189DBBC, 0x3956C25BF348B538, 0x59F111F1B605D019, 0x923F82A4AF194F9B, 0xAB1C5ED5DA6D8118] ++
  [0xD807AA98A3030242, 0x12835B0145706FBE, 0x243185BE4EE4B28C, 0x550C7DC3D5FFB4E2, 0x72BE5D74F27B896F, 0x80DEB1FE3B1696B1, 0x9BDC06A725C71235, 0xC19BF174CF692694] ++
  [0xE49B69C19EF14AD2, 0xEFBE4786384F25E3, 0x0FC19DC68B8CD5B5, 0x240CA1CC77AC9C65, 0x2DE92C6F592B0275, 0x4A7484AA6EA6E483, 0x5CB0A9DCBD41FBD4, 0x76F988DA831153B5] ++
  [0x983E5152EE66DFAB, 0xA831C66D2DB43210, 0xB00327C898FB213F, 0xBF597FC7BEEF0EE4, 0xC6E00BF33DA88FC2, 0xD5A79147930AA725, 0x06CA6351E003826F, 0x142929670A0E6E70] ++
  [0x27B70A8546D22FFC, 0x2E1B21385C26C926, 0x4D2C6DFC5AC42AED, 0x53380D139D95B3DF, 0x650A73548BAF63DE, 0x766A0ABB3C77B2A8, 0x81C2C92E47EDAEE6, 0x92722C851482353B] ++
  [0xA2BFE8A14CF10364, 0xA81A664BBC423001, 0xC24B8B70D0F89791, 0xC76C51A30654BE30, 0xD192E819D6EF5218, 0xD69906245565A910, 0xF40E35855771202A, 0x106AA07032BBD1B8] ++
  [0x19A4C116B8D2D0C8, 0x1E376C085141AB53, 0x2748774CDF8EEB99, 0x34B0BCB5E19B48A8, 0x391C0CB3C5C95A63, 0x4ED8AA4AE3418ACB, 0x5B9CCA4F7763E373, 0x682E6FF3D6B2B8A3] ++
  [0x748F82EE5DEFB2FC, 0x78A5636F43172F60, 0x84C87814A1F0AB72, 0x8CC702081A6439EC, 0x90BEFFFA23631E28, 0xA4506CEBDE82BDE9, 0xBEF9A3F7B2C67915, 0xC67178F2E372532B] ++
  [0xCA273ECEEA26619C, 0xD186B8C721C0C207, 0xEADA7DD6CDE0EB1E, 0xF57D4F7FEE6ED178, 0x06F067AA72176FBA, 0x0A637DC5A2C898A6, 0x113F9804BEF90DAE, 0x1B710B35131C471B] ++
  [0x28DB77F523047D84, 0x32CAAB7B40C72493, 0x3C9EBE0A15C9BEBC, 0x431D67C49C100D4C, 0x4CC5D4BECB3E42B6, 0x597F299CFC657E2A, 0x5FCB6FAB3AD6FAEC, 0x6C44198C4A475817]

/-- Initial value. -/
def shaH : List (BitVec 64) :=
  [0xCBBB9D5DC1059ED8, 0x629A292A367CD507, 0x9159015A3070DD17, 0x152FECD8F70E5939] ++
  [0x67332667FFC00B31, 0x8EB44A8768581511, 0xDB0C2E0D64F98FA7, 0x47B5481DBEFA4FA4]

/-- The next word of the message schedule, from the words so far, the last first. -/
def shaNext (w : List (BitVec 64)) : BitVec 64 :=
  let a := w.getD 1 0
  let b := w.getD 14 0
  (a.rotateRight 19 ^^^ a.rotateRight 61 ^^^ (a >>> 6)) + w.getD 6 0 + (b.rotateRight 1 ^^^ b.rotateRight 8 ^^^ (b >>> 7)) + w.getD 15 0

/-- n more words of the schedule. -/
def shaExpand : Nat → List (BitVec 64) → List (BitVec 64)
  | 0, w => w
  | n + 1, w => shaExpand n (shaNext w :: w)

/-- One round. -/
def shaRound (v : List (BitVec 64)) (kw : BitVec 64 × BitVec 64) : List (BitVec 64) :=
  match v with
  | [a, b, c, d, e, f, g, h] =>
    let t := h + (e.rotateRight 14 ^^^ e.rotateRight 18 ^^^ e.rotateRight 41) + ((e &&& f) ^^^ (~~~e &&& g)) + kw.1 + kw.2
    let u := (a.rotateRight 28 ^^^ a.rotateRight 34 ^^^ a.rotateRight 39) + ((a &&& b) ^^^ (a &&& c) ^^^ (b &&& c))
    [t + u, a, b, c, d + t, e, f, g]
  | _ => v

/-- The number that bytes spell, highest first. -/
def beNat (b : Bytes) : Nat := b.foldl (fun n x => 256 * n + x.toNat) 0

/-- One block of 128 bytes. -/
def shaBlock (h : List (BitVec 64)) (b : Bytes) : List (BitVec 64) :=
  let w := (List.range 16).map fun i => BitVec.ofNat 64 (beNat (bytesAt b (8 * i) 8))
  List.zipWith (· + ·) h ((shaK.zip (shaExpand 64 w.reverse).reverse).foldl shaRound h)

/-- n blocks. -/
def shaBlocks : Nat → Bytes → List (BitVec 64) → List (BitVec 64)
  | 0, _, h => h
  | n + 1, b, h => shaBlocks n (b.drop 128) (shaBlock h (b.take 128))

/-- SHA-384, 48 bytes. -/
def sha384 (m : Bytes) : Bytes :=
  let n := ceilDiv (m.length + 17) 128
  ((shaBlocks n (m ++ [0x80] ++ List.replicate (128 * n - m.length - 17) 0 ++ be 16 (8 * m.length)) shaH).take 6).flatMap fun w => be 8 w.toNat

/-! ### brainpoolP384r1 -/

def ecP : Nat := 0x8CB91E82A3386D280F5D6F7E50E641DF152F7109ED5456B412B1DA197FB71123ACD3A729901D1A71874700133107EC53
def ecA : Nat := 0x7BC382C63D8C150C3C72080ACE05AFA0C2BEA28E4FB22787139165EFBA91F90F8AA5814A503AD4EB04A8C7DD22CE2826
def ecB : Nat := 0x04A8C7DD22CE28268B39B55416F0447C2FB77DE107DCD2A62E880EA53EEB62D57CB4390295DBC9943AB78696FA504C11
def ecN : Nat := 0x8CB91E82A3386D280F5D6F7E50E641DF152F7109ED5456B31F166E6CAC0425A7CF3AB6AF6B7FC3103B883202E9046565
/-- A point; none is the point at infinity. -/
abbrev Pt := Option (Nat × Nat)

def ecG : Pt := some (0x1D1C64F068CF45FFA2A63A81B7C13F6B8847A3E77EF14FE3DB7FCAFE0CBD10E8E826E03436D646AAEF87B2E247D4AF1E,
  0x8ABE1D7520F9C2A45CB1EB8E95CFD55262B70B29FEEC5864E19C054FF99129280E4646217791811142820341263C5315)

/-- b ^ e mod m over the lowest k bits of e. -/
def powMod (m : Nat) : Nat → Nat → Nat → Nat
  | 0, _, _ => 1 % m
  | k + 1, b, e => let r := powMod m k (b * b % m) (e / 2); if e % 2 = 1 then b * r % m else r

/-- Inverse modulo a prime of at most 384 bits. -/
def invMod (m a : Nat) : Nat := powMod m 384 (a % m) (m - 2)

/-- Sum of two points. -/
def ecAdd : Pt → Pt → Pt
  | none, q => q
  | p, none => p
  | some (x1, y1), some (x2, y2) =>
    if x1 = x2 && (y1 + y2) % ecP = 0 then none else
    let l := if x1 = x2 then (3 * x1 * x1 + ecA) * invMod ecP (2 * y1) % ecP else (y2 + ecP - y1) * invMod ecP (x2 + ecP - x1) % ecP
    let x := (l * l + 2 * ecP - x1 - x2) % ecP
    some (x, (l * (x1 + ecP - x) + ecP - y1) % ecP)

/-- A point as x / z², y / z³ (Jacobian coordinates); z = 0 is the point at infinity. -/
structure Jac where
  x : Nat
  y : Nat
  z : Nat
deriving DecidableEq, Repr, Inhabited

/-- The point at infinity. -/
def jacInf : Jac := ⟨1, 1, 0⟩

/-- Twice a point. -/
def jacDouble (p : Jac) : Jac :=
  let yy := p.y * p.y % ecP
  let s := 4 * p.x * yy % ecP
  let zz := p.z * p.z % ecP
  let m := (3 * p.x * p.x + ecA * (zz * zz)) % ecP
  let x := (m * m + 2 * ecP - 2 * s) % ecP
  ⟨x, (m * (s + ecP - x) + 8 * (ecP - yy) * yy) % ecP, 2 * p.y * p.z % ecP⟩

/-- Sum of two points. -/
def jacAdd (p q : Jac) : Jac :=
  if p.z = 0 then q else if q.z = 0 then p else
  let zp := p.z * p.z % ecP
  let zq := q.z * q.z % ecP
  let u := p.x * zq % ecP
  let v := p.y * zq * q.z % ecP
  let h := (q.x * zp + ecP - u) % ecP
  let r := (q.y * zp * p.z + ecP - v) % ecP
  if h = 0 then (if r = 0 then jacDouble p else jacInf) else
  let hh := h * h % ecP
  let uh := u * hh % ecP
  let hhh := h * hh % ecP
  let x := (r * r + 3 * ecP - hhh - 2 * uh) % ecP
  ⟨x, (r * (uh + ecP - x) + (ecP - v) * hhh) % ecP, h * p.z * q.z % ecP⟩

/-- k p over the lowest n bits of k. -/
def jacMul : Nat → Nat → Jac → Jac
  | 0, _, _ => jacInf
  | n + 1, k, p => let r := jacMul n (k / 2) (jacDouble p); if k % 2 = 1 then jacAdd p r else r

/-- A point in Jacobian coordinates, and back. -/
def toJac : Pt → Jac
  | none => jacInf
  | some (x, y) => ⟨x, y, 1⟩
def ofJac (p : Jac) : Pt :=
  if p.z = 0 then none else
  let w := invMod ecP p.z
  let ww := w * w % ecP
  some (p.x * ww % ecP, p.y * ww * w % ecP)

/-- k p over the lowest n bits of k. -/
def ecMul (n k : Nat) (p : Pt) : Pt := ofJac (jacMul n k (toJac p))

/-- A public key in its uncompressed form (R573). -/
def keyBytes (q : Nat × Nat) : Bytes := [0x04] ++ be 48 q.1 ++ be 48 q.2

/-- A point lies on the curve. -/
def onCurve (q : Nat × Nat) : Bool := q.1 < ecP && q.2 < ecP && q.2 * q.2 % ecP == (q.1 * q.1 * q.1 + ecA * q.1 + ecB) % ecP

/-- A signature r, s over bytes verifies under a public key (R573). -/
def sigOk (q : Nat × Nat) (m sig : Bytes) : Bool :=
  let r := beNat (bytesAt sig 0 48)
  let s := beNat (bytesAt sig 48 48)
  let z := beNat (sha384 m)
  if r = 0 || ecN ≤ r || s = 0 || ecN ≤ s || !onCurve q then false else
  let w := invMod ecN s
  match ecAdd (ecMul 384 (z * w % ecN) ecG) (ecMul 384 (r * w % ecN) (some q)) with
  | none => false
  | some (x, _) => x % ecN == r

/-- The public key of 97 bytes, where it is in its uncompressed form. -/
def keyOf (b : Bytes) : Option (Nat × Nat) := if numAt b 0 1 = 4 && b.length = 97 then some (beNat (bytesAt b 1 48), beNat (bytesAt b 49 48)) else none

/-- The public keys under which a signature over bytes verifies: those whose two points have x of r modulo n. -/
def signers (m sig : Bytes) : List (Nat × Nat) :=
  let r := beNat (bytesAt sig 0 48)
  let s := beNat (bytesAt sig 48 48)
  let z := beNat (sha384 m)
  let w := invMod ecN r
  ([r, r + ecN].filter (· < ecP)).flatMap fun x =>
    let y := powMod ecP 384 ((x * x * x + ecA * x + ecB) % ecP) ((ecP + 1) / 4)
    [y, ecP - y].filterMap fun y =>
      ecAdd (ecMul 384 (s * w % ecN) (some (x, y))) (ecMul 384 ((ecN - z % ecN) * w % ecN) ecG)

/-- A signature verifies under the key whose hash is held (R573, R581, R588). -/
def hashSigOk (hash m sig : Bytes) : Bool := (signers m sig).any fun q => sha384 (keyBytes q) == hash && sigOk q m sig

end Sys2Proof.Machine
end

