-- ==== Sys2Proof/Machine/Sec.lean ====
section
/-! DEFINITION. The security core and the black box (R571 to R591): keys, images, slots, attestation, debug unlock, and the SEC and BOX verbs. -/
set_option Elab.async false
namespace Sys2Proof.Machine
open Sys2Proof

/-- Change the security core, or the black box. -/
def secMod (f : SecSt → SecSt) (s : State) : State := { s with sec := f s.sec }
def boxMod (f : BoxSt → BoxSt) (s : State) : State := { s with box := f s.box }

/-! ### Keys and counters (R571, R573, R576) -/

/-- Number of set bits. -/
def popcount {n : Nat} (w : BitVec n) : Nat := ((List.range n).filter fun i => bitAt w i).length

/-- A hash field is programmed. -/
def filled (h : Bytes) : Bool := h.any (· != 0)

/-- A usable vendor key, or owner key (R573). -/
def vendorUsable (o : OtpSt) (k : Nat) : Bool := k < 4 && filled (o.vendorHash.getD k []) && !bitAt o.vendorRevoked k
def ownerUsable (o : OtpSt) (k : Nat) : Bool := k < 2 && filled (o.ownerHash.getD k []) && !bitAt o.ownerRevoked k

/-- The hash of a SIGNER: 0 to 3 a vendor key, 4 and 5 an owner key (R581, R588). -/
def signerHash (o : OtpSt) (k : Nat) : Bytes := if k < 4 then o.vendorHash.getD k [] else o.ownerHash.getD (k - 4) []

/-- A SIGNER is usable. -/
def signerUsable (o : OtpSt) (k : Nat) : Bool := if k < 4 then vendorUsable o k else ownerUsable o (k - 4)

/-- A rollback counter by image type 1 to 3 (R571). -/
def rollbackOf (s : State) (type : Nat) : Nat := popcount (s.sec.otp.rollback.getD (type - 1) 0)

/-- Set more bits of a counter until it counts v (R571, R576): the lowest that are 0. -/
def raiseCounter (v : Nat) : Nat → BitVec 128 → BitVec 128
  | 0, w => w
  | n + 1, w => if v ≤ popcount w then w else raiseCounter v n (setBit w (((List.range 128).find? fun i => !bitAt w i).getD 0) true)

/-- Bits of a field that a write brings to 1 (R572): those asked for but for the ones that do not take. -/
def bitsReach {n : Nat} (dead : List (Nat × Nat)) (field off : Nat) (old new : BitVec n) : BitVec n :=
  (List.range n).foldl (fun w i => if bitAt new i && !bitAt old i && dead.contains (field, off + i) then setBit w i false else w) new

/-- A hash field after a write. -/
def hashReach (dead : List (Nat × Nat)) (field : Nat) (old new : Bytes) : Bytes :=
  new.zipIdx.map fun (b, k) => bitsReach dead field (8 * k) (old.getD k 0) b

/-- What OTP holds after a write that asks for `new` (R571, R572). -/
def otpReach (old new : OtpSt) : OtpSt :=
  if old.dead.isEmpty then new else
  let d := old.dead
  { new with
    vendorRevoked := bitsReach d 0 0 old.vendorRevoked new.vendorRevoked, ownerRevoked := bitsReach d 1 0 old.ownerRevoked new.ownerRevoked
    ownerEnforce := old.ownerEnforce || (new.ownerEnforce && !d.contains (2, 0))
    ownerHash := new.ownerHash.zipIdx.map fun (h, k) => hashReach d (3 + k) (old.ownerHash.getD k []) h
    rollback := new.rollback.zipIdx.map fun (w, k) => bitsReach d (5 + k) 0 (old.rollback.getD k 0) w }

/-- Write OTP and read it back (R572). Answers whether it holds what was asked for. -/
def otpWrite (new : OtpSt) (s : State) : Bool × State :=
  let o := otpReach s.sec.otp new
  (decide (o = new), secMod (fun x => { x with otp := o }) s)

/-! ### Images and slots (R574, R575, R577) -/

/-- Bytes of the boot flash. -/
def flashRead (s : State) (a n : Nat) : Bytes := memTake s.sec.flash a n

/-- REASON of the first check that an image fails, 0 for none (R575). `read` reads its slot or link set, whose end is `room`. -/
def imageReason (s : State) (read : Nat → Nat → Bytes) (type off room : Nat) : Nat :=
  let o := s.sec.otp
  let h := read off 512
  let len := numAt h 12 4
  let vk := numAt h 6 1
  let ok := numAt h 7 1
  if numAt h 0 4 != 0x4F494D47 || numAt h 4 1 != type || (h.drop 450).any (· != 0) || len < 64 || 0x2000000 < len || len % 64 != 0 || room < off + 512 + len then 1
  else if !vendorUsable o vk || sha384 (bytesAt h 64 97) != o.vendorHash.getD vk [] then 2
  else if !(keyOf (bytesAt h 64 97)).any (fun q => sigOk q (h.take 64) (bytesAt h 258 96)) then 3
  else if (o.ownerEnforce || ok != 0xFF) &&
      !(ownerUsable o ok && sha384 (bytesAt h 161 97) == o.ownerHash.getD ok [] && (keyOf (bytesAt h 161 97)).any (fun q => sigOk q (h.take 64) (bytesAt h 354 96))) then 4
  else if numAt h 5 1 < rollbackOf s type then 5
  else if sha384 (read (off + 512) len) != bytesAt h 16 48 then 6
  else 0

/-- A slot header is valid (R577). -/
def slotHeaderOk (h : Bytes) : Bool := numAt h 0 4 == 0x4F534C54 && numAt h 60 4 == (crc32 (h.take 60)).toNat

/-- Header of a slot. -/
def slotHeader (s : State) (slot : Nat) : Bytes := flashRead s (slot * 0x2000000) 64

/-- SLOT_SEQ of a slot; 0 where its header fails (R577). -/
def slotSeq (s : State) (slot : Nat) : Nat := if slotHeaderOk (slotHeader s slot) then numAt (slotHeader s slot) 4 4 else 0

/-- Offset of an image in a slot header: management firmware, Xinum, microcode. -/
def imageOff (h : Bytes) (type : Nat) : Nat := numAt h (8 * type) 4

/-- REASON of an image of a slot in flash. -/
def slotReason (s : State) (slot type : Nat) : Nat :=
  imageReason s (fun a n => flashRead s (slot * 0x2000000 + a) n) type (imageOff (slotHeader s slot) type) 0x2000000

/-- SEC_VERSION of an image of a slot. -/
def slotVersion (s : State) (slot type : Nat) : Nat := numAt (flashRead s (slot * 0x2000000 + imageOff (slotHeader s slot) type) 512) 5 1

/-! ### Entries and events (R584, R590) -/

/-- SEQ that an entry queued now will take, where it finds room. -/
def nextEntrySeq (s : State) : Nat := min 0xFFFFFFFF (s.box.nextSeq + s.box.queue.length + b2n s.box.lost.isSome)

/-- An entry of the security core with its EV_SECURITY (R586, R590). -/
def secNote (type code : Nat) (detail : Bytes) (s : State) : State :=
  let q := nextEntrySeq s
  raise 0xF8 type 0x1100 (le 2 code ++ [0, 0] ++ le 4 q) (boxNow 2 code 0x1100 detail s)

/-- IMAGE_FAIL (R575, R586): source 0 A, 1 B, 2 link. -/
def imageFail (type source reason version : Nat) (s : State) : State :=
  secNote 2 0x0202 (le 1 type ++ le 1 source ++ le 1 reason ++ le 1 version ++ le 1 (rollbackOf s type)) s

/-- AUTH_FAIL (R586, R588). -/
def authFail (op reason : Nat) (s : State) : State :=
  secNote 1 0x0501 (le 2 op ++ le 1 reason) (secMod (fun x => { x with authFails := wrapAdd 32 x.authFails 1 }) s)

/-- A signature by the identity key (R580, R587), 96 bytes. -/
def signBytes (m : Bytes) (s : State) : Bytes × State :=
  (padTo 96 (Config.sign s.sec.signNo m), secMod (fun x => { x with signNo := x.signNo + 1 }) s)

/-! ### SEC verbs (R588) -/

/-- Bytes 208 to 215 of the report (R580). -/
def secWord (s : State) : Bytes :=
  let o := s.sec.otp
  ((List.range 3).flatMap fun i => le 1 (s.boot.runSecVersion.getD i 0)) ++ ([1, 2, 3].flatMap fun t => le 1 (rollbackOf s t)) ++
    le 1 (o.vendorRevoked.toNat + 16 * o.ownerRevoked.toNat + 64 * b2n (filled (o.ownerHash.getD 0 [])) + 128 * b2n (filled (o.ownerHash.getD 1 []))) ++ le 1 s.sec.scope.toNat

/-- Bytes 0 to 415 of the report (R580). -/
def report (s : State) (nonce : Bytes) : Bytes :=
  let o := s.sec.otp
  padTo 416 (le 4 0x4F415454 ++ [0x01] ++ le 1 s.boot.bootSlot ++ le 1 s.power.straps.toNat ++ le 1 (b2n s.sec.unlocked + 2 * b2n o.ownerEnforce) ++ le 8 o.serial.toNat ++
    le 4 s.boot.bootCount.toNat ++ timeB (now s) ++ padTo 32 nonce ++ ((List.range 3).flatMap fun i => padTo 48 (s.boot.runHash.getD i [])) ++ padTo 8 (secWord s) ++
    sha384 ((List.range 4).flatMap (fun i => padTo 48 (o.vendorHash.getD i [])) ++ (List.range 2).flatMap fun i => padTo 48 (o.ownerHash.getD i [])))

/-- SEC.ATTEST (R580). -/
def vSecAttest : Verb where
  op := 0x1C01
  fits := fun s h => isA s .sec h
  checks := fun c s => [badArg (!spanOk s (argN c 32 6) 512)]
  act := fun c s =>
    let r := report s (bytesAt c.args 0 32)
    match signBytes r s with
    | (g, s) => ok (destWrite (argN c 32 6) (r ++ g) s)

/-- SEC.CERT (R579). -/
def vSecCert : Verb where
  op := 0x1C02
  fits := fun s h => isA s .sec h
  checks := fun c s => [badArg (!spanMapped s (argN c 0 6) s.sec.certs.length || argN c 8 4 < s.sec.certs.length)]
  act := fun c s => okWith (destWrite (argN c 0 6) s.sec.certs s) (le 4 s.sec.certs.length)

/-- SRC of a verb cannot be read where it lies. -/
def srcBad (s : State) (a n : Nat) : Bool := !mapped s a || !mapped s (a + n - 1)

/-- First failing image of a slot image in memory: type and REASON. -/
def updateFails (s : State) (b : Bytes) : Option (Nat × Nat) :=
  if !slotHeaderOk (b.take 64) || 0x2000000 < slotSpan b then some (1, 1) else
  [1, 2, 3].findSome? fun t => let r := imageReason s (bytesAt b) t (imageOff b t) b.length; if r = 0 then none else some (t, r)

/-- SEC.UPDATE (R575, R577, R588). A signature that fails outranks the other refusals (R42). The slot is blank until the update has written
it, so that one cut short is never preferred (DESIGN CHOICE, log 73). -/
def vSecUpdate : Verb where
  op := 0x1C03
  fits := fun s h => isA s .sec h
  act := fun c s =>
    let a := argN c 0 6
    let slot := argN c 6 1
    let refusal := if s.boot.bootSlot = slot then REFUSED_STATE else if 1 < slot then BAD_ARG else if s.sec.update.isSome then BUSY else 0
    if srcBad s a 64 then answer s (max refusal BAD_ARG) else
    match (kennelRead s a 64).bind fun h => kennelRead s a (min 0x2000000 (slotSpan h)) with
    | none => answer s FAULT
    | some b =>
      let s := kennelNote a (min 0x2000000 (slotSpan b)) s
      match updateFails s b with
      | some (t, r) => answer (authFail 0x1C03 r (imageFail t slot r (numAt b (imageOff b t + 5) 1) s)) AUTH
      | none =>
        if refusal != 0 then answer s refusal
        else later (secMod (fun x => { x with
          update := some ⟨c, slot, BitVec.ofNat 32 (slotSeq s (1 - slot) + 1), b⟩, flash := memZero x.flash (slot * 0x2000000) (slot * 0x2000000 + 0x2000000) }) s)

/-- SEC_UPDATE_DONE (R577, R588): the images, then the slot header, with the new SLOT_SEQ. -/
def updateDone (s : State) : State :=
  match s.sec.update with
  | none => s
  | some u =>
    let base := u.slot * 0x2000000
    let head := withCrc (u.image.take 4 ++ le 4 u.newSeq.toNat ++ (u.image.drop 8).take 52)
    let vers := [1, 2, 3].flatMap fun t => le 1 (numAt u.image (imageOff u.image t + 5) 1)
    let s := secMod (fun x => { x with update := none, flash := memPut (memPut (memZero x.flash base (base + 0x2000000)) (base + 64) (u.image.drop 64)) base head }) s
    let s := secNote 3 0x0502 (le 1 u.slot ++ [0, 0, 0] ++ le 4 u.newSeq.toNat ++ vers) s
    complete u.cmd 0x1C03 OK (le 4 u.newSeq.toNat) s

/-- SEC.ROLLBACK_COMMIT (R576); FAULT where the write does not verify (R572), with an entry of the same code (DESIGN CHOICE, log 73). -/
def vSecRollback : Verb where
  op := 0x1C04
  fits := fun s h => isA s .sec h
  checks := fun c s => [badArg (argN c 0 1 == 0 || 3 < argN c 0 1), badState (s.boot.bootSlot == 2)]
  act := fun c s =>
    let t := argN c 0 1
    let old := rollbackOf s t
    let o := s.sec.otp
    let w := raiseCounter (s.boot.runSecVersion.getD (t - 1) 0) 128 (o.rollback.getD (t - 1) 0)
    match otpWrite { o with rollback := o.rollback.set (t - 1) w } s with
    | (false, s) => answer (boxNow 2 0x0503 0x1100 (le 1 t ++ le 1 old ++ le 1 (rollbackOf s t)) s) FAULT
    | (true, s) =>
      let v := rollbackOf s t
      okWith (secNote 4 0x0503 (le 1 t ++ le 1 old ++ le 1 v) s) (le 1 v ++ le 1 (b2n (decide (slotVersion s (1 - s.boot.bootSlot) t < v))))

/-- A SEC.KEY request with its ACTION (R588). -/
def keyRequest (s : State) (c : Cmd) (action : Nat) : Option Bytes := (kennelRead s (argN c 0 6) 160).map fun b => b.set 4 (BitVec.ofNat 8 action)

/-- A request is signed as its ACTION asks (R588). -/
def keyAuth (s : State) (action : Nat) (b : Bytes) : Bool :=
  let o := s.sec.otp
  let index := numAt b 5 1
  let k := numAt b 6 1
  numAt b 0 4 == 0x4F4B4559 && numAt b 8 8 == o.serial.toNat && k < 6 && hashSigOk (signerHash o k) (b.take 64) (bytesAt b 64 96) && filled (signerHash o k) &&
    (match action with
     | 1 => if k < 4 then vendorUsable o k else true
     | 2 => signerUsable o k && k != index
     | 3 => 4 ≤ k && ownerUsable o (k - 4)
     | _ => 4 ≤ k && ownerUsable o (k - 4) && k - 4 != index)

/-- What an ACTION does to OTP (R571, R588). -/
def keyApply (action : Nat) (b : Bytes) (o : OtpSt) : OtpSt :=
  let i := numAt b 5 1
  match action with
  | 1 => { o with ownerHash := o.ownerHash.set i (bytesAt b 16 48) }
  | 2 => { o with vendorRevoked := setBit o.vendorRevoked i true }
  | 3 => { o with ownerEnforce := true }
  | _ => { o with ownerRevoked := setBit o.ownerRevoked i true }

/-- SEC.KEY with an ACTION (R571, R588); FAULT where the write does not verify (R572), with an entry of the same code (DESIGN CHOICE, log 73). -/
def vSecKey (action : Nat) : Verb where
  op := 0x1C05
  fits := fun s h => isA s .sec h
  act := fun c s =>
    let o := s.sec.otp
    if srcBad s (argN c 0 6) 160 then answer s BAD_ARG else
    match keyRequest s c action with
    | none => answer s FAULT
    | some b =>
      let s := kennelNote (argN c 0 6) 160 s
      let i := numAt b 5 1
      if action = 0 || 4 < action || !keyAuth s action b then answer (authFail 0x1C05 0 s) AUTH
      else if (action = 1 && i < 2 && filled (o.ownerHash.getD i [])) || (action = 2 && !(List.range 4).any fun k => k != i && vendorUsable o k) then answer s REFUSED_STATE
      else if (action = 2 && 3 < i) || ((action = 1 || action = 4) && 1 < i) then answer s BAD_ARG
      else
        let d := le 1 action ++ le 1 i ++ le 1 (numAt b 6 1)
        match otpWrite (keyApply action b o) s with
        | (true, s) => ok (secNote 5 0x0504 d s)
        | (false, s) => answer (boxNow 2 0x0504 0x1100 d s) FAULT

/-- SEC.DEBUG_UNLOCK with MODE 0 (R581). -/
def vDebugChallenge : Verb where
  op := 0x1C06
  fits := fun s h => isA s .sec h
  act := fun _ s =>
    let b := padTo 32 (Config.challenge s.sec.challengeNo)
    okWith (secMod (fun x => { x with challenge := some (b, s.cyc), challengeNo := x.challengeNo + 1 }) s) b

/-- A token passes every check (R581). -/
def tokenOk (s : State) (b : Bytes) : Bool :=
  let o := s.sec.otp
  let k := numAt b 5 1
  numAt b 0 4 == 0x4F444247 && k < 6 && signerUsable o k && numAt b 8 8 == o.serial.toNat && !(4 ≤ k && bitAt (BitVec.ofNat 8 (numAt b 4 1)) 2) &&
    s.sec.challenge.any (fun h => h.1 == bytesAt b 16 32 && since s h.2 ≤ 600 * secC) &&
    hashSigOk (signerHash o k) (b.take 64) (bytesAt b 64 96)

/-- SEC.DEBUG_UNLOCK with MODE 1 (R581, R590). -/
def vDebugToken : Verb where
  op := 0x1C06
  fits := fun s h => isA s .sec h
  act := fun c s =>
    if srcBad s (argN c 8 6) 160 then answer s BAD_ARG else
    match kennelRead s (argN c 8 6) 160 with
    | none => answer s FAULT
    | some b =>
      let s := kennelNote (argN c 8 6) 160 s
      if !tokenOk s b then answer (authFail 0x1C06 0 s) AUTH else
      let d := le 1 (numAt b 4 1 % 8) ++ le 1 (numAt b 5 1)
      ok (raise 0xF9 1 0x1100 d (boxNow 2 0x0505 0x1100 d (secMod (fun x => { x with unlocked := true, scope := BitVec.ofNat 8 (numAt b 4 1 % 8), challenge := none }) s)))

/-- SEC.DEBUG_UNLOCK with MODE 2 (R581, R590). -/
def vDebugRelock : Verb where
  op := 0x1C06
  fits := fun s h => isA s .sec h
  act := fun _ s => ok (raise 0xF9 2 0x1100 [] (boxNow 2 0x0505 0x1100 [] (secMod (fun x => { x with unlocked := false, scope := 0 }) s)))

/-- SEC.STATUS (R588). -/
def vSecStatus : Verb where
  op := 0x1C07
  fits := fun s h => isA s .sec h
  act := fun _ s => okWith s (padTo 8 (secWord s) ++ le 8 0 ++ le 1 s.boot.bootSlot ++ le 1 s.sec.scope.toNat ++ [0, 0] ++ le 4 s.sec.authFails)

/-! ### The black box (R582 to R587, R589) -/

/-- The store has been trained in this bring-up (R504). -/
def storeTrained (s : State) : Bool :=
  s.boot.mainOn && (let g := if stage s = 15 then s.boot.causeStage.toNat else stage s; (5 ≤ g && g ≤ 7) || g = 14)

/-- An entry at an index lies in the range that a signing covers (R585). -/
def inSigned (s : State) (i : Nat) : Bool :=
  match s.sec.signing with
  | some (first, n, _) => decide ((i + 131072 - first) % 131072 < n)
  | none => false

/-- An entry's bytes (R583). -/
def entryBytes (seq : Nat) (e : BoxEntry) : Bytes :=
  withCrc (le 4 seq ++ timeB e.time ++ le 4 e.boot.toNat ++ le 1 e.stateByte.toNat ++ le 1 e.origin.toNat ++ le 2 e.code.toNat ++ le 2 e.unit.toNat ++ [0, 0] ++ padTo 32 e.detail)

/-- BOX_ENTRY_WRITE (R582 to R585, R589): ENTRIES_LOST first where entries have been lost; an entry due in a signed range waits. -/
def boxWrite (s : State) : State :=
  let seq := s.box.nextSeq
  let i := boxIndex seq
  if inSigned s i then s else
  let put := fun (e : BoxEntry) (s : State) =>
    { boxMod (fun b => { b with entries := (i, entryBytes seq e) :: b.entries.filter fun x => x.1 != i, nextSeq := min 0xFFFFFFFF (seq + 1) }) s with
      boot := { s.boot with boxNew := true } }
  match s.box.lost, s.box.queue with
  | some (n, t), _ =>
    let e : BoxEntry := { time := now s, boot := s.boot.bootCount, stateByte := boxStateByte s, origin := 1, code := 0x0601, unit := 0xFFFF, detail := padTo 32 (le 4 n ++ timeB t), note := none }
    raise 0xFA 1 0x1101 (le 4 n) (put e (boxMod (fun b => { b with lost := none }) s))
  | none, e :: es => completeO e.note 0x1B05 OK (le 4 seq) (put e (boxMod (fun b => { b with queue := es }) s))
  | none, [] => s

/-- BOX.STATUS (R589). -/
def vBoxStatus : Verb where
  op := 0x1B01
  fits := fun s h => isA s .box h
  act := fun _ s =>
    let q := s.box.nextSeq - 1
    okWith s (le 4 (if s.box.nextSeq = 0 then 0 else boxIndex q) ++ le 4 q ++ le 4 s.box.lostTotal ++ le 4 s.box.peak)

/-- A range of entries is no range (R587). -/
def boxRangeBad (first n : Nat) : Bool := 131071 < first || n == 0 || 131072 < n

/-- Device memory is not yet there for a black-box verb (R587). -/
def boxNotReady (s : State) (a : Nat) : Bool := !s.boot.mainOn || (regionOf s.grade a == .store && !storeTrained s)

/-- Entries of a range in index order (R587). -/
def boxRange (s : State) (first n : Nat) : Bytes := (List.range n).flatMap fun k => boxEntryAt s ((first + k) % 131072)

/-- BOX.READ (R587, R589). -/
def vBoxRead : Verb where
  op := 0x1B02
  fits := fun s h => isA s .box h
  checks := fun c s => [badArg (boxRangeBad (argN c 0 4) (argN c 4 4) || !spanMapped s (argN c 8 6) (64 * argN c 4 4)), notReady (boxNotReady s (argN c 8 6))]
  act := fun c s => ok (destWrite (argN c 8 6) (boxRange s (argN c 0 4) (argN c 4 4)) s)

/-- A signing begins (R585). -/
def signStart (c : Cmd) (dest : Option Addr) (s : State) : State :=
  secMod (fun x => { x with signing := some (argN c 0 4, argN c 4 4, dest, bytesAt c.args 8 16, c) }) s

/-- BOX.EXPORT (R587, R589). -/
def vBoxExport : Verb where
  op := 0x1B03
  fits := fun s h => isA s .box h
  checks := fun c s =>
    [badArg (boxRangeBad (argN c 0 4) (argN c 4 4) || !spanMapped s (argN c 24 6) (64 * argN c 4 4 + 160)), notReady (boxNotReady s (argN c 24 6)), busy s.sec.signing.isSome]
  act := fun c s => later (signStart c (some (argN c 24 6)) s)

/-- s of the last signing of a path (R589). -/
def pathSig (s : State) : Path → Option Bytes
  | .mailbox _ => s.sec.mbxSigS
  | .junction p => (bankOf s p).lastSigS

/-- BOX.SIGN with PART 0 (R585, R589). -/
def vBoxSign0 : Verb where
  op := 0x1B04
  fits := fun s h => isA s .box h
  checks := fun c s => [badArg (boxRangeBad (argN c 0 4) (argN c 4 4)), busy s.sec.signing.isSome]
  act := fun c s => later (signStart c none s)

/-- BOX.SIGN with PART 1 (R589). -/
def vBoxSign1 : Verb where
  op := 0x1B04
  fits := fun s h => isA s .box h
  checks := fun c s => [badArg (boxRangeBad (argN c 0 4) (argN c 4 4)), notReady (pathSig s c.path).isNone]
  act := fun c s => okWith s ((pathSig s c.path).getD [])

/-- BOX_SIGNING_DONE (R585, R587, R589). -/
def signingDone (s : State) : State :=
  match s.sec.signing with
  | none => s
  | some (first, n, dest, nonce, c) =>
    let s := secMod (fun x => { x with signing := none }) s
    let b := padTo 64 (le 4 0x4F424258 ++ [0x01, 0, 0, 0] ++ le 8 s.sec.otp.serial.toNat ++ le 4 first ++ le 4 n ++ nonce) ++ boxRange s first n
    match signBytes b s with
    | (g, s) =>
      match dest with
      | some a => complete c 0x1B03 OK [] (boxNow 2 0x0506 0x1101 (le 4 first ++ le 4 n ++ nonce) (destWrite a (b ++ g) s))
      | none =>
        let s := match c.path with
          | .mailbox _ => secMod (fun x => { x with mbxSigS := some (g.drop 48) }) s
          | .junction p => bankedMod p (fun b => { b with lastSigS := some (g.drop 48) }) s
        complete c 0x1B04 OK (g.take 48) s

/-- BOX.NOTE (R584, R589). -/
def vBoxNote : Verb where
  op := 0x1B05
  fits := fun s h => isA s .box h
  checks := fun _ s => [busy (256 ≤ s.box.queue.length)]
  act := fun c s =>
    later (boxPut { time := now s, boot := s.boot.bootCount, stateByte := boxStateByte s, origin := 5, code := 0x0602, unit := 0xFFFF, detail := bytesAt c.args 0 32, note := some c } s)

def execSecAttest (c : Cmd) (s : State) : Host.Outcome State Fault Refusal := settle s (runVerb vSecAttest c s)
def execSecCert (c : Cmd) (s : State) : Host.Outcome State Fault Refusal := settle s (runVerb vSecCert c s)
def execSecUpdate (c : Cmd) (s : State) : Host.Outcome State Fault Refusal := settle s (runVerb vSecUpdate c s)
def execSecRollbackCommit (c : Cmd) (s : State) : Host.Outcome State Fault Refusal := settle s (runVerb vSecRollback c s)
def execSecKeyEnrolOwner (c : Cmd) (s : State) : Host.Outcome State Fault Refusal := settle s (runVerb (vSecKey 1) c s)
def execSecKeyRevokeVendor (c : Cmd) (s : State) : Host.Outcome State Fault Refusal := settle s (runVerb (vSecKey 2) c s)
def execSecKeySetOwnerEnforce (c : Cmd) (s : State) : Host.Outcome State Fault Refusal := settle s (runVerb (vSecKey 3) c s)
def execSecKeyRevokeOwner (c : Cmd) (s : State) : Host.Outcome State Fault Refusal := settle s (runVerb (vSecKey 4) c s)
def execSecDebugChallenge (c : Cmd) (s : State) : Host.Outcome State Fault Refusal := settle s (runVerb vDebugChallenge (withByte c 0 0) s)
def execSecDebugUnlockToken (c : Cmd) (s : State) : Host.Outcome State Fault Refusal := settle s (runVerb vDebugToken (withByte c 0 1) s)
def execSecDebugRelock (c : Cmd) (s : State) : Host.Outcome State Fault Refusal := settle s (runVerb vDebugRelock (withByte c 0 2) s)
def execSecStatus (c : Cmd) (s : State) : Host.Outcome State Fault Refusal := settle s (runVerb vSecStatus c s)
def execBoxStatus (c : Cmd) (s : State) : Host.Outcome State Fault Refusal := settle s (runVerb vBoxStatus c s)
def execBoxRead (c : Cmd) (s : State) : Host.Outcome State Fault Refusal := settle s (runVerb vBoxRead c s)
def execBoxExport (c : Cmd) (s : State) : Host.Outcome State Fault Refusal := settle s (runVerb vBoxExport c s)
def execBoxSignPart0 (c : Cmd) (s : State) : Host.Outcome State Fault Refusal := settle s (runVerb vBoxSign0 (withByte c 24 0) s)
def execBoxSignPart1 (c : Cmd) (s : State) : Host.Outcome State Fault Refusal := settle s (runVerb vBoxSign1 (withByte c 24 1) s)
def execBoxNote (c : Cmd) (s : State) : Host.Outcome State Fault Refusal := settle s (runVerb vBoxNote c s)
def execBoxEntryWrite (s : State) : Host.Outcome State Fault Refusal := settle s (boxWrite s)
def execSecUpdateDone (s : State) : Host.Outcome State Fault Refusal := settle s (updateDone s)
def execBoxSigningDone (s : State) : Host.Outcome State Fault Refusal := settle s (signingDone s)

end Sys2Proof.Machine
end

