-- ==== Sys2Proof/Machine/Synth.lean ====
section
/-! DEFINITION. Synthesisers (R366 to R394): the reference, lock, sample-clock rate changes and alignments, AXS, spread, loss of lock, and the SYNTH verbs. -/
set_option Elab.async false
namespace Sys2Proof.Machine
open Sys2Proof

/-- Change loop l. -/
def loopMod (l : Nat) (f : SynthSt → SynthSt) (s : State) : State := { s with synth := { s.synth with loop := vmod s.synth.loop l f } }

/-- Change the conditioner. -/
def refMod (f : RefSt → RefSt) (s : State) : State := { s with synth := { s.synth with ref := f s.synth.ref } }

/-- Change AXS. -/
def axsMod (f : AxsSt → AxsSt) (s : State) : State := { s with synth := { s.synth with axs := f s.synth.axs } }

/-- Handle of loop l (R21). -/
def loopHandle (l : Nat) : Nat := if l < 8 then 0x0C00 + l else 0x0C10 + (l - 8)

/-- Source of loop l (R392). -/
def loopSource (l : Nat) : Nat := if l < 4 then 0x28 + l else if l < 8 then 0x2C else 0x2D

/-- Event of a loop (R392, R609). The 8.32 word of a loop that another block sets is not stated: free. -/
def evLoop (l type : Nat) (s : State) : State :=
  let x := vget s.synth.loop l
  if l < 2 then raise (loopSource l) type (loopHandle l) (le 4 (unsgn 32 x.syncOffset)) s
  else if l = 2 then raise 0x2A type 0x0C02 (le 5 x.n.toNat ++ le 1 s.synth.axs.hopIdx) s
  else match draw s with
    | (v, s) => raise (loopSource l) type (loopHandle l) (le 5 (v % 2 ^ 40)) s

/-- EV_AXS with a hop index of its own (R609). -/
def evAxs (type hop : Nat) (s : State) : State := raise 0x2A type 0x0C02 (le 5 (vget s.synth.loop 2).n.toNat ++ le 1 hop) s

/-! ### The reference (R368 to R371) -/

/-- EV_REFERENCE (R392, R609). -/
def evRef (type : Nat) (detail : Bytes) (s : State) : State := raise 0x2E type 0 detail s

/-- REFIN_LOST (R368): the conditioner coasts; a REALIGN slew stops where it stands, and a count towards qualification starts again. -/
def refinLost (s : State) : State :=
  if s.synth.ref.coasting || stage s = 0 then s else
  let b := buildOutNow s
  evRef 1 [] (refMod (fun r => { r with coasting := true, buildOut := b, realignSince := none, losses := wrapAdd 32 r.losses 1 }) s)

/-- REFIN_QUALIFIED (R369, R370): JUMP_PS lies within half a REFIN period. -/
def refinQualified (jump : Int) (s : State) : State :=
  let half : Nat := if bitAt s.synth.ref.cfg 1 then 5000 else 50000
  if !s.synth.ref.coasting || half < jump.natAbs then s else
  let mode := fld s.synth.ref.cfg 0 0
  let b := s.synth.ref.buildOut + jump
  evRef 3 (le 4 (unsgn 32 jump) ++ le 1 mode ++ le 3 0 ++ le 4 (unsgn 32 b))
    (refMod (fun r => { r with coasting := false, buildOut := b, realignSince := if mode = 1 then some s.cyc else none }) s)

/-- REFIN_QUALIFY_FAIL (R369). -/
def refinQualifyFail (s : State) : State := if s.synth.ref.coasting then evRef 2 [] s else s

/-- REALIGN_DONE (R370). -/
def realignDone (s : State) : State :=
  match s.synth.ref.realignSince with
  | none => s
  | some _ => if buildOutNow s = 0 then evRef 4 [] (refMod (fun r => { r with buildOut := 0, realignSince := none }) s) else s

/-! ### Alignment of the sample clocks (R376 to R379) -/

/-- The divider phase at this reference edge is the one that an alignment here would give (R376, R378); none where it is not known. -/
def phaseEqual (s : State) (d : Nat) : Option Bool :=
  let x := vget s.synth.loop d
  x.phase.map fun p =>
    let ps : Int := (since s p.1 : Int) * 10000 + (buildOutNow s - p.2)
    (x.n.toNat * ps) % (2 ^ 32 * 10000 : Int) == 0

/-- A realignment of a die: its streams end with their blocks and start again with their first samples invalid (R78, R378). -/
def scsRestart (d : Nat) (cmd : Option Cmd) (op : BitVec 16) (n : BitVec 40) (s : State) : State :=
  let s := refMod (fun r => { r with changes := vmod r.changes d fun c => match c with
    | some c => some { c with resumed := false, newN := if c.resumed then n else c.newN }
    | none => some ⟨cmd, op, n, false⟩ }) s
  let s := (dieInputs d).foldl (fun s i =>
    let x := vget s.inputs i
    if x.running && x.ending.isNone || x.switch.isSome then
      stopStream i 2 (inMod i (fun x => { x with switch := match x.switch with
        | some w => some { w with settle := 4096, cause := if w.cause = 1 then 1 else 2 }
        | none => some ⟨2, bitAt x.cfg 3, 4096⟩ }) s)
    else s) s
  calRefresh d s

/-- The comparison and the alignment of SCS d at this edge (R378, R381). Answers whether the phase moved. -/
def scsAlign (d : Nat) (s : State) : Bool × State :=
  let x := vget s.synth.loop d
  let e : Bool × State := match phaseEqual s d with
    | some b => (b, s)
    | none => match draw s with | (v, s) => (v % 2 == 0, s)
  let s := e.2
  let ok := x.lock == .locked
  let s := if x.suspect && ok then markBlocks (dieInputs d) true false s else s
  let s := loopMod d (fun x => { x with aligned := true, suspect := x.suspect && !ok }) s
  let s := if x.suspect && ok then { s with synth := { s.synth with markers := vmod s.synth.markers d fun _ => [] } } else s
  if e.1 then (false, evLoop d 3 s) else
  let b := buildOutNow s
  let s := loopMod d (fun x => { x with phase := some (s.cyc, b) }) s
  let s := { s with synth := { s.synth with markers := vmod s.synth.markers d (fun _ => []), markCount := vmod s.synth.markCount d fun _ => 0 } }
  (true, evLoop d 4 (scsRestart d none 0 x.n s))

/-- SYNC_IN_EDGE (R132, R377 to R379): the offset of the edge from its sampling REFIN edge. -/
def syncInEdge (offset : Int) (s : State) : State :=
  if stage s = 0 then s else
  let period : Nat := if bitAt s.synth.ref.cfg 1 then 10000 else 100000
  let a := offset.natAbs
  let marginal := decide (a ≤ 1500) || decide (period ≤ a + 1500)
  let det := le 4 (unsgn 32 offset)
  let s := refMod (fun r => { r with syncEdges := wrapAdd 32 r.syncEdges 1, syncOffset := offset, marginal := marginal }) s
  let s := [0, 1].foldl (fun s d => if onGrade s.grade .synth d then
    loopMod d (fun x => { x with syncEdges := wrapAdd 32 x.syncEdges 1, syncOffset := offset }) s else s) s
  let s := raise 0x2F 1 0 det s
  let s := if marginal then raise 0x2F 2 0 det s else s
  let t := now s
  let s := [0, 1].foldl (fun s d =>
    let x := vget s.synth.loop d
    if onGrade s.grade .synth d && bitAt x.cfg 0 && x.lock != .off && x.lock != .fault then (scsAlign d s).2 else s) s
  (List.range (nInputs s.grade)).foldl (fun s e => syncPin t e s) s

/-- An SCS has retuned, locked and aligned with no stream to restart (R380 steps 3 and 4). -/
def scsRetuned (d : Nat) (n : BitVec 40) (s : State) : State :=
  let b := buildOutNow s
  let s := loopMod d (fun x => { x with n := n, aligned := false, phase := some (s.cyc, b) }) s
  { s with synth := { s.synth with markers := vmod s.synth.markers d (fun _ => []), markCount := vmod s.synth.markCount d fun _ => 0 } }

/-- SCS_RATE_CHANGE_DONE (R380 steps 3 to 6): once no stream of the die waits and no invalid span is left, the change is over. -/
def scsChangeDone (d : Nat) (s : State) : State :=
  match vget s.synth.ref.changes d with
  | none => s
  | some c =>
    if (vget s.synth.loop d).lock != .locked || (dieInputs d).any (fun i => switchIs s i 2) then s else
    let cmd := c.opcode == 0x1301 || c.opcode == 0x0101
    let s := if c.resumed || !cmd then s else ddcRefit (scsRetuned d c.newN s)
    if (dieInputs d).any fun i => (vget s.inputs i).rateSpan.isSome then s else
    let also := vget s.synth.ref.joined d
    let s := calRefresh d (refMod (fun r => { r with changes := vmod r.changes d fun _ => none, joined := vmod r.joined d fun _ => [] }) s)
    let s := if cmd then evLoop d 1 (loopMod d (fun x => { x with lastLock := now s }) s) else s
    also.foldl (fun s r => complete r 0x0101 OK [] s) (completeO c.cmd c.opcode.toNat OK [] s)

/-- SYNTH_ALIGN_APPLY (R378): the scheduled alignments of the die that are due. -/
def alignApply (d : Nat) (s : State) : State :=
  let due := (vget s.synth.ref.aligns d).filter fun a => a.2 ≤ now s
  due.foldl (fun s a =>
    let s := refMod (fun r => { r with aligns := vmod r.aligns d fun l => l.erase a }) s
    match scsAlign d s with
    | (m, s) => complete a.1 0x1303 OK (le 1 (b2n m)) s) s

/-! ### AXS (R382 to R386) -/

/-- Limits of AXS_N: 20.0 and 160.0. -/
def axsRange (n : Nat) : Bool := 20 * 2 ^ 32 ≤ n && n ≤ 160 * 2 ^ 32

/-- Within 1.0 % of a frequency (R383, R385). -/
def within1 (c n : Nat) : Bool := 100 * ((n : Int) - c).natAbs ≤ c

/-- A band search runs, is queued or arrives. -/
def axsSearching (s : State) : Bool := maintHas s 6 0x0C02

/-- A ramp stops (R386, R389). -/
def rampStop (s : State) : State :=
  if s.synth.axs.ramp.isSome then evAxs 6 s.synth.axs.hopIdx (axsMod (fun a => { a with ramp := none }) s) else s

/-- An AXS_CFG applies (R383, R386): a retune within the band, or a search is asked for. -/
def axsApply (c : Cmd) (w : BitVec 64) (s : State) : State :=
  let s := rampStop s
  if within1 s.synth.axs.bandN.toNat (fld w 39 0) && !axsSearching s then
    complete c 0x1305 OK [] (loopMod 2 (fun x => { x with n := BitVec.ofNat 40 (fld w 39 0) }) (axsMod (fun a => { a with cfg := w, hopIdx := 0xFF }) s))
  else maintAsk 6 0x0C02 0 w.toNat (some c) 0x1305 s

/-- AXS_RETUNE_APPLY (R383, R386): the settings whose apply time has come. -/
def axsRetune (s : State) : State :=
  (s.synth.axs.retune.filter fun r => r.2.2 ≤ now s).foldl (fun s r => axsApply r.1 r.2.1 (axsMod (fun a => { a with retune := a.retune.erase r }) s)) s

/-- AXS_HOP_APPLY (R384, R386). -/
def axsHopApply (s : State) : State :=
  (s.synth.axs.hop.filter fun h => h.2.2.1 ≤ now s).foldl (fun s h =>
    let s := rampStop (axsMod (fun a => { a with hop := a.hop.erase h }) s)
    match s.synth.axs.hops.find? (·.1 == h.2.1) with
    | some e => complete h.1 0x1307 OK (le 1 (b2n h.2.2.2))
        (loopMod 2 (fun x => { x with n := e.2 }) (axsMod (fun a => { a with bandN := e.2, hopIdx := e.1 }) s))
    | none => complete h.1 0x1307 OK (le 1 (b2n h.2.2.2)) s) s

/-- A loop meets its lock rule (R373, R381, R389). -/
def loopGain (l : Nat) (s : State) : State :=
  let x := vget s.synth.loop l
  let s := evLoop l 1 (loopMod l (fun x => { x with lock := .locked, lastLock := now s, aligned := false, stallSince := none }) s)
  match x.stallSince with
  | some c => raise (0x93 + 4 * (l - 4)) 2 (0x0801 + (l - 4)) (le 4 0 ++ le 4 (10 * since s c)) s
  | none => s

/-- AXS_SEARCH_DONE (R383, R384, R391): the argument of the request holds the AXS_CFG of a set, 2^72 + index and frequency of a store,
or 2^80 for a re-initialisation. -/
def axsSearchDone (found : Bool) (s : State) : State :=
  match maintRunning s 6 0x0C02 with
  | none => s
  | some r =>
    let s := maintEnd r s
    let store := r.arg / 2 ^ 72 == 1
    let n := BitVec.ofNat 40 r.arg
    let i := r.arg / 2 ^ 64 % 256
    if !found then completeO r.cmd r.opcode.toNat FAULT [] (evAxs 4 (if store then i else s.synth.axs.hopIdx) s)
    else if store then completeO r.cmd r.opcode.toNat OK [] (evAxs 3 i (axsMod (fun a => { a with hops := (i, n) :: a.hops.filter (·.1 != i) }) s))
    else
      let w := if 2 ^ 80 ≤ r.arg then s.synth.axs.cfg else BitVec.ofNat 64 r.arg
      let m := BitVec.ofNat 40 (fld w 39 0)
      let s := axsMod (fun a => { a with cfg := w, bandN := m, hopIdx := 0xFF }) s
      let s := loopMod 2 (fun x => { x with n := m, lastLock := now s }) s
      let s := if (vget s.synth.loop 2).lock == .locked then s else loopGain 2 s
      completeO r.cmd r.opcode.toNat OK [] (evAxs 3 0xFF s)

/-- What LO_OUT carries (R382, R383, R389, R391): frequency word and level; nothing while it is disabled, a search runs, or AXS is not locked. -/
def loOut (s : State) : Option (BitVec 40 × Int) :=
  let x := vget s.synth.loop 2
  if bitAt s.synth.axs.cfg 40 && x.lock == .locked && (maintRunning s 6 0x0C02).isNone then some (x.n, sgn 8 (fld s.synth.axs.cfg 55 48)) else none

/-- The segments of a loaded profile: N_END, FLAGS, DURATION (R385). -/
def rampSegs (b : Bytes) (n : Nat) : List (Nat × Nat × Nat) := (List.range n).map fun i => (numAt b (16 * i) 5, numAt b (16 * i + 5) 1, numAt b (16 * i + 8) 4)

/-- A segment is the profile's last. -/
def segLast (g : Nat × Nat × Nat) : Bool := (g.2.1 / 2) % 2 == 1

/-- A segment holds its frequency. -/
def segHold (g : Nat × Nat × Nat) : Bool := g.2.1 % 2 == 1

/-- The layout of a profile (R385): durations from 1. Reserved bits have no effect (R8), and a profile without LAST ends with its last segment. -/
def rampLayout (b : Bytes) (n : Nat) : Bool := (rampSegs b n).all fun g => g.2.2 != 0

/-- The profile up to its last segment. -/
def rampCut : List (Nat × Nat × Nat) → List (Nat × Nat × Nat)
  | [] => []
  | g :: gs => if segLast g then [g] else g :: rampCut gs

/-- The profile keeps within 1 % of the frequency in force and below 100 MHz/µs (R382, R385); answers that and the final frequency. -/
def rampCheck (centre : Nat) : Nat → List (Nat × Nat × Nat) → Bool × Nat
  | n, [] => (true, n)
  | n, g :: gs =>
    if segHold g then rampCheck centre n gs
    else match rampCheck centre g.1 gs with
      | (b, e) => (b && within1 centre g.1 && decide (100 * ((g.1 : Int) - n).natAbs ≤ g.2.2 * 2 ^ 32), e)

/-- AXS_RAMP_STEP (R385): the first step at or after START_TIME begins the profile. -/
def rampStep (s : State) : State :=
  match s.synth.axs.ramp with
  | none => s
  | some r =>
    if !r.started then (if r.startTime ≤ now s then axsMod (fun a => { a with ramp := some { r with started := true } }) s else s) else
    match s.synth.axs.profile[r.seg]? with
    | none => axsMod (fun a => { a with ramp := none }) s
    | some g =>
      let k := r.k + 1
      let n := if segHold g then r.nStart else ((r.nStart : Int) + roundDivI (((g.1 : Int) - r.nStart) * k) g.2.2).toNat
      let s := loopMod 2 (fun x => { x with n := BitVec.ofNat 40 n }) s
      if k < g.2.2 then axsMod (fun a => { a with ramp := some { r with k := k } }) s
      else if r.seg + 1 < s.synth.axs.profile.length then axsMod (fun a => { a with ramp := some { r with k := 0, seg := r.seg + 1, nStart := n } }) s
      else if r.repeats = 1 then evAxs 5 s.synth.axs.hopIdx (axsMod (fun a => { a with ramp := none }) s)
      else axsMod (fun a => { a with ramp := some { r with k := 0, seg := 0, nStart := n, repeats := r.repeats - 1 } }) s

/-! ### Lock (R372, R373, R381, R389, R390) -/

/-- Bonds with a lane in octet o. -/
def octetBonds (s : State) (o : Nat) : List Nat := (List.range 8).filter fun b => (bondLanes s b).any fun j => j / 8 == o

/-- What the loss of a loop does to the domains that it feeds (R381, R389). -/
def loopLost (l : Nat) (s : State) : State :=
  if l < 2 then loopMod l (fun x => { x with suspect := true, phase := none }) s
  else if l = 2 then rampStop s
  else if l = 3 then (if s.disp.enabled then dispMod (fun d => { d with stopped := true, modeChanged := true }) s else s)
  else if l < 8 then loopMod l (fun x => { x with stallSince := some s.cyc }) s
  else
    let o := l - 8
    let s := (octetBonds s o).foldl (fun s b => lReset b 5 s) s
    (List.range 16).foldl (fun s p => if bitAt (vget s.eth p).cfg 0 && fld (vget s.eth p).cfg 15 8 / 8 == o then ethDrop p s else s) s

/-- LOOP_LOCK_CHANGE (R372, R373). -/
def loopChange (l : Nat) (locked : Bool) (s : State) : State :=
  let x := vget s.synth.loop l
  if !onGrade s.grade .synth l then s else
  match x.lock, locked with
  | .acquiring, true | .unlocked, true => loopGain l s
  | .locked, false =>
    loopLost l (evLoop l 2 (loopMod l (fun x => { x with lock := .unlocked, unlockedSince := s.cyc, retried := s.cyc, losses := wrapAdd 32 x.losses 1 }) s))
  | _, _ => s

/-- LOOP_ACQUIRE_RETRY (R373): each 100 µs. -/
def loopRetry (l : Nat) (s : State) : State :=
  let x := vget s.synth.loop l
  if x.lock == .unlocked && 100 * usC ≤ since s x.retried then loopMod l (fun x => { x with retried := s.cyc }) s else s

/-- LOCK of R394 of a loop; for FAULT the spec states none. -/
def lockCode : LockSt → Nat
  | .off => 0
  | .acquiring => 1
  | .locked => 2
  | _ => 3

/-- SYNTH_FAULT (R373, R390): 10 ms without lock. -/
def synthFault (l : Nat) (s : State) : State :=
  let x := vget s.synth.loop l
  if (x.lock == .acquiring || x.lock == .unlocked) && 10 * msC ≤ since s x.unlockedSince then
    let s := loopMod l (fun x => { x with lock := .fault, suspect := x.suspect || l < 2 }) s
    boxNow 1 0x0406 (loopHandle l) (le 1 (lockCode x.lock)) (evLoop l (if l < 2 then 5 else if l = 2 then 7 else 3) s)
  else s

/-- UNIT.REINIT of loop l (R391); answers whether the command waits. -/
def synthReinit (l : Nat) (c : Cmd) (s : State) : Bool × State :=
  let s := if (vget s.synth.loop l).lock == .fault then loopMod l (fun x => { x with lock := .acquiring, unlockedSince := s.cyc }) s else s
  if l < 2 then
    let s := refMod (fun r => match vget r.changes l with
      | none => r
      | some x => if x.cmd.isSome then { r with joined := vmod r.joined l fun q => q ++ [c] }
        else { r with changes := vmod r.changes l fun _ => some { x with cmd := some c, opcode := 0x0101 } }) s
    (true, scsRestart l (some c) 0x0101 (vget s.synth.loop l).n s)
  else if l = 2 then (true, maintAsk 6 0x0C02 0 (2 ^ 80) (some c) 0x0101 s)
  else if l = 3 then (false, dispReinit s)
  else if l < 8 then (true, maintAsk 1 (BitVec.ofNat 16 (loopHandle l)) 0 0 (some c) 0x0101 s)
  else (false, (octetBonds s (l - 8)).foldl (fun s b => lReset b 1 s) s)

/-! ### Verbs (R393, R394) -/

/-- N_WORD within 120.0 to 164.0 (R374). -/
def nRange (n : Nat) : Bool := 120 * 2 ^ 32 ≤ n && n ≤ 164 * 2 ^ 32

/-- A foreground calibration runs or waits on a die. -/
def fgPending (s : State) (d : Nat) : Bool := fgOnDie s d || (dieInputs d).any fun i => maintHas s 3 (BitVec.ofNat 16 (0x0110 + i))

/-- A command addresses an SCS. -/
def isScs (s : State) (h : Handle) : Bool := isA s .synth h && idx h < 2

/-- SYNTH.SET_RATE (R120, R374, R380). -/
def vSynthSetRate : Verb where
  op := 0x1301
  fits := isScs
  checks := fun c s =>
    let d := idx c.unit
    [badArg (!nRange (argN c 0 5)), badState (!ddcAllows s d (argW c 0 40) || fgPending s d || arrangeOnDie s d), busy (rateOnDie s d)]
  act := fun c s => later (scsRestart (idx c.unit) (some c) 0x1301 (argW c 0 40) s)

/-- SYNTH.CONFIGURE (R391): SPREAD stays; reserved bits read 0. -/
def vSynthConfigure : Verb where
  op := 0x1302
  fits := fun s h => isA s .synth h
  checks := fun c _ =>
    let w := argW c 0 32
    let l := idx c.unit
    [badArg (fld w 16 4 < 16 || (if 4 ≤ l ∧ l < 8 then 512 else 4096) < fld w 16 4 || fld w 26 17 == 0 || 1000 < fld w 26 17 || (bitAt w 0 && 2 ≤ l))]
  act := fun c s => ok (loopMod (idx c.unit) (fun x => { x with cfg := setFld (setFld (setFld (argW c 0 32) 31 27 0) 1 1 0) 3 2 (fld x.cfg 3 2) }) s)

/-- SYNTH.ALIGN (R378). -/
def vSynthAlign : Verb where
  op := 0x1303
  fits := isScs
  checks := fun c s => [badArg (1 < argN c 0 1 || (argT c 4).isNone), busy (rateOnDie s (idx c.unit))]
  act := fun c s =>
    if argN c 0 1 = 0 then match scsAlign (idx c.unit) s with
      | (m, s) => okWith s (le 1 (b2n m))
    else later (refMod (fun r => { r with aligns := vmod r.aligns (idx c.unit) fun l => l ++ [(c, (argT c 4).getD 0)] }) s)

/-- An octet carries an Ethernet port (R388). -/
def octetEth (s : State) (o : Nat) : Bool := (List.range 16).any fun p => bitAt (vget s.eth p).cfg 0 && fld (vget s.eth p).cfg 15 8 / 8 == o

/-- SYNTH.SPREAD (R388). -/
def vSynthSpread : Verb where
  op := 0x1304
  fits := fun s h => isA s .synth h
  checks := fun c s =>
    let l := idx c.unit
    [badArg (l < 4 || 2 < argN c 0 1), badState (8 ≤ l && octetEth s (l - 8)),
     busy (4 ≤ l && l < 8 && (s.maint.running ++ s.maint.queue ++ s.maint.arrived).any fun r => r.activity == 1 && r.opcode == 0x1304)]
  act := fun c s =>
    let l := idx c.unit
    if l < 8 then later (maintAsk 1 c.unit 0 (argN c 0 1) (some c) 0x1304 s)
    else ok ((octetBonds s (l - 8)).foldl (fun s b => lReset b 1 s) (loopMod l (fun x => { x with cfg := setFld x.cfg 3 2 (argN c 0 1) }) s))

/-- A command addresses AXS. -/
def isAxs (s : State) (h : Handle) : Bool := isA s .synth h && idx h == 2

/-- AXS_CFG with its reserved fields 0 (R391). -/
def axsCfgOf (c : Cmd) : BitVec 64 := setFld (setFld (argW c 0 64) 47 41 0) 63 56 0

/-- SYNTH.AXS_SET (R383, R386). -/
def vSynthAxsSet : Verb where
  op := 0x1305
  fits := isAxs
  checks := fun c s =>
    let w := axsCfgOf c
    let v := sgn 8 (fld w 55 48)
    [badArg (!axsRange (fld w 39 0) || decide (v < -20) || decide (10 < v) || (argT c 8).isNone), busy (axsSearching s)]
  act := fun c s =>
    if argT0 c 8 then later (axsApply c (axsCfgOf c) s)
    else later (axsMod (fun a => { a with retune := a.retune ++ [(c, axsCfgOf c, (argT c 8).getD 0)] }) s)

/-- SYNTH.AXS_STORE (R384, R386). -/
def vSynthAxsStore : Verb where
  op := 0x1306
  fits := isAxs
  checks := fun c s =>
    [badArg (!axsRange (argN c 4 5)), badState s.synth.axs.ramp.isSome,
     busy (33 ≤ ((s.maint.running ++ s.maint.queue ++ s.maint.arrived).filter fun r => r.activity == 6).length)]
  act := fun c s => later (maintAsk 6 0x0C02 0 (2 ^ 72 + argN c 0 1 * 2 ^ 64 + argN c 4 5) (some c) 0x1306 s)

/-- SYNTH.AXS_HOP (R384, R386). -/
def vSynthAxsHop : Verb where
  op := 0x1307
  fits := isAxs
  checks := fun c s => [badArg (!(s.synth.axs.hops.any fun h => h.1 == argN c 0 1) || (argT c 4).isNone), busy (axsSearching s)]
  act := fun c s =>
    let t := (argT c 4).getD 0
    later (axsMod (fun a => { a with hop := a.hop ++ [(c, argN c 0 1, t, !argT0 c 4 && decide (t < now s))] }) s)

/-- SYNTH.AXS_RAMP_LOAD (R385): SRC is read as the Kennel reads it. -/
def vSynthAxsRampLoad : Verb where
  op := 0x1308
  fits := isAxs
  checks := fun c s =>
    let n := argN c 6 1
    [badArg (n == 0 || 64 < n || argN c 0 6 % 64 != 0 || !mapped s (argN c 0 6) || !mapped s (argN c 0 6 + 16 * n - 1) ||
       (match kennelRead s (argN c 0 6) (16 * n) with | some b => !rampLayout b n | none => false)), busy s.synth.axs.ramp.isSome]
  act := fun c s =>
    match kennelRead s (argN c 0 6) (16 * argN c 6 1) with
    | some b => ok (axsMod (fun a => { a with profile := rampCut (rampSegs b (argN c 6 1)) }) (kennelNote (argN c 0 6) (16 * argN c 6 1) s))
    | none => answer s FAULT

/-- SYNTH.AXS_RAMP_RUN (R385, R386). -/
def vSynthAxsRampRun : Verb where
  op := 0x1309
  fits := isAxs
  checks := fun c s =>
    let n := (vget s.synth.loop 2).n.toNat
    let r := rampCheck n n s.synth.axs.profile
    [badArg ((argT c 0).isNone || (!s.synth.axs.profile.isEmpty && (!r.1 || (argN c 12 4 != 1 && r.2 != n)))),
     busy (s.synth.axs.ramp.isSome || axsSearching s), badState s.synth.axs.profile.isEmpty]
  act := fun c s => ok (axsMod (fun a => { a with ramp := some ⟨(argT c 0).getD 0, false, argN c 12 4, 0, 0, (vget s.synth.loop 2).n.toNat⟩ }) s)

/-- SYNTH.REFERENCE (R391): REF_SEL stays. -/
def vSynthReference : Verb where
  op := 0x130A
  fits := fun s h => isA s .device h
  checks := fun c _ => [badArg (fld (argW c 0 32) 23 8 < 10 || 10000 < fld (argW c 0 32) 23 8)]
  act := fun c s => ok (refMod (fun r => { r with cfg := setFld (setFld (setFld (argW c 0 32) 31 24 0) 7 2 0) 1 1 (fld r.cfg 1 1) }) s)

/-- SYNTH.STATUS record of a loop (R394). LOCK in FAULT and the word of a loop that another block sets are not stated: free. -/
def loopRecord (l : Nat) (h : Handle) (s : State) : Bytes × State :=
  let x := vget s.synth.loop l
  let f := draw s
  let lock := if x.lock == .fault then f.1 % 4 else lockCode x.lock
  let n := if l < 3 then x.n.toNat else f.1 / 4 % 2 ^ 40
  let flags := b2n x.aligned + 2 * b2n x.suspect + 4 * b2n s.synth.ref.coasting + 8 * b2n s.synth.ref.realignSince.isSome +
    16 * b2n (l == 2 && s.synth.axs.ramp.isSome) + 32 * b2n (l == 2 && (maintRunning s 6 0x0C02).isSome) + 64 * b2n (l < 2 && s.synth.ref.marginal)
  (le 1 (unitState s h) ++ le 1 lock ++ le 1 flags ++ le 1 (fld x.cfg 3 2) ++ le 5 n ++ le 7 0 ++ le 4 x.losses ++ le 4 (if l < 2 then x.syncEdges else 0) ++
    le 4 (if l < 2 then unsgn 32 x.syncOffset else 0) ++ le 4 (unsgn 32 (buildOutNow s)) ++ timeB x.lastLock ++ le 4 0,
   if x.lock == .fault || 3 ≤ l then f.2 else s)

/-- SYNTH.STATUS record of the conditioner (R394); STATE, LOCK, SPREAD, N and LAST_LOCK_TIME are not stated for it: free. -/
def refRecord (s : State) : Bytes × State :=
  let r := s.synth.ref
  match draw s with
  | (v, s') =>
    (le 1 (v % 256) ++ le 1 (v / 256) ++ le 1 (4 * b2n r.coasting + 8 * b2n r.realignSince.isSome + 64 * b2n r.marginal) ++ le 1 (v / 2 ^ 16) ++ le 5 (v / 2 ^ 24) ++ le 7 0 ++
      le 4 r.losses ++ le 4 r.syncEdges ++ le 4 (unsgn 32 r.syncOffset) ++ le 4 (unsgn 32 (buildOutNow s)) ++ le 12 (v / 2 ^ 64) ++ le 4 0, s')

/-- SYNTH.STATUS (R393, R394). -/
def vSynthStatus : Verb where
  op := 0x130B
  fits := fun s h => isA s .synth h || isA s .device h
  act := fun c s =>
    if c.unit == 0 then match refRecord s with
      | (b, s) => okWith (if argBit c 0 0 then refMod (fun r => { r with losses := 0, syncEdges := 0 }) s else s) b
    else match loopRecord (idx c.unit) c.unit s with
      | (b, s) => okWith (if argBit c 0 0 then loopMod (idx c.unit) (fun x => { x with losses := 0, syncEdges := 0 }) s else s) b

def execSynthSetRate (c : Cmd) (s : State) : Host.Outcome State Fault Refusal := settle s (runVerb vSynthSetRate c s)
def execScsRateChangeDone (d : Fin 2) (s : State) : Host.Outcome State Fault Refusal := settle s (scsChangeDone d s)
def execSynthConfigure (c : Cmd) (s : State) : Host.Outcome State Fault Refusal := settle s (runVerb vSynthConfigure c s)
def execSynthAlign (c : Cmd) (s : State) : Host.Outcome State Fault Refusal := settle s (runVerb vSynthAlign c s)
def execSynthSpread (c : Cmd) (s : State) : Host.Outcome State Fault Refusal := settle s (runVerb vSynthSpread c s)
def execSynthAxsSet (c : Cmd) (s : State) : Host.Outcome State Fault Refusal := settle s (runVerb vSynthAxsSet c s)
def execSynthAxsStore (c : Cmd) (s : State) : Host.Outcome State Fault Refusal := settle s (runVerb vSynthAxsStore c s)
def execSynthAxsHop (c : Cmd) (s : State) : Host.Outcome State Fault Refusal := settle s (runVerb vSynthAxsHop c s)
def execSynthAxsRampLoad (c : Cmd) (s : State) : Host.Outcome State Fault Refusal := settle s (runVerb vSynthAxsRampLoad c s)
def execSynthAxsRampRun (c : Cmd) (s : State) : Host.Outcome State Fault Refusal := settle s (runVerb vSynthAxsRampRun c s)
def execSynthReference (c : Cmd) (s : State) : Host.Outcome State Fault Refusal := settle s (runVerb vSynthReference c s)
def execSynthStatus (c : Cmd) (s : State) : Host.Outcome State Fault Refusal := settle s (runVerb vSynthStatus c s)
def execAxsSearchDone (found : Bool) (s : State) : Host.Outcome State Fault Refusal := settle s (axsSearchDone found s)
def execAxsHopApply (s : State) : Host.Outcome State Fault Refusal := settle s (axsHopApply s)
def execAxsRampStep (s : State) : Host.Outcome State Fault Refusal := settle s (rampStep s)
def execAxsRetuneApply (s : State) : Host.Outcome State Fault Refusal := settle s (axsRetune s)
def execRefinLost (s : State) : Host.Outcome State Fault Refusal := settle s (refinLost s)
def execRefinQualified (jumpPs : Int) (s : State) : Host.Outcome State Fault Refusal := settle s (refinQualified jumpPs s)
def execRefinQualifyFail (s : State) : Host.Outcome State Fault Refusal := settle s (refinQualifyFail s)
def execRealignDone (s : State) : Host.Outcome State Fault Refusal := settle s (realignDone s)
def execLoopLockChange (l : Fin 26) (locked : Bool) (s : State) : Host.Outcome State Fault Refusal := settle s (loopChange l locked s)
def execLoopAcquireRetry (l : Fin 26) (s : State) : Host.Outcome State Fault Refusal := settle s (loopRetry l s)
def execSynthFault (l : Fin 26) (s : State) : Host.Outcome State Fault Refusal := settle s (synthFault l s)
def execSyncInEdge (offsetPs : Int) (s : State) : Host.Outcome State Fault Refusal := settle s (syncInEdge offsetPs s)
def execSynthAlignApply (d : Fin 2) (s : State) : Host.Outcome State Fault Refusal := settle s (alignApply d s)

end Sys2Proof.Machine
end

