-- ==== Sys2Proof/Machine/StoreRate.lean ====
section
/-! DEFINITION. The store's rate states (R292 to R296, R388) and STORE.STATUS (R304). -/
set_option Elab.async false
namespace Sys2Proof.Machine
open Sys2Proof

/-- The device is in QUIET or on its way there. -/
def quietOr (s : State) : Bool := s.power.state == .quiet || (match s.power.transition with | some (.quiet, _) => true | _ => false)

/-- The device is on its way from QUIET to ACTIVE. -/
def leavingQuiet (s : State) : Bool := match s.power.transition with | some (.active, _) => true | _ => false

/-- STORE.SET_RATE (R292, R295): the state in force completes at once. -/
def vStoreSetRate : Verb where
  op := 0x0E02
  fits := fun s h => isA s .store h
  checks := fun c s =>
    let r := argN c 0 1
    let need := fAdd (storeReserved s) (storeAdmitted s)
    [badArg (3 < r), noRoom (r ≤ 3 && r != rateState s && !fLe need (usableOf s r, 1)) (refusal 2 (mbUp need) (usableOf s r / 1000000) 0),
     badState (quietOr s), busy (rateChanging s)]
  act := fun c s =>
    let r := argN c 0 1
    if r = rateState s then okWith s (le 4 0)
    else later (maintAsk 1 0x0800 0 r (some c) 0x0E02 { s with store := { s.store with rateChange := some ⟨r, some c, none⟩ } })

/-- The state or spread that a finished activity puts in force (R293, R295, R388, R391). -/
def rateTake (r : MaintReq) (s : State) : State :=
  if r.opcode = 0x1304 then
    [4, 5, 6, 7].foldl (fun s l => if onGrade s.grade .synth l then loopMod l (fun x => { x with cfg := setFld x.cfg 3 2 r.arg }) s else s) s
  else if r.opcode = 0x0101 then s
  else { s with store := { s.store with cfg := setFld s.store.cfg 1 0 r.arg } }

/-- EV_STORE_TRAIN on every present stack (R293, R294). -/
def rateEvents (type step pause : Nat) (s : State) : State :=
  (List.range (nStacks s.grade)).foldl (fun s st => raise (0x92 + 4 * st) type (0x0801 + st) (le 1 (rateState s) ++ le 1 step ++ le 2 0 ++ le 4 pause) s) s

/-- STORE_RATE_CHANGE_DONE (R293 to R295): the step that failed, or 0, and the pause. -/
def rateDone (step pause : Nat) (s : State) : State :=
  match s.maint.running.find? fun r => r.activity == 1 with
  | none => s
  | some r =>
    let old := rateState s
    let s := { s with store := { s.store with
      lastPause := pause % 2 ^ 32, lastAccess := s.cyc, rateChange := if r.opcode == 0x0E02 then none else s.store.rateChange
      chans := s.store.chans.map fun c => { c with owed := [], forced := none } } }
    let s := maintEnd r (pauseRestart s)
    if step = 0 then
      let s := rateTake r s
      let s := if r.origin = 2 && s.store.quietSaved.isSome && quietOr s && !leavingQuiet s then { s with store := { s.store with dozing := true } }
        else if r.origin = 2 then { s with store := { s.store with quietSaved := none, dozing := false } } else s
      completeO r.cmd r.opcode.toNat OK (le 4 pause) (rateEvents 3 0 pause s)
    else
      completeO r.cmd r.opcode.toNat FAULT []
        (boxNow 1 0x0405 0x0800 (le 1 old ++ le 1 (if r.opcode = 0x1304 || r.opcode = 0x0101 then old else r.arg) ++ le 1 step) (rateEvents 4 step pause s))

/-- Counters of a stack at zero (R301, R304). -/
def stackClear (x : StackSt) : StackSt := { x with eccCorrected := 0, eccUncorrectable := 0, postponed := 0, forcedCount := 0, pauses := 0 }

/-- The counters of the store, or of one stack, at zero. -/
def storeClear (st : Option Nat) (s : State) : State :=
  match st with
  | some i => stackMod i stackClear s
  | none => { s with store := { s.store with stks := s.store.stks.map stackClear, skid := s.store.skid.map fun k => { k with peak := 0 } } }

/-- UNIT.REINIT of the store or of a stack (R301): every counter, and the ports' figures with the store. -/
def storeReinit (st : Option Nat) (s : State) : State :=
  let s := storeClear st s
  if st.isSome then s else { s with store := { s.store with ports := s.store.ports.map portClear } }

/-- STORE.STATUS record (R304): of the store, or the share of one stack. -/
def storeRecord (s : State) (h : Handle) (st : Option Nat) : Bytes :=
  let n := nStacks s.grade
  let sts := (List.range n).filter fun i => st.all (· == i)
  let sum := fun (f : StackSt → Nat) => ((sts.map fun i => f (vget s.store.stks i)).sum) % 2 ^ 32
  let part := fun (v : Frac) => if st.isSome then fMul v 1 n else v
  le 1 (unitState s h) ++ le 1 (rateState s) ++
  le 1 (4 * b2n (rateChanging s) + b2n (bitAt s.store.cfg 2) + 2 * b2n s.store.kept + 8 * b2n (sts.any fun i => (vget s.store.stks i).double) + 16 * b2n s.store.dozing) ++
  le 1 n ++ le 4 (fFloor (part (usableOf s (admitRate s), 1000000))) ++ le 4 (mbUp (part (storeReserved s))) ++ le 4 (mbUp (part (storeAdmitted s))) ++
  le 4 (sum (·.eccCorrected)) ++ le 4 (sum (·.eccUncorrectable)) ++ le 4 (sum (·.postponed)) ++ le 4 (sum (·.forcedCount)) ++ le 4 (sum (·.pauses)) ++
  le 4 ((s.store.skid.toList.map (·.peak)).foldl max 0 / 1024) ++
  ((List.range 4).flatMap fun i => le 1 (if sts.contains i then unsgn 8 (vget s.store.stks i).temperature else 0x80)) ++ le 4 s.store.lastPause

/-- STORE.STATUS (R303, R304). -/
def vStoreStatus : Verb where
  op := 0x0E05
  fits := fun s h => isA s .store h || isA s .stack h
  act := fun c s =>
    let st := if isA s .stack c.unit then some (idx c.unit) else none
    okWith (if argBit c 0 0 then storeClear st s else s) (storeRecord s c.unit st)

def execStoreSetRate (c : Cmd) (s : State) : Host.Outcome State Fault Refusal := settle s (runVerb vStoreSetRate c s)
def execStoreRateChangeDone (failStep pauseNs : Nat) (s : State) : Host.Outcome State Fault Refusal := settle s (rateDone failStep pauseNs s)
def execStoreStatus (c : Cmd) (s : State) : Host.Outcome State Fault Refusal := settle s (runVerb vStoreStatus c s)

end Sys2Proof.Machine
end

