-- ==== Sys2Proof/Machine/Reset.lean ====
section
/-! DEFINITION. Reset kinds P, M and D, the removal of the main rails, and FAULT (R10, R445, R505, R508, R512 to R515, R518, R526). -/
set_option Elab.async false
namespace Sys2Proof.Machine
open Sys2Proof

/-- Change bring-up, or the power state. -/
def bootMod (f : BootState → BootState) (s : State) : State := { s with boot := f s.boot }
def powerMod (f : PowerSt → PowerSt) (s : State) : State := { s with power := f s.power }

/-- EV_POWER_STATE (R545). -/
def evPower (s : State) : State :=
  raise 0x0B 0 0x1000 (le 1 (match s.power.state with | .active => 0 | .quiet => 1 | .standby => 2) ++ le 1 (b2n s.boot.mainOn)) s

/-- EV_POWER_STATE where the power state or MAIN_ON has changed since an earlier state. -/
def powerChanged (old s : State) : State :=
  if old.boot.mainOn != s.boot.mainOn || old.power.state != s.power.state then evPower s else s

/-- The RESET entry of a D or M (R515, R586). -/
def resetEntry (kind origin mailbox : Nat) (seq : BitVec 32) (s : State) : State :=
  boxNow 1 0x0102 0xFFFF (le 1 kind ++ le 1 origin ++ le 1 mailbox ++ [0] ++ le 4 seq.toNat) s

/-- STATUS_DETAIL takes a cause (R508). -/
def setCause (cause : Nat) (unit : Handle) (s : State) : State :=
  bootMod (fun b => { b with cause := BitVec.ofNat 8 cause, causeUnit := unit, causeStage := b.stage }) s

/-- STAGE_END (R504 step 8, R505, R586). -/
def stageEnd (s : State) : State :=
  boxNow 1 0x0203 0xFFFF (le 1 (stage s) ++ le 1 s.boot.cause.toNat ++ le 2 s.boot.causeUnit.toNat ++ le 4 (since s s.boot.step1Start / msC)) s

/-- A junction request of DEV.RESET completes (R443, R514). -/
def devResetDone (st : Nat) (s : State) : State :=
  [WinPath.smbus, .cozor, .kennel].foldl (fun s p =>
    let b := bankOf s p
    if b.serving && b.opcode == 0x1F01 && b.fwd.isNone then finish (.junction p) b.seq 0x1F01 b.unit b.unit st [] s else s) s

/-- A power transition in progress is abandoned by a D or M; its command over the junction completes with FAULT (R514). -/
def abandonPower (s : State) : State :=
  match s.power.transition with
  | none => s
  | some (_, cs) => cs.foldl (fun s c => complete c 0x1A02 FAULT [] s) (powerMod (fun p => { p with transition := none }) s)

/-- A forwarded command leaves the Kennel's bank when the Kennel stops (R448). -/
def forwardDrop (s : State) : State :=
  if s.junction.kennel.fwd.isSome then bankedMod .kennel (fun b => { b with busy := false, serving := false, fwd := none }) s else s

/-- The store's rings through a D under KEEP_ON_RESET: stopped, with base, size and indices left (R299, R362). -/
def keptRings (s : State) : List RingCtx :=
  (s.rings.filter fun r => 0x90 ≤ r.id && regionOf s.grade r.base == .store).map fun r => { r with kept := true, stopped := true, full := false }

/-- The store through a D (R299 to R301): KEEP_ON_RESET stands, and with it the contents. -/
def storeThroughD (s : State) : StoreSt :=
  if bitAt s.store.cfg 2 then { cfg := 0x180C, selfRefresh := true, badWords := s.store.badWords } else {}

/-- The Ethernet ports go down with the data plane (R400, R519). -/
def portsDown (s : State) : State := if (vget s.eth (tPort s)).up then ptpPortDown (tPort s) s else s

/-- What a D clears of the data and control planes (R9, R10, R518): the fields whose Cleared by column holds D. -/
def clearD (s : State) : State :=
  let s := forwardDrop (portsDown s)
  { s with
    power := { s.power with state := .active, transition := none }
    ev := { enable := enableReset s.grade, queue := s.ev.queue, dropped := s.ev.dropped, internal := s.ev.internal }
    kennel := {}, maint := {}, streams := [], banks := Vector.replicate 32 {}, fetch := {}
    rings := if bitAt s.store.cfg 2 then keptRings s else []
    store := storeThroughD s
    synth := { ref := { s.synth.ref with aligns := Vector.replicate 2 [], changes := Vector.replicate 2 none } }
    eth := Vector.replicate 16 {}, vita := [], link := {}, inputs := Vector.replicate 8 {}, cals := Vector.replicate 8 { bgSince := now s, periodFrom := now s }
    ddcEng := Vector.replicate 8 {}, ddc := Vector.replicate 128 {}, chans := [], xforms := [], te := Vector.replicate 72 {}
    packs := [], fab := {}, events := {}, dens := Vector.replicate 8 {}
    disp := { hpd := s.disp.hpd, hpdFell := s.disp.hpdFell, unplugged := s.disp.unplugged, sink := s.disp.sink }
    boot := { s.boot with
      xinumVersion := 0, storeKept := false, degraded := false, linkTaken := false, b0WasUp := false, tePassed := 0, vFabModel := false
      slotsTried := [], onlyRollback := true, pendingReset := none } }

/-- The data and control planes lose power (R300, R512, R526): as at a D, and memory is lost. The time counter runs on
(R23). STANDBY clears the same fields (R12). -/
def planesOff (s : State) : State :=
  let s := clearD s
  { s with mem := [], rings := [], store := {}
           boot := { s.boot with mainOn := false, railsOffAt := if s.boot.mainOn then s.cyc else s.boot.railsOffAt, reentry3 := false, forceLink := false, linkBoot := false }
           power := { s.power with railMv := Vector.replicate 10 0, railOut := 0 } }

/-- Everything but what survives a P (R9, R10, R518): what no reset clears stays (R11). -/
def clearP (s : State) : State :=
  { State.reset with
    pending := s.pending, grade := s.grade, freeNo := s.freeNo
    ev := { enable := enableReset s.grade }
    boot := { bootCount := s.boot.bootCount, resetNLow := s.boot.resetNLow }
    sec := { otp := s.sec.otp, flash := s.sec.flash, identity := s.sec.identity, certs := s.sec.certs, challengeNo := s.sec.challengeNo, signNo := s.sec.signNo }
    box := { entries := s.box.entries, nextSeq := s.box.nextSeq }
    dacs := { clrLow := s.dacs.clrLow, refBad := s.dacs.refBad
              ch := s.dacs.ch.map fun d => { nvmCode := d.nvmCode, nvmRange := d.nvmRange } } }

/-- The planes stop and STAGE takes a code before their requests are abandoned, so that their records wait (R28, R514). -/
def stopPlanes (n : Nat) (s : State) : State :=
  abandonPower (maintAbandon (bootMod (fun b => { b with stage := BitVec.ofNat 4 n }) s))

/-- FAULT with a cause, the main rails up or removed (R505, R508). -/
def enterFault (cause : Nat) (unit : Handle) (off : Bool) (s : State) : State :=
  let s := setCause cause unit s
  if off then setStage 15 (devResetDone REFUSED_STATE (powerChanged s (planesOff (stopPlanes 15 s))))
  else setStage 15 s

/-- An M begins (R512, R515, R526): entry, planes stopped, rails removed for `off` reference cycles and at least 10 ms. -/
def beginM (origin mailbox : Nat) (seq : BitVec 32) (off : Nat) (s : State) : State :=
  let s := resetEntry 1 origin mailbox seq s
  let t := planesOff (stopPlanes 8 s)
  let t := bootMod (fun b => { b with lastReset := 1, mHeld := true, offFor := max (10 * msC) off }) t
  devResetDone REFUSED_STATE (setStage 8 (powerChanged s t))

/-- A store rate change under way holds a D back (R514). -/
def rateHoldsD (s : State) : Bool := s.store.rateChange.any (·.granted.isSome) || s.maint.running.any (·.activity == 1)

/-- A D begins (R512, R515, R299): entry, planes reset with the rails up, STAGE MAIN_RAILS_UP. -/
def beginD (r : ResetReq) (s : State) : State :=
  let force := stage s == 15 && (s.boot.cause == 2 || s.boot.cause == 3)
  let s := resetEntry 2 r.origin r.mailbox r.seq s
  let t := clearD (stopPlanes 3 s)
  let t := bootMod (fun b => { b with lastReset := 2, reentry3 := true, forceLink := force, linkBoot := false, stepStart := s.cyc }) t
  devResetDone OK (setStage 3 (powerChanged s t))

/-- DEV_RESET_BEGIN (R445, R462, R512, R514). -/
def devResetBegin (s : State) : State :=
  match s.boot.pendingReset with
  | none => s
  | some r =>
    if s.cyc < r.due || !s.boot.mainOn || s.power.tripped || rateHoldsD s then s else beginD r s

def execDevResetBegin (s : State) : Host.Outcome State Fault Refusal := settle s (devResetBegin s)

/-- RESET_N held low (R513): a D while the main rails are up, and its step 3 waits for the rising edge. -/
def execResetNLow (s : State) : Host.Outcome State Fault Refusal :=
  settle s (if !s.boot.mainOn || s.power.tripped || s.boot.resetNLow then s else
    askReset { origin := 2, mailbox := 0, seq := 0, due := s.cyc } (bootMod (fun b => { b with resetNLow := true }) s))

/-- The rising edge of RESET_N (R513). -/
def execResetNRise (s : State) : Host.Outcome State Fault Refusal := settle s (if s.boot.resetNLow then bootMod (fun b => { b with resetNLow := false, stepStart := if b.reentry3 then s.cyc else b.stepStart }) s else s)

/-- MAIN_OFF_ELAPSED (R512, R543): the off time of an M has passed. -/
def execMainOffElapsed (s : State) : Host.Outcome State Fault Refusal :=
  settle s (if s.boot.mHeld && s.boot.offFor ≤ since s s.boot.railsOffAt then bootMod (fun b => { b with mHeld := false, stepStart := s.cyc }) s else s)

end Sys2Proof.Machine
end

