-- ==== Sys2Proof/Machine/Boot.lean ====
section
/-! DEFINITION. Bring-up (R48, R49, R299, R448, R504 to R511, R525, R578): steps 1 to 8, image selection, the link boot, and the bounds of the steps. -/
set_option Elab.async false
namespace Sys2Proof.Machine
open Sys2Proof

/-! ### Steps 1 and 2 -/

/-- The code that the CLRSEL straps select: zero, quarter, half, full scale; OMT7-880X ignores them (R535, R553). -/
def clrselCode (g : Grade) (straps : BitVec 8) : BitVec 16 :=
  if g == .g880x then 0x0000 else match fld straps 1 0 with | 0 => 0x0000 | 1 => 0x4000 | 2 => 0x8000 | _ => 0xFFFF

/-- VIN_AUX_RISE (R504 step 1, R515, R535). -/
def vinAuxRise (straps : BitVec 8) (mv : Nat) (s : State) : State :=
  if stage s != 0 || mv ≤ 1580 then s else
  let straps := straps &&& 0x3F
  let s := { s with
    power := { s.power with straps := straps, vinAux := { s.power.vinAux with mv := mv } }
    boot := { s.boot with step1Start := s.cyc, stepStart := s.cyc }
    dacs := { s.dacs with ch := s.dacs.ch.map fun d => { d with clearCode := clrselCode s.grade straps } }
    synth := { s.synth with ref := { s.synth.ref with cfg := setBit s.synth.ref.cfg 1 (bitAt straps 5) } } }
  setStage 1 (boxNow 0 0x0101 0xFFFF (le 1 s.boot.lastReset.toNat ++ le 1 straps.toNat ++ le 2 mv) s)

/-- Slots in the order of preference (R510); one whose header fails is tried last (R577). -/
def slotOrder (s : State) : List Nat :=
  if slotSeq s 0 < slotSeq s 1 || (!slotHeaderOk (slotHeader s 0) && slotHeaderOk (slotHeader s 1)) then [1, 0] else [0, 1]

/-- Put a value at place i of a list of three. -/
def set3 {α : Type} (d : α) (l : List α) (i : Nat) (v : α) : List α := ((l ++ [d, d, d]).take 3).set i v

/-- An image of type t runs from now on; `h` is its header (R574, R580). -/
def imageRuns (t : Nat) (h : Bytes) (s : State) : State :=
  bootMod (fun b => { b with
    runHash := set3 [] b.runHash (t - 1) (bytesAt h 16 48), runSecVersion := set3 0 b.runSecVersion (t - 1) (numAt h 5 1)
    mgmtFwVersion := if t = 1 then BitVec.ofNat 32 (numAt h 8 4) else b.mgmtFwVersion
    xinumVersion := if t = 2 then BitVec.ofNat 32 (numAt h 8 4) else b.xinumVersion }) s

/-- A failure of an image: its entry, and whether every failure so far was an anti-rollback refusal (R510, R575). -/
def imageFailed (t source reason version : Nat) (s : State) : State :=
  imageFail t source reason version (bootMod (fun b => { b with onlyRollback := b.onlyRollback && reason = 5 }) s)

/-- FAULT with MAIN_IMAGE, or ROLLBACK when every failure was an anti-rollback refusal (R508, R510). -/
def imageFault (s : State) : State := enterFault (if s.boot.onlyRollback then 3 else 2) 0xFFFF false s

/-- Verify the management firmware of the candidates in order (R510). Answers whether one runs. -/
def tryMgmt : List Nat → State → Bool × State
  | [], s => (false, s)
  | k :: ks, s =>
    let r := slotReason s k 1
    let s := bootMod (fun b => { b with slotsTried := b.slotsTried ++ [k] }) s
    if r = 0 then
      let h := flashRead s (k * 0x2000000 + imageOff (slotHeader s k) 1) 512
      (true, imageRuns 1 h (bootMod (fun b => { b with bootSlot := k, mgmtSlot := k, stepStart := s.cyc }) s))
    else tryMgmt ks (imageFailed 1 k r (slotVersion s k 1) s)

/-- MGMT_FW_VERIFIED (R504 step 2, R510): one slot becomes the boot slot, or the boot ROM falls back to a link boot of all three images. -/
def mgmtFwVerified (s : State) : State :=
  if stage s != 1 || s.boot.linkMgmt then s else
  let retry := !s.boot.slotsTried.isEmpty
  match tryMgmt ((slotOrder s).filter fun k => !s.boot.slotsTried.contains k) s with
  | (true, s) => setStage 2 s
  | (false, s) =>
    if retry then imageFault s
    else setCause 1 0xFFFF (bootMod (fun b => { b with linkMgmt := true, stepStart := s.cyc }) s)

/-! ### Step 3 -/

/-- VIN_MAIN has stood at 10.7 V or above for 10 ms (R504 step 3). -/
def vinMainGood (s : State) : Bool := s.power.vinMain.aboveSince.any fun c => 10 * msC ≤ since s c

/-- Step 3 is the step to run (R504, R508, R510, R512, R513, R517). -/
def step3Next (s : State) : Bool :=
  (stage s == 2 || (stage s == 1 && s.boot.linkMgmt) || (stage s == 8 && !s.boot.mHeld && !s.boot.vinMainLow) ||
    (stage s == 3 && s.boot.reentry3 && !s.boot.resetNLow)) && s.power.state != .standby

/-- Step 3 can run: its condition holds. -/
def step3Due (s : State) : Bool := step3Next s && (s.boot.mainOn || vinMainGood s)

/-- Every bank zero-filled, ON and the Kennel's; under a link boot banks 0 to 15 go to B0 (R319, R504, R511). -/
def banksFresh (link : Bool) (s : State) : State :=
  { s with mem := memZero s.mem 0 0x8000000
           banks := Vector.ofFn fun i => if link && i.val < 16 then { owner := 0x0F00 } else {} }

/-- A present loop that the main rails power (R58, R373). -/
def loopPower (s : State) : State :=
  let power := fun (i : Fin 26) =>
    let x := vget s.synth.loop i.val
    if onGrade s.grade .synth i.val && x.lock == .off then { x with lock := .acquiring, unlockedSince := s.cyc } else x
  { s with synth := { s.synth with loop := Vector.ofFn power } }

/-- The command that asked for ACTIVE completes once MAIN_ON is 1 (R543). -/
def wakeDone (s : State) : State :=
  match s.power.transition with
  | some (.active, cs) => cs.foldl (fun s c => complete c 0x1A02 OK [] s) (powerMod (fun p => { p with transition := none }) s)
  | _ => s

/-- MAIN_RAILS_UP (R504 step 3, R525): `railOk` tells which rails reach regulation; rail 7 is off on the OMT7-480. -/
def mainRailsUp (railOk : BitVec 10) (s : State) : State :=
  if !step3Due s then s else
  if !s.boot.mainOn && (List.range 10).any (fun r => !bitAt railOk r && !(r == 7 && s.grade == .g480)) then enterFault 5 0x1000 true s else
  let rise := !s.boot.mainOn
  let link := bitAt s.power.straps 4 || s.boot.forceLink || s.boot.linkMgmt || s.boot.mgmtSlot == 2
  let s := bootMod (fun b => { b with mainOn := true, reentry3 := false, mHeld := false, linkBoot := link, linkTaken := false, b0WasUp := false, linkWaitStart := s.cyc, stepStart := s.cyc }) s
  let s := if rise then wakeDone (evPower s) else s
  setStage 3 (bondTrain 0 (loopPower (banksFresh link s)))

/-! ### Step 4 -/

/-- The header of a link image set (R511). -/
def linkHeader (s : State) : Bytes := rawRead s 0 64

/-- LINK_IMAGE_POLL (R511): a valid header is taken, and banks 0 to 15 are handed to the Kennel (R312). -/
def linkImagePoll (s : State) : State :=
  let h := linkHeader s
  if stage s != 3 || s.boot.reentry3 || !s.boot.linkBoot || s.boot.linkTaken then s
  else if numAt h 0 4 != 0x4F4D5437 || numAt h 60 4 != (crc32 (h.take 60)).toNat then s
  else
    let s := bootMod (fun b => { b with linkTaken := true, stepStart := s.cyc }) s
    (List.range 16).foldl (fun s k => bankMod k (fun b => { b with pendingOwner := 0x0010, handover := some (none, s.cyc) }) s) s

/-- Where the link set's header names an image of a type: offset and length. -/
def linkEntry (h : Bytes) (t : Nat) : Nat × Nat :=
  let o := if t = 1 then 24 else 8 * (t - 1)
  (numAt h o 4, numAt h (o + 4) 4)

/-- A header that breaks R511's rules for offsets. -/
def linkHeaderBad (h : Bytes) (types : List Nat) : Bool :=
  types.any fun t => let e := linkEntry h t; e.1 % 64 != 0 || 0x4000000 < e.1 + e.2

/-- The images that step 4 verifies: the management firmware too where the link brings it (R510, R511). -/
def stepTypes (s : State) : List Nat := if s.boot.linkMgmt then [1, 2, 3] else [2, 3]

/-- REASON of an image of the link set. -/
def linkReason (s : State) (t : Nat) : Nat :=
  let h := linkHeader s
  if t = 1 && numAt h 5 1 != 3 then 1
  else imageReason s (fun a n => rawRead s a n) t (linkEntry h t).1 (min 0x4000000 ((linkEntry h t).1 + (linkEntry h t).2))

/-- Verify images in order; the first failure ends it (R575). Answers whether all pass. -/
def verifyAll (source : Nat) (reason : State → Nat → Nat) (head : State → Nat → Bytes) : List Nat → State → Bool × State
  | [], s => (true, s)
  | t :: ts, s =>
    let r := reason s t
    if r = 0 then verifyAll source reason head ts (imageRuns t (head s t) s)
    else (false, imageFailed t source r (numAt (head s t) 5 1) s)

/-- Step 4's images verified: from the link set, or from the boot slot (R504, R510, R511). -/
def verifyMain (s : State) : Bool × State :=
  if s.boot.linkBoot then
    let h := linkHeader s
    let named := if numAt h 5 1 = 3 then [2, 3, 1] else [2, 3]
    if linkHeaderBad h named then (false, named.foldl (fun s t => imageFailed t 2 1 0 s) s)
    else verifyAll 2 linkReason (fun s t => rawRead s (linkEntry (linkHeader s) t).1 512) (stepTypes s) s
  else
    let k := s.boot.bootSlot
    verifyAll k (fun s t => slotReason s k t) (fun s t => flashRead s (k * 0x2000000 + imageOff (slotHeader s k) t) 512) (stepTypes s) s

/-- The link set has reached the Kennel (R312, R511). -/
def linkHanded (s : State) : Bool :=
  s.boot.linkTaken && (List.range 16).all fun k => (vget s.banks k).owner == 0x0010 && (vget s.banks k).pendingOwner == 0xFFFF

/-- What a failure of step 4 leads to (R510, R511). -/
def step4Failed (s : State) : State :=
  if s.boot.linkMgmt then enterFault 1 0xFFFF true s
  else if s.boot.linkBoot then imageFault s
  else
    let k := s.boot.bootSlot
    let s := bootMod (fun b => { b with slotsTried := if b.slotsTried.contains k then b.slotsTried else b.slotsTried ++ [k] }) s
    if s.boot.slotsTried.contains (1 - k) then imageFault s
    else setStage 1 (bootMod (fun b => { b with stepStart := s.cyc }) s)

/-- KENNEL_BOOT (R504 step 4, R436, R448). -/
def kennelBoot (s : State) : State :=
  if stage s != 3 || s.boot.reentry3 || (s.boot.linkBoot && !linkHanded s) then s else
  match verifyMain s with
  | (false, s) => step4Failed s
  | (true, s) =>
    let s := { s with
      kennel := {}
      boot := { s.boot with
        bootCount := BitVec.ofNat 32 (min 0xFFFFFFFF (s.boot.bootCount.toNat + 1)), stepStart := s.cyc
        bootSlot := if s.boot.linkBoot then 2 else s.boot.bootSlot
        mgmtSlot := if s.boot.linkMgmt then 2 else s.boot.mgmtSlot, linkMgmt := false } }
    setStage 4 (boxNow 2 0x0201 0xFFFF (le 1 s.boot.bootSlot ++ le 3 0 ++ le 4 (slotSeq s 0) ++ le 4 (slotSeq s 1)) s)

/-- LINK_IMAGE_TIMEOUT (R510, R511): LINK_WAIT_S is 10 s. -/
def linkImageTimeout (s : State) : State :=
  if stage s != 3 || s.boot.reentry3 || !s.boot.linkBoot || s.boot.linkTaken || since s s.boot.linkWaitStart < 10 * secC then s
  else if s.boot.linkMgmt then enterFault 1 0xFFFF true s else enterFault 4 0xFFFF false s

/-! ### Steps 5 to 7 -/

/-- The fixed rings (R336, R341, R447), in order of ring ID. -/
def fixedRings (g : Grade) : List RingCtx :=
  (List.range 64).map (fun m => { id := m, base := mbxBase g + m * 0x1000, log2 := 12, type := 1, owner := 0xFFFF, policy := 0 }) ++
  (List.range 64).map (fun m => { id := 0x40 + m, base := mbxBase g + 0x40000 + m * 0x1000, log2 := 12, type := 2, owner := 0x0010, policy := 0 }) ++
  (List.range 16).map (fun e => { id := 0x80 + e, base := mbxBase g + 0x80000 + e * 0x10000, log2 := 16, type := 3, owner := 0x0B00, policy := 2 })

/-- STORE_TRAINED (R504 step 5, R299, R448, R508): `stackOk` tells which stacks train. -/
def trainStore (stackOk : BitVec 4) (s : State) : State :=
  if stage s != 4 then s else
  match (List.range (nStacks s.grade)).find? fun k => !bitAt stackOk k with
  | some k => enterFault 9 (BitVec.ofNat 16 (0x0801 + k)) false (stackMod k (fun x => { x with failed := true }) s)
  | none =>
    let kept := s.store.selfRefresh
    let s := { s with
      rings := fixedRings s.grade ++ s.rings.filter fun r => 0x90 ≤ r.id
      mem := memZero s.mem (mbxBase s.grade) (mbxBase s.grade + 0x180000)
      store := { s.store with selfRefresh := false, kept := kept, lastAccess := s.cyc }
      boot := { s.boot with storeKept := kept, stepStart := s.cyc } }
    setStage 5 (pauseRestart s)

/-- SCS d reaches FAULT at bring-up, or locks; any other present loop locks (R373, R390, R504 step 6). -/
def loopUp (scsLock : BitVec 2) (s : State) (l : Nat) : State :=
  if !onGrade s.grade .synth l || (vget s.synth.loop l).lock == .locked then s
  else if l < 2 && !bitAt scsLock l then
    let s := loopMod l (fun x => { x with lock := .fault, suspect := true }) s
    boxNow 1 0x0406 (loopHandle l) (le 1 1) (evLoop l 5 s)
  else loopGain l s

/-- CONVERTERS_CAL (R504 steps 6 and 7, R49, R102, R299): `tePass` tells which transform engines pass, `scsLock` which SCS lock. -/
def convertersCal (tePass : BitVec 72) (scsLock : BitVec 2) (s : State) : State :=
  if stage s != 5 then s else
  let s := if s.store.kept then s else
    { s with mem := memZero s.mem 0x000100000000 (storeEnd s.grade), store := { s.store with badWords := [] } }
  let s := bootMod (fun b => { b with tePassed := tePass, vFabModel := true, stepStart := s.cyc }) s
  let s := (List.range 72).foldl (fun s e => if bitAt tePass e then s else raise 0x6B 2 (0x0400 + e) [] (teMod e (fun t => { t with fault := true }) s)) s
  let s := (List.range 26).foldl (loopUp scsLock) s
  let s := setStage 6 s
  let ok := fun d => onGrade s.grade .synth d && (vget s.synth.loop d).lock == .locked
  let s := [0, 1].foldl (fun s d => if ok d then scsRetuned d (vget s.synth.loop d).n s else s) s
  (List.range (nInputs s.grade)).foldl (fun s i => if ok (dieOf i) then maintAsk 3 (BitVec.ofNat 16 (0x0110 + i)) 2 (if i % 2 = 0 then 1 else 0) none 0 s else s) s

/-! ### Step 8 -/

/-- Foreground calibrations of step 7 still to end. -/
def fgLeft (s : State) : Bool :=
  (s.maint.running ++ s.maint.queue ++ s.maint.arrived).any (·.activity == 3) || s.cals.toList.any (·.fg.isSome)

/-- Fill the slots of P0 to P7: each engine that passed its test, or the next spare; none once the pool has run out (R49). Answers the
slots and the spares left. -/
def fillSlots (passed : BitVec 72) : List Nat → List Nat → List (Option Nat) → List (Option Nat) × List Nat
  | [], pool, acc => (acc.reverse, pool)
  | e :: es, pool, acc =>
    if bitAt passed e then fillSlots passed es pool (some e :: acc)
    else match pool with
      | p :: ps => fillSlots passed es ps (some p :: acc)
      | [] => fillSlots passed es [] (none :: acc)

/-- A slot that holds an engine, or is empty. -/
def slotOf1 (e : Option Nat) : Slot := { member := e.map fun e => BitVec.ofNat 16 (0x0400 + e) }

/-- The packs of R48, built under R49; the same on every grade (R5). -/
def defaultPacks (passed : BitVec 72) : List PackSt :=
  let f := fillSlots passed (List.range 64) ((List.range 8).map (· + 64) |>.filter fun e => bitAt passed e) []
  ((List.range 8).map fun k =>
    let sl := ((f.1.drop (8 * k)).take 8).map slotOf1
    let short := sl.any (·.member.isNone)
    { handle := BitVec.ofNat 16 (0x8000 + k), slots := sl, degraded := short, lastState := if short then 2 else 0 }) ++
  [{ handle := 0x80FF, slots := (List.range 8).map fun k => slotOf1 (if f.2.contains (64 + k) then some (64 + k) else none) }]

/-- The first degradation in step order: cause, unit and the STAGE in force then (R507). -/
def degradeCause (s : State) : Option (Nat × Handle × Nat) :=
  match [0, 1].find? fun d => onGrade s.grade .synth d && (vget s.synth.loop d).lock == .fault with
  | some d => some (0x22, BitVec.ofNat 16 (0x0C00 + d), 5)
  | none => match [0, 4, 1, 5, 2, 6, 3, 7].find? fun i => decide (i < nInputs s.grade) && (vget s.cals i).fgFailed with
    | some i => some (0x21, BitVec.ofNat 16 (0x0100 + i), 6)
    | none => (s.packs.find? (·.degraded)).map fun p => (0x20, p.handle, 6)

/-- A dropped record is charged to the outputs that it would have reached (R28). -/
def chargeLoss (s : State) (e : EventRec) : State :=
  if !bitAt s.ev.enable e.source.toNat then s else
  let w := vget s.ev.route e.source.toNat
  let add := fun (l : LostSt) => ({ count := l.count + 1, first := if l.count = 0 then e.time else l.first } : LostSt)
  { s with ev := { s.ev with
      ringLost := Vector.ofFn fun k => let l := vget s.ev.ringLost k.val; if bitAt w k.val then add l else l
      bondLost := Vector.ofFn fun k => let l := vget s.ev.bondLost k.val; if bitAt w (16 + k.val) then add l else l } }

/-- A loss that no queued record followed is reported alone (R28). -/
def lossAlone (s : State) : State :=
  let s := (List.range 16).foldl (fun s k =>
    let l := vget s.ev.ringLost k
    if l.count = 0 then s else
    match ringPut false (0x80 + k) ⟨evBytes (lostRec s l.count l.first), 0x13, now s, 0⟩ (summarise 0x0F s) with
    | (s', .kept, ev) => emit ev { s' with ev := { s'.ev with ringLost := vmod s'.ev.ringLost k fun _ => {} } }
    | _ => s) s
  (List.range 8).foldl (fun s k =>
    let l := vget s.ev.bondLost k
    if l.count = 0 || !bondUp s k then s else
    let s' := linkSend k { ttype := 7, vc := 1, data := evBytes (lostRec s l.count l.first) } (summarise 0x0F s)
    { s' with ev := { s'.ev with bondLost := vmod s'.ev.bondLost k fun _ => {} } }) s

/-- The queued records of management-plane sources go out (R27, R28). -/
def deliverQueue (s : State) : State :=
  let q := evSort s.ev.queue
  let s := s.ev.dropped.foldl chargeLoss s
  let s := { s with ev := { s.ev with queue := [], dropped := [] } }
  lossAlone (q.foldl (fun s e => if bitAt s.ev.enable e.source.toNat then (match evDeliver e s with | (s, ev) => emit ev s) else s) s)

/-- BRINGUP_READY (R504 step 8, R28, R49, R507). -/
def bringupReady (s : State) : State :=
  if stage s != 6 || fgLeft s then s else
  let s := { s with packs := defaultPacks s.boot.tePassed }
  let d := degradeCause s
  let n := if d.isSome then 14 else 7
  let s := match d with
    | some (c, u, st) => bootMod (fun b => { b with cause := BitVec.ofNat 8 c, causeUnit := u, causeStage := BitVec.ofNat 4 st }) s
    | none => s
  let s := bootMod (fun b => { b with stage := BitVec.ofNat 4 n, degraded := d.isSome, readyTime := now s, lastReport := s.cyc, stepStart := s.cyc, forceLink := false }) s
  stageEnd (setStage n (deliverQueue s))

/-! ### Bounds (R505) -/

/-- The reference cycle at which the step in progress began, and its bound in ms; none where no bound runs. -/
def stepBound (s : State) : Option (Nat × Nat) :=
  if step3Next s then
    if s.boot.mainOn then some (s.boot.stepStart, 20)
    else if vinMainGood s then s.power.vinMain.aboveSince.map fun c => (max s.boot.stepStart (c + 10 * msC), 20) else none
  else match stage s with
    | 1 => some (s.boot.stepStart, 150)
    | 3 => if s.boot.reentry3 || s.boot.linkBoot then none else some (s.boot.stepStart, 400)
    | 4 => some (s.boot.stepStart, 200)
    | 5 => some (s.boot.stepStart, 150)
    | 6 => some (s.boot.stepStart, if fgLeft s then 100 else 110)
    | _ => none

/-- STAGE_TIMEOUT (R505): the step in progress has run beyond its bound; `unit` did not finish. -/
def stageTimeout (unit : Handle) (s : State) : State :=
  match stepBound s with
  | some (t, ms) => if t + ms * msC < s.cyc then stageEnd (enterFault 8 unit false s) else s
  | none => s

def execVinAuxRise (straps : BitVec 8) (mv : Nat) (s : State) : Host.Outcome State Fault Refusal := settle s (vinAuxRise straps mv s)
def execMgmtFwVerified (s : State) : Host.Outcome State Fault Refusal := settle s (mgmtFwVerified s)
def execMainRailsUp (railOk : BitVec 10) (s : State) : Host.Outcome State Fault Refusal := settle s (mainRailsUp railOk s)
def execKennelBoot (s : State) : Host.Outcome State Fault Refusal := settle s (kennelBoot s)
def execStoreTrained (stackOk : BitVec 4) (s : State) : Host.Outcome State Fault Refusal := settle s (trainStore stackOk s)
def execConvertersCal (tePass : BitVec 72) (scsLock : BitVec 2) (s : State) : Host.Outcome State Fault Refusal := settle s (convertersCal tePass scsLock s)
def execBringupReady (s : State) : Host.Outcome State Fault Refusal := settle s (bringupReady s)
def execStageTimeout (unit : Handle) (s : State) : Host.Outcome State Fault Refusal := settle s (stageTimeout unit s)
def execLinkImagePoll (s : State) : Host.Outcome State Fault Refusal := settle s (linkImagePoll s)
def execLinkImageTimeout (s : State) : Host.Outcome State Fault Refusal := settle s (linkImageTimeout s)

end Sys2Proof.Machine
end

