-- ==== Sys2Proof/Machine/Dac.lean ====
section
/-! DEFINITION. Control DAC channels (R546 to R555, R566, R568): loads, strobes, the Leash, clears, power-up and range changes. -/
set_option Elab.async false
namespace Sys2Proof.Machine
open Sys2Proof

/-- Change channel i, or the outputs as a whole. -/
def dacMod (i : Nat) (f : DacSt → DacSt) (s : State) : State := { s with dacs := { s.dacs with ch := vmod s.dacs.ch i f } }
def dacsMod (f : DacsSt → DacsSt) (s : State) : State := { s with dacs := f s.dacs }

/-! ### Fields of CDAC_CFG (R555) -/

def dRange (w : BitVec 64) : Bool := bitAt w 0
def dUpdate (w : BitVec 64) : Bool := bitAt w 1
def dLeash (w : BitVec 64) : Bool := bitAt w 2
def dStep (w : BitVec 64) : Nat := fld w 31 16
def dEvery (w : BitVec 64) : Nat := fld w 47 32

/-- VIN_AUX is below 2.8 V, as the supervisor last sampled it (R547). -/
def auxLow (s : State) : Bool := s.power.vinAux.mv < 2800

/-- The loop that owns a channel (R564). -/
def loopOf (s : State) (ch : Nat) : Option Nat := (List.range 8).find? fun l => (vget s.loops l).state != .off && fld (vget s.loops l).cfg 11 8 == ch

/-- Clear code of a channel (R553). -/
def clearOf (s : State) (x : DacSt) : BitVec 16 := if s.grade == .g880x then x.nvmCode else x.clearCode

/-- A clear cause acts on a channel (R552). -/
def cleared (s : State) (x : DacSt) : Bool := s.dacs.clrLow || x.refClear || x.overcurrent

/-! ### Moves (R548, R550, R551) -/

/-- One move of the Leash toward the target: at the target, NORMAL. -/
def leashMove (x : DacSt) : DacSt :=
  let o := x.out.toNat
  let g := x.dacReg.toNat
  let n := dStep x.cfg
  let o' := if o ≤ g then o + min n (g - o) else o - min n (o - g)
  { x with out := BitVec.ofNat 16 o', ch := if o' = g then .normal else .slewing }

/-- A load begins a move from where the output stands, at tick u: with the Leash a slew with its first step, without it the target at once. -/
def moveStart (u : Nat) (x : DacSt) : DacSt :=
  if dLeash x.cfg then leashMove { x with slewAt := u } else { x with out := x.dacReg, ch := .normal }

/-- A load of a channel at tick u (R548, R550, R551, R552). -/
def loadNow (s : State) (u : Nat) (x : DacSt) : DacSt :=
  let x := { x with dacReg := x.inReg, loadPending := false, loads := wrapAdd 32 x.loads 1, lastLoad := now s }
  match x.ch with
  | .normal => if x.out = x.dacReg then x else moveStart u x
  | .slewing => if !dLeash x.cfg then { x with out := x.dacReg, ch := .normal } else if x.out = x.dacReg then { x with ch := .normal } else x
  | .held => moveStart u x
  | .clamped => if x.clampCleared && !cleared s x then { x with clampCleared := false } else x
  | .cleared => x

/-- A clear at a tick (R552, R555). -/
def clearNow (s : State) (x : DacSt) : DacSt :=
  let x := { x with clearDue := false, clears := wrapAdd 32 x.clears 1 }
  match x.ch with
  | .clamped => if x.clampStart.isSome then { x with clampCleared := true } else x
  | _ => { x with out := clearOf s x, ch := if cleared s x then .cleared else .held }

/-- Power-up at a tick (R554). -/
def powerUpNow (s : State) (x : DacSt) : DacSt :=
  if cleared s x then { x with out := clearOf s x, ch := .cleared, clearDue := false } else { x with out := x.dacReg, ch := .normal }

/-- The clamp of a range change at tick u (R555). -/
def clampNow (u : Nat) (x : DacSt) : DacSt :=
  { x with out := 0, clampCleared := x.ch == .cleared || x.ch == .held || (x.ch == .clamped && x.clampCleared), ch := .clamped, clampStart := some u, newRange := false, leaveClamp := false }

/-- What a tick does to one channel: power-up, load, clamp and its end, clear (R549 to R555). In HELD every strobe of the group is a load (R551). -/
def chanTick (s : State) (u : Nat) (groups : BitVec 3) (i : Nat) (x : DacSt) : DacSt :=
  let x := if s.dacs.powerUpPending then powerUpNow s x else x
  let x := if x.loadPending || (bitAt groups (i / 4) && (!dUpdate x.cfg || x.ch == .held)) then loadNow s u x else x
  let x := if x.newRange then clampNow u x else if x.leaveClamp then moveStart u { x with leaveClamp := false, clampStart := none } else x
  if x.clearDue then clearNow s x else x

/-- DAC_UPDATE_TICK (R398, R549): the tick of the counter's present microsecond, once. -/
def dacTick (s : State) : State :=
  let u := nowUs s
  if s.dacs.lastTick == some u then s else
  let due := s.dacs.scheduled.filter fun p => p.2 ≤ u * 65536000
  let groups := due.foldl (fun (g : BitVec 3) p => g ||| BitVec.ofNat 3 p.1) s.dacs.strobes
  let cmds := s.dacs.strobeCmds
  let s := dacsMod (fun d => { d with
    ch := Vector.ofFn fun i => chanTick s u groups i.val (vget d.ch i.val)
    scheduled := d.scheduled.filter fun p => !decide (p.2 ≤ u * 65536000), strobes := 0, strobeCmds := [], powerUpPending := false, lastTick := some u }) s
  let s := due.foldl (fun s p => raise 0xEA (if p.2 + 65536000 ≤ u * 65536000 then 2 else 1) 0x1000 (le 1 p.1 ++ [0, 0, 0] ++ timeB p.2) s) s
  cmds.foldl (fun s c => complete c 0x1703 OK [] s) s

/-- LEASH_STEP (R550): the next instant of the slew's grid. -/
def leashStep (i : Nat) (s : State) : State :=
  let x := vget s.dacs.ch i
  if x.ch != .slewing || nowUs s < x.slewAt + dEvery x.cfg then s else
  dacMod i (fun x => leashMove { x with slewAt := x.slewAt + dEvery x.cfg }) s

/-- DAC_CLAMP_END (R555): 25 us after the clamp. -/
def clampEnd (i : Nat) (s : State) : State :=
  let x := vget s.dacs.ch i
  match x.clampStart with
  | none => s
  | some u =>
    if x.ch != .clamped || x.leaveClamp || nowUs s < u + 25 then s
    else if x.clampCleared then dacMod i (fun x => { x with out := clearOf s x, ch := if cleared s x then .cleared else .held, clampStart := none, clampCleared := false }) s
    else dacMod i (fun x => { x with leaveClamp := true }) s

/-! ### Clears (R552) -/

/-- EV_DAC_CLEAR: type 1 ASSERTED, 2 RELEASED. -/
def evClear (type cause mask : Nat) (s : State) : State := raise 0xE8 type 0x1000 (le 1 cause ++ [0] ++ le 2 mask) s

/-- EV_DAC_FAULT (R609). -/
def evDacFault (type unit : Nat) (current : Int) (s : State) : State := raise 0xE9 type unit (le 2 (unsgn 16 current) ++ le 2 s.power.vinAux.mv) s

/-- The end of the last cause of a channel: HELD (R551). -/
def clearOver (s : State) : State := dacsMod (fun d => { d with ch := d.ch.map fun x => if x.ch == .cleared && !x.clearDue && !cleared s x then { x with ch := .held } else x }) s

/-- DAC_CLR_N_CHANGE (R552). -/
def clrChange (low : Bool) (s : State) : State :=
  if s.dacs.clrLow == low then s
  else if low then evClear 1 0 0xFFF (dacsMod (fun d => { d with clrLow := true, ch := d.ch.map fun x => { x with clearDue := true } }) s)
  else evClear 2 0 0xFFF (clearOver (dacsMod (fun d => { d with clrLow := false }) s))

/-- DAC_REFERENCE_FAULT (R552): the reference leaves its window for 10 us, or is back within it. -/
def refFault (out : Bool) (s : State) : State :=
  if s.dacs.refBad == out then s
  else if out then
    evClear 1 1 0xFFF (evDacFault 1 0x1000 0 (dacsMod (fun d => { d with refBad := true, ch := d.ch.map fun x => { x with refClear := true, clearDue := true } }) s))
  else dacsMod (fun d => { d with refBad := false }) s

/-- DAC_OVERCURRENT (R552): a channel beyond 15 mA for 1 ms, in 10 uA units; a current within it ends the cause. -/
def overcurrent (i : Nat) (cur : Int) (s : State) : State :=
  let x := vget s.dacs.ch i
  let ovs := 1500 < cur.natAbs
  let s := dacMod i (fun x => { x with current := cur, ocPersists := ovs, overcurrent := x.overcurrent || ovs, clearDue := x.clearDue || (ovs && !x.overcurrent) }) s
  if ovs && !x.overcurrent then evClear 1 2 (2 ^ i) (evDacFault 2 (0x1010 + i) cur s) else s

/-- DAC_HEADROOM (R547), with VIN_AUX in mV. -/
def dacHeadroom (i mv : Nat) (s : State) : State :=
  let x := vget s.dacs.ch i
  let low := mv < 2800 && dRange x.cfg
  let s := dacMod i (fun x => { x with headroom := low }) s
  if low && !x.headroom then raise 0xE9 3 (0x1010 + i) (le 2 (unsgn 16 x.current) ++ le 2 mv) s else s

/-- LOAD_G_FALL (R548): a low period of at least 100 ns. -/
def loadFall (g lowNs : Nat) (s : State) : State :=
  if lowNs < 100 then s else dacsMod (fun d => { d with strobes := d.strobes ||| BitVec.ofNat 3 (2 ^ g) }) s

/-- DAC_POWER_UP (R553, R554): the reference is in its window after P. -/
def dacPowerUp (s : State) : State :=
  if s.dacs.powered || stage s = 0 then s else
  let x := s.grade == .g880x
  let low := auxLow s
  let s := dacsMod (fun d => { d with
    powered := true, powerUpPending := true
    ch := d.ch.map fun c =>
      let v := clearOf s c
      { c with inReg := v, dacReg := v, cfg := setBit c.cfg 0 (x && c.nvmRange && !low), headroom := x && c.nvmRange && low } }) s
  (List.range 12).foldl (fun s i => if (vget s.dacs.ch i).headroom then evDacFault 3 (0x1010 + i) 0 s else s) s

/-! ### Verbs (R568) -/

/-- DAC.CONFIGURE (R547, R555, R564). -/
def vDacConfigure : Verb where
  op := 0x1701
  fits := fun s h => isA s .dac h
  checks := fun c s =>
    let w := argW c 0 64
    let i := idx c.unit
    [badArg (dStep w == 0 || dEvery w == 0), badState (dRange w && auxLow s), badState ((loopOf s i).isSome && dRange w != dRange (vget s.dacs.ch i).cfg)]
  act := fun c s =>
    let w := setFld (setFld (argW c 0 64) 15 3 0) 63 48 0
    ok (dacMod (idx c.unit) (fun x => { x with cfg := w, newRange := x.newRange || dRange w != dRange x.cfg, headroom := x.headroom && dRange w }) s)

/-- DAC.WRITE (R548, R564). -/
def vDacWrite : Verb where
  op := 0x1702
  fits := fun s h => isA s .dac h
  checks := fun c s => [badState (loopOf s (idx c.unit)).isSome]
  act := fun c s => ok (dacMod (idx c.unit) (fun x => { x with inReg := argW c 0 16, loadPending := x.loadPending || dUpdate x.cfg || argBit c 2 0 }) s)

/-- DAC.STROBE (R548, R549): the answer comes at the tick. -/
def vDacStrobe : Verb where
  op := 0x1703
  fits := fun s h => isA s .mgmt h
  checks := fun c _ => [badArg (argN c 0 1 % 8 == 0)]
  act := fun c s => later (dacsMod (fun d => { d with strobes := d.strobes ||| argW c 0 3, strobeCmds := d.strobeCmds ++ [c] }) s)

/-- DAC.SCHEDULE (R549, R568). -/
def vDacSchedule : Verb where
  op := 0x1704
  fits := fun s h => isA s .mgmt h
  checks := fun c s => [badArg (argN c 0 1 % 8 == 0 || (argT c 4).isNone), busy (16 ≤ s.dacs.scheduled.length)]
  act := fun c s =>
    let t := (argT c 4).getD 0
    okWith (dacsMod (fun d => { d with scheduled := d.scheduled ++ [(argN c 0 1 % 8, t)] }) s) (le 1 (b2n (decide (t < now s))))

/-- DAC.SET_CLEAR (R553). -/
def vDacSetClear : Verb where
  op := 0x1705
  fits := fun s h => isA s .dac h
  act := fun c s => ok (dacMod (idx c.unit) (fun x => if s.grade == .g880x then { x with nvmCode := argW c 0 16, nvmRange := dRange x.cfg } else { x with clearCode := argW c 0 16 }) s)

/-- DAC.RELEASE (R552). -/
def vDacRelease : Verb where
  op := 0x1706
  fits := fun s h => isA s .mgmt h
  checks := fun _ s =>
    let l := s.dacs.ch.toList
    [badState ((s.dacs.refBad && l.any (·.refClear)) || l.any (fun x => x.overcurrent && x.ocPersists) || !(l.any fun x => x.refClear || x.overcurrent))]
  act := fun _ s =>
    let mask := fun (p : DacSt → Bool) => ((List.range 12).map fun i => if p (vget s.dacs.ch i) then 2 ^ i else 0).sum
    let m1 := mask (·.refClear)
    let m2 := mask (·.overcurrent)
    let s := clearOver (dacsMod (fun d => { d with ch := d.ch.map fun x => { x with refClear := false, overcurrent := false } }) s)
    let s := if m1 = 0 then s else evClear 2 1 m1 s
    ok (if m2 = 0 then s else evClear 2 2 m2 s)

/-- CH_STATE (R568). -/
def dacCode : DacCh → Nat | .normal => 0 | .slewing => 1 | .clamped => 2 | .cleared => 3 | .held => 4

/-- DAC.STATUS (R568). -/
def vDacStatus : Verb where
  op := 0x1707
  fits := fun s h => isA s .dac h
  act := fun c s =>
    let i := idx c.unit
    let x := vget s.dacs.ch i
    let l := loopOf s i
    okWith (if argBit c 0 0 then dacMod i (fun x => { x with loads := 0, clears := 0 }) s else s)
      (le 1 (unitState s c.unit) ++ le 1 (dacCode x.ch) ++ le 1 (b2n (dRange x.cfg) + 2 * b2n l.isSome + 4 * b2n x.headroom) ++ le 1 (l.getD 0xFF) ++ le 2 x.inReg.toNat ++
        le 2 x.dacReg.toNat ++ le 2 x.out.toNat ++ le 2 (clearOf s x).toNat ++ le 2 (unsgn 16 x.current) ++ [0, 0] ++ le 4 x.loads ++ le 4 x.clears ++ timeB x.lastLoad)

/-- UNIT.REINIT of a channel clears its counts (R566). -/
def dacReinit (i : Nat) (s : State) : State := dacMod i (fun x => { x with loads := 0, clears := 0 }) s

def execDacConfigure (c : Cmd) (s : State) : Host.Outcome State Fault Refusal := settle s (runVerb vDacConfigure c s)
def execDacWrite (c : Cmd) (s : State) : Host.Outcome State Fault Refusal := settle s (runVerb vDacWrite c s)
def execDacStrobe (c : Cmd) (s : State) : Host.Outcome State Fault Refusal := settle s (runVerb vDacStrobe c s)
def execDacSchedule (c : Cmd) (s : State) : Host.Outcome State Fault Refusal := settle s (runVerb vDacSchedule c s)
def execDacSetClear (c : Cmd) (s : State) : Host.Outcome State Fault Refusal := settle s (runVerb vDacSetClear c s)
def execDacRelease (c : Cmd) (s : State) : Host.Outcome State Fault Refusal := settle s (runVerb vDacRelease c s)
def execDacStatus (c : Cmd) (s : State) : Host.Outcome State Fault Refusal := settle s (runVerb vDacStatus c s)
def execLoadGFall (g : Fin 3) (lowNs : Nat) (s : State) : Host.Outcome State Fault Refusal := settle s (loadFall g.val lowNs s)
def execDacClrNChange (low : Bool) (s : State) : Host.Outcome State Fault Refusal := settle s (clrChange low s)
def execDacUpdateTick (s : State) : Host.Outcome State Fault Refusal := settle s (dacTick s)
def execLeashStep (ch : Fin 12) (s : State) : Host.Outcome State Fault Refusal := settle s (leashStep ch.val s)
def execDacClampEnd (ch : Fin 12) (s : State) : Host.Outcome State Fault Refusal := settle s (clampEnd ch.val s)
def execDacReferenceFault (out : Bool) (s : State) : Host.Outcome State Fault Refusal := settle s (refFault out s)
def execDacOvercurrent (ch : Fin 12) (current : Int) (s : State) : Host.Outcome State Fault Refusal := settle s (overcurrent ch.val current s)
def execDacHeadroom (ch : Fin 12) (mv : Nat) (s : State) : Host.Outcome State Fault Refusal := settle s (dacHeadroom ch.val mv s)
def execDacPowerUp (s : State) : Host.Outcome State Fault Refusal := settle s (dacPowerUp s)

end Sys2Proof.Machine
end

