-- ==== Sys2Proof/Machine/Tdc.lean ====
section
/-! DEFINITION. Interval measurement (R418 to R435): edges, the four modes, the FIFO, self-calibration, the TDC verbs, and the edges of the internal channels. -/
set_option Elab.async false
namespace Sys2Proof.Machine
open Sys2Proof

/-- Change external channel i, or input i of all ten. -/
def tdcMod (i : Nat) (f : TdcSt → TdcSt) (s : State) : State := { s with tdc := { s.tdc with ch := vmod s.tdc.ch i f } }
def tinMod (i : Nat) (f : TdcIn → TdcIn) (s : State) : State := { s with tdc := { s.tdc with inp := vmod s.tdc.inp i f } }

/-! ### Fields of TDC_CFG (R433) -/

def tThresh (w : BitVec 128) : Int := sgn 13 (fld w 12 0)
def tSlope (w : BitVec 128) : Nat := fld w 14 13
def tSigned (w : BitVec 128) : Bool := bitAt w 16
def tMode (w : BitVec 128) : Nat := fld w 18 17
def tSingle (w : BitVec 128) : Bool := bitAt w 19
def tStop (w : BitVec 128) : Nat := fld w 23 20
def tGate (w : BitVec 128) : Nat := fld w 39 24
def tRing (w : BitVec 128) : Nat := fld w 59 40
def tAutoCal (w : BitVec 128) : Nat := fld w 79 64

/-! ### Edges (R419, R420, R423) -/

/-- Pairs of an input that are in use (R432). -/
def pairsOk (x : TdcIn) : Nat := (x.pairs.toList.filter (·.ok)).length

/-- Dead time of an input in 0.001 ps (R419, R432). -/
def deadTime (x : TdcIn) : Nat :=
  let n := pairsOk x
  if 17 ≤ n then 10000000 else max 10 (ceilDiv 168 n) * 1000000

/-- The next free pair of an input in its turn: in use and not withdrawn for calibration (R420, R431). -/
def pairFor (s : State) (i : Nat) : Option Nat :=
  let x := vget s.tdc.inp i
  ((List.range 18).map fun k => (x.next + k) % 18).find? fun p => (vget x.pairs p).ok && s.tdc.cal != some (i, p)

/-- Place of an edge in reference time, 0.001 ps since P (R420). -/
def edgeAt (e : Edge) : Int := (e.coarse : Int) * 2500000 - e.fine

/-- An input takes a crossing in the direction of its slope, or ignores and counts it (R419); the edge, and the new state. -/
def takeEdge (i : Nat) (falling : Bool) (coarse n : Nat) (s : State) : Option Edge × State :=
  let x := vget s.tdc.inp i
  match pairFor s i with
  | none => (none, tinMod i (fun x => { x with missed := wrapAdd 32 x.missed 1 }) s)
  | some p =>
    let k := vget x.pairs p
    let e : Edge := ⟨coarse, (n * k.lsb : Nat) + k.ofs, k.lsb, falling⟩
    if x.lastAt.any fun t => decide (edgeAt e < t + deadTime x) then (none, tinMod i (fun x => { x with missed := wrapAdd 32 x.missed 1 }) s)
    else (some e, tinMod i (fun x => { x with next := (p + 1) % 18, lastAt := some (edgeAt e) }) s)

/-- Absolute time of an edge, 2^-16 ns (R423), at the present INCREMENT (log 23). -/
def edgeTime (s : State) (e : Edge) : Int :=
  let inc : Int := s.time.increment
  ((s.time.counter : Int) + inc * ((e.coarse : Int) - 4 * s.cyc) / 4 - e.fine * inc / 10000000) / 2 ^ 32

/-- An edge's time as a time of the counter. -/
def edgeStamp (s : State) (e : Edge) : Time := (edgeTime s e).toNat

/-- A step of the counter has occurred since the channel's previous timestamp (R423). -/
def stepped (s : State) (i : Nat) : Bool := (vget s.tdc.ch i).stepMark.any (· != s.time.stepsAll)

/-! ### Results (R426, R427, R429) -/

/-- The result record (R429). -/
def resultBytes (r : TdcResult) : Bytes :=
  le 8 (unsgn 64 r.value) ++ le 4 r.count ++ le 1 r.mode ++ le 1 r.flags.toNat ++ le 2 0 ++ timeB r.time ++ le 4 r.freq

/-- TDC_RESULT (R429): the record is written, EV_TDC raised, and the channel re-arms or disarms. `kind`: 0 RESULT, 1 ORDER, 2 OVERFLOW. -/
def tdcResult (i kind : Nat) (below : Bool) (value : Int) (count freq : Nat) (t : Time) (s : State) : State :=
  let x := vget s.tdc.ch i
  let fl := b2n below + 2 * b2n (kind == 1) + 4 * b2n (kind == 2) + 8 * b2n s.synth.ref.coasting + 16 * b2n (s.time.state != .locked) + 32 * b2n (stepped s i)
  let r : TdcResult := ⟨value, count, tMode x.cfg, BitVec.ofNat 8 fl, t, freq⟩
  let s := tdcMod i (fun x => { x with
    result := some r, number := x.number + 1, start := none, stop := none, gate := none, armed := !tSingle x.cfg, stepMark := some s.time.stepsAll
    orders := if kind = 1 then wrapAdd 32 x.orders 1 else x.orders, overflows := if kind = 2 then wrapAdd 32 x.overflows 1 else x.overflows }) s
  raise (0xE0 + i) (kind + 1) (0x0D10 + i) ((resultBytes r).take 16) s

/-- A result without a frequency: FREQ_MHZ is stated for PERIOD alone and is free (log 24). -/
def tdcPlain (i kind : Nat) (below : Bool) (value : Int) (t : Time) (s : State) : State :=
  match draw s with
  | (f, s) => tdcResult i kind below value ((vget s.tdc.ch i).number + 1) (f % 2 ^ 32) t s

/-- An interval with both edges (R426). -/
def intervalEnd (i : Nat) (a : Edge) (t : Time) (b : Edge) (s : State) : State :=
  let v := edgeAt b - edgeAt a
  if v.natAbs < a.lsb then tdcPlain i 0 true 0 t s
  else if 0 ≤ v || (tSigned (vget s.tdc.ch i).cfg && v.natAbs < 2500000) then tdcPlain i 0 false (roundDivI (v * 65536) 1000000) t s
  else tdcPlain i 1 false 0 t s

/-- No stop edge within 2^24 coarse periods of the start edge by coarse edge c (R426). -/
def intervalLate (i c : Nat) (s : State) : State :=
  let x := vget s.tdc.ch i
  match x.start with
  | some (a, t) => if x.armed && tMode x.cfg == 0 && x.stop.isNone && a.coarse + 2 ^ 24 < c then tdcPlain i 2 false 0 t s else s
  | none => s

/-- The gate ends (R427); its frequency in mHz to the nearest (log 24). -/
def gateClose (i : Nat) (s : State) : State :=
  match (vget s.tdc.ch i).start, (vget s.tdc.ch i).gate with
  | some (a, t), some (b, n) =>
    let d := (edgeAt b - edgeAt a).toNat
    if n < 2 || d = 0 then tdcResult i 2 false 0 n 0 t s
    else tdcResult i 0 false (roundDivI ((d : Int) * 65536) ((n - 1) * 1000000)) n (min 0xFFFFFFFF (roundDiv ((n - 1) * 10 ^ 18) d)) t s
  | _, _ => s

/-- The gate of a channel has elapsed at coarse edge c (R427). -/
def gateOver (x : TdcSt) (c : Nat) : Bool := match x.start with | some (a, _) => decide (a.coarse + tGate x.cfg * 400 ≤ c) | none => false

/-! ### CONTINUOUS (R428) -/

/-- An entry of an interval frame (R353, R428). -/
def intervalEntry (s : State) (i : Nat) (e : Edge) (lost : Bool) : Bytes :=
  timeB (edgeStamp s e) ++ le 1 i ++
    le 1 (b2n e.falling + 2 * b2n lost + 4 * b2n (s.time.state != .locked) + 8 * b2n s.synth.ref.coasting + 16 * b2n (stepped s i)) ++ [0, 0]

/-- An edge enters the FIFO, or is lost to a full one. -/
def fifoTake (i : Nat) (e : Edge) (s : State) : State :=
  let x := vget s.tdc.ch i
  if x.fifo.length < 1024 then
    tdcMod i (fun y => { y with fifo := x.fifo ++ [(s.cyc, intervalEntry s i e (x.lostNow != 0))], lostNow := 0, stepMark := some s.time.stepsAll }) s
  else
    let s := tdcMod i (fun y => { y with
      lostNow := y.lostNow + 1, fifoLost := wrapAdd 32 y.fifoLost 1
      mainOffLost := if s.boot.mainOn then y.mainOffLost else some (match y.mainOffLost with | some (n, t) => (n + 1, t) | none => (1, edgeStamp s e)) }) s
    if x.lostNow = 0 then raise (0xE0 + i) 4 (0x0D10 + i) (le 4 (vget s.tdc.ch i).fifoLost) s else s

/-- TDC_FIFO_DRAIN (R353, R428): a frame of 512 entries, or of what is there 1 ms after its first. -/
def fifoDrain (i : Nat) (s : State) : State :=
  let x := vget s.tdc.ch i
  match x.fifo with
  | [] => s
  | (c, b) :: _ =>
    if !isReady s || (x.fifo.length < 512 && since s c < msC) then s else
    let es := x.fifo.take 512
    let t := (timeOf (numAt b 0 12)).getD 0
    let ring := tRing x.cfg
    let h := 0x0D10 + i
    let s := match x.mainOffLost with
      | some (n, t0) =>
        let k := ringItems s ring
        ringCount ring n (tdcMod i (fun x => { x with mainOffLost := none }) (publishNow ring ⟨gapBytes s h 16 3 n t0 t k 0 false, 0x10, t0, k⟩ s))
      | none => s
    let k := ringItems s ring
    let s := publishNow ring ⟨frameBytes 0x08 h 0 k t (le 4 es.length) (es.flatMap (·.2)), 0x08, t, k⟩ s
    ringCount ring es.length (tdcMod i (fun x => { x with fifo := x.fifo.drop 512 }) s)

/-! ### What an edge does -/

/-- A start edge of an armed channel. -/
def startEdge (i : Nat) (e : Edge) (s : State) : State :=
  let x := vget s.tdc.ch i
  if !x.armed then s else
  match tMode x.cfg with
  | 0 =>
    (match x.start with
     | some (a, t) => if tStop x.cfg = i then intervalEnd i a t e s else s
     | none =>
       let t := edgeStamp s e
       match x.stop with
       | some b => intervalEnd i e t b s
       | none => tdcMod i (fun x => { x with start := some (e, t) }) s)
  | 1 => let d := draw s; tdcPlain i 0 false (sgn 64 (d.1 % 2 ^ 64)) (edgeStamp s e) d.2
  | 2 =>
    let s := if gateOver x e.coarse then gateClose i s else s
    let x := vget s.tdc.ch i
    if !x.armed then s
    else if x.start.isNone then tdcMod i (fun x => { x with start := some (e, edgeStamp s e), gate := some (e, 1) }) s
    else tdcMod i (fun x => { x with gate := x.gate.map fun g => (e, g.2 + 1) }) s
  | _ => fifoTake i e s

/-- A stop edge of an armed channel in INTERVAL mode whose STOP_SRC is another channel. -/
def stopEdge (i : Nat) (e : Edge) (s : State) : State :=
  let x := vget s.tdc.ch i
  match x.start with
  | some (a, t) => intervalEnd i a t e s
  | none => if x.stop.isNone then tdcMod i (fun x => { x with stop := some e }) s else s

/-- An edge of channel c reaches the external channels that measure it. -/
def edgeFeed (c : Nat) (e : Edge) (s : State) : State :=
  (List.range 4).foldl (fun s i =>
    let s := intervalLate i e.coarse s
    let x := vget s.tdc.ch i
    if c = i then startEdge i e s
    else if x.armed && tMode x.cfg == 0 && tStop x.cfg == c then stopEdge i e s
    else s) s

/-- An edge of a TIN channel reaches the event engines, at up to four in a microsecond (R430). -/
def edgeTrig (i : Nat) (e : Edge) (s : State) : State :=
  let x := vget s.tdc.ch i
  let u := e.coarse / 400
  let n := if x.trigRate.1 = u then x.trigRate.2 else 0
  if 4 ≤ n then tdcMod i (fun x => { x with trigDrops := wrapAdd 32 x.trigDrops 1 }) s
  else formElem 6 (0x0D10 + i) false (edgeStamp s e) 1 (tdcMod i (fun x => { x with trigRate := (u, n + 1) }) s)

/-- The direction of a crossing is that of SLOPE; internal channels use the rising edge only (R419, R424). -/
def slopeTakes (s : State) (c : Nat) (falling : Bool) : Bool :=
  if c < 4 then match tSlope (vget s.tdc.ch c).cfg with | 0 => !falling | 1 => falling | _ => true else !falling

/-- A crossing on channel c (R419 to R430); the edge taken. -/
def crossing (c : Nat) (falling : Bool) (coarse n : Nat) (s : State) : Option Edge × State :=
  if stage s = 0 || !slopeTakes s c falling || (c == 7 && s.grade == .g480) then (none, s) else
  match takeEdge c falling coarse n s with
  | (none, s) => (none, s)
  | (some e, s) =>
    let s := edgeFeed c e s
    (some e, if c < 4 then edgeTrig c e s else s)

/-- SCS_MARKER (R31, R375, R405): the marker's timestamp joins the last 16 of its die. -/
def scsMarker (d coarse n : Nat) (s : State) : State :=
  if !s.boot.mainOn || (vget s.synth.loop d).lock == .off then s else
  match crossing (6 + d) false coarse n s with
  | (none, s) => s
  | (some e, s) =>
    let k := vget s.synth.markCount d + 1
    { s with synth := { s.synth with
      markCount := vmod s.synth.markCount d fun _ => k
      markers := vmod s.synth.markers d fun l => ((65536 * k, edgeStamp s e) :: l).take 16 } }

/-- PPS_IN_EDGE (R403). -/
def ppsEdge (coarse n : Nat) (s : State) : State :=
  match crossing 8 false coarse n s with
  | (none, s) => s
  | (some e, s) => ppsTake (edgeTime s e) s

/-- A channel arms (R425). -/
def tdcArmNow (i : Nat) (s : State) : State :=
  tdcMod i (fun x => { x with armed := true, armAt := none, start := none, stop := none, gate := none, number := 0, result := none }) s

/-- TDC_ARM_TIME (R425). -/
def tdcArmTime (i : Nat) (s : State) : State :=
  match (vget s.tdc.ch i).armAt with
  | some t => if t ≤ now s then tdcArmNow i s else s
  | none => s

/-- TDC_GATE_END (R427). -/
def tdcGateEnd (i : Nat) (s : State) : State :=
  let x := vget s.tdc.ch i
  if x.armed && tMode x.cfg == 2 && gateOver x (4 * s.cyc) then gateClose i s else s

/-- UNIT.REINIT of a channel (R433). -/
def tdcReinit (i : Nat) (s : State) : State :=
  tinMod i (fun x => { x with missed := 0 }) (tdcMod i (fun x => { x with
    armed := false, armAt := none, start := none, stop := none, gate := none, fifo := [], lostNow := 0, mainOffLost := none
    fifoLost := 0, trigDrops := 0, orders := 0, overflows := 0 }) s)

/-! ### Self-calibration (R431, R432) -/

/-- A vernier self-calibration runs or waits. -/
def calAsked (s : State) : Bool := (s.maint.running ++ s.maint.queue ++ s.maint.arrived).any fun r => r.activity == 5

/-- Mean LSB_p of the pairs of an input in use, 0.001 ps. -/
def meanLsb (x : TdcIn) : Nat :=
  let l := x.pairs.toList.filter (·.ok)
  if l.isEmpty then 0 else roundDiv ((l.map (·.lsb)).sum) l.length

/-- TDC_AUTO_CAL (R431, R600, R603). -/
def tdcAuto (moved : Bool) (s : State) : State :=
  let due := (List.range 4).find? fun i =>
    let x := vget s.tdc.ch i
    tAutoCal x.cfg != 0 && decide (tAutoCal x.cfg * secC ≤ since s x.lastCalCyc)
  if calAsked s then s else
  match due with
  | some i => maintAsk 5 (BitVec.ofNat 16 (0x0D10 + i)) 1 0 none 0 s
  | none => if moved then maintAsk 5 0x0D10 1 0 none 0 s else s

/-- Unit of EV_TDC_CAL (R435). -/
def calUnit (c : Nat) : Nat := if c < 4 then 0x0D10 + c else 0

/-- TDC_SELFCAL_PAIR_DONE (R431, R432). -/
def pairDone (lsb : Nat) (ofs : Int) (s : State) : State :=
  match s.tdc.cal with
  | none => s
  | some (c, p) =>
    if 10 ≤ c then s else
    let good := decide (1450 ≤ lsb) && decide (lsb ≤ 1550)
    let s := tinMod c (fun x => { x with pairs := vmod x.pairs p fun k => if good then ⟨lsb, ofs, true⟩ else { k with ok := false } }) s
    let c' := if p < 17 then c else if c = 6 && s.grade == .g480 then 8 else c + 1
    let s := { s with tdc := { s.tdc with cal := some (c', if p < 17 then p + 1 else 0) } }
    if good then s else raise 0xE4 2 (calUnit c) (le 1 c ++ le 1 p ++ le 2 (meanLsb (vget s.tdc.inp c))) s

/-- TDC_SELFCAL_DONE (R431). -/
def selfcalDone (s : State) : State :=
  match s.tdc.cal, s.maint.running.find? fun r => r.activity == 5 with
  | some (c, _), some r =>
    if c < 10 then s else
    let i := idx r.unit
    let s := { s with tdc := { s.tdc with cal := none, ch := s.tdc.ch.map fun x => { x with lastCal := now s, lastCalCyc := s.cyc } } }
    let s := raise 0xE4 1 r.unit.toNat (le 1 i ++ [0] ++ le 2 (meanLsb (vget s.tdc.inp i))) s
    completeO r.cmd r.opcode.toNat OK [] (maintEnd r s)
  | _, _ => s

/-! ### Verbs (R434) -/

/-- TDC.CONFIGURE (R424, R425, R433, R614). -/
def vTdcConfigure : Verb where
  op := 0x1501
  fits := fun s h => isA s .tdc h
  checks := fun c s =>
    let w := argW c 0 128
    let x := vget s.tdc.ch (idx c.unit)
    [badArg (decide (tThresh w < -1000) || decide (2500 < tThresh w) || tSlope w == 3 || 9 < tStop w || (tStop w == 7 && s.grade == .g480) || tGate w == 0 || 41000 < tGate w ||
       (tMode w == 3 && tRing w < 0x90) || !outRingOk s (tRing w) 15 c.unit 8256),
     badState (x.armed || x.armAt.isSome), keptCond s [tRing w]]
  act := fun c s => ok (tdcMod (idx c.unit) (fun x => { x with cfg := setFld (setFld (argW c 0 128) 63 60 0) 127 80 0 }) s)

/-- TDC.ARM (R425, R434). -/
def vTdcArm : Verb where
  op := 0x1502
  fits := fun s h => isA s .tdc h
  checks := fun c s =>
    let x := vget s.tdc.ch (idx c.unit)
    [badArg (argT c 0).isNone, busy (x.armed || x.armAt.isSome), badState (tMode x.cfg == 3 && (ringOf s (tRing x.cfg)).any (·.stopped))]
  act := fun c s =>
    let t := (argT c 0).getD 0
    let i := idx c.unit
    if argT0 c 0 then okWith (tdcArmNow i s) [0]
    else if t ≤ now s then okWith (tdcArmNow i s) (le 1 (b2n (decide (t < now s))))
    else okWith (tdcMod i (fun x => { x with armAt := some t }) s) [0]

/-- TDC.DISARM (R434). -/
def vTdcDisarm : Verb where
  op := 0x1503
  fits := fun s h => isA s .tdc h
  checks := fun c s => let x := vget s.tdc.ch (idx c.unit); [badState (!x.armed && x.armAt.isNone)]
  act := fun c s => ok (tdcMod (idx c.unit) (fun x => { x with armed := false, armAt := none, start := none, stop := none, gate := none }) s)

/-- TDC.READ (R429, R434). -/
def vTdcRead : Verb where
  op := 0x1504
  fits := fun s h => isA s .tdc h
  checks := fun c s => [notReady (vget s.tdc.ch (idx c.unit)).result.isNone]
  act := fun c s => okWith s (((vget s.tdc.ch (idx c.unit)).result.map resultBytes).getD [])

/-- TDC.SELFCAL (R431, R434). -/
def vTdcSelfcal : Verb where
  op := 0x1505
  fits := fun s h => isA s .tdc h
  checks := fun _ s => [busy (calAsked s)]
  act := fun c s => later (maintAsk 5 c.unit 0 0 (some c) 0x1505 s)

/-- TDC.STATUS (R434). -/
def vTdcStatus : Verb where
  op := 0x1506
  fits := fun s h => isA s .tdc h
  act := fun c s =>
    let i := idx c.unit
    let x := vget s.tdc.ch i
    let k := vget s.tdc.inp i
    let s' := if argBit c 0 0 then tinMod i (fun x => { x with missed := 0 }) (tdcMod i (fun x => { x with fifoLost := 0, trigDrops := 0, orders := 0, overflows := 0 }) s) else s
    okWith s' (le 1 (unitState s c.unit) ++ le 1 (b2n x.armed) ++ le 1 (pairsOk k) ++ [0] ++ le 4 k.missed ++ le 4 x.fifoLost ++ le 4 x.trigDrops ++ le 4 x.orders ++
      le 4 x.overflows ++ timeB x.lastCal ++ le 2 (meanLsb k))

def execTdcConfigure (c : Cmd) (s : State) : Host.Outcome State Fault Refusal := settle s (runVerb vTdcConfigure c s)
def execTdcArm (c : Cmd) (s : State) : Host.Outcome State Fault Refusal := settle s (runVerb vTdcArm c s)
def execTdcDisarm (c : Cmd) (s : State) : Host.Outcome State Fault Refusal := settle s (runVerb vTdcDisarm c s)
def execTdcRead (c : Cmd) (s : State) : Host.Outcome State Fault Refusal := settle s (runVerb vTdcRead c s)
def execTdcSelfcal (c : Cmd) (s : State) : Host.Outcome State Fault Refusal := settle s (runVerb vTdcSelfcal c s)
def execTdcStatus (c : Cmd) (s : State) : Host.Outcome State Fault Refusal := settle s (runVerb vTdcStatus c s)
def execTdcArmTime (ch : Fin 4) (s : State) : Host.Outcome State Fault Refusal := settle s (tdcArmTime ch.val s)
def execTinEdge (ch : Fin 10) (falling : Bool) (coarse fine : Nat) (s : State) : Host.Outcome State Fault Refusal := settle s (crossing ch.val falling coarse fine s).2
def execTdcGateEnd (ch : Fin 4) (s : State) : Host.Outcome State Fault Refusal := settle s (tdcGateEnd ch.val s)
/-- TDC_INTERVAL_OVERFLOW (R426). -/
def execTdcIntervalOverflow (ch : Fin 4) (s : State) : Host.Outcome State Fault Refusal := settle s (intervalLate ch.val (4 * s.cyc) s)
def execTdcFifoDrain (ch : Fin 4) (s : State) : Host.Outcome State Fault Refusal := settle s (fifoDrain ch.val s)
def execTdcAutoCal (tempMoved : Bool) (s : State) : Host.Outcome State Fault Refusal := settle s (tdcAuto tempMoved s)
def execTdcSelfcalPairDone (lsb : Nat) (ofs : Int) (s : State) : Host.Outcome State Fault Refusal := settle s (pairDone lsb ofs s)
def execTdcSelfcalDone (s : State) : Host.Outcome State Fault Refusal := settle s (selfcalDone s)
def execScsMarker (d : Fin 2) (coarse fine : Nat) (s : State) : Host.Outcome State Fault Refusal := settle s (scsMarker d.val coarse fine s)
def execPpsInEdge (coarse fine : Nat) (s : State) : Host.Outcome State Fault Refusal := settle s (ppsEdge coarse fine s)

end Sys2Proof.Machine
end

