-- ==== Sys2Proof/Machine/Hk.lean ====
section
/-! DEFINITION. The housekeeping converter (R556 to R562, R569), thermal loops (R563 to R565, R570), and the ends of stops and frames that they share with other units (R185, R353). -/
set_option Elab.async false
namespace Sys2Proof.Machine
open Sys2Proof

/-- Millisecond of the counter. -/
def nowMs (s : State) : Nat := nowUs s / 1000

/-- Change the converter, or loop l. -/
def hkMod (f : HkSt → HkSt) (s : State) : State := { s with hk := f s.hk }
def loopMod8 (l : Nat) (f : LoopSt → LoopSt) (s : State) : State := { s with loops := vmod s.loops l f }

/-! ### Slots (R556, R558, R562) -/

def hkInterleave (w : BitVec 64) : Bool := bitAt w 0
def hkSlots (w : BitVec 64) : Nat := fld w 14 8
def hkRing (w : BitVec 64) : Nat := fld w 51 32
def slCh (w : BitVec 32) : Nat := fld w 5 0
def slFilter (w : BitVec 32) : Nat := fld w 7 6
def slOdr (w : BitVec 32) : Nat := fld w 11 8
def slMod (w : BitVec 32) : Nat := fld w 12 12
def slToRing (w : BitVec 32) : Bool := bitAt w 13
def slCount (w : BitVec 32) : Nat := fld w 23 16 + 1

/-- Channel codes of the converter (R556). -/
def hkChannel (c : Nat) : Bool := inRuns [(0x00, 0x0B), (0x10, 0x19), (0x20, 0x2B)] c

/-- Channels of a system window, in its order (R561). -/
def windowChannels : List Nat := [0x09, 0x0A, 0x10, 0x11, 0x12, 0x13, 0x14, 0x15, 0x16, 0x17, 0x18, 0x19, 0x08]

/-- Settling conversions of a filter (R558). -/
def discardsOf (f : Nat) : Nat := match f with | 0 => 0 | 1 => 2 | _ => 3

/-- Conversions a second of ODR codes 0 to 12 (R558). -/
def odrHz : List Nat := [10, 20, 50, 100, 250, 500, 1000, 2500, 5000, 10000, 25000, 31250, 62500]

/-- Reference cycles that a conversion of a slot lasts (R558). -/
def convCycles (w : BitVec 32) : Nat := secC / odrHz.getD (slOdr w) 1

/-- Slot k of the sequence. -/
def slotOf (s : State) (k : Nat) : BitVec 32 := vget s.hk.slots k

/-- Slots that a modulator visits, ascending (R559). -/
def slotsOf (s : State) (b : Bool) : List Nat :=
  (List.range (hkSlots s.hk.cfg)).filter fun k => hkInterleave s.hk.cfg || slMod (slotOf s k) == b2n b

/-- A modulator's visit of slot k begins at a reference cycle, from a previous conversion (R559). -/
def visit (s : State) (prev : Option (Nat × Nat × Nat)) (began k : Nat) : ModSt :=
  let w := slotOf s k
  let same := prev == some (slCh w, slFilter w, slOdr w)
  { slot := k, discards := if same then 0 else discardsOf (slFilter w), left := slCount w, visitStart := true, prev := prev, began := began }

/-- Both modulators begin at their first slots (R559); in INTERLEAVE HK-B half a conversion after HK-A (R560). -/
def sequenceStart (s : State) : State :=
  let first := fun (b : Bool) => match slotsOf s b with
    | k :: _ => visit s none (s.cyc + if b && hkInterleave s.hk.cfg then convCycles (slotOf s k) / 2 else 0) k
    | [] => {}
  let a := first false
  let b := first true
  hkMod (fun h => { h with modA := a, modB := b }) s

/-! ### Words (R353, R562) -/

/-- Words held. -/
def hkWords (l : List HkItem) : Nat := (l.filter fun i => match i with | .word _ _ _ => true | _ => false).length

/-- Add words lost to the end of the FIFO. -/
def hkLose (n : Nat) (t : Time) (cause : Nat) (l : List HkItem) : List HkItem :=
  match l.getLast? with
  | some (.gap k t0 c) => if c = cause then l.dropLast ++ [.gap (k + n) t0 c] else l ++ [.gap n t cause]
  | _ => l ++ [.gap n t cause]

/-- A kept word enters the FIFO or is lost (R562). -/
def hkPut (w : BitVec 32) (code : Nat) (s : State) : State :=
  if hkWords s.hk.fifo < 4096 then
    hkMod (fun h => { h with fifo := h.fifo ++ [.word w (now s) s.cyc], fifoPeak := max h.fifoPeak (hkWords h.fifo + 1) }) s
  else
    let first := match s.hk.fifo.getLast? with | some (.gap _ _ _) => false | _ => true
    let cause := if s.boot.mainOn then 13 else 16
    let s := hkMod (fun h => { h with fifoLost := wrapAdd 32 h.fifoLost 1, fifo := hkLose 1 (now s) cause h.fifo }) s
    if first then raise 0xEB 2 0x1020 (le 1 code ++ [0, 0, 0] ++ le 4 s.hk.fifoLost) s else s

/-- The latest result of a channel (R563, R569). -/
def hkLatest (code : Nat) (v : Int) (s : State) : State :=
  hkMod (fun h => { h with latest := (code, v, now s) :: h.latest.filter fun x => x.1 != code }) s

/-- A conversion beyond the range of the modulator: EV_HKADC OVER_RANGE at most once a second for a channel (R562). -/
def overRange (code : Nat) (s : State) : State :=
  if s.hk.overRangeAt.any fun x => x.1 == code && since s x.2 < secC then s
  else raise 0xEB 1 0x1020 (le 1 code) (hkMod (fun h => { h with overRangeAt := (code, s.cyc) :: h.overRangeAt.filter fun x => x.1 != code }) s)

/-- Nowhere for a conversion of a modulator to end: the sequence does not run, it has no slot, it gives its system window (R561), its
conversion goes on (R558), or it has ended its last one before a stop (R569). -/
def convIdle (s : State) (b : Bool) (m : ModSt) : Bool :=
  !s.hk.running || (slotsOf s b).isEmpty || (b && s.hk.windowMs != some (nowMs s)) || decide (s.cyc < m.began + convCycles (slotOf s m.slot)) ||
    (!s.hk.stopping.isEmpty && decide (s.hk.stopAt < m.began))

/-- HK_CONVERSION (R558 to R562): a modulator's conversion is discarded, or kept; after the last of a visit the next slot follows. -/
def hkConversion (b : Bool) (data : Int) (s : State) : State :=
  let m := if b then s.hk.modB else s.hk.modA
  if convIdle s b m then s else
  let set := fun (m : ModSt) (s : State) => hkMod (fun h => if b then { h with modB := m } else { h with modA := m }) s
  let w := slotOf s m.slot
  let c := slCh w
  let m := { m with prev := some (c, slFilter w, slOdr w), began := m.began + convCycles w }
  if m.discards != 0 then hkMod (fun h => { h with discards := wrapAdd 32 h.discards 1 }) (set { m with discards := m.discards - 1 } s)
  else
    let v := clampI (-8388608) 8388607 data
    let s := if v = data then s else overRange c s
    let s := hkLatest c v s
    let s := if slToRing w && 0x90 ≤ hkRing s.hk.cfg then hkPut (BitVec.ofNat 32 (unsgn 24 v + (c + 64 * b2n b + 128 * b2n m.visitStart) * 2 ^ 24)) c s else s
    if m.left ≤ 1 then
      let ks := slotsOf s b
      set (visit s m.prev m.began (((ks.find? fun k => m.slot < k).orElse fun _ => ks.head?).getD m.slot)) s
    else set { m with left := m.left - 1, visitStart := false } s

/-- Millivolts at the modulator of a result (R556). -/
def hkMv (v : Nat) : Nat := v * 2500 / 8388608

/-- Nominal value of a main rail in 0.1 mV and half its window in 0.1 % (R524). -/
def railNominal (vfab : Nat) : List (Nat × Nat) :=
  [(12000, 50), (18000, 30), (18000, 50), (11000, 30), (4000, 30), (7500, 30), (10000, 30), (10000, 30), (8500, 30), (vfab, 20)]

/-- A reading in mV lies within the window of rail r (R524). -/
def railIn (vfab r mv : Nat) : Bool :=
  let w := (railNominal vfab).getD r (0, 0)
  decide (((10 * mv : Nat) - (w.1 : Int)).natAbs * 1000 ≤ w.1 * w.2)

/-- HK_SYSTEM_WINDOW (R544, R561): the 13 results of HK-B in the order of the channels, 208 us into a millisecond of the counter, once; its
user visit repeats its discards. -/
def hkWindow (r : Vector Nat 13) (s : State) : State :=
  if stage s = 0 || s.hk.windowMs == some (nowMs s) || nowUs s % 1000 < 208 then s else
  let s := hkMod (fun h => { h with windowMs := some (nowMs s) }) s
  let s := (windowChannels.zip r.toList).foldl (fun s p => hkLatest p.1 p.2 s) s
  let s := { s with power := { s.power with mainMv := 8 * hkMv (vget r 0), auxMv := 2 * hkMv (vget r 1), railMv := Vector.ofFn fun i => hkMv (vget r (i.val + 2)) } }
  let back := (List.range 10).filter fun i => railIn s.fab.vfab i (vget s.power.railMv i)
  let s := { s with power := { s.power with railOut := back.foldl (fun w i => setBit w i false) s.power.railOut } }
  if s.hk.running && !(slotsOf s true).isEmpty then
    hkMod (fun h => { h with modB := { h.modB with discards := discardsOf (slFilter (slotOf s h.modB.slot)), prev := none, began := s.cyc } }) s
  else s

/-- Leading words of the FIFO. -/
def hkRun : List HkItem → List (BitVec 32 × Time × Nat)
  | .word w t c :: l => (w, t, c) :: hkRun l
  | _ => []

/-- Housekeeping words drain as a frame (R353, R562), behind the gap that precedes them: 2,048 words, the words before a gap, or what is there 1 ms after the first. -/
def hkDrain (s : State) : State :=
  if hkRing s.hk.cfg < 0x90 then hkMod (fun h => { h with fifo := [] }) s else
  if !isReady s then s else
  let (gap, rest) := match s.hk.fifo with
    | .gap n t c :: l => (some (n, t, c), l)
    | l => (none, l)
  match hkRun rest with
  | [] => s
  | (w, t, c) :: ws =>
    let l := ((w, t, c) :: ws).take 2048
    if l.length < 2048 && (rest.length == ws.length + 1) && since s c < msC then s else
    let ring := hkRing s.hk.cfg
    let s := match gap with
      | some (n, t0, cause) => ringCount ring n (publishNow ring ⟨gapBytes s 0x1020 cause 3 n t0 t (ringItems s ring) 0 false, 0x10, t0, ringItems s ring⟩ s)
      | none => s
    let k := ringItems s ring
    let s := publishNow ring ⟨frameBytes 0x07 0x1020 0 k t (le 4 l.length) (l.flatMap fun x => le 4 x.1.toNat), 0x07, t, k⟩ s
    ringCount ring l.length (hkMod (fun h => { h with fifo := rest.drop l.length, delivered := wrapAdd 64 h.delivered l.length }) s)

/-- UNIT.REINIT of the converter (R566). -/
def hkReinit (s : State) : State :=
  let n := hkWords s.hk.fifo
  let t := ((s.hk.fifo.head?.map fun i => match i with | .word _ t _ => t | .gap _ t _ => t)).getD (now s)
  sequenceStart (hkMod (fun h => { h with fifo := if n = 0 then h.fifo else hkLose n t 13 (h.fifo.filter fun i => match i with | .gap _ _ _ => true | _ => false) }) s)

/-! ### HKADC verbs (R569) -/

/-- HKADC.CONFIGURE (R562, R569, R614). -/
def vHkConfigure : Verb where
  op := 0x1801
  fits := fun s h => isA s .hk h
  checks := fun c s =>
    let w := argW c 0 64
    [badArg (hkSlots w == 0 || 64 < hkSlots w || !outRingOk s (hkRing w) 14 0x1020 8256), badState s.hk.running, keptCond s [hkRing w]]
  act := fun c s => ok (hkMod (fun h => { h with cfg := setFld (setFld (setFld (argW c 0 64) 7 1 0) 31 15 0) 63 52 0 }) s)

/-- Slot words from bytes. -/
def slotWords (b : Bytes) (n : Nat) : List (BitVec 32) :=
  (List.range n).map fun k => setFld (setFld (BitVec.ofNat 32 (numAt b (4 * k) 4)) 15 14 0) 31 24 0

/-- HKADC.LOAD_SEQ (R556, R558, R569): SRC is read as the Kennel reads it. -/
def vHkLoadSeq : Verb where
  op := 0x1802
  fits := fun s h => isA s .hk h
  checks := fun c s =>
    let n := argN c 6 1
    let a := argN c 0 6
    [badArg (n == 0 || 64 < n || a % 64 != 0 || !mapped s a || !mapped s (a + 4 * n - 1) ||
       (match kennelRead s a (4 * n) with | some b => (slotWords b n).any fun w => !hkChannel (slCh w) || slFilter w == 3 || 12 < slOdr w | none => false)),
     badState s.hk.running]
  act := fun c s =>
    match kennelRead s (argN c 0 6) (4 * argN c 6 1) with
    | none => answer s FAULT
    | some b =>
      let l := slotWords b (argN c 6 1)
      ok (hkMod (fun h => { h with slots := Vector.ofFn fun i => if i.val < l.length then l.getD i.val 0 else vget h.slots i.val })
        (kennelNote (argN c 0 6) (4 * argN c 6 1) s))

/-- HKADC.START (R559, R569). -/
def vHkStart : Verb where
  op := 0x1803
  fits := fun s h => isA s .hk h
  checks := fun _ s => [badState (s.hk.running || (slotsOf s false).isEmpty || (slotsOf s true).isEmpty)]
  act := fun _ s => ok (sequenceStart (hkMod (fun h => { h with running := true }) s))

/-- A running loop reads a channel that only the sequence converts (R569). -/
def loopNeedsSlots (s : State) : Bool := s.loops.toList.any fun l => l.state != .off && !windowChannels.contains (fld l.cfg 5 0)

/-- HKADC.STOP (R569). -/
def vHkStop : Verb where
  op := 0x1804
  fits := fun s h => isA s .hk h
  checks := fun _ s => [badState (s.hk.running && loopNeedsSlots s)]
  act := fun c s => if s.hk.running then later (hkMod (fun h => { h with stopping := h.stopping ++ [c], stopAt := if h.stopping.isEmpty then s.cyc else h.stopAt }) s) else ok s

/-- HKADC.READ (R569). -/
def vHkRead : Verb where
  op := 0x1805
  fits := fun s h => isA s .hk h
  checks := fun c s => [badArg (!spanOk s (argN c 0 6) 512)]
  act := fun c s =>
    ok (destWrite (argN c 0 6) ((List.range 64).flatMap fun k =>
      match s.hk.latest.find? fun x => x.1 == k with
      | some (_, v, t) => le 4 (unsgn 32 v) ++ le 4 (min 0xFFFFFFFE ((now s - t) / 65536000))
      | none => le 4 0 ++ le 4 0xFFFFFFFF) s)

/-- HKADC.STATUS (R569). -/
def vHkStatus : Verb where
  op := 0x1806
  fits := fun s h => isA s .hk h
  act := fun c s =>
    let h := s.hk
    okWith (if argBit c 0 0 then hkMod (fun h => { h with delivered := 0, fifoLost := 0, discards := 0, fifoPeak := 0 }) s else s)
      (le 1 (unitState s c.unit) ++ le 1 (b2n h.running) ++ le 1 (b2n (hkInterleave h.cfg)) ++ le 1 (hkSlots h.cfg) ++ le 8 h.delivered ++ le 4 h.fifoLost ++ le 4 h.discards ++ le 4 h.fifoPeak)

/-! ### Thermal loops (R563 to R565) -/

def lIn (w : BitVec 256) : Nat := fld w 5 0
def lOut (w : BitVec 256) : Nat := fld w 11 8
def lPeriod (w : BitVec 256) : Nat := fld w 25 16
def lSet (w : BitVec 256) : Int := sgn 32 (fld w 63 32)
def lKp (w : BitVec 256) : Int := sgn 32 (fld w 95 64)
def lKi (w : BitVec 256) : Int := sgn 32 (fld w 127 96)
def lKd (w : BitVec 256) : Int := sgn 32 (fld w 159 128)
def lMin (w : BitVec 256) : Nat := fld w 175 160
def lMax (w : BitVec 256) : Nat := fld w 191 176
def lBias (w : BitVec 256) : Nat := fld w 207 192
def lStale (w : BitVec 256) : Nat := fld w 215 208

/-- EV_THERM: 1 STARTED, 2 STOPPED, 3 HOLD, 4 RESUMED, 5 STALE, 6 SATURATED. -/
def evTherm (l type : Nat) (s : State) : State :=
  let x := vget s.loops l
  raise 0xEC type (0x1030 + l) (le 4 (unsgn 32 x.yPrev) ++ le 2 x.lastU) s

/-- The PID of R563, in 2^-16 codes: u and the new I. -/
def pid (w : BitVec 256) (i y yPrev : Int) : Nat × Int × Int :=
  let e := lSet w - y
  let un : Int := lBias w * 65536 + lKp w * e + i + -(lKd w) * (y - yPrev)
  let lo : Int := lMin w * 65536
  let hi : Int := lMax w * 65536
  let u := clampI lo hi un
  let held := (decide (hi < un) && decide (0 < lKi w * e)) || (decide (un < lo) && decide (lKi w * e < 0))
  ((u / 65536).toNat, if held then i else clampI (lo - lBias w * 65536) (hi - lBias w * 65536) (i + lKi w * e), e)

/-- A tick at which the loop acts (R563 to R565). -/
def loopAct (l : Nat) (y : Int) (s : State) : State :=
  let x := vget s.loops l
  let w := x.cfg
  let d := vget s.dacs.ch (lOut w)
  let (i, yp) := if x.bumpless then ((d.out.toNat : Int) * 65536 - lBias w * 65536 - lKp w * (lSet w - y), y) else (x.integ, x.yPrev)
  let (u, i', e) := pid w i y yp
  let s := dacMod (lOut w) (fun d => { d with inReg := BitVec.ofNat 16 u, loadPending := true }) s
  let lim := u == lMin w || u == lMax w
  let fire := lim && 10 ≤ x.ticksInLimits
  let s := loopMod8 l (fun x => { x with
    integ := i', yPrev := y, lastE := e, lastU := u, bumpless := false, stale := false, saturated := lim, ticksInLimits := if lim then 0 else x.ticksInLimits + 1 }) s
  if fire then evTherm l 6 s else s

/-- THERM_TICK (R563 to R565). -/
def thermTick (l : Nat) (s : State) : State :=
  let x := vget s.loops l
  let k := nowMs s / max 1 (lPeriod x.cfg)
  if x.state == .off || k == x.grid then s else
  let s := loopMod8 l (fun x => { x with grid := k, ticks := wrapAdd 32 x.ticks 1, lastTick := now s, starting := [] }) s
  let s := x.starting.foldl (fun s c => complete c 0x1902 OK [] s) (if x.starting.isEmpty then s else evTherm l 1 s)
  let input := s.hk.latest.find? fun p => p.1 == lIn x.cfg
  let stale := match input with
    | some (_, _, t) => decide (t + lStale x.cfg * lPeriod x.cfg * 65536000000 < now s)
    | none => true
  let d := (vget s.dacs.ch (lOut x.cfg)).ch
  if stale || d == .cleared || d == .held then
    let s := if stale && !x.stale then evTherm l 5 (loopMod8 l (fun x => { x with stale := true }) s) else s
    if x.state == .hold then s else evTherm l 3 (loopMod8 l (fun x => { x with state := .hold }) s)
  else
    let s := if x.state == .hold then evTherm l 4 (loopMod8 l (fun x => { x with state := .running, bumpless := true }) s) else s
    match input with
    | some (_, y, _) => loopAct l y s
    | none => s

/-- UNIT.REINIT of a loop (R566). -/
def loopReinit (l : Nat) (s : State) : State := loopMod8 l (fun x => { x with bumpless := true }) s

/-- THERM.CONFIGURE (R565, R570). -/
def vThermConfigure : Verb where
  op := 0x1901
  fits := fun s h => isA s .loop h
  checks := fun c s =>
    let w := argW c 0 256
    [badArg (!hkChannel (lIn w) || 11 < lOut w || lPeriod w == 0 || 1000 < lPeriod w || lMax w < lMin w || lStale w == 0), badState ((vget s.loops (idx c.unit)).state != .off)]
  act := fun c s =>
    ok (loopMod8 (idx c.unit) (fun x => { x with cfg := setFld (setFld (setFld (setFld (argW c 0 256) 7 6 0) 15 12 0) 31 26 0) 255 216 0 }) s)

/-- THERM.START (R564, R570). -/
def vThermStart : Verb where
  op := 0x1902
  fits := fun s h => isA s .loop h
  checks := fun c s =>
    let l := idx c.unit
    let w := (vget s.loops l).cfg
    let inSlot := s.hk.running && (List.range (hkSlots s.hk.cfg)).any fun k => slCh (slotOf s k) == lIn w
    [badState (!inSlot && !windowChannels.contains (lIn w)),
     badState ((List.range 8).any fun k => k != l && (vget s.loops k).state != .off && lOut (vget s.loops k).cfg == lOut w)]
  act := fun c s =>
    later (loopMod8 (idx c.unit) (fun x => { x with
      state := if x.state == .hold then .hold else .running, bumpless := true, starting := x.starting ++ [c]
      grid := if x.state == .off then nowMs s / max 1 (lPeriod x.cfg) else x.grid }) s)

/-- THERM.STOP (R570). -/
def vThermStop : Verb where
  op := 0x1903
  fits := fun s h => isA s .loop h
  checks := fun c s => [badState ((vget s.loops (idx c.unit)).state == .off)]
  act := fun c s =>
    let l := idx c.unit
    let w := (vget s.loops l).starting
    let s := evTherm l 2 (loopMod8 l (fun x => { x with state := .off, starting := [], stale := false }) s)
    ok (w.foldl (fun s c => complete c 0x1902 REFUSED_STATE [] s) s)

/-- THERM.SETPOINT (R570). -/
def vThermSetpoint : Verb where
  op := 0x1904
  fits := fun s h => isA s .loop h
  act := fun c s => ok (loopMod8 (idx c.unit) (fun x => { x with cfg := setFld x.cfg 63 32 (argN c 0 4) }) s)

/-- THERM.STATUS (R570). -/
def vThermStatus : Verb where
  op := 0x1905
  fits := fun s h => isA s .loop h
  act := fun c s =>
    let x := vget s.loops (idx c.unit)
    okWith s (le 1 (match x.state with | .off => 0 | .running => 1 | .hold => 2) ++ le 1 (b2n x.saturated) ++ [0, 0] ++ le 4 (unsgn 32 x.yPrev) ++ le 4 (unsgn 32 x.lastE) ++
      le 4 (unsgn 32 (x.integ / 65536)) ++ le 2 x.lastU ++ [0, 0] ++ le 4 x.ticks ++ timeB x.lastTick)

/-! ### Ends that several units share -/

/-- Both modulators have ended the conversions that were in progress at the stop (R569). -/
def hkStopped (s : State) : Bool :=
  ((slotsOf s false).isEmpty || decide (s.hk.stopAt < s.hk.modA.began)) && ((slotsOf s true).isEmpty || decide (s.hk.stopAt < s.hk.modB.began))

/-- HKADC.STOP completes (R569). -/
def hkStopEnd (s : State) : State :=
  if s.hk.stopping.isEmpty || !hkStopped s then s else
  s.hk.stopping.foldl (fun s c => complete c 0x1804 OK [] s) (hkMod (fun h => { h with running := false, stopping := [] }) s)

/-- STOP_COMPLETE (R185, R149, R213, R569): an analysis or channeliser of a pack, an envelope stream of an event engine, or the converter. -/
def stopComplete (h : Handle) (id : Nat) (s : State) : State :=
  if isA s .pack h then stopChan h id (stopXform h id s)
  else if isA s .eng h then stopEnv h id s
  else if isA s .hk h then hkStopEnd s
  else s

/-- HK_INTERVAL_FRAME_CLOSE (R353). -/
def frameClose (h : Handle) (s : State) : State :=
  if isA s .hk h then hkDrain s else if isA s .tdc h then fifoDrain (idx h) s else s

def execHkadcConfigure (c : Cmd) (s : State) : Host.Outcome State Fault Refusal := settle s (runVerb vHkConfigure c s)
def execHkadcLoadSeq (c : Cmd) (s : State) : Host.Outcome State Fault Refusal := settle s (runVerb vHkLoadSeq c s)
def execHkadcStart (c : Cmd) (s : State) : Host.Outcome State Fault Refusal := settle s (runVerb vHkStart c s)
def execHkadcStop (c : Cmd) (s : State) : Host.Outcome State Fault Refusal := settle s (runVerb vHkStop c s)
def execHkadcRead (c : Cmd) (s : State) : Host.Outcome State Fault Refusal := settle s (runVerb vHkRead c s)
def execHkadcStatus (c : Cmd) (s : State) : Host.Outcome State Fault Refusal := settle s (runVerb vHkStatus c s)
def execHkConversion (modB : Bool) (data : Int) (s : State) : Host.Outcome State Fault Refusal := settle s (hkConversion modB data s)
def execHkSystemWindow (readings : Vector Nat 13) (s : State) : Host.Outcome State Fault Refusal := settle s (hkWindow readings s)
def execHkFifoDrain (s : State) : Host.Outcome State Fault Refusal := settle s (hkDrain s)
def execThermConfigure (c : Cmd) (s : State) : Host.Outcome State Fault Refusal := settle s (runVerb vThermConfigure c s)
def execThermStart (c : Cmd) (s : State) : Host.Outcome State Fault Refusal := settle s (runVerb vThermStart c s)
def execThermStop (c : Cmd) (s : State) : Host.Outcome State Fault Refusal := settle s (runVerb vThermStop c s)
def execThermSetpoint (c : Cmd) (s : State) : Host.Outcome State Fault Refusal := settle s (runVerb vThermSetpoint c s)
def execThermStatus (c : Cmd) (s : State) : Host.Outcome State Fault Refusal := settle s (runVerb vThermStatus c s)
def execThermTick (l : Fin 8) (s : State) : Host.Outcome State Fault Refusal := settle s (thermTick l.val s)
def execStopComplete (unit : Handle) (id : Nat) (s : State) : Host.Outcome State Fault Refusal := settle s (stopComplete unit id s)
def execHkIntervalFrameClose (unit : Handle) (s : State) : Host.Outcome State Fault Refusal := settle s (frameClose unit s)

end Sys2Proof.Machine
end

