-- ==== Sys2Proof/Machine/Power.lean ====
section
/-! DEFINITION. The supervisor (R527 to R530), thermal limits (R284, R532 to R534), the watchdog (R516), power states (R517, R602) and the PWR verbs (R542 to R545). -/
set_option Elab.async false
namespace Sys2Proof.Machine
open Sys2Proof

/-! ### Supplies (R528 to R530) -/

/-- Warning, reset and warning plus hysteresis of a supply in mV (R528). -/
def supplyLimits : Supply → Nat × Nat × Nat
  | .main => (10600, 9800, 10700)
  | .aux => (1650, 1550, 1680)

/-- Code of a supply in events and entries (R586, R609). -/
def supplyCode : Supply → Nat
  | .main => 0
  | .aux => 1

def supplyOf (k : Supply) (s : State) : SupplySt :=
  match k with
  | .main => s.power.vinMain
  | .aux => s.power.vinAux

def supplyMod (k : Supply) (f : SupplySt → SupplySt) (s : State) : State :=
  match k with
  | .main => powerMod (fun p => { p with vinMain := f p.vinMain }) s
  | .aux => powerMod (fun p => { p with vinAux := f p.vinAux }) s

/-- The SUPPLY_DIP entry of a dip that ends (R529, R586): at most 16 in a second. -/
def dipEntry (k : Supply) (d : Dip) (recovery : Time) (s : State) : State :=
  let sec := s.cyc / secC
  let n := if s.power.dipEntries.1 = sec then s.power.dipEntries.2 else 0
  if 16 ≤ n then powerMod (fun p => { p with dipsSuppressed := p.dipsSuppressed + 1 }) s
  else
    let held := min 0xFFFF s.power.dipsSuppressed
    boxNow 1 0x0103 0x1000 (le 1 (supplyCode k) ++ le 3 0 ++ timeB d.tw ++ timeB recovery ++ le 2 d.lowest ++ le 2 held)
      (powerMod (fun p => { p with dipEntries := (sec, n + 1), dipsSuppressed := 0 }) s)

/-- The counts of a supply at a sample (R528). -/
def supplyCount (k : Supply) (mv : Nat) (judged : Bool) (s : State) : SupplySt :=
  let l := supplyLimits k
  let x := supplyOf k s
  { x with
    mv := mv
    belowWarn := if judged && mv < l.1 then x.belowWarn + 1 else 0
    belowReset := if judged && mv < l.2.1 then x.belowReset + 1 else 0
    aboveSince := if mv < l.2.2 then none else some (x.aboveSince.getD s.cyc)
    minMv := if judged then min x.minMv mv else x.minMv }

/-- One sample of one supply: a dip begins or deepens (R529). -/
def supplyTake (k : Supply) (mv : Nat) (judged : Bool) (s : State) : State :=
  let before := supplyOf k s
  let s := supplyMod k (fun _ => supplyCount k mv judged s) s
  let x := supplyOf k s
  match x.dip with
  | some d => if judged then supplyMod k (fun x => { x with dip := some { d with lowest := min d.lowest mv } }) s else s
  | none =>
    if x.belowWarn < 2 then s else
    let low := min before.mv mv
    let s := supplyMod k (fun x => { x with dip := some { tw := now s, lowest := low }, dips := wrapAdd 32 x.dips 1 }) s
    raise 0x08 1 0x1000 (le 1 (supplyCode k) ++ [0] ++ le 2 low) s

/-- The dip in force writes its entry before a reset (R529). -/
def dipClose (k : Supply) (s : State) : State :=
  match (supplyOf k s).dip with
  | some d => supplyMod k (fun x => { x with dip := none }) (dipEntry k d 0 s)
  | none => s

/-- The queued entries reach MRAM (R584). -/
def boxDrain : Nat → State → State
  | 0, s => s
  | n + 1, s => if s.box.queue.isEmpty then s else boxDrain n (boxWrite s)

/-- A P (R512, R529, R530): a dip writes its entry first. -/
def pReset (s : State) : State :=
  clearP (if s.power.vinAux.dip.isSome then boxDrain 300 (dipClose .aux s) else s)

/-- Where a warning of the supervisor ends, the blocks in progress were under it (R71). -/
def warnEnds (s t : State) : State := if supplyWarn s && !supplyWarn t then markBlocks (List.range 8) false true t else t

/-- SUPPLY_SAMPLE (R528 to R530). A dip of VIN_MAIN is not judged while MAIN_ON is 0. -/
def supplySample (main aux : Nat) (s : State) : State :=
  if stage s = 0 then s else
  let s := warnEnds s (supplyTake .aux aux true (supplyTake .main main s.boot.mainOn s))
  if 6 ≤ s.power.vinAux.belowReset then pReset s
  else if 6 ≤ s.power.vinMain.belowReset && s.boot.mainOn then
    let s := setCause 6 0xFFFF (dipClose .main s)
    beginM 5 0 0 0 (bootMod (fun b => { b with vinMainLow := true }) s)
  else s

/-- SUPPLY_RECOVER (R529). -/
def supplyRecover (k : Supply) (s : State) : State :=
  let x := supplyOf k s
  match x.dip with
  | none => s
  | some d =>
    if !(x.aboveSince.any fun c => msC ≤ since s c) then s else
    let s := warnEnds s (supplyMod k (fun x => { x with dip := none }) s)
    dipEntry k d (now s) (raise 0x08 2 0x1000 (le 1 (supplyCode k) ++ [0] ++ le 2 d.lowest ++ timeB d.tw) s)

/-- VIN_MAIN_RETURN (R508). -/
def vinMainReturn (s : State) : State :=
  if s.boot.vinMainLow && s.power.vinMain.aboveSince.any (fun c => 100 * msC ≤ since s c) then
    bootMod (fun b => { b with vinMainLow := false, mHeld := false, stepStart := s.cyc }) s
  else s

/-! ### Rails (R527) -/

/-- The rail is one that the grade has (R524). -/
def railThere (s : State) (r : Nat) : Bool := s.boot.mainOn && !(r == 7 && s.grade == .g480)

/-- RAIL_OUT: outside its window for 10 us. -/
def railOut (r mv : Nat) (s : State) : State :=
  if !railThere s r || bitAt s.power.railOut r || railIn s.fab.vfab r mv then s else
  let s := powerMod (fun p => { p with railOut := setBit p.railOut r true, railOutAt := vmod p.railOutAt r fun _ => s.cyc, railMv := vmod p.railMv r fun _ => mv }) s
  boxNow 1 0x0104 0x1000 (le 1 r ++ [0] ++ le 2 mv) (raise 0x0A 1 0x1000 (le 1 r ++ [0] ++ le 2 mv) s)

/-- RAIL_OUT_REMOVE: still outside after 100 us, which are 90 us from RAIL_OUT. -/
def railOutRemove (r : Nat) (s : State) : State :=
  if !railThere s r || !bitAt s.power.railOut r || since s (vget s.power.railOutAt r) < 90 * usC then s else
  beginM 5 0 0 0 (boxNow 1 0x0104 0x1000 (le 1 r ++ [0] ++ le 2 (vget s.power.railMv r) ++ [1]) s)

/-! ### Temperature (R284, R532 to R534) -/

/-- Tj and the sensor that gives it (R531). -/
def hottest (tj : Vector Int 8) : Int × Nat :=
  (List.range 8).foldl (fun b i => if b.1 < vget tj i then (vget tj i, i) else b) (vget tj 0, 0)

/-- A signed reading of 16 bits. -/
def s16 (v : Int) : Bytes := le 2 (unsgn 16 v)

/-- A thermal trip (R534): `code` is the sensor, or 0x10 and the stack. -/
def thermalTrip (code : Nat) (reading : Int) (s : State) : State :=
  if s.power.tripped then s else
  let again := s.power.lastTrip.any fun c => since s c < 600 * secC
  let s := powerMod (fun p => { p with
    tripped := true, cooled := false, coolSince := none, tripReadings := 0, lastTrip := some s.cyc
    cfg := if again then setBit p.cfg 8 false else p.cfg }) s
  let s := setCause 7 (if code < 16 then 0xFFFF else BitVec.ofNat 16 (0x0801 + (code - 16))) s
  let s := boxNow 1 0x0105 0x1000 (le 1 code ++ [0] ++ s16 reading) s
  let s := bootMod (fun b => { b with stage := 15 }) s
  let s := raise 0x09 3 0x1000 (le 1 code ++ [0] ++ s16 reading) s
  setStage 15 (devResetDone REFUSED_STATE (powerChanged s (planesOff (stopPlanes 15 s))))

/-- THERMAL_READ (R533, R534). -/
def thermalRead (tj : Vector Int 8) (s : State) : State :=
  if stage s = 0 then s else
  let (t, i) := hottest tj
  let warn : Int := 10 * (fld s.power.cfg 7 0 : Nat)
  let s := powerMod (fun p => { p with
    tj := tj, tripReadings := if 1100 ≤ t then p.tripReadings + 1 else 0
    coolSince := if t < 850 then some (p.coolSince.getD s.cyc) else none }) s
  let ev := fun type (s : State) => raise 0x09 type 0x1000 (le 1 i ++ [0] ++ s16 t) s
  let s := if !s.power.thermalWarn && decide (warn ≤ t) then ev 1 (powerMod (fun p => { p with thermalWarn := true }) s)
    else if s.power.thermalWarn && decide (t < warn - 50) then ev 2 (powerMod (fun p => { p with thermalWarn := false }) s)
    else s
  if 2 ≤ s.power.tripReadings then thermalTrip i t s else s

/-- THERMAL_COOLED (R534): with AUTO_RESTART the device cycles the main rails. -/
def thermalCooled (s : State) : State :=
  if !s.power.tripped || s.power.cooled || !(s.power.coolSince.any fun c => 10 * secC ≤ since s c) then s else
  let (t, i) := hottest s.power.tj
  let s := powerMod (fun p => { p with cooled := true }) s
  let s := boxNow 1 0x0105 0x1000 (le 1 i ++ [1] ++ s16 t) (raise 0x09 4 0x1000 (le 1 i ++ [0] ++ s16 t) s)
  if bitAt s.power.cfg 8 then beginM 7 0 0 (10 * msC) (powerMod (fun p => { p with tripped := false, cooled := false }) s) else s

/-- STACK_TEMP_READ (R284). -/
def stackTempRead (k : Nat) (t : Int) (s : State) : State :=
  if !s.boot.mainOn || nStacks s.grade ≤ k then s else
  let was := (vget s.store.stks k).double
  let s := stackMod k (fun x => { x with temperature := t, double := if 85 ≤ t then true else if t < 82 then false else x.double }) s
  let ev := fun type (s : State) => raise (0x91 + 4 * k) type (0x0801 + k) (le 1 (unsgn 8 t)) s
  let s := if !was && decide (85 ≤ t) then ev 1 s else if was && decide (t < 82) then ev 2 s else s
  if 105 ≤ t then thermalTrip (16 + k) (10 * t) (ev 3 s) else s

/-! ### The watchdog (R516) -/

/-- KENNEL_REPORT. -/
def kennelReport (s : State) : State := if isReady s then bootMod (fun b => { b with lastReport := s.cyc }) s else s

/-- KENNEL_HANG: no report for 1 s. -/
def kennelHang (s : State) : State :=
  if !isReady s || since s s.boot.lastReport < secC || s.boot.pendingReset.isSome then s else
  let recent := s.boot.hangResets.filter fun c => since s c < 3600 * secC
  let n := recent.length + 1
  let s := boxNow 1 0x0106 0x0010 (le 1 (min n 4)) s
  if 3 < n then enterFault 10 0x0010 false (bootMod (fun b => { b with hangResets := recent }) s)
  else bootMod (fun b => { b with hangResets := s.cyc :: recent, pendingReset := some { origin := 6, mailbox := 0, seq := 0, due := s.cyc } }) s

/-! ### Power states (R517, R602) -/

/-- The inputs stop, work is suspended, V_FAB falls, and the store moves to S3 to doze (R517, R295). It clears no
field (R12). -/
def quietBegin (s : State) : State :=
  let s := evPower (powerMod (fun p => { p with state := .quiet }) s)
  let s := (List.range (nInputs s.grade)).foldl (fun s i => calRefresh (dieOf i) (stopStream i 4 s)) s
  let s := fabQuiet (workHalt s)
  let s := { s with store := { s.store with quietSaved := some (rateState s) }, disp := { s.disp with storeDark := true } }
  maintAsk 1 0x0800 2 3 none 0 s

/-- Activities that hold HPS or CONV resources run (R602). -/
def quietHeld (s : State) : Bool := s.maint.running.any fun r => r.resources &&& 0x3F != 0

/-- Entry to QUIET begins once those activities have ended (R602). -/
def quietDue (s : State) : State :=
  match s.power.transition with
  | some (.quiet, _) => if s.power.state == .quiet || quietHeld s then s else quietBegin s
  | _ => s

/-- A store rate change of the power-state transition is still to end. -/
def quietRate (s : State) : Bool := (s.maint.running ++ s.maint.queue ++ s.maint.arrived).any fun r => r.activity == 1 && r.origin == 2

/-- Inputs and their dependants restart (R78, R148, R169, R183, R221, R246, R517). -/
def activeResume (s : State) : State :=
  let s := evPower (powerMod (fun p => { p with state := .active }) s)
  let s := { s with fab := { s.fab with vfab := max 6000 (vFabFor s) }, store := { s.store with dozing := false } }
  let s := (List.range (nInputs s.grade)).foldl (fun s i => startStream i s) s
  densResume (eventsResume (workResume s))

/-- The commands of a transition complete. -/
def transitionEnd (cs : List Cmd) (s : State) : State :=
  cs.foldl (fun s c => complete c 0x1A02 OK [] s) (powerMod (fun p => { p with transition := none }) s)

/-- POWER_TRANSITION_DONE (R517). -/
def transitionDone (s : State) : State :=
  match s.power.transition with
  | some (.quiet, cs) =>
    let s := quietDue s
    if s.power.state == .quiet && !quietRate s then transitionEnd cs s else s
  | some (.active, cs) => if s.boot.mainOn && s.power.state == .quiet && !quietRate s then transitionEnd cs (activeResume s) else s
  | some (.standby, cs) => transitionEnd cs s
  | none => s

/-- The data and control planes stop as at a D and the main rails are removed (R517, R526). -/
def standbyBegin (c : Cmd) (s : State) : State :=
  let s := planesOff (stopPlanes 8 s)
  let s := powerMod (fun p => { p with state := .standby, transition := some (.standby, [c]) }) s
  devResetDone REFUSED_STATE (setStage 8 (evPower s))

/-- Origin and mailbox of a reset that a command asks for (R586). -/
def originOf : Path → Nat × Nat
  | .mailbox m => (0, m.val)
  | .junction .smbus => (3, 0)
  | .junction .cozor => (4, 0)
  | .junction .kennel => (0, 0)

/-- Return from STANDBY: an M whose rails are off already (R512, R517). -/
def wakeBegin (c : Cmd) (s : State) : State :=
  let o := originOf c.path
  let s := resetEntry 1 o.1 o.2 c.seq s
  let s := powerMod (fun p => { p with state := .active, transition := some (.active, [c]) }) s
  evPower (bootMod (fun b => { b with lastReset := 1, mHeld := true, offFor := 10 * msC, stepStart := s.cyc }) s)

/-- PWR.CYCLE_MAIN (R514, R543). -/
def vPwrCycleMain : Verb where
  op := 0x1A01
  fits := fun s h => isA s .mgmt h
  checks := fun c s =>
    [badArg (argN c 0 4 < 10 || 60000 < argN c 0 4), badState (s.power.state == .standby), badState (s.power.tripped && !s.power.cooled), notReady (stage s == 1)]
  act := fun c s =>
    let o := originOf c.path
    ok (beginM o.1 o.2 c.seq (argN c 0 4 * msC) (powerMod (fun p => { p with tripped := false, cooled := false }) s))

/-- State asked for by PWR.SET_STATE. -/
def stateAsked (c : Cmd) : PowerState := match argN c 0 1 with | 0 => .active | 1 => .quiet | _ => .standby

/-- Another transition is in progress. -/
def otherTransition (s : State) (t : PowerState) : Bool := s.power.transition.any fun x => x.1 != t

/-- PWR.SET_STATE (R514, R517, R543). -/
def vPwrSetState : Verb where
  op := 0x1A02
  fits := fun s h => isA s .mgmt h
  checks := fun c s =>
    let t := stateAsked c
    let st := s.power.state
    [badArg (2 < argN c 0 1), badState s.power.tripped, notReady (t != .active && t != st && st != .standby && !isReady s),
     badState (st == .standby && t == .quiet), badState (st == .standby && t == .active && s.power.vinMain.mv < 10700), busy (otherTransition s t)]
  act := fun c s =>
    let t := stateAsked c
    match s.power.transition with
    | some (u, cs) => later (powerMod (fun p => { p with transition := some (u, cs ++ [c]) }) s)
    | none =>
      if t == s.power.state then ok s
      else if t == .quiet then later (quietDue (powerMod (fun p => { p with transition := some (.quiet, [c]) }) s))
      else if t == .standby then later (standbyBegin c s)
      else if s.power.state == .standby then later (wakeBegin c s)
      else
        let s := powerMod (fun p => { p with transition := some (.active, [c]) }) s
        later (match s.store.quietSaved with
          | some r => maintAsk 1 0x0800 2 r none 0 s
          | none => s)

/-- PWR.CONFIGURE (R542, R543). -/
def vPwrConfigure : Verb where
  op := 0x1A03
  fits := fun s h => isA s .mgmt h
  checks := fun c _ => let w := argW c 0 32; [badArg (fld w 7 0 < 70 || 95 < fld w 7 0 || anySet w [(31, 9)])]
  act := fun c s => ok (powerMod (fun p => { p with cfg := argW c 0 32 }) s)

/-- The counts and minima of a supply cleared (R544). -/
def supplyClear (x : SupplySt) : SupplySt := { x with dips := 0, minMv := 0xFFFF }

/-- PWR.STATUS (R543, R544). The total power is a measurement whose value nothing in the spec fixes (log 24). -/
def vPwrStatus : Verb where
  op := 0x1A04
  fits := fun s h => isA s .mgmt h
  act := fun c s =>
    let (mw, s) := draw s
    let p := s.power
    let (t, i) := hottest p.tj
    let flags := b2n s.boot.mainOn + 2 * b2n p.vinMain.dip.isSome + 4 * b2n p.vinAux.dip.isSome + 8 * b2n p.thermalWarn + 16 * b2n p.tripped + 32 * b2n p.cooled + 64 * b2n (p.railOut != 0)
    let r := le 1 (unitState s c.unit) ++ le 1 (match p.state with | .active => 0 | .quiet => 1 | .standby => 2) ++ le 1 flags ++ le 1 p.straps.toNat ++
      le 2 p.mainMv ++ le 2 p.auxMv ++ le 4 mw ++ s16 t ++ le 1 i ++ [0] ++ ((List.range 10).flatMap fun k => le 2 (if s.boot.mainOn then vget p.railMv k else 0)) ++
      le 4 p.vinMain.dips ++ le 4 p.vinAux.dips ++ le 2 p.vinMain.minMv ++ le 2 p.vinAux.minMv
    okWith (if argBit c 0 0 then powerMod (fun p => { p with vinMain := supplyClear p.vinMain, vinAux := supplyClear p.vinAux }) s else s) r

def execPReset (mv : Nat) (s : State) : Host.Outcome State Fault Refusal := settle s (if mv < 1550 then pReset s else s)
def execSupplySample (main aux : Nat) (s : State) : Host.Outcome State Fault Refusal := settle s (supplySample main aux s)
def execSupplyRecover (k : Supply) (s : State) : Host.Outcome State Fault Refusal := settle s (supplyRecover k s)
def execVinMainReturn (s : State) : Host.Outcome State Fault Refusal := settle s (vinMainReturn s)
def execRailOut (r : Fin 10) (mv : Nat) (s : State) : Host.Outcome State Fault Refusal := settle s (railOut r mv s)
def execRailOutRemove (r : Fin 10) (s : State) : Host.Outcome State Fault Refusal := settle s (railOutRemove r s)
def execThermalRead (tj : Vector Int 8) (s : State) : Host.Outcome State Fault Refusal := settle s (thermalRead tj s)
def execThermalCooled (s : State) : Host.Outcome State Fault Refusal := settle s (thermalCooled s)
def execStackTempRead (k : Fin 4) (t : Int) (s : State) : Host.Outcome State Fault Refusal := settle s (stackTempRead k t s)
def execKennelReport (s : State) : Host.Outcome State Fault Refusal := settle s (kennelReport s)
def execKennelHang (s : State) : Host.Outcome State Fault Refusal := settle s (kennelHang s)
def execPwrCycleMain (c : Cmd) (s : State) : Host.Outcome State Fault Refusal := settle s (runVerb vPwrCycleMain c s)
def execPwrSetStateActive (c : Cmd) (s : State) : Host.Outcome State Fault Refusal := settle s (runVerb vPwrSetState (withByte c 0 0) s)
def execPwrSetStateQuiet (c : Cmd) (s : State) : Host.Outcome State Fault Refusal := settle s (runVerb vPwrSetState (withByte c 0 1) s)
def execPwrSetStateStandby (c : Cmd) (s : State) : Host.Outcome State Fault Refusal := settle s (runVerb vPwrSetState (withByte c 0 2) s)
def execPowerTransitionDone (s : State) : Host.Outcome State Fault Refusal := settle s (transitionDone s)
def execPwrConfigure (c : Cmd) (s : State) : Host.Outcome State Fault Refusal := settle s (runVerb vPwrConfigure c s)
def execPwrStatus (c : Cmd) (s : State) : Host.Outcome State Fault Refusal := settle s (runVerb vPwrStatus c s)

end Sys2Proof.Machine
end

