-- ==== Sys2Proof/Machine/Unit.lean ====
section
/-! DEFINITION. The unit manager and the device: the UNIT and DEV verbs (R44, R459, R462), re-initialisation of every unit, the arbiter's ticks and overruns (R599, R601, R602), and the end of a debug challenge (R581). -/
set_option Elab.async false
namespace Sys2Proof.Machine
open Sys2Proof

/-! ### Re-initialisation (R44, R459) -/

/-- Handles that UNIT.REINIT refuses (R459). -/
def noReinit (h : Handle) : Bool := [0x0000, 0x0010, 0x1000, 0x1100, 0x1101].contains h.toNat

/-- The unit is an input 2k+1 of a paired pair, or its calibrator (R60). -/
def unitPairedOut (s : State) (h : Handle) : Bool := (isA s .input h || isA s .cal h) && pairedOut s (idx h)

/-- A unit's re-initialisation, as its chapter states; answers whether the command waits for its end. -/
def reinitUnit (c : Cmd) (k : UK) (i : Nat) (s : State) : Bool × State :=
  match k with
  | .input => (false, inputReinit i s)
  | .cal => (false, calReinit i s)
  | .ddc => (false, ddcReinit i s)
  | .eng => (false, eventReinit i s)
  | .dens => (false, densReinit i s)
  | .disp => (false, dispReinit s)
  | .store => (false, storeReinit none s)
  | .stack => (false, storeReinit (some i) s)
  | .bank => (false, bankMod i bankClear s)
  | .fetch => (false, (List.range 32).foldl (fun s n => fetchReinit n s) s)
  | .fetchCh => (false, fetchReinit i s)
  | .ringMgr => (false, { s with rings := s.rings.map fun r => { r with dropped := 0, overwritten := 0 } })
  | .synth => synthReinit i c s
  | .time => (false, timeClear s)
  | .tdc => (false, tdcReinit i s)
  | .eth => ethReinit i c 0x0101 s
  | .bond => (false, lReset i 1 s)
  | .lane => (false, laneLeave i s)
  | .dac => (false, dacReinit i s)
  | .hk => (false, hkReinit s)
  | .loop => (false, loopReinit i s)
  | .pack =>
    if packSettled s c.unit then (false, packReinitNow c.unit s)
    else (true, packMod c.unit (fun p => { p with reinits := p.reinits ++ [c] }) s)
  | .device | .kennel | .ddcEng | .te | .mgmt | .sec | .box => (false, s)

/-- A unit that a re-initialisation left in FAULT with TIMEOUT (R459) has been re-initialised. -/
def faultEnd (h : Handle) (s : State) : State :=
  if s.kennel.faulted.contains h then packWatch (some h.toNat) (kennelMod (fun k => { k with faulted := k.faulted.filter (· != h) }) s) else s

/-- Re-initialise one unit: its queued activity is withdrawn, and a running one ends first (R602). -/
def reinitOne (c : Cmd) (s : State) : State × Option (Nat × Bytes) :=
  let s := maintWithdrawUnit c.unit s
  if s.maint.running.any (·.unit == c.unit) then later { s with maint := { s.maint with reinits := s.maint.reinits ++ [c] } }
  else match unitOf s c.unit with
    | none => ok s
    | some (k, i) => match reinitUnit c k i s with
      | (true, s) => later s
      | (false, s) => ok (faultEnd c.unit s)

/-- The UNIT_REINIT entry, and the state before for EV_UNIT (R520, R586, R609). -/
def reinitNote (c : Cmd) (s : State) : State :=
  let b := unitState s c.unit
  let s := boxNow 4 0x0302 c.unit.toNat (le 1 b ++ le 3 0 ++ le 4 c.seq.toNat) s
  match c.path with
  | .mailbox m => mbxMod m (fun x => { x with inProgress := lmod (fun y => y.seq == c.seq && !y.duplicate) (fun y => { y with before := b }) x.inProgress }) s
  | .junction _ => s

/-- UNIT.REINIT (R44, R60, R459). -/
def vUnitReinit : Verb where
  op := 0x0101
  pack := true
  fits := fun _ _ => true
  checks := fun c s => [badState (noReinit c.unit), badState (unitPairedOut s c.unit)]
  act := reinitOne
  start := reinitNote

/-- Re-initialisations whose unit's activity has ended (R602). -/
def reinitsDue (s : State) : State :=
  let go := s.maint.reinits.filter fun c => !(s.maint.running.any (·.unit == c.unit))
  let s := { s with maint := { s.maint with reinits := s.maint.reinits.filter fun c => !(go.contains c) } }
  go.foldl (fun s c => match reinitOne c s with
    | (s, some (st, res)) => complete c 0x0101 st res s
    | (s, none) => s) s

/-- A re-initialisation runs beyond 50 ms (R459): TIMEOUT, and the unit reports FAULT. -/
def reinitTimeout (m : Fin 64) (y : InProgress) (s : State) : State :=
  let waits := s.maint.reinits.any fun c => c.path == .mailbox m && c.seq == y.seq
  if waits then s else
  packWatch (some y.unit.toNat) (kennelMod (fun k => { k with faulted := y.unit :: k.faulted.filter (· != y.unit) })
    (finish (.mailbox m) y.seq 0x0101 y.unit y.unit TIMEOUT [] s))

/-! ### UNIT.STATE and UNIT.LIST (R459) -/

/-- Parent pack and slot of a unit, or 0xFFFF. -/
def parentBytes (s : State) (h : Handle) : Bytes :=
  match parentOf s h with
  | some (p, n) => le 2 p.toNat ++ le 2 n
  | none => le 2 0xFFFF ++ le 2 0xFFFF

/-- UNIT.STATE (R44, R459); of an input that is paired out, or its calibrator, refused (R60). -/
def vUnitState : Verb where
  op := 0x0102
  whole := true
  fits := fun _ _ => true
  checks := fun c s => [badState (unitPairedOut s c.unit)]
  act := fun c s => okWith s (le 1 (unitState s c.unit) ++ le 1 (planeOf s c.unit) ++ parentBytes s c.unit)

/-- Units present from one handle to another, in order. -/
def unitsIn (s : State) (a b : Nat) : List Handle :=
  ((fixedHandles s ++ (s.packs.map (·.handle)).mergeSort fun x y => x.toNat ≤ y.toNat)).filter fun h => a ≤ h.toNat && h.toNat ≤ b

/-- UNIT.LIST. -/
def vUnitList : Verb where
  op := 0x0103
  whole := true
  fits := fun _ _ => true
  checks := fun c s =>
    let n := (unitsIn s (argN c 0 2) (argN c 2 2)).length
    [badArg (argN c 2 2 < argN c 0 2 || !spanOk s (argN c 4 6) (8 * n))]
  act := fun c s =>
    let us := unitsIn s (argN c 0 2) (argN c 2 2)
    okWith (destWrite (argN c 4 6) (us.flatMap fun h => le 2 h.toNat ++ le 1 (unitState s h) ++ le 1 (planeOf s h) ++ parentBytes s h) s) (le 4 us.length)

/-! ### DEV verbs (R462) -/

/-- DEV.RESET (R443, R462, R514): OK goes out first from a mailbox; through the junction, when the reset has begun. -/
def vDevReset : Verb where
  op := 0x1F01
  fits := fun s h => isA s .device h
  checks := fun c s => [badArg (argN c 0 1 != 0), badState (!s.boot.mainOn || s.power.tripped)]
  act := fun c s =>
    let o := originOf c.path
    let req := fun (wait : Nat) => askReset { origin := o.1, mailbox := o.2, seq := c.seq, due := s.cyc + wait } s
    match c.path with
    | .mailbox _ => ok (req (5 * msC))
    | .junction _ => later (req 0)

/-- DEV.EVENT_ROUTE (R461, R462). -/
def vDevEventRoute : Verb where
  op := 0x1F02
  fits := fun s h => isA s .device h
  checks := fun c _ => [badArg (argN c 1 1 < argN c 0 1 || argN c 7 1 != 0)]
  act := fun c s =>
    let f := fun (r : Vector (BitVec 32) 256) i => vmod r i fun _ => argW c 4 32
    ok { s with ev := { s.ev with route := (span (argN c 0 1) (argN c 1 1 + 1)).foldl f s.ev.route } }

/-- DEV.CONFIGURE (R462). -/
def vDevConfigure : Verb where
  op := 0x1F03
  fits := fun s h => isA s .device h
  checks := fun c _ => [badArg (argN c 0 2 < 10 || 10000 < argN c 0 2)]
  act := fun c s => ok { s with kennel := { s.kennel with devCfg := BitVec.ofNat 32 (argN c 0 2) } }

/-- DEV.STATUS (R462). -/
def vDevStatus : Verb where
  op := 0x1F04
  fits := fun s h => isA s .device h
  act := fun c s =>
    let k := s.kennel
    let r := le 1 (stage s) ++ le 1 (deviceStatus s) ++ le 2 s.boot.causeUnit.toNat ++ le 4 s.boot.bootCount.toNat ++ le 4 k.cmdsTaken ++ le 4 k.replays ++
      le 4 k.whistleErrs ++ le 4 s.ev.ringDrops ++ timeB s.boot.readyTime
    okWith (if argBit c 0 0 then { s with kennel := { k with cmdsTaken := 0, replays := 0, whistleErrs := 0 }, ev := { s.ev with ringDrops := 0 } } else s) r

/-! ### The arbiter (R599, R601, R602) -/

/-- MAINT_TICK (R599), with what waits for an activity's end (R602). -/
def maintStep (s : State) : State := quietDue (reinitsDue (maintTick s))

/-- What a failed activity leaves on its unit (R104, R289, R294, R383, R431, R494, R601). -/
def maintFail (r : MaintReq) (s : State) : State :=
  match r.activity with
  | 1 => { s with store := { s.store with
      rateChange := if r.opcode == 0x0E02 then none else s.store.rateChange
      chans := s.store.chans.map fun c => { c with owed := [], forced := none } } } |> pauseRestart
  | 2 => stackMod (idx r.unit) (fun x => { x with degraded := true }) s
  | 3 => match (vget s.cals (idx r.unit)).fg with
    | some f => fgClose (idx r.unit) f false s
    | none => calMod (idx r.unit) (fun c => { c with fgFailed := true }) s
  | 4 => evLane (idx r.unit) 3 ((laneBond s (idx r.unit)).getD 0) (laneMod (idx r.unit) (fun l => { l with readapting := false, since := s.cyc }) s)
  | 5 => { s with tdc := { s.tdc with cal := none } }
  | _ => evAxs 4 s.synth.axs.hopIdx s

/-- MAINT_OVERRUN (R601): beyond twice its bound. -/
def maintOverrun (t : Nat) (s : State) : State :=
  match s.maint.running.find? (·.ticket == t) with
  | none => s
  | some r =>
    if since s r.since ≤ 2 * maintBound r.activity * usC then s else
    let us := since s r.since / usC
    let s := boxNow 1 0x0107 r.unit.toNat (le 2 t ++ le 1 r.activity ++ [0] ++ le 2 r.unit.toNat ++ le 2 0 ++ le 4 us) s
    let s := maintFail r (completeO r.cmd r.opcode.toNat TIMEOUT [] s)
    evMaint 3 r { s with maint := { s.maint with running := s.maint.running.filter fun x => x.ticket != t } }

/-- DEBUG_CHALLENGE_EXPIRE (R581). -/
def challengeExpire (s : State) : State :=
  match s.sec.challenge with
  | some (_, c) => if 600 * secC ≤ since s c then secMod (fun x => { x with challenge := none }) s else s
  | none => s

def execUnitReinit (c : Cmd) (s : State) : Host.Outcome State Fault Refusal := settle s (runVerb vUnitReinit c s)
def execUnitState (c : Cmd) (s : State) : Host.Outcome State Fault Refusal := settle s (runVerb vUnitState c s)
def execUnitList (c : Cmd) (s : State) : Host.Outcome State Fault Refusal := settle s (runVerb vUnitList c s)
def execDevReset (c : Cmd) (s : State) : Host.Outcome State Fault Refusal := settle s (runVerb vDevReset c s)
def execDevEventRoute (c : Cmd) (s : State) : Host.Outcome State Fault Refusal := settle s (runVerb vDevEventRoute c s)
def execDevConfigure (c : Cmd) (s : State) : Host.Outcome State Fault Refusal := settle s (runVerb vDevConfigure c s)
def execDevStatus (c : Cmd) (s : State) : Host.Outcome State Fault Refusal := settle s (runVerb vDevStatus c s)
def execMaintTick (s : State) : Host.Outcome State Fault Refusal := settle s (maintStep s)
def execMaintOverrun (ticket : Nat) (s : State) : Host.Outcome State Fault Refusal := settle s (maintOverrun ticket s)
def execDebugChallengeExpire (s : State) : Host.Outcome State Fault Refusal := settle s (challengeExpire s)

end Sys2Proof.Machine
end

