-- ==== Sys2Proof/Machine/Serve.lean ====
section
/-! DEFINITION. The mailbox manager takes commands, the junction serves its banks, and interim responses go out. -/
set_option Elab.async false
namespace Sys2Proof.Machine
open Sys2Proof

/-! ### Every verb by its opcode (R458) -/

/-- Verbs of groups 0x01 to 0x06. -/
def verbsA : List Verb :=
  [vUnitReinit, vUnitState, vUnitList, vPackCreate, vPackAdd, vPackRemove, vPackDissolve, vPackList, vPackStatus, vPackSelftest,
   vInputConfigure, vInputSetAtten, vInputArrange, vInputStatus, vCalConfigure, vCalForeground, vCalStatus, vCalReadTrims,
   vDdcConfigure, vDdcTune, vDdcSetThreshold, vDdcSync, vDdcEngine, vDdcQuery, vDdcStatus,
   vChanCreate, vChanBundle, vChanUnbundle, vChanStart, vChanStop, vChanDelete, vChanStatus]

/-- Verbs of groups 0x07 to 0x0D. -/
def verbsB : List Verb :=
  [vXformCreate, vXformLoadWindow, vXformStart, vXformStop, vXformDelete, vXformQuery, vXformStatus,
   vTrigDefine, vTrigLoadMask, vTrigArm, vTrigDisarm, vTrigForce, vTrigSignal, vTrigDelete, vTrigStatus,
   vRecRingPolicy, vRecRelease, vRecEnvelope, vRecEnvStop, vRecStatus, vMeasDefine, vMeasRun, vMeasStatus,
   vDensConfigure, vDensLoadColours, vDensStart, vDensStop, vDensClear, vDensStatus,
   vOccConfigure, vOccChannel, vOccStart, vOccStop, vOccStatus,
   vDispTiming, vDispLayer, vDispCommit, vDispEnable, vDispAux, vDispStatus]

/-- Verbs of groups 0x0E to 0x16. -/
def verbsC : List Verb :=
  [vStoreConfigure, vStoreSetRate, vStorePort, vStoreRetrain, vStoreStatus, vStorePortStatus,
   vBankHandover, vBankPower, vBankFill, vBankStatus, vFetchStart, vFetchConfigure, vFetchAbort, vFetchClear, vFetchStatus,
   vRingCreate, vRingDelete, vRingModify, vRingConsume, vRingStatus, vStreamStart, vStreamStop, vStreamStatus,
   vSynthSetRate, vSynthConfigure, vSynthAlign, vSynthSpread, vSynthAxsSet, vSynthAxsStore, vSynthAxsHop, vSynthAxsRampLoad,
   vSynthAxsRampRun, vSynthReference, vSynthStatus, vTimeConfigure, vTimeSet, vTimeAdjust, vTimeRead, vTimeStatus,
   vTdcConfigure, vTdcArm, vTdcDisarm, vTdcRead, vTdcSelfcal, vTdcStatus, vEthConfigure, vEthStatus, vEthVitaCreate, vEthVitaDelete]

/-- Verbs of groups 0x17 to 0x1F but for those whose byte chooses between two effects. -/
def verbsD : List Verb :=
  [vDacConfigure, vDacWrite, vDacStrobe, vDacSchedule, vDacSetClear, vDacRelease, vDacStatus,
   vHkConfigure, vHkLoadSeq, vHkStart, vHkStop, vHkRead, vHkStatus, vThermConfigure, vThermStart, vThermStop, vThermSetpoint, vThermStatus,
   vPwrCycleMain, vPwrSetState, vPwrConfigure, vPwrStatus, vBoxStatus, vBoxRead, vBoxExport, vBoxNote,
   vSecAttest, vSecCert, vSecUpdate, vSecRollback, vSecStatus, vMaintConfigure, vMaintStatus, vMaintCancel,
   vLinkBond, vLinkRetrain, vLinkAperture, vLinkReadapt, vLinkStatus, vLinkLaneStatus, vDevReset, vDevEventRoute, vDevConfigure, vDevStatus]

/-- A verb that refuses a MODE or PART outside its range. -/
def refuseVerb (op : Nat) (k : UK) : Verb where
  op := op
  fits := fun s h => isA s k h
  checks := fun _ _ => [badArg true]
  act := fun _ s => ok s

/-- The verb of an opcode with its arguments; none for an unknown group or verb (R458). -/
def verbOf (s : State) (op : Nat) (c : Cmd) : Option Verb :=
  if op = 0x1B04 then some (match argN c 24 1 with | 0 => vBoxSign0 | 1 => vBoxSign1 | _ => refuseVerb 0x1B04 .box)
  else if op = 0x1C05 then some (vSecKey (((kennelRead s (argN c 0 6) 160).map fun b => numAt b 4 1).getD 0))
  else if op = 0x1C06 then some (match argN c 0 1 with | 0 => vDebugChallenge | 1 => vDebugToken | 2 => vDebugRelock | _ => refuseVerb 0x1C06 .sec)
  else (verbsA ++ verbsB ++ verbsC ++ verbsD).find? fun v => v.op == op

/-- A command came by a mailbox. -/
def fromMailbox (c : Cmd) : Bool :=
  match c.path with
  | .mailbox _ => true
  | .junction _ => false

/-- Serve a request by its opcode. `go` is how a verb runs on this path. -/
def serve (go : Verb → Cmd → State → State) (op : Nat) (c : Cmd) (s : State) : State :=
  match verbOf s op c with
  | some v => let s := go v c s
    if op = 0x1202 && fromMailbox c then streamEnd (argN c 0 4) s else s
  | none => finish c.path c.seq op c.unit c.unit BAD_ARG [] s

/-! ### JUNCTION_SERVE (R29, R440 to R443) -/

/-- The argument bytes of a bank. -/
def bankArgs (b : BankedSt) : Bytes := (b.args.toList.flatMap fun w => le 4 w.toNat).take b.len.toNat

/-- The stored result answers a repeated request (R442). -/
def bankReplay (p : WinPath) (e : ReplayEntry) (s : State) : State :=
  bankedMod p (fun b => { b with status := e.status, result := e.result, busy := false, done := true, replayed := true, rseq := e.seq }) s

/-- Serve the request of a bank. -/
def serveBank (p : WinPath) (s : State) : State :=
  let b := bankOf s p
  let c : Cmd := { path := .junction p, seq := b.seq, unit := b.unit, args := bankArgs b }
  let same := b.last.filter fun e => e.seq == b.seq && e.opcode == b.opcode && e.unit == b.unit
  match same with
  | some e => if p == .kennel then serve runVerbNow b.opcode.toNat c s else bankReplay p e s
  | none =>
    if 48 < b.len.toNat then finish c.path c.seq b.opcode.toNat c.unit c.unit BAD_ARG [] (begin_ c b.opcode.toNat 1 s)
    else serve runVerbNow b.opcode.toNat c s

/-- The bank whose request is taken next (R29). R29 orders requests that arrive together; among those that have come to wait at different
times the model keeps the same order, SMBus, Cozor, Kennel, and forwarded mailbox commands in the order of their forwarding (DESIGN CHOICE, log 65). -/
def bankNext (s : State) : Option WinPath :=
  [WinPath.smbus, .cozor, .kennel].find? fun p => (bankOf s p).busy && !(bankOf s p).serving

/-- A mailbox command that waits for the Kennel's bank is taken (R441). -/
def serveForward (s : State) : State :=
  match s.kennel.forwards with
  | [] => s
  | (op, c) :: q =>
    if !isReady s then s else
    if awaitsHost s op c then hostAskAll (srcRanges s op c) s else
    serve runVerbHeld op c { s with kennel := { s.kennel with forwards := q } }

/-- JUNCTION_SERVE: one request at a time, to completion. -/
def junctionServe (s : State) : State :=
  if stage s = 0 || s.junction.cozor.serving || s.junction.smbus.serving || s.junction.kennel.serving then s else
  match bankNext s with
  | some p => if p == .kennel && s.junction.kennel.fwd.isSome then serveForward s else serveBank p s
  | none => serveForward s

/-! ### MAILBOX_TAKE_COMMAND (R451 to R457) -/

/-- A command starts behind those that were taken before it; with FENCE once each of them has its final response (R452). -/
def mayStart (x : MailboxSt) (fence : Bool) (taken : Nat) : Bool :=
  !fence || (x.held.isEmpty && !x.inProgress.any fun y => decide (y.taken < taken))

/-- Start the commands of a mailbox that can start, in ring order (R454). -/
def startHeads (m : Nat) : Nat → State → State
  | 0, s => s
  | n + 1, s =>
    match (vget s.kennel.mbx m).fenced with
    | [] => s
    | (op, c, fence, _, taken) :: q =>
      if !mayStart (vget s.kennel.mbx m) fence taken then s
      else if awaitsHost s op c then hostAskAll (srcRanges s op c) s
      else if mustHold s op c then s
      else startHeads m n (serve runVerb op c (mbxMod m (fun x => { x with fenced := q }) s))

/-- Start what waits in every mailbox. -/
def startAll (s : State) : State := (List.range 64).foldl (fun s m => startHeads m ((vget s.kennel.mbx m).fenced.length) s) s

/-- The descriptor at the head of a command ring. -/
def headOf (s : State) (m : Nat) : Option Bytes :=
  (ringOf s m).bind fun r => if occupancy r = 0 then none else some (ringRead s r r.consumer 64)

/-- Device address of that descriptor. -/
def headAddr (s : State) (m : Nat) : Nat := ((ringOf s m).map fun r => r.base + r.consumer % ringSize r).getD 0

/-- It reads with an uncorrectable error (R277). -/
def headBad (s : State) (m : Nat) : Bool := s.store.badWords.any fun w => headAddr s m < w + 32 && w < headAddr s m + 64

def descExt (d : Bytes) : Bool := numAt d 2 2 % 2 = 1
def descFence (d : Bytes) : Bool := numAt d 2 2 / 2 % 2 = 1

/-- A descriptor that cannot be parsed (R452, R457). -/
def descBad (d : Bytes) : Bool :=
  numAt d 2 2 / 4 != 0 || numAt d 12 4 != 0 || (if descExt d then numAt d 10 2 == 0 || 4096 < numAt d 10 2 else 48 < numAt d 10 2)

/-- The range of an extended payload. -/
def extRange (d : Bytes) : List (Nat × Nat) := if descExt d && !descBad d then [(numAt d 16 6, numAt d 10 2)] else []

/-- The head's extended payload has still to be read from the host. -/
def headMissing (s : State) (m : Nat) : List (Nat × Nat) :=
  match headOf s m with
  | some d => if headBad s m then [] else hostMissing s (extRange d)
  | none => []

/-- The payload of a descriptor; none where R452 refuses it. -/
def descArgs (s : State) (d : Bytes) : Option Bytes :=
  if descExt d then (if spanOk s (numAt d 16 6) (numAt d 10 2) then kennelMem s (numAt d 16 6) (numAt d 10 2) else none)
  else some (bytesAt d 16 (numAt d 10 2))

/-- A mailbox from which a command can be taken now (R451, R454). -/
def canTake (s : State) (m : Nat) : Bool :=
  (headOf s m).isSome && (vget s.kennel.mbx m).held.isEmpty && (headMissing s m).isEmpty &&
    (match ringOf s (0x40 + m) with | some r => decide (occupancy r < ringSize r) | none => false)

/-- What becomes of a command that has been read: replay, repetition in progress, or a start (R452, R453). -/
def takeCommand (m op : Nat) (fence : Bool) (c : Cmd) (bad : Bool) (pub taken : Nat) (s : State) : State :=
  let x := vget s.kennel.mbx m
  let reply := fun (st flags : Nat) (unit : Handle) (res : Bytes) (s : State) => rspPublish m (rspBytes op st flags c.seq unit taken res) s
  match x.replay.find? (·.seq == c.seq) with
  | some e =>
    if e.opcode.toNat == op && e.unit == c.unit then
      replayNote m op c.seq c.unit (reply e.status.toNat 2 e.respUnit e.result s)
    else reply BAD_ARG 0 c.unit [] s
  | none =>
    let entry : InProgress := ⟨c.seq, BitVec.ofNat 16 op, c.unit, pub, false, false, 1, (0, c.unit), 0, taken, 0⟩
    match x.inProgress.find? fun y => y.seq == c.seq && !y.duplicate with
    | some y =>
      if y.opcode.toNat == op && y.unit == c.unit then mbxMod m (fun x => { x with inProgress := x.inProgress ++ [{ entry with duplicate := true }] }) s
      else reply BAD_ARG 0 c.unit [] s
    | none =>
      let s := mbxMod m (fun x => { x with inProgress := x.inProgress ++ [entry] }) s
      if bad then finish c.path c.seq op c.unit c.unit BAD_ARG [] s
      else startHeads m ((vget s.kennel.mbx m).fenced.length + 1) (mbxMod m (fun x => { x with fenced := x.fenced ++ [(op, c, fence, pub, taken)] }) s)

/-- Take the descriptor at the head of mailbox m. -/
def takeFrom (m : Fin 64) (s : State) : State :=
  match headOf s m, ringOf s m with
  | some d, some r =>
    let bad := headBad s m
    let pub := (vget s.kennel.mbx m).pubAt.headD s.cyc
    let args := descArgs s d
    let s := storeTouch (ringSet (ringFreed s { r with consumer := r.consumer + 64 }) s)
    let s := { s with kennel := { s.kennel with cmdsTaken := wrapAdd 32 s.kennel.cmdsTaken 1, turn := m + 1 } }
    let s := hostPurge (if bad then [] else extRange d) (mbxMod m (fun x => { x with pubAt := x.pubAt.drop 1 }) s)
    let taken := mbxTaken s m
    let op := numAt d 0 2
    let c : Cmd := { path := .mailbox m, seq := BitVec.ofNat 32 (numAt d 4 4), unit := BitVec.ofNat 16 (numAt d 8 2), args := args.getD [] }
    if bad then rspPublish m (rspBytes 0 FAULT 0 0 0xFFFF taken []) s
    else if descBad d then
      raise 0xF0 2 0x0010 (le 1 m ++ [0, 0, 0] ++ le 4 c.seq.toNat ++ le 2 op) (rspPublish m (rspBytes op BAD_ARG 0 c.seq c.unit taken (d.take 16)) s)
    else takeCommand m op (descFence d) c args.isNone pub taken s
  | _, _ => s

/-- MAILBOX_TAKE_COMMAND (R454): what waits starts; then one descriptor is taken, in rotation. -/
def mailboxTake (s : State) : State :=
  if !isReady s then s else
  let s := startAll s
  let s := (List.range 64).foldl (fun s m => (headMissing s m).foldl (fun s p => hostAskPiece p s) s) s
  match (List.range 64).find? fun i => canTake s ((s.kennel.turn.val + i) % 64) with
  | some i => takeFrom (Fin.ofNat 64 (s.kennel.turn.val + i)) s
  | none => s

/-! ### INTERIM_RESPONSE_DUE (R455, R453, R459) -/

/-- Byte 0 of an interim response, with the ticket: the arbiter's queue position, 0 for work in progress (R455, R597). -/
def interimBytes (m : Fin 64) (seq : BitVec 32) (s : State) : Bytes :=
  match s.maint.queue.find? fun r => r.cmd.any fun c => c.path == .mailbox m && c.seq == seq with
  | some r => le 2 (maintPos s r) ++ le 2 r.ticket
  | none => le 4 0

/-- The interim response of one command. -/
def interimOne (m : Fin 64) (y : InProgress) (s : State) : State :=
  let d := rspBytes y.opcode.toNat DEFERRED 1 y.seq y.unit y.taken (interimBytes m y.seq s)
  rspPublish m d (mbxMod m (fun x => { x with inProgress := lmod (fun z => z.seq == y.seq && z.taken == y.taken) (fun z => { z with interim := true }) x.inProgress }) s)

/-- INTERIM_RESPONSE_DUE: half of RESP_TIMEOUT_MS has passed since the whistle write that published a command with this SEQ. A
re-initialisation that has run for 50 ms ends with TIMEOUT (R459). -/
def interimDue (m : Fin 64) (seq : BitVec 32) (s : State) : State :=
  if !isReady s then s else
  let half := fld s.kennel.devCfg 15 0 * msC / 2
  let s := ((vget s.kennel.mbx m).inProgress.filter fun y => y.seq == seq && !y.interim && half ≤ since s y.published).foldl (fun s y => interimOne m y s) s
  match (vget s.kennel.mbx m).inProgress.find? fun y => y.seq == seq && !y.duplicate with
  | some y => if y.opcode == 0x0101 && 50 * msC < since s y.published then reinitTimeout m y s else s
  | none => s

def execJunctionServe (s : State) : Host.Outcome State Fault Refusal := settle s (junctionServe s)
def execMailboxTakeCommand (s : State) : Host.Outcome State Fault Refusal := settle s (mailboxTake s)
def execInterimResponseDue (m : Fin 64) (seq : BitVec 32) (s : State) : Host.Outcome State Fault Refusal := settle s (interimDue m seq s)

end Sys2Proof.Machine
end

