-- ==== Sys2Proof/Machine/Dispatch.lean ====
section
/-! DEFINITION. One arm per command: a direct call of its meaning. -/
namespace Sys2Proof.Machine
open Sys2Proof

/-- The effect of a command on everything but the queue. -/
def exec (i : Instr) (s : State) : Host.Outcome State Fault Refusal :=
  match i with
  | .vinAuxRise straps mv => Sys2Proof.Machine.execVinAuxRise straps mv s
  | .pReset mv => Sys2Proof.Machine.execPReset mv s
  | .mgmtFwVerified => Sys2Proof.Machine.execMgmtFwVerified s
  | .mainRailsUp railOk => Sys2Proof.Machine.execMainRailsUp railOk s
  | .kennelBoot => Sys2Proof.Machine.execKennelBoot s
  | .storeTrained stackOk => Sys2Proof.Machine.execStoreTrained stackOk s
  | .convertersCal tePass scsLock => Sys2Proof.Machine.execConvertersCal tePass scsLock s
  | .bringupReady => Sys2Proof.Machine.execBringupReady s
  | .stageTimeout unit => Sys2Proof.Machine.execStageTimeout unit s
  | .linkImagePoll => Sys2Proof.Machine.execLinkImagePoll s
  | .linkImageTimeout => Sys2Proof.Machine.execLinkImageTimeout s
  | .devResetBegin => Sys2Proof.Machine.execDevResetBegin s
  | .resetNLow => Sys2Proof.Machine.execResetNLow s
  | .resetNRise => Sys2Proof.Machine.execResetNRise s
  | .mainOffElapsed => Sys2Proof.Machine.execMainOffElapsed s
  | .supplySample main aux => Sys2Proof.Machine.execSupplySample main aux s
  | .supplyRecover rail => Sys2Proof.Machine.execSupplyRecover rail s
  | .vinMainReturn => Sys2Proof.Machine.execVinMainReturn s
  | .railOut rail mv => Sys2Proof.Machine.execRailOut rail mv s
  | .railOutRemove rail => Sys2Proof.Machine.execRailOutRemove rail s
  | .thermalRead tj => Sys2Proof.Machine.execThermalRead tj s
  | .thermalCooled => Sys2Proof.Machine.execThermalCooled s
  | .kennelReport => Sys2Proof.Machine.execKennelReport s
  | .kennelHang => Sys2Proof.Machine.execKennelHang s
  | .pwrCycleMain c => Sys2Proof.Machine.execPwrCycleMain c s
  | .pwrSetStateActive c => Sys2Proof.Machine.execPwrSetStateActive c s
  | .pwrSetStateQuiet c => Sys2Proof.Machine.execPwrSetStateQuiet c s
  | .pwrSetStateStandby c => Sys2Proof.Machine.execPwrSetStateStandby c s
  | .powerTransitionDone => Sys2Proof.Machine.execPowerTransitionDone s
  | .pwrConfigure c => Sys2Proof.Machine.execPwrConfigure c s
  | .pwrStatus c => Sys2Proof.Machine.execPwrStatus c s
  | .mjGo p => Sys2Proof.Machine.execMjGo p s
  | .junctionServe => Sys2Proof.Machine.execJunctionServe s
  | .devResetWrite p v => Sys2Proof.Machine.execDevResetWrite p v s
  | .whistleWrite m v => Sys2Proof.Machine.execWhistleWrite m v s
  | .boxDataLastWordRead p => Sys2Proof.Machine.execBoxDataLastWordRead p s
  | .windowLatchRead p off => Sys2Proof.Machine.execWindowLatchRead p off s
  | .registerWrite p off v => Sys2Proof.Machine.execRegisterWrite p off v s
  | .smbusWriteWord v pecOk => Sys2Proof.Machine.execSmbusWriteWord v pecOk s
  | .smbusBlockRead n => Sys2Proof.Machine.execSmbusBlockRead n s
  | .smbusBlockWrite data pecOk => Sys2Proof.Machine.execSmbusBlockWrite data pecOk s
  | .mailboxTakeCommand => Sys2Proof.Machine.execMailboxTakeCommand s
  | .interimResponseDue m seq => Sys2Proof.Machine.execInterimResponseDue m seq s
  | .unitReinit c => Sys2Proof.Machine.execUnitReinit c s
  | .unitState c => Sys2Proof.Machine.execUnitState c s
  | .unitList c => Sys2Proof.Machine.execUnitList c s
  | .devReset c => Sys2Proof.Machine.execDevReset c s
  | .devEventRoute c => Sys2Proof.Machine.execDevEventRoute c s
  | .devConfigure c => Sys2Proof.Machine.execDevConfigure c s
  | .devStatus c => Sys2Proof.Machine.execDevStatus c s
  | .packCreate c => Sys2Proof.Machine.execPackCreate c s
  | .packAdd c => Sys2Proof.Machine.execPackAdd c s
  | .packRemove c => Sys2Proof.Machine.execPackRemove c s
  | .packDissolve c => Sys2Proof.Machine.execPackDissolve c s
  | .packList c => Sys2Proof.Machine.execPackList c s
  | .packStatus c => Sys2Proof.Machine.execPackStatus c s
  | .packSelftest c => Sys2Proof.Machine.execPackSelftest c s
  | .selftestDone e pass test => Sys2Proof.Machine.execSelftestDone e pass test s
  | .poolSelftestTimer => Sys2Proof.Machine.execPoolSelftestTimer s
  | .declareEngineDead e => Sys2Proof.Machine.execDeclareEngineDead e s
  | .promoteSpare pack => Sys2Proof.Machine.execPromoteSpare pack s
  | .issueWorkItem pack => Sys2Proof.Machine.execIssueWorkItem pack s
  | .workItemComplete e item => Sys2Proof.Machine.execWorkItemComplete e item s
  | .engineStoreWrite e pack slot epoch addr data => Sys2Proof.Machine.execEngineStoreWrite e pack slot epoch addr data s
  | .rateLockUpdate rates => Sys2Proof.Machine.execRateLockUpdate rates s
  | .vFabRaiseDone => Sys2Proof.Machine.execVFabRaiseDone s
  | .inputConfigure c => Sys2Proof.Machine.execInputConfigure c s
  | .inputSetAtten c => Sys2Proof.Machine.execInputSetAtten c s
  | .inputArrange c => Sys2Proof.Machine.execInputArrange c s
  | .inputStatus c => Sys2Proof.Machine.execInputStatus c s
  | .attenApply k => Sys2Proof.Machine.execAttenApply k s
  | .settleSpanEnd k => Sys2Proof.Machine.execSettleSpanEnd k s
  | .streamSwitch k origin => Sys2Proof.Machine.execStreamSwitch k origin s
  | .ingestBlock k codes ahead => Sys2Proof.Machine.execIngestBlock k codes ahead s
  | .overloadExit k => Sys2Proof.Machine.execOverloadExit k s
  | .skidDrain k => Sys2Proof.Machine.execSkidDrain k s
  | .calConfigure c => Sys2Proof.Machine.execCalConfigure c s
  | .calForeground c => Sys2Proof.Machine.execCalForeground c s
  | .calStatus c => Sys2Proof.Machine.execCalStatus c s
  | .calReadTrims c => Sys2Proof.Machine.execCalReadTrims c s
  | .calUpdatePeriodEnd k b => Sys2Proof.Machine.execCalUpdatePeriodEnd k b s
  | .foregroundStart k => Sys2Proof.Machine.execForegroundStart k s
  | .foregroundIteration k errs => Sys2Proof.Machine.execForegroundIteration k errs s
  | .foregroundEnd k => Sys2Proof.Machine.execForegroundEnd k s
  | .ddcConfigure c => Sys2Proof.Machine.execDdcConfigure c s
  | .ddcTune c => Sys2Proof.Machine.execDdcTune c s
  | .ddcSetThreshold c => Sys2Proof.Machine.execDdcSetThreshold c s
  | .ddcSync c => Sys2Proof.Machine.execDdcSync c s
  | .ddcEngine c => Sys2Proof.Machine.execDdcEngine c s
  | .ddcQuery c => Sys2Proof.Machine.execDdcQuery c s
  | .ddcStatus c => Sys2Proof.Machine.execDdcStatus c s
  | .ddcRetuneApply ch => Sys2Proof.Machine.execDdcRetuneApply ch s
  | .ddcRestart ch => Sys2Proof.Machine.execDdcRestart ch s
  | .syncReset e => Sys2Proof.Machine.execSyncReset e s
  | .ddcThreshAverage ch => Sys2Proof.Machine.execDdcThreshAverage ch s
  | .chanCreate c => Sys2Proof.Machine.execChanCreate c s
  | .chanBundle c => Sys2Proof.Machine.execChanBundle c s
  | .chanUnbundle c => Sys2Proof.Machine.execChanUnbundle c s
  | .chanStart c => Sys2Proof.Machine.execChanStart c s
  | .chanStop c => Sys2Proof.Machine.execChanStop c s
  | .chanDelete c => Sys2Proof.Machine.execChanDelete c s
  | .chanStatus c => Sys2Proof.Machine.execChanStatus c s
  | .bundleTakeEffect id first => Sys2Proof.Machine.execBundleTakeEffect id first s
  | .chanFrameClose id first => Sys2Proof.Machine.execChanFrameClose id first s
  | .xformCreate c => Sys2Proof.Machine.execXformCreate c s
  | .xformLoadWindow c => Sys2Proof.Machine.execXformLoadWindow c s
  | .xformStart c => Sys2Proof.Machine.execXformStart c s
  | .xformStop c => Sys2Proof.Machine.execXformStop c s
  | .xformDelete c => Sys2Proof.Machine.execXformDelete c s
  | .xformQuery c => Sys2Proof.Machine.execXformQuery c s
  | .xformStatus c => Sys2Proof.Machine.execXformStatus c s
  | .stopComplete unit id => Sys2Proof.Machine.execStopComplete unit id s
  | .trigDefine c => Sys2Proof.Machine.execTrigDefine c s
  | .trigLoadMask c => Sys2Proof.Machine.execTrigLoadMask c s
  | .trigArm c => Sys2Proof.Machine.execTrigArm c s
  | .trigDisarm c => Sys2Proof.Machine.execTrigDisarm c s
  | .trigForce c => Sys2Proof.Machine.execTrigForce c s
  | .trigSignal c => Sys2Proof.Machine.execTrigSignal c s
  | .trigDelete c => Sys2Proof.Machine.execTrigDelete c s
  | .trigStatus c => Sys2Proof.Machine.execTrigStatus c s
  | .triggerElement e t at_ => Sys2Proof.Machine.execTriggerElement e t at_ s
  | .timerDue e t cond => Sys2Proof.Machine.execTimerDue e t cond s
  | .seqWindowExpire e t => Sys2Proof.Machine.execSeqWindowExpire e t s
  | .holdoffEnd e t => Sys2Proof.Machine.execHoldoffEnd e t s
  | .spanComplete record span => Sys2Proof.Machine.execSpanComplete record span s
  | .pinCopyComplete record span => Sys2Proof.Machine.execPinCopyComplete record span s
  | .recRingPolicy c => Sys2Proof.Machine.execRecRingPolicy c s
  | .recRelease c => Sys2Proof.Machine.execRecRelease c s
  | .recEnvelope c => Sys2Proof.Machine.execRecEnvelope c s
  | .recEnvStop c => Sys2Proof.Machine.execRecEnvStop c s
  | .recStatus c => Sys2Proof.Machine.execRecStatus c s
  | .envFrameClose id => Sys2Proof.Machine.execEnvFrameClose id s
  | .measDefine c => Sys2Proof.Machine.execMeasDefine c s
  | .measRun c => Sys2Proof.Machine.execMeasRun c s
  | .measStatus c => Sys2Proof.Machine.execMeasStatus c s
  | .measComplete e => Sys2Proof.Machine.execMeasComplete e s
  | .densConfigure c => Sys2Proof.Machine.execDensConfigure c s
  | .densLoadColours c => Sys2Proof.Machine.execDensLoadColours c s
  | .densStart c => Sys2Proof.Machine.execDensStart c s
  | .densStop c => Sys2Proof.Machine.execDensStop c s
  | .densClear c => Sys2Proof.Machine.execDensClear c s
  | .densStatus c => Sys2Proof.Machine.execDensStatus c s
  | .densFrameComplete a => Sys2Proof.Machine.execDensFrameComplete a s
  | .occConfigure c => Sys2Proof.Machine.execOccConfigure c s
  | .occChannel c => Sys2Proof.Machine.execOccChannel c s
  | .occStart c => Sys2Proof.Machine.execOccStart c s
  | .occStop c => Sys2Proof.Machine.execOccStop c s
  | .occStatus c => Sys2Proof.Machine.execOccStatus c s
  | .occSlotComplete a => Sys2Proof.Machine.execOccSlotComplete a s
  | .dispTiming c => Sys2Proof.Machine.execDispTiming c s
  | .dispLayer c => Sys2Proof.Machine.execDispLayer c s
  | .dispCommit c => Sys2Proof.Machine.execDispCommit c s
  | .dispEnable c => Sys2Proof.Machine.execDispEnable c s
  | .dispAux c => Sys2Proof.Machine.execDispAux c s
  | .dispStatus c => Sys2Proof.Machine.execDispStatus c s
  | .auxReplyTimeout => Sys2Proof.Machine.execAuxReplyTimeout s
  | .hpdInFall => Sys2Proof.Machine.execHpdInFall s
  | .hpdUnplug => Sys2Proof.Machine.execHpdUnplug s
  | .hpdInRise => Sys2Proof.Machine.execHpdInRise s
  | .dpTrainStep pass want => Sys2Proof.Machine.execDpTrainStep pass want s
  | .verticalBlank => Sys2Proof.Machine.execVerticalBlank s
  | .frameStart => Sys2Proof.Machine.execFrameStart s
  | .layerUnderrun l line => Sys2Proof.Machine.execLayerUnderrun l line s
  | .storeConfigure c => Sys2Proof.Machine.execStoreConfigure c s
  | .storeSetRate c => Sys2Proof.Machine.execStoreSetRate c s
  | .storeRateChangeDone failStep pauseNs => Sys2Proof.Machine.execStoreRateChangeDone failStep pauseNs s
  | .storePort c => Sys2Proof.Machine.execStorePort c s
  | .storeRetrain c => Sys2Proof.Machine.execStoreRetrain c s
  | .storeRetrainDone st failed => Sys2Proof.Machine.execStoreRetrainDone st failed s
  | .storeStatus c => Sys2Proof.Machine.execStoreStatus c s
  | .storePortStatus c => Sys2Proof.Machine.execStorePortStatus c s
  | .storeAccessIssue ch arrivals ecc => Sys2Proof.Machine.execStoreAccessIssue ch arrivals ecc s
  | .perBankRefresh ch => Sys2Proof.Machine.execPerBankRefresh ch s
  | .stackTempRead st temp => Sys2Proof.Machine.execStackTempRead st temp s
  | .retrainPause ch => Sys2Proof.Machine.execRetrainPause ch s
  | .scrubRead ch ecc => Sys2Proof.Machine.execScrubRead ch ecc s
  | .storeWake => Sys2Proof.Machine.execStoreWake s
  | .storeDoze => Sys2Proof.Machine.execStoreDoze s
  | .bankHandover c => Sys2Proof.Machine.execBankHandover c s
  | .handoverDrainDone b => Sys2Proof.Machine.execHandoverDrainDone b s
  | .bankPower c => Sys2Proof.Machine.execBankPower c s
  | .bankFill c => Sys2Proof.Machine.execBankFill c s
  | .bankFillDone b => Sys2Proof.Machine.execBankFillDone b s
  | .bankStatus c => Sys2Proof.Machine.execBankStatus c s
  | .bankAccess b port0 port1 => Sys2Proof.Machine.execBankAccess b port0 port1 s
  | .fetchStart c => Sys2Proof.Machine.execFetchStart c s
  | .fetchConfigure c => Sys2Proof.Machine.execFetchConfigure c s
  | .fetchAbort c => Sys2Proof.Machine.execFetchAbort c s
  | .fetchClearAbandon c => Sys2Proof.Machine.execFetchClearAbandon c s
  | .fetchClearRetry c => Sys2Proof.Machine.execFetchClearRetry c s
  | .fetchStatus c => Sys2Proof.Machine.execFetchStatus c s
  | .fetchBeat => Sys2Proof.Machine.execFetchBeat s
  | .ringCreate c => Sys2Proof.Machine.execRingCreate c s
  | .ringDelete c => Sys2Proof.Machine.execRingDelete c s
  | .ringModify c => Sys2Proof.Machine.execRingModify c s
  | .ringConsume c => Sys2Proof.Machine.execRingConsume c s
  | .ringStatus c => Sys2Proof.Machine.execRingStatus c s
  | .ringPublish ring o => Sys2Proof.Machine.execRingPublish ring o s
  | .streamStart c => Sys2Proof.Machine.execStreamStart c s
  | .streamStop c => Sys2Proof.Machine.execStreamStop c s
  | .streamStatus c => Sys2Proof.Machine.execStreamStatus c s
  | .streamSendPacket ring => Sys2Proof.Machine.execStreamSendPacket ring s
  | .synthSetRate c => Sys2Proof.Machine.execSynthSetRate c s
  | .scsRateChangeDone d => Sys2Proof.Machine.execScsRateChangeDone d s
  | .synthConfigure c => Sys2Proof.Machine.execSynthConfigure c s
  | .synthAlign c => Sys2Proof.Machine.execSynthAlign c s
  | .synthSpread c => Sys2Proof.Machine.execSynthSpread c s
  | .synthAxsSet c => Sys2Proof.Machine.execSynthAxsSet c s
  | .synthAxsStore c => Sys2Proof.Machine.execSynthAxsStore c s
  | .synthAxsHop c => Sys2Proof.Machine.execSynthAxsHop c s
  | .synthAxsRampLoad c => Sys2Proof.Machine.execSynthAxsRampLoad c s
  | .synthAxsRampRun c => Sys2Proof.Machine.execSynthAxsRampRun c s
  | .synthReference c => Sys2Proof.Machine.execSynthReference c s
  | .synthStatus c => Sys2Proof.Machine.execSynthStatus c s
  | .axsSearchDone ok => Sys2Proof.Machine.execAxsSearchDone ok s
  | .axsHopApply => Sys2Proof.Machine.execAxsHopApply s
  | .axsRampStep => Sys2Proof.Machine.execAxsRampStep s
  | .axsRetuneApply => Sys2Proof.Machine.execAxsRetuneApply s
  | .refinLost => Sys2Proof.Machine.execRefinLost s
  | .refinQualified jumpPs => Sys2Proof.Machine.execRefinQualified jumpPs s
  | .refinQualifyFail => Sys2Proof.Machine.execRefinQualifyFail s
  | .realignDone => Sys2Proof.Machine.execRealignDone s
  | .loopLockChange l locked => Sys2Proof.Machine.execLoopLockChange l locked s
  | .loopAcquireRetry l => Sys2Proof.Machine.execLoopAcquireRetry l s
  | .synthFault l => Sys2Proof.Machine.execSynthFault l s
  | .scsMarker d coarse fine => Sys2Proof.Machine.execScsMarker d coarse fine s
  | .syncInEdge offsetPs => Sys2Proof.Machine.execSyncInEdge offsetPs s
  | .timeConfigure c => Sys2Proof.Machine.execTimeConfigure c s
  | .timeSet c => Sys2Proof.Machine.execTimeSet c s
  | .timeAdjust c => Sys2Proof.Machine.execTimeAdjust c s
  | .timeRead c => Sys2Proof.Machine.execTimeRead c s
  | .timeStatus c => Sys2Proof.Machine.execTimeStatus c s
  | .timeSetTimeout => Sys2Proof.Machine.execTimeSetTimeout s
  | .ptpMessage m => Sys2Proof.Machine.execPtpMessage m s
  | .ptpDelayReqSend t3 => Sys2Proof.Machine.execPtpDelayReqSend t3 s
  | .ptpSourceTimeout => Sys2Proof.Machine.execPtpSourceTimeout s
  | .l1SyncChange up => Sys2Proof.Machine.execL1SyncChange up s
  | .ppsInEdge coarse fine => Sys2Proof.Machine.execPpsInEdge coarse fine s
  | .ppsInMissing => Sys2Proof.Machine.execPpsInMissing s
  | .ppsOutPulse => Sys2Proof.Machine.execPpsOutPulse s
  | .holdoverExpired => Sys2Proof.Machine.execHoldoverExpired s
  | .ethConfigure c => Sys2Proof.Machine.execEthConfigure c s
  | .ethVitaCreate c => Sys2Proof.Machine.execEthVitaCreate c s
  | .ethVitaDelete c => Sys2Proof.Machine.execEthVitaDelete c s
  | .ethStatus c => Sys2Proof.Machine.execEthStatus c s
  | .ethFrameReceived p frame => Sys2Proof.Machine.execEthFrameReceived p frame s
  | .ethLinkChange p up => Sys2Proof.Machine.execEthLinkChange p up s
  | .vitaSend id => Sys2Proof.Machine.execVitaSend id s
  | .vitaContext id => Sys2Proof.Machine.execVitaContext id s
  | .tdcConfigure c => Sys2Proof.Machine.execTdcConfigure c s
  | .tdcArm c => Sys2Proof.Machine.execTdcArm c s
  | .tdcDisarm c => Sys2Proof.Machine.execTdcDisarm c s
  | .tdcRead c => Sys2Proof.Machine.execTdcRead c s
  | .tdcSelfcal c => Sys2Proof.Machine.execTdcSelfcal c s
  | .tdcStatus c => Sys2Proof.Machine.execTdcStatus c s
  | .tdcArmTime ch => Sys2Proof.Machine.execTdcArmTime ch s
  | .tinEdge ch falling coarse fine => Sys2Proof.Machine.execTinEdge ch falling coarse fine s
  | .tdcGateEnd ch => Sys2Proof.Machine.execTdcGateEnd ch s
  | .tdcIntervalOverflow ch => Sys2Proof.Machine.execTdcIntervalOverflow ch s
  | .tdcFifoDrain ch => Sys2Proof.Machine.execTdcFifoDrain ch s
  | .tdcAutoCal tempMoved => Sys2Proof.Machine.execTdcAutoCal tempMoved s
  | .tdcSelfcalPairDone lsb ofs => Sys2Proof.Machine.execTdcSelfcalPairDone lsb ofs s
  | .tdcSelfcalDone => Sys2Proof.Machine.execTdcSelfcalDone s
  | .linkBond c => Sys2Proof.Machine.execLinkBond c s
  | .linkRetrain c => Sys2Proof.Machine.execLinkRetrain c s
  | .linkAperture c => Sys2Proof.Machine.execLinkAperture c s
  | .linkReadapt c => Sys2Proof.Machine.execLinkReadapt c s
  | .linkStatus c => Sys2Proof.Machine.execLinkStatus c s
  | .linkLaneStatus c => Sys2Proof.Machine.execLinkLaneStatus c s
  | .lReset b cause => Sys2Proof.Machine.execLReset b cause s
  | .cap lane blk => Sys2Proof.Machine.execCap lane blk s
  | .capAck lane blk => Sys2Proof.Machine.execCapAck lane blk s
  | .laneMapTimeout b => Sys2Proof.Machine.execLaneMapTimeout b s
  | .step b => Sys2Proof.Machine.execStep b s
  | .stepAck lane blk => Sys2Proof.Machine.execStepAck lane blk s
  | .prbsCheckDone b found => Sys2Proof.Machine.execPrbsCheckDone b found s
  | .result lane blk => Sys2Proof.Machine.execResult lane blk s
  | .resultTimeout b => Sys2Proof.Machine.execResultTimeout b s
  | .bondUp b => Sys2Proof.Machine.execBondUp b s
  | .align lane blk => Sys2Proof.Machine.execAlign lane blk s
  | .alignMarkerSend b => Sys2Proof.Machine.execAlignMarkerSend b s
  | .width lane blk => Sys2Proof.Machine.execWidth lane blk s
  | .widthAck lane blk => Sys2Proof.Machine.execWidthAck lane blk s
  | .sleep lane blk => Sys2Proof.Machine.execSleep lane blk s
  | .retrain lane blk => Sys2Proof.Machine.execRetrain lane blk s
  | .flitReceived b flit badCodewords => Sys2Proof.Machine.execFlitReceived b flit badCodewords s
  | .ackSendDue b => Sys2Proof.Machine.execAckSendDue b s
  | .replayTimeout b => Sys2Proof.Machine.execReplayTimeout b s
  | .winRd b tag addr rlen => Sys2Proof.Machine.execWinRd b tag addr rlen s
  | .winWr b tag addr data => Sys2Proof.Machine.execWinWr b tag addr data s
  | .memRd b tag addr rlen => Sys2Proof.Machine.execMemRd b tag addr rlen s
  | .memWr b addr data => Sys2Proof.Machine.execMemWr b addr data s
  | .whistle b m v => Sys2Proof.Machine.execWhistle b m v s
  | .credit b incs => Sys2Proof.Machine.execCredit b incs s
  | .memRdCompletion b tag status data => Sys2Proof.Machine.execMemRdCompletion b tag status data s
  | .cplTimeout b tag => Sys2Proof.Machine.execCplTimeout b tag s
  | .creditReturnDue b => Sys2Proof.Machine.execCreditReturnDue b s
  | .fomCheck lane fom => Sys2Proof.Machine.execFomCheck lane fom s
  | .readaptTimer lane => Sys2Proof.Machine.execReadaptTimer lane s
  | .laneReadaptDone lane errors fom => Sys2Proof.Machine.execLaneReadaptDone lane errors fom s
  | .idleSleep b => Sys2Proof.Machine.execIdleSleep b s
  | .transmitterWake b => Sys2Proof.Machine.execTransmitterWake b s
  | .dacConfigure c => Sys2Proof.Machine.execDacConfigure c s
  | .dacWrite c => Sys2Proof.Machine.execDacWrite c s
  | .dacStrobe c => Sys2Proof.Machine.execDacStrobe c s
  | .dacSchedule c => Sys2Proof.Machine.execDacSchedule c s
  | .dacSetClear c => Sys2Proof.Machine.execDacSetClear c s
  | .dacRelease c => Sys2Proof.Machine.execDacRelease c s
  | .dacStatus c => Sys2Proof.Machine.execDacStatus c s
  | .loadGFall g lowNs => Sys2Proof.Machine.execLoadGFall g lowNs s
  | .dacClrNChange low => Sys2Proof.Machine.execDacClrNChange low s
  | .dacUpdateTick => Sys2Proof.Machine.execDacUpdateTick s
  | .leashStep ch => Sys2Proof.Machine.execLeashStep ch s
  | .dacClampEnd ch => Sys2Proof.Machine.execDacClampEnd ch s
  | .dacReferenceFault out => Sys2Proof.Machine.execDacReferenceFault out s
  | .dacOvercurrent ch current => Sys2Proof.Machine.execDacOvercurrent ch current s
  | .dacHeadroom ch mv => Sys2Proof.Machine.execDacHeadroom ch mv s
  | .dacPowerUp => Sys2Proof.Machine.execDacPowerUp s
  | .hkadcConfigure c => Sys2Proof.Machine.execHkadcConfigure c s
  | .hkadcLoadSeq c => Sys2Proof.Machine.execHkadcLoadSeq c s
  | .hkadcStart c => Sys2Proof.Machine.execHkadcStart c s
  | .hkadcStop c => Sys2Proof.Machine.execHkadcStop c s
  | .hkadcRead c => Sys2Proof.Machine.execHkadcRead c s
  | .hkadcStatus c => Sys2Proof.Machine.execHkadcStatus c s
  | .hkConversion modB data => Sys2Proof.Machine.execHkConversion modB data s
  | .hkSystemWindow readings => Sys2Proof.Machine.execHkSystemWindow readings s
  | .hkFifoDrain => Sys2Proof.Machine.execHkFifoDrain s
  | .thermConfigure c => Sys2Proof.Machine.execThermConfigure c s
  | .thermStart c => Sys2Proof.Machine.execThermStart c s
  | .thermStop c => Sys2Proof.Machine.execThermStop c s
  | .thermSetpoint c => Sys2Proof.Machine.execThermSetpoint c s
  | .thermStatus c => Sys2Proof.Machine.execThermStatus c s
  | .thermTick l => Sys2Proof.Machine.execThermTick l s
  | .secAttest c => Sys2Proof.Machine.execSecAttest c s
  | .secCert c => Sys2Proof.Machine.execSecCert c s
  | .secUpdate c => Sys2Proof.Machine.execSecUpdate c s
  | .secRollbackCommit c => Sys2Proof.Machine.execSecRollbackCommit c s
  | .secKeyEnrolOwner c => Sys2Proof.Machine.execSecKeyEnrolOwner c s
  | .secKeyRevokeVendor c => Sys2Proof.Machine.execSecKeyRevokeVendor c s
  | .secKeySetOwnerEnforce c => Sys2Proof.Machine.execSecKeySetOwnerEnforce c s
  | .secKeyRevokeOwner c => Sys2Proof.Machine.execSecKeyRevokeOwner c s
  | .secDebugChallenge c => Sys2Proof.Machine.execSecDebugChallenge c s
  | .secDebugUnlockToken c => Sys2Proof.Machine.execSecDebugUnlockToken c s
  | .secDebugRelock c => Sys2Proof.Machine.execSecDebugRelock c s
  | .debugChallengeExpire => Sys2Proof.Machine.execDebugChallengeExpire s
  | .secStatus c => Sys2Proof.Machine.execSecStatus c s
  | .boxStatus c => Sys2Proof.Machine.execBoxStatus c s
  | .boxRead c => Sys2Proof.Machine.execBoxRead c s
  | .boxExport c => Sys2Proof.Machine.execBoxExport c s
  | .boxSignPart0 c => Sys2Proof.Machine.execBoxSignPart0 c s
  | .boxSignPart1 c => Sys2Proof.Machine.execBoxSignPart1 c s
  | .boxNote c => Sys2Proof.Machine.execBoxNote c s
  | .boxEntryWrite => Sys2Proof.Machine.execBoxEntryWrite s
  | .maintConfigure c => Sys2Proof.Machine.execMaintConfigure c s
  | .maintStatus c => Sys2Proof.Machine.execMaintStatus c s
  | .maintCancel c => Sys2Proof.Machine.execMaintCancel c s
  | .maintTick => Sys2Proof.Machine.execMaintTick s
  | .maintOverrun ticket => Sys2Proof.Machine.execMaintOverrun ticket s
  | .laneLockLost lane => Sys2Proof.Machine.execLaneLockLost lane s
  | .receiverAdapted b => Sys2Proof.Machine.execReceiverAdapted b s
  | .secUpdateDone => Sys2Proof.Machine.execSecUpdateDone s
  | .boxSigningDone => Sys2Proof.Machine.execBoxSigningDone s
  | .auxReply r => Sys2Proof.Machine.execAuxReply r s
  | .fetchBondDownTimeout ch => Sys2Proof.Machine.execFetchBondDownTimeout ch s
  | .hkIntervalFrameClose unit => Sys2Proof.Machine.execHkIntervalFrameClose unit s
  | .synthAlignApply d => Sys2Proof.Machine.execSynthAlignApply d s

end Sys2Proof.Machine
end

