-- ==== Sys2Proof/Machine/Step.lean ====
section
/-! DEFINITION. One step: the command at the front of the queue, or one reference cycle when the queue is empty. -/
set_option Elab.async false
namespace Sys2Proof.Machine
open Sys2Proof

/-- Take the command at the front; on an empty queue one cycle of the 10 ns reference passes (DESIGN CHOICE log 1). -/
def step (s : State) : Host.Outcome State Fault Refusal :=
  match s.pending with
  | [] => .next (clockTick s)
  | i :: q => exec i { s with pending := q }

/-- The state with the command that a word spells at the front of its queue. -/
def State.withFetchWord (s : State) (nbits w : Nat) : State :=
  match decodeTableWord nbits w with
  | some i => { s with pending := i :: s.pending }
  | none => s

end Sys2Proof.Machine
end

