-- ==== Sys2Proof/Machine/LineCode.lean ====
section
/-! DEFINITION. What the lanes of a bond carry on the line (R469 to R471, R480): blocks, characters and headers, the scrambler, 8b/10b, PAM4, and the Reed–Solomon code. -/
set_option Elab.async false
namespace Sys2Proof.Machine
open Sys2Proof

/-- A block of a lane (R470): data, or the 14 bytes of a control block (R473). -/
inductive LinkBlock where
  | data (b : Bytes)
  | control (b : Bytes)
deriving DecidableEq, Repr, Inhabited

/-- A character of rate 0. -/
inductive Char8 where
  | d (b : Byte)
  | k (b : Byte)
deriving DecidableEq, Repr, Inhabited

/-- Data bytes of a data block (R470). -/
def dataLen (rate : Nat) : Nat := if rate = 0 then 16 else if rate = 1 then 8 else 32

/-- The data blocks that a 32-byte chunk fills (R480). -/
def chunkBlocks (rate : Nat) (c : Bytes) : List LinkBlock :=
  (List.range (32 / dataLen rate)).map fun i => .data (bytesAt c (i * dataLen rate) (dataLen rate))

/-- The logical lane that carries chunk k of a bond of width W (R480). -/
def chunkLane (k w : Nat) : Nat := k % w

/-- The chunks that a logical lane carries of a flit stream whose first chunk is number `k0` (R480). -/
def laneChunks (w lane k0 : Nat) (stream : Bytes) : List Bytes :=
  ((List.range (stream.length / 32)).filter fun i => chunkLane (k0 + i) w == lane).map fun i => bytesAt stream (32 * i) 32

/-- Rate 0: sixteen characters; a control block stands between K28.5 and K28.0 (R470). -/
def chars0 : LinkBlock → List Char8
  | .data b => (padTo 16 b).map .d
  | .control b => .k 0xBC :: (padTo 14 b).map .d ++ [.k 0x1C]

/-- Rate 1: blocks of a sync header, first bit first, and eight bytes (R470). -/
def blocks1 : LinkBlock → List ((Bool × Bool) × Bytes)
  | .data b => [((false, true), padTo 8 b)]
  | .control b => let c := padTo 14 b; [((true, false), 0xC3 :: c.take 7), ((true, false), 0xC5 :: c.drop 7)]

/-- Rates 2 and 3: a header bit and 32 bytes (R470). -/
def block2 : LinkBlock → Bool × Bytes
  | .data b => (true, padTo 32 b)
  | .control b => (false, 0xC3 :: padTo 14 b ++ le 17 0)

/-- The block that characters of rate 0 are; none for others. -/
def readChars (l : List Char8) : Option LinkBlock :=
  let bytes := fun (l : List Char8) => l.filterMap fun c => match c with | .d b => some b | .k _ => none
  if l.length != 16 then none
  else if l.head? == some (.k 0xBC) && l.getLast? == some (.k 0x1C) && (bytes l).length == 14 then some (.control (bytes l))
  else if (bytes l).length == 16 then some (.data (bytes l)) else none

/-- The block that blocks of rate 1 are. -/
def readBlocks1 : List ((Bool × Bool) × Bytes) → Option LinkBlock
  | [((false, true), b)] => if b.length == 8 then some (.data b) else none
  | [((true, false), x :: a), ((true, false), y :: b)] => if x == 0xC3 && y == 0xC5 && a.length == 7 && b.length == 7 then some (.control (a ++ b)) else none
  | _ => none

/-- The block that a block of rates 2 and 3 is. -/
def readBlock2 (x : Bool × Bytes) : Option LinkBlock :=
  if x.2.length != 32 then none
  else if x.1 then some (.data x.2)
  else if x.2.head? == some 0xC3 && (x.2.drop 15).all (· == 0) then some (.control ((x.2.drop 1).take 14)) else none

/-- Bits of bytes, least significant first (PRESUMED from IEEE 802.3, log 71). -/
def bitsOf (b : Bytes) : List Bool := b.flatMap fun x => (List.range 8).map fun i => x.getLsbD i

/-- One bit through the scrambler x^58 + x^39 + 1 (R470): the state holds the last 58 bits sent, the newest in bit 0. -/
def scramble1 (st : BitVec 58) (d : Bool) : BitVec 58 × Bool :=
  let o := d ^^ st.getLsbD 38 ^^ st.getLsbD 57
  (st.concat o |>.setWidth 58, o)

/-- Bits through the scrambler. -/
def scramble : BitVec 58 → List Bool → BitVec 58 × List Bool
  | st, [] => (st, [])
  | st, d :: ds => match scramble1 st d with
    | (st, o) => match scramble st ds with
      | (st, os) => (st, o :: os)

/-- Bits through the descrambler, whose state holds the last 58 bits received. -/
def descramble : BitVec 58 → List Bool → BitVec 58 × List Bool
  | st, [] => (st, [])
  | st, r :: rs => match descramble (st.concat r |>.setWidth 58) rs with
    | (st', os) => (st', (r ^^ st.getLsbD 38 ^^ st.getLsbD 57) :: os)

/-- A block at rates 1 to 3: header bits as they are, payload scrambled (R470). -/
def lineBits (rate : Nat) (st : BitVec 58) (b : LinkBlock) : BitVec 58 × List Bool :=
  if rate = 1 then (blocks1 b).foldl (fun a x => match scramble a.1 (bitsOf x.2) with | (st, l) => (st, a.2 ++ [x.1.1, x.1.2] ++ l)) (st, [])
  else match scramble st (bitsOf (block2 b).2) with | (st, l) => (st, (block2 b).1 :: l)

/-- PAM4 levels of bits, in pairs: 00, 01, 11, 10 are 0, 1, 2, 3 (R470). -/
def pam4 : List Bool → List Nat
  | a :: b :: l => (if a then (if b then 2 else 3) else if b then 1 else 0) :: pam4 l
  | _ => []

/-- Bits of PAM4 levels. -/
def unpam4 (l : List Nat) : List Bool := l.flatMap fun x => [decide (2 ≤ x), x == 1 || x == 2]

/-! ### 8b/10b (R469, PRESUMED from IEEE 802.3 Clause 36, log 71) -/

/-- 5b/6b codes of D.x for a negative running disparity, bits a to i from the left. -/
def code6 : List Nat :=
  [0b100111, 0b011101, 0b101101, 0b110001, 0b110101, 0b101001, 0b011001, 0b111000, 0b111001, 0b100101, 0b010101, 0b110100, 0b001101, 0b101100, 0b011100, 0b010111,
   0b011011, 0b100011, 0b010011, 0b110010, 0b001011, 0b101010, 0b011010, 0b111010, 0b110011, 0b100110, 0b010110, 0b110110, 0b001110, 0b101110, 0b011110, 0b101011]

/-- 3b/4b codes of D.x.y and of K28.y for a negative running disparity, bits f to j from the left. -/
def code4 : List Nat := [0b1011, 0b1001, 0b0101, 0b1100, 0b1101, 0b1010, 0b0110, 0b1110]
def code4k : List Nat := [0b0100, 0b1001, 0b0101, 0b0011, 0b0010, 0b1010, 0b0110, 0b1000]

/-- Ones of a code of n bits. -/
def onesOf (n x : Nat) : Nat := ((List.range n).filter fun i => x.testBit i).length

/-- A sub-code at a running disparity (true: positive), and the disparity after it: the complement follows where the code is unbalanced, or is
one of the two balanced codes that alternate. -/
def subCode (n x : Nat) (flip rd : Bool) : Nat × Bool :=
  let bal := 2 * onesOf n x == n
  ((if rd && (!bal || flip) then 2 ^ n - 1 - x else x), if bal then rd else !rd)

/-- One character at a running disparity, as ten bits from the first sent, and the disparity after it. -/
def code10 (rd : Bool) (c : Char8) : Nat × Bool :=
  let b := match c with | .d b => b.toNat | .k b => b.toNat
  let (x, y) := (b % 32, b / 32)
  match c with
  | .d _ =>
    let (h, r) := subCode 6 (code6.getD x 0) (x == 7) rd
    let alt := y = 7 && ((!r && (x == 17 || x == 18 || x == 20)) || (r && (x == 11 || x == 13 || x == 14)))
    let (l, r') := subCode 4 (if alt then 0b0111 else code4.getD y 0) (y == 3) r
    (h * 16 + l, r')
  | .k _ =>
    let (h, r) := subCode 6 0b001111 true rd
    -- the 3b/4b codes of K28 are listed for a positive disparity after K28's six bits at a negative one
    let x := code4k.getD y 0
    let l := if rd then 15 - x else x
    (h * 16 + l, if 2 * onesOf 4 l == 4 then r else !r)

/-- Ten-bit codes of characters. -/
def codes10 : Bool → List Char8 → List Nat
  | _, [] => []
  | rd, c :: cs => match code10 rd c with | (x, rd) => x :: codes10 rd cs

/-! ### Forward error correction (R471) -/

/-- Product in GF(2^10), over x^10 + x^3 + 1 (PRESUMED from IEEE 802.3 Clause 91, log 71). -/
def gfMul (a b : Nat) : Nat :=
  (List.range 10).foldl (fun (p : Nat × Nat) i =>
    (if b.testBit i then p.1 ^^^ p.2 else p.1, if p.2.testBit 9 then (2 * p.2) ^^^ 0x409 else 2 * p.2)) (0, a) |>.1

/-- Generator polynomial with n roots α^0 to α^(n−1), highest coefficient first, its leading 1 left out. -/
def rsGen (n : Nat) : List Nat :=
  let step := fun (p : List Nat × Nat) (_ : Nat) =>
    (((p.1 ++ [0]).zip (0 :: p.1.map fun c => gfMul c p.2)).map fun (x : Nat × Nat) => x.1 ^^^ x.2, gfMul p.2 2)
  ((List.range n).foldl step ([1], 1)).1.drop 1

/-- Parity symbols of a message: the remainder by the generator. -/
def rsParity (n : Nat) (msg : List Nat) : List Nat :=
  let g := rsGen n
  msg.foldl (fun r m =>
    let f := m ^^^ r.headD 0
    ((r.drop 1 ++ [0]).zip g).map fun (x : Nat × Nat) => x.1 ^^^ gfMul f x.2) (List.replicate n 0)

/-- Parity symbols of a codeword: RS(528,514) at rate 2, RS(544,514) at rate 3 (R469). -/
def fecParity (rate : Nat) : Nat := if rate = 2 then 14 else if rate = 3 then 30 else 0

/-- Ten-bit symbols of bits, the first bit least significant. -/
def symbols10 (l : List Bool) : List Nat :=
  (List.range (l.length / 10)).map fun i => ((List.range 10).map fun j => b2n (l.getD (10 * i + j) false) * 2 ^ j).sum

/-- A codeword of twenty blocks: 514 symbols and their parity (R471). -/
def codeword (rate : Nat) (bits : List Bool) : List Nat := let m := symbols10 bits; m ++ rsParity (fecParity rate) m

/-! ### The line -/

/-- What a lane sends for blocks: ten-bit codes at rate 0, bits at rate 1, codewords as bits at rate 2 and as PAM4 levels at rate 3. Blocks
beyond the last whole codeword wait. -/
def laneLine (rate : Nat) (rd : Bool) (st : BitVec 58) (bs : List LinkBlock) : List Nat :=
  if rate = 0 then codes10 rd (bs.flatMap chars0)
  else
    let bits := (bs.foldl (fun a b => match lineBits rate a.1 b with | (st, l) => (st, a.2 ++ l)) (st, [])).2
    if rate = 1 then bits.map b2n
    else
      let words := (List.range (bits.length / 5140)).flatMap fun i => codeword rate ((bits.drop (5140 * i)).take 5140)
      let out := words.flatMap fun x => (List.range 10).map fun j => x.testBit j
      if rate = 2 then out.map b2n else pam4 out

/-- The control blocks that a bond last gave a lane, as the lane sends them. -/
def controlLine (s : State) (b lane : Nat) (rd : Bool) (st : BitVec 58) : List Nat :=
  laneLine (vget s.link.bond b).rate rd st (((vget s.link.bond b).ctlOut.filter fun x => x.1 == lane).map fun x => .control x.2)

end Sys2Proof.Machine
end

