-- ==== Sys2Proof/WellFormed.lean ====
section
/-! DEFINITION. Which commands the outside world can form: lengths and ranges of the operands that a plain type does not bound. -/
set_option Elab.async false
namespace Sys2Proof

/-- A verb's arguments fill at most an extended payload from a mailbox (R452), or the argument words of a junction bank (R440). -/
def Cmd.wf (c : Cmd) : Bool :=
  match c.path with
  | .mailbox _ => decide (c.args.length ≤ 4096)
  | .junction _ => decide (c.args.length ≤ 48)

/-- A code of a 12-bit converter (R58). -/
def codeOk (n : Int) : Bool := decide (-2048 ≤ n) && decide (n ≤ 2047)

/-- A reading in millivolts fits its 16-bit field (R544). -/
def mvOk (n : Nat) : Bool := decide (n < 65536)

/-- A device address has 48 bits (R305). -/
def addrOk (a : Addr) : Bool := decide (a < 2 ^ 48)

/-- A ring identifier has 20 bits (R336). -/
def ringOk (r : Nat) : Bool := decide (r < 2 ^ 20)

/-- A control block has 14 bytes, its CRC among them (R473). -/
def blockOk (b : Bytes) : Bool := decide (b.length = 14)

/-- Cycles until coincidence of an edge measurement (R421). -/
def fineOk (n : Nat) : Bool := decide (n ≤ 1667)

/-- Estimates of one slice in 1/256 of the trims' steps, within their ranges (R88, R94, R95). -/
def sliceErrOk (e : SliceErr) : Bool :=
  decide (e.offset.natAbs < 2 ^ 23) && decide (e.gain.natAbs < 2 ^ 23) && decide (e.delay.natAbs < 2 ^ 19) && decide (e.bw.natAbs < 2 ^ 23)

/-- Well-formed commands: a flit has 256 bytes (R480), a block 512 converter codes with the 31 that follow (R65, R70), a
side-port block at most 32 bytes (R464), a transaction at most 4,096 (R485). -/
def Instr.wf : Instr → Bool
  | .vinAuxRise _ mv => mvOk mv
  | .pReset mv => mvOk mv
  | .mgmtFwVerified => true
  | .mainRailsUp _ => true
  | .kennelBoot => true
  | .storeTrained _ => true
  | .convertersCal _ _ => true
  | .bringupReady => true
  | .stageTimeout _ => true
  | .linkImagePoll => true
  | .linkImageTimeout => true
  | .devResetBegin => true
  | .resetNLow => true
  | .resetNRise => true
  | .mainOffElapsed => true
  | .supplySample a b => mvOk a && mvOk b
  | .supplyRecover _ => true
  | .vinMainReturn => true
  | .railOut _ mv => mvOk mv
  | .railOutRemove _ => true
  | .thermalRead _ => true
  | .thermalCooled => true
  | .kennelReport => true
  | .kennelHang => true
  | .pwrCycleMain c => c.wf
  | .pwrSetStateActive c => c.wf
  | .pwrSetStateQuiet c => c.wf
  | .pwrSetStateStandby c => c.wf
  | .powerTransitionDone => true
  | .pwrConfigure c => c.wf
  | .pwrStatus c => c.wf
  | .mjGo _ => true
  | .junctionServe => true
  | .devResetWrite _ _ => true
  | .whistleWrite _ _ => true
  | .boxDataLastWordRead _ => true
  | .windowLatchRead _ _ => true
  | .registerWrite _ _ _ => true
  | .smbusWriteWord _ _ => true
  | .smbusBlockRead n => decide (n ≤ 32)
  | .smbusBlockWrite d _ => decide (d.length ≤ 32)
  | .mailboxTakeCommand => true
  | .interimResponseDue _ _ => true
  | .unitReinit c => c.wf
  | .unitState c => c.wf
  | .unitList c => c.wf
  | .devReset c => c.wf
  | .devEventRoute c => c.wf
  | .devConfigure c => c.wf
  | .devStatus c => c.wf
  | .packCreate c => c.wf
  | .packAdd c => c.wf
  | .packRemove c => c.wf
  | .packDissolve c => c.wf
  | .packList c => c.wf
  | .packStatus c => c.wf
  | .packSelftest c => c.wf
  | .selftestDone _ _ _ => true
  | .poolSelftestTimer => true
  | .declareEngineDead _ => true
  | .promoteSpare _ => true
  | .issueWorkItem _ => true
  | .workItemComplete _ _ => true
  | .engineStoreWrite _ _ n _ a _ => decide (n < 256) && addrOk a
  | .rateLockUpdate _ => true
  | .vFabRaiseDone => true
  | .inputConfigure c => c.wf
  | .inputSetAtten c => c.wf
  | .inputArrange c => c.wf
  | .inputStatus c => c.wf
  | .attenApply _ => true
  | .settleSpanEnd _ => true
  | .streamSwitch _ _ => true
  | .ingestBlock _ codes ahead => decide (codes.length = 512) && decide (ahead.length = 31) && codes.all codeOk && ahead.all codeOk
  | .overloadExit _ => true
  | .skidDrain _ => true
  | .calConfigure c => c.wf
  | .calForeground c => c.wf
  | .calStatus c => c.wf
  | .calReadTrims c => c.wf
  | .calUpdatePeriodEnd _ _ => true
  | .foregroundStart _ => true
  | .foregroundIteration _ errs => (decide (errs.length = 64) || decide (errs.length = 128)) && errs.all sliceErrOk
  | .foregroundEnd _ => true
  | .ddcConfigure c => c.wf
  | .ddcTune c => c.wf
  | .ddcSetThreshold c => c.wf
  | .ddcSync c => c.wf
  | .ddcEngine c => c.wf
  | .ddcQuery c => c.wf
  | .ddcStatus c => c.wf
  | .ddcRetuneApply _ => true
  | .ddcRestart _ => true
  | .syncReset _ => true
  | .ddcThreshAverage _ => true
  | .chanCreate c => c.wf
  | .chanBundle c => c.wf
  | .chanUnbundle c => c.wf
  | .chanStart c => c.wf
  | .chanStop c => c.wf
  | .chanDelete c => c.wf
  | .chanStatus c => c.wf
  | .bundleTakeEffect _ _ => true
  | .chanFrameClose _ _ => true
  | .xformCreate c => c.wf
  | .xformLoadWindow c => c.wf
  | .xformStart c => c.wf
  | .xformStop c => c.wf
  | .xformDelete c => c.wf
  | .xformQuery c => c.wf
  | .xformStatus c => c.wf
  | .stopComplete _ n => decide (n < 65536)
  | .trigDefine c => c.wf
  | .trigLoadMask c => c.wf
  | .trigArm c => c.wf
  | .trigDisarm c => c.wf
  | .trigForce c => c.wf
  | .trigSignal c => c.wf
  | .trigDelete c => c.wf
  | .trigStatus c => c.wf
  | .triggerElement _ _ _ => true
  | .timerDue _ _ _ => true
  | .seqWindowExpire _ _ => true
  | .holdoffEnd _ _ => true
  | .spanComplete _ n => decide (n < 4)
  | .pinCopyComplete _ n => decide (n < 4)
  | .recRingPolicy c => c.wf
  | .recRelease c => c.wf
  | .recEnvelope c => c.wf
  | .recEnvStop c => c.wf
  | .recStatus c => c.wf
  | .envFrameClose _ => true
  | .measDefine c => c.wf
  | .measRun c => c.wf
  | .measStatus c => c.wf
  | .measComplete _ => true
  | .densConfigure c => c.wf
  | .densLoadColours c => c.wf
  | .densStart c => c.wf
  | .densStop c => c.wf
  | .densClear c => c.wf
  | .densStatus c => c.wf
  | .densFrameComplete _ => true
  | .occConfigure c => c.wf
  | .occChannel c => c.wf
  | .occStart c => c.wf
  | .occStop c => c.wf
  | .occStatus c => c.wf
  | .occSlotComplete _ => true
  | .dispTiming c => c.wf
  | .dispLayer c => c.wf
  | .dispCommit c => c.wf
  | .dispEnable c => c.wf
  | .dispAux c => c.wf
  | .dispStatus c => c.wf
  | .auxReplyTimeout => true
  | .hpdInFall => true
  | .hpdUnplug => true
  | .hpdInRise => true
  | .dpTrainStep _ _ => true
  | .verticalBlank => true
  | .frameStart => true
  | .layerUnderrun _ _ => true
  | .storeConfigure c => c.wf
  | .storeSetRate c => c.wf
  | .storeRateChangeDone _ _ => true
  | .storePort c => c.wf
  | .storeRetrain c => c.wf
  | .storeRetrainDone _ _ => true
  | .storeStatus c => c.wf
  | .storePortStatus c => c.wf
  | .storeAccessIssue _ _ _ => true
  | .perBankRefresh _ => true
  | .stackTempRead _ _ => true
  | .retrainPause _ => true
  | .scrubRead _ _ => true
  | .storeWake => true
  | .storeDoze => true
  | .bankHandover c => c.wf
  | .handoverDrainDone _ => true
  | .bankPower c => c.wf
  | .bankFill c => c.wf
  | .bankFillDone _ => true
  | .bankStatus c => c.wf
  | .bankAccess _ _ _ => true
  | .fetchStart c => c.wf
  | .fetchConfigure c => c.wf
  | .fetchAbort c => c.wf
  | .fetchClearAbandon c => c.wf
  | .fetchClearRetry c => c.wf
  | .fetchStatus c => c.wf
  | .fetchBeat => true
  | .ringCreate c => c.wf
  | .ringDelete c => c.wf
  | .ringModify c => c.wf
  | .ringConsume c => c.wf
  | .ringStatus c => c.wf
  | .ringPublish r _ => ringOk r
  | .streamStart c => c.wf
  | .streamStop c => c.wf
  | .streamStatus c => c.wf
  | .streamSendPacket r => ringOk r
  | .synthSetRate c => c.wf
  | .scsRateChangeDone _ => true
  | .synthConfigure c => c.wf
  | .synthAlign c => c.wf
  | .synthSpread c => c.wf
  | .synthAxsSet c => c.wf
  | .synthAxsStore c => c.wf
  | .synthAxsHop c => c.wf
  | .synthAxsRampLoad c => c.wf
  | .synthAxsRampRun c => c.wf
  | .synthReference c => c.wf
  | .synthStatus c => c.wf
  | .axsSearchDone _ => true
  | .axsHopApply => true
  | .axsRampStep => true
  | .axsRetuneApply => true
  | .refinLost => true
  | .refinQualified _ => true
  | .refinQualifyFail => true
  | .realignDone => true
  | .loopLockChange _ _ => true
  | .loopAcquireRetry _ => true
  | .synthFault _ => true
  | .scsMarker _ _ n => fineOk n
  | .syncInEdge _ => true
  | .timeConfigure c => c.wf
  | .timeSet c => c.wf
  | .timeAdjust c => c.wf
  | .timeRead c => c.wf
  | .timeStatus c => c.wf
  | .timeSetTimeout => true
  | .ptpMessage _ => true
  | .ptpDelayReqSend _ => true
  | .ptpSourceTimeout => true
  | .l1SyncChange _ => true
  | .ppsInEdge _ n => fineOk n
  | .ppsInMissing => true
  | .ppsOutPulse => true
  | .holdoverExpired => true
  | .ethConfigure c => c.wf
  | .ethVitaCreate c => c.wf
  | .ethVitaDelete c => c.wf
  | .ethStatus c => c.wf
  | .ethFrameReceived _ _ => true
  | .ethLinkChange _ _ => true
  | .vitaSend _ => true
  | .vitaContext _ => true
  | .tdcConfigure c => c.wf
  | .tdcArm c => c.wf
  | .tdcDisarm c => c.wf
  | .tdcRead c => c.wf
  | .tdcSelfcal c => c.wf
  | .tdcStatus c => c.wf
  | .tdcArmTime _ => true
  | .tinEdge _ _ _ n => fineOk n
  | .tdcGateEnd _ => true
  | .tdcIntervalOverflow _ => true
  | .tdcFifoDrain _ => true
  | .tdcAutoCal _ => true
  | .tdcSelfcalPairDone _ _ => true
  | .tdcSelfcalDone => true
  | .linkBond c => c.wf
  | .linkRetrain c => c.wf
  | .linkAperture c => c.wf
  | .linkReadapt c => c.wf
  | .linkStatus c => c.wf
  | .linkLaneStatus c => c.wf
  | .lReset _ _ => true
  | .cap _ b => blockOk b
  | .capAck _ b => blockOk b
  | .laneMapTimeout _ => true
  | .step _ => true
  | .stepAck _ b => blockOk b
  | .prbsCheckDone _ _ => true
  | .result _ b => blockOk b
  | .resultTimeout _ => true
  | .bondUp _ => true
  | .align _ b => blockOk b
  | .alignMarkerSend _ => true
  | .width _ b => blockOk b
  | .widthAck _ b => blockOk b
  | .sleep _ b => blockOk b
  | .retrain _ b => blockOk b
  | .flitReceived _ f _ => decide (f.length = 256)
  | .ackSendDue _ => true
  | .replayTimeout _ => true
  | .winRd _ _ _ n => decide (n ≤ 4096)
  | .winWr _ _ _ d => decide (d.length ≤ 4096)
  | .memRd _ _ _ n => decide (n ≤ 4096)
  | .memWr _ _ d => decide (d.length ≤ 4096)
  | .whistle _ _ _ => true
  | .credit _ _ => true
  | .memRdCompletion _ _ st d => decide (st < 16) && decide (d.length ≤ 4096)
  | .cplTimeout _ _ => true
  | .creditReturnDue _ => true
  | .fomCheck _ _ => true
  | .readaptTimer _ => true
  | .laneReadaptDone _ _ f => decide (f < 256)
  | .idleSleep _ => true
  | .transmitterWake _ => true
  | .dacConfigure c => c.wf
  | .dacWrite c => c.wf
  | .dacStrobe c => c.wf
  | .dacSchedule c => c.wf
  | .dacSetClear c => c.wf
  | .dacRelease c => c.wf
  | .dacStatus c => c.wf
  | .loadGFall _ _ => true
  | .dacClrNChange _ => true
  | .dacUpdateTick => true
  | .leashStep _ => true
  | .dacClampEnd _ => true
  | .dacReferenceFault _ => true
  | .dacOvercurrent _ _ => true
  | .dacHeadroom _ _ => true
  | .dacPowerUp => true
  | .hkadcConfigure c => c.wf
  | .hkadcLoadSeq c => c.wf
  | .hkadcStart c => c.wf
  | .hkadcStop c => c.wf
  | .hkadcRead c => c.wf
  | .hkadcStatus c => c.wf
  | .hkConversion _ _ => true
  | .hkSystemWindow r => r.toList.all mvOk
  | .hkFifoDrain => true
  | .thermConfigure c => c.wf
  | .thermStart c => c.wf
  | .thermStop c => c.wf
  | .thermSetpoint c => c.wf
  | .thermStatus c => c.wf
  | .thermTick _ => true
  | .secAttest c => c.wf
  | .secCert c => c.wf
  | .secUpdate c => c.wf
  | .secRollbackCommit c => c.wf
  | .secKeyEnrolOwner c => c.wf
  | .secKeyRevokeVendor c => c.wf
  | .secKeySetOwnerEnforce c => c.wf
  | .secKeyRevokeOwner c => c.wf
  | .secDebugChallenge c => c.wf
  | .secDebugUnlockToken c => c.wf
  | .secDebugRelock c => c.wf
  | .debugChallengeExpire => true
  | .secStatus c => c.wf
  | .boxStatus c => c.wf
  | .boxRead c => c.wf
  | .boxExport c => c.wf
  | .boxSignPart0 c => c.wf
  | .boxSignPart1 c => c.wf
  | .boxNote c => c.wf
  | .boxEntryWrite => true
  | .maintConfigure c => c.wf
  | .maintStatus c => c.wf
  | .maintCancel c => c.wf
  | .maintTick => true
  | .maintOverrun t => decide (t < 65536)
  | .laneLockLost _ => true
  | .receiverAdapted _ => true
  | .secUpdateDone => true
  | .boxSigningDone => true
  | .auxReply _ => true
  | .fetchBondDownTimeout _ => true
  | .hkIntervalFrameClose _ => true
  | .synthAlignApply _ => true

end Sys2Proof
end

