-- ==== Sys2Proof/Safety.lean ====
section
/-! DEFINITION. The terms that claims use: what a step answers, when a verb is accepted, what publication may touch, and what a sound state is. -/
set_option Elab.async false
namespace Sys2Proof.Machine
open Sys2Proof

/-- The command completes, and P holds of the state it leaves. -/
def Does (i : Instr) (s : State) (P : State → Prop) : Prop := ∃ t, exec i s = .next t ∧ P t

/-- n steps in a row. -/
def runSteps : Nat → State → Host.Outcome State Fault Refusal
  | 0, s => .next s
  | n + 1, s => match step s with
    | .next t => runSteps n t
    | .fault r => .fault r
    | .refused r => .refused r

/-- A bond but for what it has queued, sent and not seen acknowledged. -/
def BondSt.hush (b : BondSt) : BondSt :=
  { b with txq := Vector.replicate 4 [], unacked := [], txSeq := 0, idleSince := 0, ackAdvance := 0, credits := Vector.replicate 4 0, waited := Vector.replicate 4 0 }

/-- The state but for what the delivery of an event record can touch (R339, R460, R461): rings and the memory under them, streams, the
store's access marks, transactions of the link, the event router. -/
def State.hushEv (s : State) : State :=
  { s with
    mem := [], rings := [], streams := [], vita := [], ev := {}
    store := { s.store with dozing := false, lastAccess := 0, badWords := [] }
    link := { s.link with bond := s.link.bond.map BondSt.hush } }

/-- The state but for what the answer of a command can touch besides (R440, R453, R456, R584): mailboxes, junction banks, the black box. -/
def State.hush (s : State) : State := { s.hushEv with kennel := {}, junction := {}, box := {} }

/-- The verb's command is acted on, on one unit: its path answers and is free, what it reads is at hand, neither the junction nor a
fan-out nor a replacement holds it up, the unit is there and of the verb's kind, and no condition of the refusal column holds (R29, R41,
R43, R45, R446, R458, R615). -/
abbrev Accepts (v : Verb) (c : Cmd) (s : State) : Prop :=
  (cmdOpen s c.path && (pathRefusal s v.op c.path).isNone && !awaitsHost s v.op c && !mustHold s v.op c && !mustForward s v.op c &&
  (v.whole || (expand s c.unit == [c.unit] && !isA s .pack c.unit)) &&
  (unitOf s c.unit).isSome && v.fits s c.unit && worstCond (v.checks c s) == (0, [])) = true

/-- What follows an act: the answer, or none yet. -/
def reply (c : Cmd) (op : Nat) (r : State × Option (Nat × Bytes)) : State :=
  match r.2 with
  | some a => complete c op a.1 a.2 r.1
  | none => r.1

/-- The state in which an accepted verb acts (R42, R454). -/
def begun (v : Verb) (c : Cmd) (s : State) : State := v.start c (begin_ c v.op 1 s)

/-- An accepted verb answers OK at once with a payload, and its unit then stands as f makes it. -/
def Answers (i : Instr) (v : Verb) (c : Cmd) (s : State) (res : Bytes) (f : State → State) : Prop :=
  exec i s = .next (settled s (hostPurge (srcRanges s v.op c) (complete c v.op OK res (f (begun v c s)))))

/-- An accepted verb takes effect, and its answer waits. -/
def Waits (i : Instr) (v : Verb) (c : Cmd) (s : State) (f : State → State) : Prop :=
  exec i s = .next (settled s (hostPurge (srcRanges s v.op c) (f (begun v c s))))

/-- The verb of each row that is a command of the catalogue, and the command as the verb takes it. -/
def asVerb : Instr → Option (Verb × Cmd)
  | .pwrCycleMain c => some (vPwrCycleMain, c)
  | .pwrSetStateActive c => some (vPwrSetState, withByte c 0 0)
  | .pwrSetStateQuiet c => some (vPwrSetState, withByte c 0 1)
  | .pwrSetStateStandby c => some (vPwrSetState, withByte c 0 2)
  | .pwrConfigure c => some (vPwrConfigure, c)
  | .pwrStatus c => some (vPwrStatus, c)
  | .unitReinit c => some (vUnitReinit, c)
  | .unitState c => some (vUnitState, c)
  | .unitList c => some (vUnitList, c)
  | .devReset c => some (vDevReset, c)
  | .devEventRoute c => some (vDevEventRoute, c)
  | .devConfigure c => some (vDevConfigure, c)
  | .devStatus c => some (vDevStatus, c)
  | .packCreate c => some (vPackCreate, c)
  | .packAdd c => some (vPackAdd, c)
  | .packRemove c => some (vPackRemove, c)
  | .packDissolve c => some (vPackDissolve, c)
  | .packList c => some (vPackList, c)
  | .packStatus c => some (vPackStatus, c)
  | .packSelftest c => some (vPackSelftest, c)
  | .inputConfigure c => some (vInputConfigure, c)
  | .inputSetAtten c => some (vInputSetAtten, c)
  | .inputArrange c => some (vInputArrange, c)
  | .inputStatus c => some (vInputStatus, c)
  | .calConfigure c => some (vCalConfigure, c)
  | .calForeground c => some (vCalForeground, c)
  | .calStatus c => some (vCalStatus, c)
  | .calReadTrims c => some (vCalReadTrims, c)
  | .ddcConfigure c => some (vDdcConfigure, c)
  | .ddcTune c => some (vDdcTune, c)
  | .ddcSetThreshold c => some (vDdcSetThreshold, c)
  | .ddcSync c => some (vDdcSync, c)
  | .ddcEngine c => some (vDdcEngine, c)
  | .ddcQuery c => some (vDdcQuery, c)
  | .ddcStatus c => some (vDdcStatus, c)
  | .chanCreate c => some (vChanCreate, c)
  | .chanBundle c => some (vChanBundle, c)
  | .chanUnbundle c => some (vChanUnbundle, c)
  | .chanStart c => some (vChanStart, c)
  | .chanStop c => some (vChanStop, c)
  | .chanDelete c => some (vChanDelete, c)
  | .chanStatus c => some (vChanStatus, c)
  | .xformCreate c => some (vXformCreate, c)
  | .xformLoadWindow c => some (vXformLoadWindow, c)
  | .xformStart c => some (vXformStart, c)
  | .xformStop c => some (vXformStop, c)
  | .xformDelete c => some (vXformDelete, c)
  | .xformQuery c => some (vXformQuery, c)
  | .xformStatus c => some (vXformStatus, c)
  | .trigDefine c => some (vTrigDefine, c)
  | .trigLoadMask c => some (vTrigLoadMask, c)
  | .trigArm c => some (vTrigArm, c)
  | .trigDisarm c => some (vTrigDisarm, c)
  | .trigForce c => some (vTrigForce, c)
  | .trigSignal c => some (vTrigSignal, c)
  | .trigDelete c => some (vTrigDelete, c)
  | .trigStatus c => some (vTrigStatus, c)
  | .recRingPolicy c => some (vRecRingPolicy, c)
  | .recRelease c => some (vRecRelease, c)
  | .recEnvelope c => some (vRecEnvelope, c)
  | .recEnvStop c => some (vRecEnvStop, c)
  | .recStatus c => some (vRecStatus, c)
  | .measDefine c => some (vMeasDefine, c)
  | .measRun c => some (vMeasRun, c)
  | .measStatus c => some (vMeasStatus, c)
  | .densConfigure c => some (vDensConfigure, c)
  | .densLoadColours c => some (vDensLoadColours, c)
  | .densStart c => some (vDensStart, c)
  | .densStop c => some (vDensStop, c)
  | .densClear c => some (vDensClear, c)
  | .densStatus c => some (vDensStatus, c)
  | .occConfigure c => some (vOccConfigure, c)
  | .occChannel c => some (vOccChannel, c)
  | .occStart c => some (vOccStart, c)
  | .occStop c => some (vOccStop, c)
  | .occStatus c => some (vOccStatus, c)
  | .dispTiming c => some (vDispTiming, c)
  | .dispLayer c => some (vDispLayer, c)
  | .dispCommit c => some (vDispCommit, c)
  | .dispEnable c => some (vDispEnable, c)
  | .dispAux c => some (vDispAux, c)
  | .dispStatus c => some (vDispStatus, c)
  | .storeConfigure c => some (vStoreConfigure, c)
  | .storeSetRate c => some (vStoreSetRate, c)
  | .storePort c => some (vStorePort, c)
  | .storeRetrain c => some (vStoreRetrain, c)
  | .storeStatus c => some (vStoreStatus, c)
  | .storePortStatus c => some (vStorePortStatus, c)
  | .bankHandover c => some (vBankHandover, c)
  | .bankPower c => some (vBankPower, c)
  | .bankFill c => some (vBankFill, c)
  | .bankStatus c => some (vBankStatus, c)
  | .fetchStart c => some (vFetchStart, c)
  | .fetchConfigure c => some (vFetchConfigure, c)
  | .fetchAbort c => some (vFetchAbort, c)
  | .fetchClearAbandon c => some (vFetchClear, withByte c 0 0)
  | .fetchClearRetry c => some (vFetchClear, withByte c 0 1)
  | .fetchStatus c => some (vFetchStatus, c)
  | .ringCreate c => some (vRingCreate, c)
  | .ringDelete c => some (vRingDelete, c)
  | .ringModify c => some (vRingModify, c)
  | .ringConsume c => some (vRingConsume, c)
  | .ringStatus c => some (vRingStatus, c)
  | .streamStart c => some (vStreamStart, c)
  | .streamStatus c => some (vStreamStatus, c)
  | .synthSetRate c => some (vSynthSetRate, c)
  | .synthConfigure c => some (vSynthConfigure, c)
  | .synthAlign c => some (vSynthAlign, c)
  | .synthSpread c => some (vSynthSpread, c)
  | .synthAxsSet c => some (vSynthAxsSet, c)
  | .synthAxsStore c => some (vSynthAxsStore, c)
  | .synthAxsHop c => some (vSynthAxsHop, c)
  | .synthAxsRampLoad c => some (vSynthAxsRampLoad, c)
  | .synthAxsRampRun c => some (vSynthAxsRampRun, c)
  | .synthReference c => some (vSynthReference, c)
  | .synthStatus c => some (vSynthStatus, c)
  | .timeConfigure c => some (vTimeConfigure, c)
  | .timeSet c => some (vTimeSet, c)
  | .timeAdjust c => some (vTimeAdjust, c)
  | .timeRead c => some (vTimeRead, c)
  | .timeStatus c => some (vTimeStatus, c)
  | .ethConfigure c => some (vEthConfigure, c)
  | .ethVitaCreate c => some (vEthVitaCreate, c)
  | .ethVitaDelete c => some (vEthVitaDelete, c)
  | .ethStatus c => some (vEthStatus, c)
  | .tdcConfigure c => some (vTdcConfigure, c)
  | .tdcArm c => some (vTdcArm, c)
  | .tdcDisarm c => some (vTdcDisarm, c)
  | .tdcRead c => some (vTdcRead, c)
  | .tdcSelfcal c => some (vTdcSelfcal, c)
  | .tdcStatus c => some (vTdcStatus, c)
  | .linkBond c => some (vLinkBond, c)
  | .linkRetrain c => some (vLinkRetrain, c)
  | .linkAperture c => some (vLinkAperture, c)
  | .linkReadapt c => some (vLinkReadapt, c)
  | .linkStatus c => some (vLinkStatus, c)
  | .linkLaneStatus c => some (vLinkLaneStatus, c)
  | .dacConfigure c => some (vDacConfigure, c)
  | .dacWrite c => some (vDacWrite, c)
  | .dacStrobe c => some (vDacStrobe, c)
  | .dacSchedule c => some (vDacSchedule, c)
  | .dacSetClear c => some (vDacSetClear, c)
  | .dacRelease c => some (vDacRelease, c)
  | .dacStatus c => some (vDacStatus, c)
  | .hkadcConfigure c => some (vHkConfigure, c)
  | .hkadcLoadSeq c => some (vHkLoadSeq, c)
  | .hkadcStart c => some (vHkStart, c)
  | .hkadcStop c => some (vHkStop, c)
  | .hkadcRead c => some (vHkRead, c)
  | .hkadcStatus c => some (vHkStatus, c)
  | .thermConfigure c => some (vThermConfigure, c)
  | .thermStart c => some (vThermStart, c)
  | .thermStop c => some (vThermStop, c)
  | .thermSetpoint c => some (vThermSetpoint, c)
  | .thermStatus c => some (vThermStatus, c)
  | .secAttest c => some (vSecAttest, c)
  | .secCert c => some (vSecCert, c)
  | .secUpdate c => some (vSecUpdate, c)
  | .secRollbackCommit c => some (vSecRollback, c)
  | .secDebugChallenge c => some (vDebugChallenge, withByte c 0 0)
  | .secDebugUnlockToken c => some (vDebugToken, withByte c 0 1)
  | .secDebugRelock c => some (vDebugRelock, withByte c 0 2)
  | .secStatus c => some (vSecStatus, c)
  | .boxStatus c => some (vBoxStatus, c)
  | .boxRead c => some (vBoxRead, c)
  | .boxExport c => some (vBoxExport, c)
  | .boxSignPart0 c => some (vBoxSign0, withByte c 24 0)
  | .boxSignPart1 c => some (vBoxSign1, withByte c 24 1)
  | .boxNote c => some (vBoxNote, c)
  | .maintConfigure c => some (vMaintConfigure, c)
  | .maintStatus c => some (vMaintStatus, c)
  | .maintCancel c => some (vMaintCancel, c)
  | _ => none

/-- The verb's command is served now: its path answers and is free, no other refuses it, and what it reads is at hand (R29, R441, R486, R509). -/
abbrev Served (v : Verb) (c : Cmd) (s : State) : Prop :=
  (cmdOpen s c.path && (pathRefusal s v.op c.path).isNone && !awaitsHost s v.op c && !mustHold s v.op c && !mustForward s v.op c) = true

/-- An accepted verb answers OK with a payload of n bytes and leaves all but its answer as it was. -/
def Reports (i : Instr) (v : Verb) (c : Cmd) (s : State) (n : Nat) : Prop :=
  ∃ res : Bytes, res.length = n ∧ Answers i v c s res id

/-- A state is sound: its memory is in canonical form and its STAGE is a code of R504. -/
def Sound (s : State) : Bool := Memory.wf s.mem && [0, 1, 2, 3, 4, 5, 6, 7, 8, 14, 15].contains (stage s)

end Sys2Proof.Machine
end

