-- ==== Sys2Proof/Certificates/Slice0/Obligations.lean ====
section
/-! DEFINITION. The statements about the model, one definition each. -/
set_option Elab.async false
open Sys2Proof Sys2Proof.Machine

/-- A step takes the command at the front of the queue and answers what exec answers on the rest (spec/95_what_each_step_holds.md). -/
def Obligations.StepServesFront : Prop :=
  ∀ (c : Instr) (q : List Instr) (s : State), s.pending = c :: q → step s = exec c { s with pending := q }

/-- n idle steps (R395, R417): the adjustment asked for goes into the counter at MAX_SLEW_PPM, none of it is lost, and it is gone after
as many cycles as it needs (the idle step is the model's choice, log 1). -/
def Obligations.AdjustmentIsSlewedOut : Prop :=
  (∀ s : State, s.pending = [] → ∃ t, step s = .next t ∧ t.cyc = s.cyc + 1 ∧
    s.time.counter + nominalInc ≤ t.time.counter + ppm 500 ∧ t.time.counter ≤ s.time.counter + nominalInc + ppm 500) ∧
  ∀ (n : Nat) (s : State), s.pending = [] → s.time.increment + ppm (tMaxSlew s) ≤ nominalInc + ppm 500 → nominalInc + ppm (tMaxSlew s) ≤ s.time.increment + ppm 500 →
    ∃ t, runSteps n s = .next t ∧ t.cyc = s.cyc + n ∧
      (t.time.counter : Int) = s.time.counter + n * s.time.increment + (s.time.adjust - t.time.adjust) ∧
      t.time.adjust.natAbs = s.time.adjust.natAbs - n * ppm (tMaxSlew s) ∧
      (s.time.adjust.natAbs ≤ n * ppm (tMaxSlew s) → t.time.adjust = 0) ∧
      t = { s with cyc := t.cyc, time := { s.time with counter := t.time.counter, adjust := t.time.adjust } }

/-- State.reset holds the reset values of the window, the event router and the units (R10, R436, R440, R460, R461, R512, R612). -/
def Obligations.ResetState : Prop :=
  stage State.reset = 0 ∧ State.reset.boot.mainOn = false ∧ State.reset.boot.causeUnit = 0xFFFF ∧ State.reset.boot.lastReset = 0 ∧
  State.reset.ev.enable = enableReset .g880x ∧ (∀ k : Fin 256, State.reset.ev.route[k] = 1) ∧ State.reset.ev.summary = 0 ∧
  State.reset.time.state = .free ∧ (∀ m : Fin 64, State.reset.kennel.mbx[m] = {}) ∧ State.reset.kennel.devCfg = 100 ∧
  State.reset.junction.cozor = {} ∧ State.reset.junction.smbus = {} ∧ State.reset.power.state = .active ∧ Sound State.reset = true

/-- R610: reserved and absent sources keep a clear enable bit through every window write. -/
def Obligations.ReservedEnablesStay : Prop :=
  (∀ (g : Grade) (n : Nat), n < 256 → (inRuns reservedSources n || inRuns (absentSources g) n) = true → bitAt (enableReset g) n = false) ∧
  ∀ (p : WinPath) (off : BitVec 12) (v : BitVec 32) (s : State) (n : Nat), n < 256 →
    (inRuns reservedSources n || inRuns (absentSources s.grade) n) = true → bitAt s.ev.enable n = false →
    Does (.registerWrite p off v) s fun t => bitAt t.ev.enable n = false

/-- The operations on device memory (R305): canonical form, read after write, and frame. -/
def Obligations.MemoryOperations : Prop :=
  ∀ (m : List Host.Cell) (a : Nat) (b : Bytes), Memory.wf m = true →
    Memory.wf (memPut m a b) = true ∧ (∀ i (h : i < b.length), memGet (memPut m a b) (a + i) = b[i]) ∧
    (∀ x, x < a ∨ a + b.length ≤ x → memGet (memPut m a b) x = memGet m x) ∧
    (∀ hi, Memory.wf (memZero m a hi) = true ∧ ∀ x, memGet (memZero m a hi) x = if a ≤ x ∧ x < hi then 0 else memGet m x) ∧
    (∀ hi w, a ≤ hi → Memory.wf (memPattern m a hi w) = true ∧ ∀ x, x < a ∨ hi ≤ x → memGet (memPattern m a hi w) x = memGet m x)

/-- Steps 1 to 8 of R504, each from the state in which its condition holds. -/
def Obligations.BringUpSteps : Prop :=
  ∀ s : State,
    (∀ straps mv, stage s = 0 → 1580 < mv → Does (.vinAuxRise straps mv) s fun t =>
      stage t = 1 ∧ t.power.straps = straps &&& 0x3F ∧ t.boot.step1Start = s.cyc ∧
      (s.box.queue.length < 256 → ∃ e, t.box.queue = s.box.queue ++ [e] ∧ e.code = 0x0101) ∧
      ({ t with power := s.power, boot := s.boot, dacs := s.dacs, synth := s.synth } : State).hush = s.hush) ∧
    (∀ k, stage s = 1 → s.boot.linkMgmt = false → s.boot.slotsTried = [] → (slotOrder s).head? = some k → slotReason s k 1 = 0 →
      Does .mgmtFwVerified s fun t => stage t = 2 ∧ t.boot.bootSlot = k ∧ t.boot.linkMgmt = false) ∧
    (stage s = 1 → s.boot.linkMgmt = false → s.boot.slotsTried = [] → slotReason s 0 1 ≠ 0 → slotReason s 1 1 ≠ 0 →
      Does .mgmtFwVerified s fun t => stage t = 1 ∧ t.boot.linkMgmt = true ∧ t.boot.cause = 1) ∧
    (step3Due s = true → Does (.mainRailsUp 0x3FF) s fun t =>
      stage t = 3 ∧ t.boot.mainOn = true ∧ t.boot.reentry3 = false ∧ (t.boot.linkBoot = false → t.banks = Vector.replicate 32 {})) ∧
    (stage s = 3 → s.boot.reentry3 = false → s.boot.linkBoot = false → s.boot.linkMgmt = false →
      slotReason s s.boot.bootSlot 2 = 0 → slotReason s s.boot.bootSlot 3 = 0 → Does .kennelBoot s fun t =>
        stage t = 4 ∧ t.boot.bootCount.toNat = min 0xFFFFFFFF (s.boot.bootCount.toNat + 1)) ∧
    (stage s = 4 → Does (.storeTrained 0xF) s fun t =>
      stage t = 5 ∧ t.rings = fixedRings s.grade ++ s.rings.filter (fun r => 0x90 ≤ r.id) ∧
      t.boot.storeKept = s.store.selfRefresh ∧ t.store.selfRefresh = false) ∧
    (∀ pass lock, stage s = 5 → Does (.convertersCal pass lock) s fun t => stage t = 6 ∧ t.boot.tePassed = pass) ∧
    (stage s = 6 → fgLeft s = false → Does .bringupReady s fun t =>
      t.packs = defaultPacks s.boot.tePassed ∧
      stage t = if (degradeCause { s with packs := defaultPacks s.boot.tePassed }).isSome then 14 else 7)

/-- The bounds and failures of R505, R508, R511 and R525. -/
def Obligations.BringUpFailures : Prop :=
  ∀ s : State,
    (∀ u c ms, stepBound s = some (c, ms) → c + ms * msC < s.cyc → Does (.stageTimeout u) s fun t =>
      stage t = 15 ∧ t.boot.cause = 8 ∧ t.boot.causeUnit = u ∧ t.boot.causeStage = s.boot.stage ∧ ({ t with boot := s.boot } : State).hush = s.hush) ∧
    (step3Due s = true → s.boot.mainOn = false → Does (.mainRailsUp 0x3FE) s fun t =>
      stage t = 15 ∧ t.boot.cause = 5 ∧ t.boot.causeUnit = 0x1000 ∧ t.boot.mainOn = false) ∧
    (stage s = 4 → Does (.storeTrained 0xE) s fun t => stage t = 15 ∧ t.boot.cause = 9 ∧ t.boot.causeUnit = 0x0801 ∧ t.boot.mainOn = s.boot.mainOn) ∧
    (stage s = 3 → s.boot.reentry3 = false → s.boot.linkBoot = true → s.boot.linkTaken = false →
      numAt (linkHeader s) 0 4 = 0x4F4D5437 → numAt (linkHeader s) 60 4 = (crc32 ((linkHeader s).take 60)).toNat → Does .linkImagePoll s fun t =>
        t.boot.linkTaken = true ∧ (∀ k < 16, (vget t.banks k).pendingOwner = 0x0010) ∧ ({ t with boot := s.boot, banks := s.banks } : State) = s) ∧
    (stage s = 3 → s.boot.reentry3 = false → s.boot.linkBoot = true → s.boot.linkTaken = false →
      (numAt (linkHeader s) 0 4 ≠ 0x4F4D5437 ∨ numAt (linkHeader s) 60 4 ≠ (crc32 ((linkHeader s).take 60)).toNat) → exec .linkImagePoll s = .next s) ∧
    (stage s = 3 → s.boot.reentry3 = false → s.boot.linkBoot = true → s.boot.linkTaken = false → s.boot.linkMgmt = false →
      10 * secC ≤ since s s.boot.linkWaitStart → Does .linkImageTimeout s fun t =>
      stage t = 15 ∧ t.boot.cause = 4 ∧ t.boot.mainOn = s.boot.mainOn ∧ ({ t with boot := s.boot } : State).hush = s.hush)

/-- R445, R512, R513, R515 and R518: how resets come and what they leave. -/
def Obligations.Resets : Prop :=
  ∀ s : State,
    (∀ r, s.boot.pendingReset = some r → r.due ≤ s.cyc → s.boot.mainOn = true → s.power.tripped = false → rateHoldsD s = false →
      Does .devResetBegin s fun t => stage t = 3 ∧ t.boot.lastReset = 2 ∧ t.boot.reentry3 = true ∧ t.boot.mainOn = true ∧ t.power.state = .active ∧
        t.packs = [] ∧ t.xforms = [] ∧ t.inputs = Vector.replicate 8 {} ∧ t.ddc = Vector.replicate 128 {} ∧ t.banks = Vector.replicate 32 {} ∧
        t.maint = {} ∧ t.dacs = s.dacs ∧ t.hk = s.hk ∧ t.loops = s.loops ∧ t.sec = s.sec ∧ t.grade = s.grade ∧ t.pending = s.pending) ∧
    (∀ p, p ≠ .smbus → pathOpen s (.junction p) = true → s.boot.mainOn = true → s.boot.pendingReset = none → s.power.tripped = false →
      exec (.devResetWrite p 0xD0E7A501) s =
        .next { s with boot := { s.boot with pendingReset := some { origin := 1, mailbox := 0, seq := 0, due := s.cyc } } }) ∧
    (s.boot.mainOn = true → s.power.tripped = false → s.boot.resetNLow = false →
      exec .resetNLow s = .next { s with boot := { s.boot with resetNLow := true, pendingReset := some { origin := 2, mailbox := 0, seq := 0, due := s.cyc } } }) ∧
    (s.boot.resetNLow = true → exec .resetNRise s =
      .next { s with boot := { s.boot with resetNLow := false, stepStart := if s.boot.reentry3 then s.cyc else s.boot.stepStart } }) ∧
    (s.boot.mHeld = true → s.boot.offFor ≤ since s s.boot.railsOffAt →
      exec .mainOffElapsed s = .next { s with boot := { s.boot with mHeld := false, stepStart := s.cyc } }) ∧
    (∀ mv, mv < 1550 → s.power.vinAux.dip = none → exec (.pReset mv) s = .next { State.reset with
      pending := s.pending, grade := s.grade, freeNo := s.freeNo, ev := { enable := enableReset s.grade }
      boot := { bootCount := s.boot.bootCount, resetNLow := s.boot.resetNLow }
      sec := { otp := s.sec.otp, flash := s.sec.flash, identity := s.sec.identity, certs := s.sec.certs, challengeNo := s.sec.challengeNo, signNo := s.sec.signNo }
      box := { entries := s.box.entries, nextSeq := s.box.nextSeq }
      dacs := { clrLow := s.dacs.clrLow, refBad := s.dacs.refBad, ch := s.dacs.ch.map fun d => { nvmCode := d.nvmCode, nvmRange := d.nvmRange } } }) ∧
    (∀ mv, mv < 1550 → s.power.vinAux.dip.isSome = true → Does (.pReset mv) s fun t =>
      stage t = 0 ∧ t.mem = [] ∧ t.packs = [] ∧ t.boot.mainOn = false ∧ t.boot.bootCount = s.boot.bootCount ∧ t.sec.otp = s.sec.otp ∧ t.sec.flash = s.sec.flash ∧
      t.grade = s.grade ∧ t.pending = s.pending ∧ t.time = {} ∧ t.inputs = Vector.replicate 8 {} ∧ t.kennel = {} ∧ t.junction = {} ∧ t.box.queue = [])

/-- The supervisor (R508, R527 to R530). -/
def Obligations.SuppliesAndRails : Prop :=
  ∀ s : State,
    (∀ main aux, stage s ≠ 0 → 10600 ≤ main → 1650 ≤ aux → s.power.vinMain.dip = none → s.power.vinAux.dip = none →
      exec (.supplySample main aux) s = .next { s with power := { s.power with
        vinMain := supplyCount .main main s.boot.mainOn s, vinAux := supplyCount .aux aux true s } } ∧
      (supplyCount .main main s.boot.mainOn s).mv = main ∧ (supplyCount .aux aux true s).mv = aux ∧
      (supplyCount .main main s.boot.mainOn s).belowWarn = 0 ∧ (supplyCount .aux aux true s).belowReset = 0) ∧
    (∀ main aux, stage s ≠ 0 → main < 10600 → 9800 ≤ main → 1650 ≤ aux → s.boot.mainOn = true → s.power.vinMain.dip = none → s.power.vinAux.dip = none →
      s.power.vinMain.belowWarn = 1 → Does (.supplySample main aux) s fun t =>
        t.power.vinMain.dip = some { tw := now s, lowest := min s.power.vinMain.mv main } ∧ t.power.vinMain.dips = wrapAdd 32 s.power.vinMain.dips 1 ∧
        ({ t with power := s.power } : State).hushEv = s.hushEv) ∧
    (∀ main aux, stage s ≠ 0 → main < 9800 → 1650 ≤ aux → s.boot.mainOn = true → s.power.vinMain.belowReset = 5 →
      Does (.supplySample main aux) s fun t => stage t = 8 ∧ t.boot.cause = 6 ∧ t.boot.vinMainLow = true ∧ t.boot.mainOn = false ∧ t.boot.lastReset = 1) ∧
    (∀ main aux, stage s ≠ 0 → aux < 1550 → s.power.vinAux.belowReset = 5 →
      Does (.supplySample main aux) s fun t => stage t = 0 ∧ t.boot.mainOn = false ∧ t.mem = [] ∧ t.boot.bootCount = s.boot.bootCount) ∧
    (∀ k d c, (supplyOf k s).dip = some d → (supplyOf k s).aboveSince = some c → msC ≤ since s c → Does (.supplyRecover k) s fun t =>
      (supplyOf k t).dip = none ∧ ({ t with power := s.power, box := s.box, inputs := s.inputs } : State).hushEv = s.hushEv) ∧
    (∀ c, s.boot.vinMainLow = true → s.power.vinMain.aboveSince = some c → 100 * msC ≤ since s c →
      exec .vinMainReturn s = .next { s with boot := { s.boot with vinMainLow := false, mHeld := false, stepStart := s.cyc } }) ∧
    (∀ (r : Fin 10) mv, railThere s r = true → bitAt s.power.railOut r = false → railIn s.fab.vfab r mv = false → Does (.railOut r mv) s fun t =>
      t.power.railOut = setBit s.power.railOut r true ∧ vget t.power.railMv r = mv ∧ vget t.power.railOutAt r = s.cyc ∧
      ({ t with power := s.power, box := s.box } : State).hushEv = s.hushEv) ∧
    (∀ r : Fin 10, railThere s r = true → bitAt s.power.railOut r = true → 90 * usC ≤ since s (vget s.power.railOutAt r) → Does (.railOutRemove r) s fun t =>
      stage t = 8 ∧ t.boot.lastReset = 1 ∧ t.boot.mainOn = false ∧ t.boot.mHeld = true ∧ t.mem = [] ∧ t.dacs = s.dacs ∧ t.sec = s.sec)

/-- R284, R533 and R534. -/
def Obligations.Temperature : Prop :=
  ∀ s : State,
    (∀ tj, stage s ≠ 0 → s.power.thermalWarn = false → (hottest tj).1 < 10 * (fld s.power.cfg 7 0 : Nat) → (hottest tj).1 < 850 →
      exec (.thermalRead tj) s = .next { s with power := { s.power with tj := tj, tripReadings := 0, coolSince := some (s.power.coolSince.getD s.cyc) } }) ∧
    (∀ tj, stage s ≠ 0 → s.power.thermalWarn = false → 10 * ((fld s.power.cfg 7 0 : Nat) : Int) ≤ (hottest tj).1 → (hottest tj).1 < 1100 →
      Does (.thermalRead tj) s fun t => t.power.thermalWarn = true ∧ t.power.tj = tj ∧ ({ t with power := s.power } : State).hushEv = s.hushEv) ∧
    (∀ tj, stage s ≠ 0 → 1100 ≤ (hottest tj).1 → 1 ≤ s.power.tripReadings → s.power.tripped = false →
      Does (.thermalRead tj) s fun t => stage t = 15 ∧ t.boot.cause = 7 ∧ t.boot.mainOn = false ∧ t.power.tripped = true ∧ t.power.cooled = false ∧
        t.dacs = s.dacs ∧ t.loops = s.loops) ∧
    (∀ c, s.power.tripped = true → s.power.cooled = false → s.power.coolSince = some c → 10 * secC ≤ since s c → bitAt s.power.cfg 8 = false →
      Does .thermalCooled s fun t => t.power.cooled = true ∧ t.power.tripped = true ∧ ({ t with power := s.power, box := s.box } : State).hushEv = s.hushEv) ∧
    (∀ (k : Fin 4) (x : Int), s.boot.mainOn = true → k.val < nStacks s.grade → x < 82 → Does (.stackTempRead k x) s fun t =>
      (vget t.store.stks k).temperature = x ∧ (vget t.store.stks k).double = false ∧ ({ t with store := s.store } : State).hushEv = s.hushEv) ∧
    (∀ (k : Fin 4) (x : Int), s.boot.mainOn = true → k.val < nStacks s.grade → 105 ≤ x → s.power.tripped = false → Does (.stackTempRead k x) s fun t =>
      stage t = 15 ∧ t.boot.cause = 7 ∧ t.boot.causeUnit = BitVec.ofNat 16 (0x0801 + k.val) ∧ t.boot.mainOn = false)

/-- R516, R517, R542 and R543. -/
def Obligations.WatchdogAndPowerStates : Prop :=
  ∀ s : State,
    (isReady s = true → exec .kennelReport s = .next { s with boot := { s.boot with lastReport := s.cyc } }) ∧
    (isReady s = true → secC ≤ since s s.boot.lastReport → s.boot.pendingReset = none →
      (s.boot.hangResets.filter fun c => since s c < 3600 * secC).length < 3 → Does .kennelHang s fun t =>
        t.boot.pendingReset = some { origin := 6, mailbox := 0, seq := 0, due := s.cyc } ∧ ({ t with boot := s.boot, box := s.box } : State) = s) ∧
    (isReady s = true → secC ≤ since s s.boot.lastReport → s.boot.pendingReset = none →
      3 ≤ (s.boot.hangResets.filter fun c => since s c < 3600 * secC).length → Does .kennelHang s fun t =>
        stage t = 15 ∧ t.boot.cause = 10 ∧ t.boot.mainOn = s.boot.mainOn ∧ ({ t with boot := s.boot, box := s.box } : State).hushEv = s.hushEv) ∧
    (∀ cs, s.power.transition = some (.standby, cs) → Does .powerTransitionDone s fun t =>
      t.power.transition = none ∧ ({ t with power := s.power } : State).hush = s.hush) ∧
    (∀ cs, s.power.transition = some (.quiet, cs) → s.power.state = .quiet → quietRate s = false → Does .powerTransitionDone s fun t =>
      t.power.transition = none ∧ t.power.state = .quiet ∧ ({ t with power := s.power } : State).hush = s.hush) ∧
    (∀ c, Accepts vPwrConfigure c s → Answers (.pwrConfigure c) vPwrConfigure c s [] fun s => { s with power := { s.power with cfg := argW c 0 32 } }) ∧
    (∀ c, Accepts vPwrCycleMain c s → Does (.pwrCycleMain c) s fun t =>
      stage t = 8 ∧ t.boot.lastReset = 1 ∧ t.boot.mainOn = false ∧ t.boot.mHeld = true ∧ t.boot.offFor = max (10 * msC) (argN c 0 4 * msC) ∧
      t.power.tripped = false ∧ t.dacs = s.dacs ∧ t.loops = s.loops) ∧
    (∀ c, Accepts vPwrSetState (withByte c 0 0) s → s.power.transition = none → s.power.state = .active →
      Answers (.pwrSetStateActive c) vPwrSetState (withByte c 0 0) s [] id) ∧
    (∀ c, Accepts vPwrSetState (withByte c 0 1) s → s.power.transition = none → s.power.state = .active → quietHeld s = true →
      Waits (.pwrSetStateQuiet c) vPwrSetState (withByte c 0 1) s fun s => { s with power := { s.power with transition := some (.quiet, [withByte c 0 1]) } }) ∧
    (∀ c, Accepts vPwrSetState (withByte c 0 2) s → s.power.transition = none → s.power.state = .active → Does (.pwrSetStateStandby c) s fun t =>
      stage t = 8 ∧ t.power.state = .standby ∧ t.boot.mainOn = false ∧ t.power.transition = some (.standby, [withByte c 0 2]) ∧ t.dacs = s.dacs)

/-- R7, R8, R436, R438, R440, R441, R444, R445, R449 and R460: writes through the control window. -/
def Obligations.WindowWrites : Prop :=
  ∀ (p : WinPath) (v : BitVec 32) (s : State),
    (∀ off : BitVec 12, (off.toNat % 4 ≠ 0 ∨ winOpen s p off.toNat = false ∨ off.toNat < 0x024 ∨ (0x028 ≤ off.toNat ∧ off.toNat < 0x040) ∨
        (0x180 ≤ off.toNat ∧ off.toNat < 0x200) ∨ (0x244 ≤ off.toNat ∧ off.toNat < 0x300) ∨ (0x304 ≤ off.toNat ∧ off.toNat < 0x400) ∨ 0x404 ≤ off.toNat) →
      exec (.registerWrite p off v) s = .next s) ∧
    (winOpen s p 0x024 = true → exec (.registerWrite p 0x024 v) s = .next { s with boot := { s.boot with boxNew := s.boot.boxNew && !bitAt v 11 } }) ∧
    (∀ (k : Nat), k < 8 → winOpen s p (0x040 + 4 * k) = true → Does (.registerWrite p (BitVec.ofNat 12 (0x040 + 4 * k)) v) s fun t =>
      (∀ n < 256, bitAt t.ev.summary n = (bitAt s.ev.summary n && !(n / 32 == k && bitAt v (n % 32)))) ∧
      ({ t with ev := { t.ev with summary := s.ev.summary } } : State) = s) ∧
    (∀ (k : Nat), k < 8 → winOpen s p (0x060 + 4 * k) = true → Does (.registerWrite p (BitVec.ofNat 12 (0x060 + 4 * k)) v) s fun t =>
      (∀ n < 256, bitAt t.ev.enable n = if n / 32 = k ∧ fixedEnable s.grade n = false then bitAt v (n % 32) else bitAt s.ev.enable n) ∧
      ({ t with ev := { t.ev with enable := s.ev.enable } } : State) = s) ∧
    (∀ m : Fin 64, winOpen s p (0x080 + 4 * m.val) = true →
      exec (.registerWrite p (BitVec.ofNat 12 (0x080 + 4 * m.val)) v) s = exec (.whistleWrite m v) s) ∧
    (winOpen s p 0x400 = true → exec (.registerWrite p 0x400 v) s = exec (.devResetWrite p v) s) ∧
    (∀ off : BitVec 12, winOpen s p off.toNat = true → 0x200 ≤ off.toNat → off.toNat < 0x240 → off ≠ 0x20C → (bankOf s p).busy = true →
      exec (.registerWrite p off v) s = .next s) ∧
    (winOpen s p 0x200 = true → (bankOf s p).busy = false → exec (.registerWrite p 0x200 v) s =
      .next (bankedMod p (fun b => { b with opcode := v.setWidth 16, unit := (v >>> 16).setWidth 16 }) s)) ∧
    (winOpen s p 0x204 = true → (bankOf s p).busy = false → exec (.registerWrite p 0x204 v) s = .next (bankedMod p (fun b => { b with seq := v }) s)) ∧
    (winOpen s p 0x208 = true → (bankOf s p).busy = false → exec (.registerWrite p 0x208 v) s = .next (bankedMod p (fun b => { b with len := v.setWidth 6 }) s)) ∧
    (winOpen s p 0x20C = true → exec (.registerWrite p 0x20C v) s = if bitAt v 0 then exec (.mjGo p) s else .next s) ∧
    (∀ k : Fin 12, winOpen s p (0x210 + 4 * k.val) = true → (bankOf s p).busy = false →
      exec (.registerWrite p (BitVec.ofNat 12 (0x210 + 4 * k.val)) v) s = .next (bankedMod p (fun b => { b with args := b.args.set k v }) s)) ∧
    (winOpen s p 0x240 = true → exec (.registerWrite p 0x240 v) s = .next (bankedMod p (fun b => { b with done := b.done && !bitAt v 9 }) s)) ∧
    (winOpen s p 0x300 = true → exec (.registerWrite p 0x300 v) s =
      .next (bankedMod p (fun b => { b with boxRptr := v.setWidth 17, boxAutoinc := bitAt v 31 }) s)) ∧
    (pathOpen s (.junction p) = true → (bankOf s p).busy = false → exec (.mjGo p) s = .next (bankedMod p (fun b => { b with busy := true }) s)) ∧
    ((bankOf s p).busy = true → exec (.mjGo p) s = .next s)

/-- R307, R438, R439, R444 and R464: reads of the window, and the side port. -/
def Obligations.WindowReads : Prop :=
  ∀ (p : WinPath) (s : State),
    (∀ (off : BitVec 12) n, wideOf off.toNat = some (off.toNat, n) → winOpen s p off.toNat = true → Does (.windowLatchRead p off) s fun t =>
      (bankOf t p).latch = some (off.toNat, (List.range n).map fun i => BitVec.ofNat 32 (winWord s p (off.toNat + 4 * i))) ∧
      (∀ i, 0 < i → i < n → winOpen s p (off.toNat + 4 * i) = true →
        winValue t p (off.toNat + 4 * i) = (BitVec.ofNat 32 (winWord s p (off.toNat + 4 * i))).toNat) ∧
      t.hush = s.hush ∧ t.ev = s.ev ∧ t.mem = s.mem ∧ t.kennel = s.kennel) ∧
    (winOpen s p 0x37C = true → Does (.boxDataLastWordRead p) s fun t =>
      (bankOf t p).boxRptr = (if p ≠ .kennel ∧ (bankOf s p).boxAutoinc = true then (bankOf s p).boxRptr + 1 else (bankOf s p).boxRptr) ∧
      ({ t with junction := s.junction } : State) = s) ∧
    (∀ v : BitVec 16, stage s ≠ 0 → exec (.smbusWriteWord v true) s =
      .next (if v.toNat % 4 = 0 then { s with junction := { s.junction with smbusPtr := v } } else s)) ∧
    (∀ v : BitVec 16, exec (.smbusWriteWord v false) s = .next s) ∧
    (∀ n, smbusSpan s n = true → Does (.smbusBlockRead n) s fun t =>
      (∃ r : Bytes, t.junction.smbusOut = some r ∧ r.length = n) ∧ t.junction.smbusPtr = s.junction.smbusPtr + BitVec.ofNat 16 n ∧
      (n = 4 → t.junction.smbusOut = some (le 4 (winValue s .smbus s.junction.smbusPtr.toNat))) ∧
      ({ t with junction := s.junction } : State) = s) ∧
    (∀ n, smbusSpan s n = false → exec (.smbusBlockRead n) s = .next { s with junction := { s.junction with smbusOut := none } }) ∧
    (∀ d, smbusSpan s d.length = true → Does (.smbusBlockWrite d true) s fun t =>
      t.junction.smbusPtr = s.junction.smbusPtr + BitVec.ofNat 16 d.length ∧ t.mem = s.mem) ∧
    (∀ d, smbusSpan s 4 = true → d.length = 4 → exec (.smbusBlockWrite d true) s = .next (settled s (smbusAdvance 4
      (winWrite .smbus s.junction.smbusPtr.toNat (BitVec.ofNat 32 (numAt d 0 4)) s)))) ∧
    (∀ d pec, pec = false ∨ smbusSpan s d.length = false → exec (.smbusBlockWrite d pec) s = .next s)

/-- R29, R440, R441 and R442; the order among requests that arrived at different times is the model's choice (log 65). -/
def Obligations.JunctionServes : Prop :=
  ∀ s : State, stage s ≠ 0 →
    ((s.junction.cozor.serving || s.junction.smbus.serving || s.junction.kennel.serving) = true → exec .junctionServe s = .next s) ∧
    (bankNext s = none → s.kennel.forwards = [] → exec .junctionServe s = .next s) ∧
    (s.junction.smbus.busy = true → s.junction.smbus.serving = false → bankNext s = some .smbus) ∧
    (s.junction.smbus.busy = false → s.junction.cozor.busy = true → s.junction.cozor.serving = false → bankNext s = some .cozor) ∧
    (s.junction.smbus.busy = false → s.junction.cozor.busy = false → s.junction.kennel.busy = true → s.junction.kennel.serving = false →
      bankNext s = some .kennel) ∧
    (∀ p e, (s.junction.cozor.serving || s.junction.smbus.serving || s.junction.kennel.serving) = false → bankNext s = some p → p ≠ .kennel →
      (bankOf s p).last = some e → e.seq = (bankOf s p).seq → e.opcode = (bankOf s p).opcode → e.unit = (bankOf s p).unit →
      exec .junctionServe s = .next (bankedMod p (fun b => { b with
        status := e.status, result := e.result, busy := false, done := true, replayed := true, rseq := e.seq }) s)) ∧
    (∀ p, (s.junction.cozor.serving || s.junction.smbus.serving || s.junction.kennel.serving) = false → bankNext s = some p → p ≠ .kennel →
      (bankOf s p).last = none → (junctionOp (bankOf s p).opcode.toNat = false ∨ 48 < (bankOf s p).len.toNat) → Does .junctionServe s fun t =>
      (bankOf t p).busy = false ∧ (bankOf t p).done = true ∧ (bankOf t p).status = 0x05 ∧ (bankOf t p).replayed = false ∧ (bankOf t p).rseq = (bankOf s p).seq ∧
      ({ t with junction := s.junction } : State) = s)

/-- R449 to R451. -/
def Obligations.WhistleWrites : Prop :=
  ∀ (m : Fin 64) (s : State) (c r : RingCtx) (n k : Nat),
    (isReady s = false → ∀ v, exec (.whistleWrite m v) s = .next s) ∧
    (isReady s = true → ringOf s m = some c → ringOf s (0x40 + m.val) = some r → n < 65536 → k < 65536 → (vget s.kennel.mbx m).held = [] →
      (n ≤ 64 - occupancy c / 64 → Does (.whistleWrite m (BitVec.ofNat 32 ((c.producer / 64 + n) % 65536 + r.consumer / 64 % 65536 * 65536))) s fun t =>
        ringOf t m = some { c with producer := c.producer + 64 * n } ∧ (vget t.kennel.mbx m).pubAt = (vget s.kennel.mbx m).pubAt ++ List.replicate n s.cyc ∧
        t.mem = s.mem ∧ t.hush = s.hush) ∧
      (64 - occupancy c / 64 < n → Does (.whistleWrite m (BitVec.ofNat 32 ((c.producer / 64 + n) % 65536 + r.consumer / 64 % 65536 * 65536))) s fun t =>
        t.kennel.whistleErrs = wrapAdd 32 s.kennel.whistleErrs 1 ∧ t.kennel.mbx = s.kennel.mbx ∧ t.hush = s.hush) ∧
      (k ≤ occupancy r / 64 → 0 < k → Does (.whistleWrite m (BitVec.ofNat 32 (c.producer / 64 % 65536 + (r.consumer / 64 + k) % 65536 * 65536))) s fun t =>
        (ringOf t (0x40 + m.val)).map (·.consumer) = some (r.consumer + 64 * k) ∧ t.mem = s.mem ∧ t.hush = s.hush))

/-- R452 to R454 and R457. -/
def Obligations.MailboxTakes : Prop :=
  ∀ (s : State) (d : Bytes), isReady s = true → (∀ m : Fin 64, (vget s.kennel.mbx m).fenced = [] ∧ headMissing s m = []) →
    canTake s s.kennel.turn = true → headOf s s.kennel.turn = some d → headBad s s.kennel.turn = false →
    let m := s.kennel.turn
    let c : Cmd := { path := .mailbox m, seq := BitVec.ofNat 32 (numAt d 4 4), unit := BitVec.ofNat 16 (numAt d 8 2), args := (descArgs s d).getD [] }
    (descBad d = true → Does .mailboxTakeCommand s fun t => mbxTaken t m = mbxTaken s m + 1 ∧ t.kennel.turn = m + 1 ∧
      t.kennel.cmdsTaken = wrapAdd 32 s.kennel.cmdsTaken 1 ∧ t.hush = s.hush) ∧
    (∀ e, descBad d = false → (vget s.kennel.mbx m).replay.find? (·.seq == c.seq) = some e → Does .mailboxTakeCommand s fun t =>
      mbxTaken t m = mbxTaken s m + 1 ∧ t.kennel.turn = m + 1 ∧ t.hush = s.hush ∧
      t.kennel.replays = (if e.opcode.toNat = numAt d 0 2 ∧ e.unit = c.unit then wrapAdd 32 s.kennel.replays 1 else s.kennel.replays)) ∧
    (descBad d = false → (descArgs s d).isSome = true → (vget s.kennel.mbx m).replay.find? (·.seq == c.seq) = none →
      (vget s.kennel.mbx m).inProgress = [] → (vget s.kennel.mbx m).held = [] → descExt d = false →
      Does .mailboxTakeCommand s fun t => ∃ s', s'.hush = s.hush ∧ s'.mem = s.mem ∧ mbxTaken s' m = mbxTaken s m + 1 ∧ s'.kennel.turn = m + 1 ∧
        (awaitsHost s' (numAt d 0 2) c = false → mustHold s' (numAt d 0 2) c = false → t = settled s (serve runVerb (numAt d 0 2) c s')))

/-- R455. -/
def Obligations.InterimResponses : Prop :=
  ∀ (m : Fin 64) (seq : BitVec 32) (s : State),
    (isReady s = false → exec (.interimResponseDue m seq) s = .next s) ∧
    (∀ y, isReady s = true → (vget s.kennel.mbx m).inProgress = [y] → y.opcode ≠ 0x0101 → y.interim = true → exec (.interimResponseDue m seq) s = .next s) ∧
    (∀ y, isReady s = true → (vget s.kennel.mbx m).inProgress = [y] → y.seq = seq → y.opcode ≠ 0x0101 → y.interim = false →
      fld s.kennel.devCfg 15 0 * msC / 2 ≤ since s y.published → Does (.interimResponseDue m seq) s fun t =>
        (vget t.kennel.mbx m).inProgress = [{ y with interim := true }] ∧ t.hush = s.hush) ∧
    (∀ y r, isReady s = true → (vget s.kennel.mbx m).inProgress = [y] → y.seq = seq → y.opcode ≠ 0x0101 → y.interim = false →
      fld s.kennel.devCfg 15 0 * msC / 2 ≤ since s y.published → s.maint.queue = [] → (vget s.kennel.mbx m).held = [] → Memory.wf s.mem = true →
      ringOf s (0x40 + m.val) = some r → r.log2 = 12 → r.type = 2 → r.policy = 0 → r.watermark = 0 → r.overSince = 0 → r.stopped = false →
      r.producer % 64 = 0 → r.consumer ≤ r.producer → occupancy r + 128 ≤ 4096 → regionOf s.grade r.base = .store → Does (.interimResponseDue m seq) s fun t =>
        let a := r.base + r.producer % 4096
        let d := rspBytes y.opcode.toNat DEFERRED 1 seq y.unit y.taken [0, 0, 0, 0]
        d.length = 64 ∧ (∀ i (h : i < d.length), memGet t.mem (a + i) = d[i]) ∧ (∀ x, x < a ∨ a + 64 ≤ x → memGet t.mem x = memGet s.mem x) ∧
        (ringOf t (0x40 + m.val)).map (·.producer) = some (r.producer + 64))

/-- R453, R456 and R462, on DEV.CONFIGURE: the answer and the frame of memory. -/
def Obligations.MailboxResponse : Prop :=
  ∀ (m : Fin 64) (c : Cmd) (s : State) (r : RingCtx), c.path = .mailbox m → Accepts vDevConfigure c s → Memory.wf s.mem = true →
    ringOf s (0x40 + m.val) = some r → r.log2 = 12 → r.type = 2 → r.policy = 0 → r.watermark = 0 → r.overSince = 0 → r.stopped = false → r.producer % 64 = 0 → r.consumer ≤ r.producer →
    occupancy r + 128 ≤ 4096 → regionOf s.grade r.base = .store → (vget s.kennel.mbx m).held = [] → (vget s.kennel.mbx m).inProgress = [] →
    Does (.devConfigure c) s fun t =>
      let a := r.base + r.producer % 4096
      let d := rspBytes 0x1F03 OK 0 c.seq c.unit (mbxTaken s m) []
      t.kennel.devCfg = BitVec.ofNat 32 (argN c 0 2) ∧ d.length = 64 ∧
      (∀ i (h : i < d.length), memGet t.mem (a + i) = d[i]) ∧ (∀ x, x < a ∨ a + 64 ≤ x → memGet t.mem x = memGet s.mem x) ∧
      (ringOf t (0x40 + m.val)).map (·.producer) = some (r.producer + 64) ∧
      (vget t.kennel.mbx m).replay = (⟨c.seq, 0x1F03, c.unit, 0, c.unit, []⟩ :: (vget s.kennel.mbx m).replay).take 64 ∧ t.hush = s.hush

/-- R597 to R599: grants at a tick. -/
def Obligations.ArbiterGrants : Prop :=
  ∀ s : State, s.maint.lastTick ≠ some (nowUs s) → s.maint.reinits = [] → s.power.transition = none → s.maint.running.Pairwise (fun a b => shares a b = false) →
    Does .maintTick s fun t =>
      t.maint.running.Pairwise (fun a b => shares a b = false) ∧ s.maint.running <+: t.maint.running ∧ t.maint.arrived = [] ∧
      (∀ r rest before, t.maint.queue = before ++ r :: rest → maintHeld s r = true ∨ ∃ x ∈ t.maint.running ++ before, shares r x = true) ∧
      t.maint.running.length + t.maint.queue.length = s.maint.running.length + s.maint.queue.length + s.maint.arrived.length

/-- R44, R459, R461, R462, R581, R601, R603 and R604. -/
def Obligations.DeviceAndMaintenanceVerbs : Prop :=
  ∀ (c : Cmd) (s : State),
    (Accepts vDevConfigure c s → Answers (.devConfigure c) vDevConfigure c s [] fun s => { s with kennel := { s.kennel with devCfg := BitVec.ofNat 32 (argN c 0 2) } }) ∧
    (Accepts vDevEventRoute c s → Does (.devEventRoute c) s fun t =>
      ∃ u, u.hush = s.hush ∧ (∀ n < 256, vget u.ev.route n = if argN c 0 1 ≤ n ∧ n ≤ argN c 1 1 then argW c 4 32 else vget s.ev.route n) ∧
        t = settled s (hostPurge [] (complete c 0x1F02 OK [] u))) ∧
    (∀ m, c.path = .mailbox m → Accepts vDevReset c s → s.boot.pendingReset = none → Does (.devReset c) s fun t =>
      t.boot.pendingReset = some { origin := 0, mailbox := m.val, seq := c.seq, due := s.cyc + 5 * msC } ∧
      ({ t with boot := s.boot } : State).hush = s.hush) ∧
    (∀ b, Accepts vUnitReinit c s → unitOf s c.unit = some (.bank, b) → s.maint.queue ++ s.maint.arrived = [] → (s.maint.running.any (·.unit == c.unit)) = false →
      s.kennel.faulted.contains c.unit = false → Answers (.unitReinit c) vUnitReinit c s [] fun s => { s with banks := vmod s.banks b bankClear }) ∧
    (Accepts vUnitState c s → Answers (.unitState c) vUnitState c s (le 1 (unitState s c.unit) ++ le 1 (planeOf s c.unit) ++ parentBytes s c.unit) id) ∧
    (Accepts vMaintConfigure c s → Answers (.maintConfigure c) vMaintConfigure c s [] fun s => { s with maint := { s.maint with cfg := argW c 0 32 } }) ∧
    (Accepts vMaintCancel c s → Does (.maintCancel c) s fun t =>
      t.maint.queue = (s.maint.queue.filter fun x => x.ticket ≠ argN c 0 2) ∧ t.maint.running = s.maint.running) ∧
    (Accepts vMaintStatus c s → ∃ b : Bytes, b.length = 16 * (s.maint.running.length + s.maint.queue.length) ∧
      Answers (.maintStatus c) vMaintStatus c s (le 2 s.maint.running.length ++ le 2 s.maint.queue.length) (destWrite (argN c 0 6) b)) ∧
    (∀ r, s.maint.running.find? (·.ticket == r.ticket) = some r → r.activity ≠ 3 → 2 * maintBound r.activity * usC < since s r.since → Does (.maintOverrun r.ticket) s fun t =>
      t.maint.running = (s.maint.running.filter fun x => x.ticket ≠ r.ticket) ∧ t.maint.queue = s.maint.queue) ∧
    (∀ b k, s.sec.challenge = some (b, k) → 600 * secC ≤ since s k →
      exec .debugChallengeExpire s = .next { s with sec := { s.sec with challenge := none } })

/-- R40 to R42 and R446: an accepted command acts, alone or on each member of a pack in order. -/
def Obligations.VerbsAct : Prop :=
  ∀ (i : Instr) (v : Verb) (c : Cmd) (s : State), asVerb i = some (v, c) →
    (Accepts v c s → exec i s = .next (settled s (hostPurge (srcRanges s v.op c) (reply c v.op (v.act c (begun v c s)))))) ∧
    (Served v c s → v.whole = false → (packOf s c.unit).isSome → v.pack = false → expand s c.unit ≠ [] →
      (∀ u ∈ expand s c.unit, (unitOf s u).isSome = true ∧ v.fits s u = true ∧ worstCond (v.checks { c with unit := u } s) = (0, [])) →
      isA s .pack c.unit = true →
      exec i s = .next (settled s (hostPurge (srcRanges s v.op c) ((expand s c.unit).foldl (fun t u => reply { c with unit := u } v.op (v.act { c with unit := u } t))
        (v.start c (begin_ c v.op (expand s c.unit).length s))))))

/-- R42, R446 and R615: BAD_UNIT, and the refusal of highest rank, with no effect. -/
def Obligations.VerbsRefuse : Prop :=
  ∀ (i : Instr) (v : Verb) (c : Cmd) (s : State), asVerb i = some (v, c) → Served v c s → (v.whole = true ∨ packOf s c.unit = none) →
    (((unitOf s c.unit).isSome && v.fits s c.unit) = false → Does i s fun t => t.hush = s.hush ∧
      t = settled s (hostPurge (srcRanges s v.op c) (finish c.path c.seq v.op c.unit c.unit BAD_UNIT [] (begin_ c v.op 1 s)))) ∧
    (((unitOf s c.unit).isSome && v.fits s c.unit) = true → (∃ x ∈ v.checks c s, x.1 = true ∧ 0 < x.2.1) → Does i s fun t => t.hush = s.hush ∧
      ∃ x ∈ v.checks c s, x.1 = true ∧ (∀ y ∈ v.checks c s, y.1 = true → y.2.1 ≤ x.2.1) ∧
        t = settled s (hostPurge (srcRanges s v.op c) (finish c.path c.seq v.op c.unit c.unit x.2.1 x.2.2 (begin_ c v.op 1 s))))

/-- The status records: their lengths, no effect without CLEAR, and what CLEAR zeroes (R86, R109, R139, R186, R188, R269, R304, R321, R334, R394, R417, R434, R462, R503, R550, R569). -/
def Obligations.StatusRecords : Prop :=
  ∀ (c : Cmd) (s : State),
    (Accepts vDevStatus c s → argBit c 0 0 = false → Reports (.devStatus c) vDevStatus c s 36) ∧
    (Accepts vPackStatus c s → argBit c 0 0 = false → Reports (.packStatus c) vPackStatus c s 48) ∧
    (Accepts vInputStatus c s → argBit c 0 0 = false → Reports (.inputStatus c) vInputStatus c s 48) ∧
    (Accepts vCalStatus c s → argBit c 0 0 = false → Reports (.calStatus c) vCalStatus c s 48) ∧
    (Accepts vDdcStatus c s → argBit c 0 0 = false → Reports (.ddcStatus c) vDdcStatus c s 48) ∧
    (Accepts vDispStatus c s → argBit c 0 0 = false → Reports (.dispStatus c) vDispStatus c s 48) ∧
    (Accepts vStoreStatus c s → argBit c 0 0 = false → Reports (.storeStatus c) vStoreStatus c s 48) ∧
    (Accepts vBankStatus c s → argBit c 0 0 = false → Reports (.bankStatus c) vBankStatus c s 48) ∧
    (Accepts vFetchStatus c s → argBit c 0 0 = false → Reports (.fetchStatus c) vFetchStatus c s 48) ∧
    (Accepts vTimeStatus c s → argBit c 0 0 = false → Reports (.timeStatus c) vTimeStatus c s 48) ∧
    (Accepts vEthStatus c s → argBit c 0 0 = false → Reports (.ethStatus c) vEthStatus c s 36) ∧
    (Accepts vTdcStatus c s → argBit c 0 0 = false → Reports (.tdcStatus c) vTdcStatus c s 38) ∧
    (Accepts vLinkStatus c s → argBit c 0 0 = false → Reports (.linkStatus c) vLinkStatus c s 48) ∧
    (Accepts vDacStatus c s → argBit c 0 0 = false → Reports (.dacStatus c) vDacStatus c s 36) ∧
    (Accepts vHkStatus c s → argBit c 0 0 = false → Reports (.hkadcStatus c) vHkStatus c s 24) ∧
    (Accepts vLinkLaneStatus c s → Reports (.linkLaneStatus c) vLinkLaneStatus c s 28) ∧
    (Accepts vThermStatus c s → Reports (.thermStatus c) vThermStatus c s 36) ∧
    (Accepts vSecStatus c s → Reports (.secStatus c) vSecStatus c s 24) ∧
    (Accepts vXformStatus c s → Reports (.xformStatus c) vXformStatus c s 48) ∧
    (argBit c 0 0 = true →
    (Accepts vDevStatus c s → ∃ r, Answers (.devStatus c) vDevStatus c s r fun s =>
      { s with kennel := { s.kennel with cmdsTaken := 0, replays := 0, whistleErrs := 0 }, ev := { s.ev with ringDrops := 0 } }) ∧
    (Accepts vDispStatus c s → ∃ r, Answers (.dispStatus c) vDispStatus c s r fun s => { s with disp := { s.disp with underruns := Vector.replicate 4 0, lateCommits := 0 } }) ∧
    (Accepts vFetchStatus c s → ∃ r, Answers (.fetchStatus c) vFetchStatus c s r fun s =>
      { s with fetch := { s.fetch with ch := vmod s.fetch.ch (idx c.unit) fun x => { x with bytesMoved := 0, transfers := 0, preemptions := 0 } } }) ∧
    (Accepts vEthStatus c s → ∃ r, Answers (.ethStatus c) vEthStatus c s r fun s =>
      { s with eth := vmod s.eth (idx c.unit) fun x => { x with sent := 0, received := 0, dropped := 0, fecCorrected := 0, fecUncorrected := 0, vitaSkips := 0 } }) ∧
    (Accepts vLinkStatus c s → ∃ r, Answers (.linkStatus c) vLinkStatus c s r fun s =>
      { s with link := { s.link with bond := vmod s.link.bond (idx c.unit) fun x => { x with resets := 0, replays := 0, crcErrs := 0, codewords := 0 } } }) ∧
    (Accepts vDacStatus c s → ∃ r, Answers (.dacStatus c) vDacStatus c s r fun s =>
      { s with dacs := { s.dacs with ch := vmod s.dacs.ch (idx c.unit) fun x => { x with loads := 0, clears := 0 } } }) ∧
    (Accepts vHkStatus c s → ∃ r, Answers (.hkadcStatus c) vHkStatus c s r fun s => { s with hk := { s.hk with delivered := 0, fifoLost := 0, discards := 0, fifoPeak := 0 } }) ∧
    (Accepts vCalStatus c s → ∃ r, Answers (.calStatus c) vCalStatus c s r fun s => { s with cals := vmod s.cals (idx c.unit) fun x => { x with holdPeriods := 0 } }) ∧
    (Accepts vDdcStatus c s → ∃ r, Answers (.ddcStatus c) vDdcStatus c s r fun s => { s with ddc := vmod s.ddc (idx c.unit) fun x => { x with sat := 0 } }) ∧
    (Accepts vPackStatus c s → ∃ r, Answers (.packStatus c) vPackStatus c s r fun s =>
      { s with packs := lmod (·.handle == c.unit) (fun p => { p with staleWrites := 0, promotions := 0, recomputed := 0 }) s.packs }) ∧
    (Accepts vInputStatus c s → ∃ r, Answers (.inputStatus c) vInputStatus c s r fun s =>
      { s with inputs := vmod s.inputs (idx c.unit) fun x => { x with peak := 0, ovlEntries := 0, blocks := 0 } }) ∧
    (Accepts vBankStatus c s → ∃ r, Answers (.bankStatus c) vBankStatus c s r fun s => { s with banks := vmod s.banks (idx c.unit) fun b =>
      { b with deniedReads := 0, deniedWrites := 0, powerErrors := 0, eccCorrected := 0, eccUncorrectable := 0 } }) ∧
    (Accepts vStoreStatus c s → ∃ r, Answers (.storeStatus c) vStoreStatus c s r
      (storeClear (if isA s .stack c.unit then some (idx c.unit) else none))) ∧
    (Accepts vTimeStatus c s → ∃ r, Answers (.timeStatus c) vTimeStatus c s r fun s =>
      { s with time := { s.time with steps := 0, outliers := 0, holdSecs := 0, holdFrom := s.cyc } }) ∧
    (Accepts vTdcStatus c s → ∃ r, Answers (.tdcStatus c) vTdcStatus c s r fun s => { s with tdc := { s.tdc with
      ch := vmod s.tdc.ch (idx c.unit) fun x => { x with fifoLost := 0, trigDrops := 0, orders := 0, overflows := 0 }
      inp := vmod s.tdc.inp (idx c.unit) fun x => { x with missed := 0 } } })) ∧
    (Accepts vPwrStatus c s → argBit c 0 0 = false → ∃ r : Bytes, r.length = 48 ∧ Answers (.pwrStatus c) vPwrStatus c s r fun s => { s with freeNo := s.freeNo + 1 }) ∧
    (Accepts vPwrStatus c s → argBit c 0 0 = true → ∃ r : Bytes, r.length = 48 ∧ Answers (.pwrStatus c) vPwrStatus c s r fun s => { s with
      freeNo := s.freeNo + 1
      power := { s.power with vinMain := supplyClear s.power.vinMain, vinAux := supplyClear s.power.vinAux } })

/-- R149, R224 to R226, R350, R364, R417, R583 and R587. -/
def Obligations.ReadsAnswer : Prop :=
  ∀ (c : Cmd) (s : State),
    (Accepts vTimeRead c s → Answers (.timeRead c) vTimeRead c s (timeB (s.time.counter / 2 ^ 32) ++ le 1 (match s.time.state with | .free => 0 | .acquiring => 1 | .locked => 2 | .holdover => 3)) id) ∧
    (Accepts vMeasStatus c s → Answers (.measStatus c) vMeasStatus c s
      (let g := vget s.events.eng (idx c.unit); le 4 g.jobs.length ++ le 4 g.done ++ le 4 g.skipped) id) ∧
    (Accepts vRecStatus c s → ∃ share, Answers (.recStatus c) vRecStatus c s
      (let q := policyOf s (argN c 0 4); le 2 share ++ le 2 0 ++ le 4 (pinRanges s (argN c 0 4)).length ++ le 4 q.copies ++ le 4 q.releases ++ le 4 q.partials ++ le 4 q.refused) id) ∧
    (Accepts vTrigStatus c s → argBit c 1 0 = false → Reports (.trigStatus c) vTrigStatus c s 34) ∧
    (∀ x, s.chans.find? (fun x => x.id == argN c 0 2 && x.pack == c.unit) = some x → Accepts vChanStatus c s → Answers (.chanStatus c) vChanStatus c s
      (le 1 (b2n x.running) ++ le 3 0 ++ le 8 x.produced ++ le 4 x.invalid ++ le 4 x.saturated ++ le 4 x.bundles.length ++ timeB x.lastTime) id) ∧
    (Accepts vBoxStatus c s → 0 < s.box.nextSeq → Answers (.boxStatus c) vBoxStatus c s (le 4 (let q := s.box.nextSeq - 1; if q < 1024 then q else 1024 + (q - 1024) % 130048) ++ le 4 (s.box.nextSeq - 1) ++ le 4 s.box.lostTotal ++ le 4 s.box.peak) id) ∧
    (∀ r, ringOf s (argN c 0 4) = some r → argN c 8 6 = 0 → Accepts vRingStatus c s → ∃ st, Answers (.ringStatus c) vRingStatus c s
      (le 8 r.producer ++ le 8 r.consumer ++ le 8 (heldStart r) ++ [st] ++ le 1 r.policy ++ le 1 r.type) id) ∧
    (∀ x, streamArg c s = some x → Accepts vStreamStatus c s → argBit c 4 0 = false → Answers (.streamStatus c) vStreamStatus c s
      (le 4 x.seq ++ le 4 0 ++ le 8 x.packets ++ le 8 x.payload ++ le 4 x.gaps ++ le 4 x.resent ++ le 8 x.sendPos) id)

/-- R33, R37, R50, R180, R187 and R459. -/
def Obligations.PackVerbs : Prop :=
  ∀ (c : Cmd) (s : State),
    (Accepts vPackCreate c s → ∃ (h : Nat) (ps : List PackSt), 0x8008 ≤ h ∧ h ≠ 0x80FF ∧ packOf s (BitVec.ofNat 16 h) = none ∧
      (∀ k, 0x8008 ≤ k → k < h → k = 0x80FF ∨ (packOf s (BitVec.ofNat 16 k)).isSome) ∧
      ps.Perm ({ handle := BitVec.ofNat 16 h, slots := [] } :: s.packs) ∧ ps.Pairwise (fun a b => a.handle.toNat ≤ b.handle.toNat) ∧
      Answers (.packCreate c) vPackCreate c s (le 2 h) fun s => { s with packs := ps }) ∧
    (∀ p, packOf s c.unit = some p → Accepts vPackAdd c s → Does (.packAdd c) s fun t =>
      let n := if argN c 2 2 = 0xFFFF then lowSlot p else argN c 2 2
      (∃ q, packOf t c.unit = some q ∧ (q.slots[n]?).bind (·.member) = some (argW c 0 16) ∧ ∀ k, k ≠ n → (q.slots[k]?).bind (·.member) = (p.slots[k]?).bind (·.member)) ∧
      ({ t with packs := s.packs } : State).hush = s.hush) ∧
    (∀ p, packOf s c.unit = some p → Accepts vPackRemove c s → Does (.packRemove c) s fun t =>
      (∃ q, packOf t c.unit = some q ∧ q.slots.length = p.slots.length ∧ (q.slots[argN c 0 2]?).bind (·.member) = none ∧
        ∀ k, k ≠ argN c 0 2 → (q.slots[k]?).bind (·.member) = (p.slots[k]?).bind (·.member)) ∧
      (∀ m, (p.slots[argN c 0 2]?).bind (·.member) = some m → isA s .te m = true → (vget t.te (idx m)).left = some (c.unit, argN c 0 2)) ∧
      ({ t with packs := s.packs, te := s.te } : State).hush = s.hush) ∧
    (Accepts vPackDissolve c s → Answers (.packDissolve c) vPackDissolve c s [] fun s => { s with
      packs := (s.packs.filter fun p => p.handle != c.unit).map fun p => { p with slots := p.slots.map fun x => if x.member == some c.unit then { x with member := none } else x } }) ∧
    (∀ p, packOf s c.unit = some p → Accepts vPackList c s → Answers (.packList c) vPackList c s (le 2 p.slots.length)
      (destWrite (argN c 0 6) (p.slots.flatMap fun x => le 2 ((x.member.map (·.toNat)).getD 0xFFFF)))) ∧
    (Accepts vPackSelftest c s → Waits (.packSelftest c) vPackSelftest c s fun s =>
      { s with te := vmod s.te (idx c.unit) fun t => { t with selftest := some (some c) } }) ∧
    (Accepts vUnitList c s → ∃ b : Bytes, b.length = 8 * (unitsIn s (argN c 0 2) (argN c 2 2)).length ∧
      Answers (.unitList c) vUnitList c s (le 4 (unitsIn s (argN c 0 2) (argN c 2 2)).length) (destWrite (argN c 4 6) b))

/-- R26 and R173 to R180. -/
def Obligations.EngineRows : Prop :=
  ∀ (e : Fin 72) (j : Fin 88) (s : State),
    let h := BitVec.ofNat 16 (0x0400 + e)
    (∀ p n, parentOf s h = some (p, n) → (vget s.te e).items ≠ [] → 10 * usC ≤ since s (vget s.te e).handshake → Does (.declareEngineDead e) s fun t =>
      (vget t.te e).fault = true ∧ (vget t.te e).items = [] ∧ (vget t.te e).left = some (p, n) ∧
      (∀ q, packOf s p = some q → ∃ r, packOf t p = some r ∧ (∀ x, q.slots[n]? = some x → ∃ y, r.slots[n]? = some y ∧ y.member = none ∧ y.epoch = x.epoch + 1 ∧ y.promote = some h)) ∧
      ({ t with te := s.te, packs := s.packs, xforms := s.xforms, chans := s.chans } : State).hush = s.hush) ∧
    ((vget s.te e).items = [] → exec (.declareEngineDead e) s = .next s) ∧
    (∀ p, Does (.promoteSpare p) s fun t => (∀ q, packOf t p = some q → q.slots.all (·.promote.isNone) = true) ∧ ({ t with packs := s.packs } : State).hush = s.hush) ∧
    (∀ (p : Handle) (n : Nat) (ep : BitVec 32) (a : Addr) (d : Bytes), epochHolds s (engineHandle j) p n ep = true → Memory.wf s.mem = true →
      regionOf s.grade a = .store → regionOf s.grade (a + d.length - 1) = .store → Does (.engineStoreWrite j p n ep a d) s fun t =>
        (∀ i (k : i < d.length), memGet t.mem (a + i) = d[i]) ∧ (∀ y, y < a ∨ a + d.length ≤ y → memGet t.mem y = memGet s.mem y) ∧ t.packs = s.packs ∧ t.hush = s.hush) ∧
    (∀ (p : Handle) (n : Nat) (ep : BitVec 32) (a : Addr) (d : Bytes), epochHolds s (engineHandle j) p n ep = false →
      (72 ≤ j.val ∨ (vget s.te j).left = none ∨ (vget s.te j).quarantine = true) → exec (.engineStoreWrite j p n ep a d) s =
        .next { s with packs := lmod (·.handle == p) (fun q => { q with staleWrites := wrapAdd 32 q.staleWrites 1 }) s.packs }) ∧
    (∀ (p : Handle) (n : Nat) (ep : BitVec 32) (a : Addr) (d : Bytes), epochHolds s (engineHandle j) p n ep = false →
      j.val < 72 → (vget s.te j).left.isSome = true → (vget s.te j).quarantine = false → Does (.engineStoreWrite j p n ep a d) s fun t =>
        (vget t.te j).quarantine = true ∧ (∀ q, packOf s p = some q → (packOf t p).map (·.staleWrites) = some (wrapAdd 32 q.staleWrites 1)) ∧
        ({ t with te := s.te, packs := s.packs, xforms := s.xforms, chans := s.chans } : State).hush = s.hush) ∧
    (∀ q test, (vget s.te e).selftest = some q → Does (.selftestDone e true test) s fun t =>
      (vget t.te e).selftest = none ∧ (vget t.te e).fault = false ∧ (vget t.te e).quarantine = false ∧ ({ t with te := s.te, packs := s.packs } : State).hush = s.hush) ∧
    (∀ q test, (vget s.te e).selftest = some q → Does (.selftestDone e false test) s fun t =>
      (vget t.te e).selftest = none ∧ (vget t.te e).fault = ((vget s.te e).fault || (parentOf s h).any (·.1 == 0x80FF)) ∧ (vget t.te e).quarantine = (vget s.te e).quarantine ∧
      ({ t with te := s.te, packs := s.packs } : State).hush = s.hush)

/-- R171, R173 and R180. -/
def Obligations.WorkRows : Prop :=
  ∀ s : State,
    (∀ p, s.power.state ≠ .active → exec (.issueWorkItem p) s = .next s) ∧
    (∀ p i e, s.power.state = .active → (worksOf s p).foldl (fun s w => pump w.kind w.id s) s = s → (worksOf s p).foldl workBegin s = s →
      (worksOf s p).foldl workGap s = s → (worksOf s p).foldl (workLag p) s = s → packReady s p = some i → i.redo = false →
      s.packs.all (fun q => q.slots.all (·.promote.isNone)) = true → packEngine s p = some e →
      Does (.issueWorkItem p) s fun t => (vget t.te e).items = (vget s.te e).items ++ [i] ∧
        ({ t with te := s.te, xforms := s.xforms, chans := s.chans } : State) = s) ∧
    (∀ (e : Fin 72) (n : Fin 2) i x, (vget s.te e).items[n.val]? = some i → i.kind = .xform → s.xforms.find? (fun x => x.id == i.id) = some x → x.running = true →
      x.publish < i.index → x.skips = [] → x.completed.find? (fun k => k.index == x.publish) = none → x.publish / xM x.cfg ≤ x.formed →
      s.packs.all (fun p => p.reinits.isEmpty) = true → Does (.workItemComplete e n) s fun t =>
        (vget t.te e).items = (vget s.te e).items.eraseIdx n ∧ (vget t.te e).handshake = s.cyc ∧
        (∃ y, t.xforms.find? (fun x => x.id == i.id) = some y ∧ y.completed = x.completed ++ x.issued.filter (fun d => d.index == i.index) ∧ y.publish = x.publish) ∧
        ({ t with te := s.te, xforms := s.xforms } : State) = s) ∧
    (since s s.fab.poolTest.1 < 10 * secC → exec .poolSelftestTimer s = .next s) ∧
    (∀ p, 10 * secC ≤ since s s.fab.poolTest.1 → isReady s = true → isIdle s 0x80FF = true → packOf s 0x80FF = some p → Does .poolSelftestTimer s fun t =>
      t.fab.poolTest.1 = s.cyc ∧ (∀ (n : Nat) (h : Handle), (p.slots[n]?).bind (·.member) = some h → idx h < 72 → (∀ k < n, (p.slots[k]?).bind (·.member) = none) →
        s.fab.poolTest.2 ≤ n → (vget t.te (idx h)).selftest.isSome = true ∧ t.fab.poolTest.2 = n + 1) ∧
      ({ t with te := s.te, fab := s.fab } : State) = s)

/-- R140, R144, R145, R149, R150, R153, R154, R169 and R185. -/
def Obligations.AnalysisVerbs : Prop :=
  ∀ (c : Cmd) (s : State),
    (Accepts vXformCreate c s → ∃ id, id < 256 ∧ (∀ k < id, ∃ x ∈ s.xforms, x.id = k) ∧ (∀ x ∈ s.xforms, x.id ≠ id) ∧
      ∃ r, r.take 2 = le 2 id ∧ Answers (.xformCreate c) vXformCreate c s r fun s => { s with xforms := s.xforms ++ [{ id := id, pack := c.unit, cfg := xCfgArg c }] }) ∧
    (∀ x b, xArg c s = some x → kennelRead (begun vXformLoadWindow c s) (argN c 4 6) (4 * 2 ^ xLog2N x.cfg) = some b → Accepts vXformLoadWindow c s →
      Does (.xformLoadWindow c) s fun t =>
        t.xforms = s.xforms.map (fun y => if y.id == x.id then { y with window := readTable b (2 ^ xLog2N x.cfg) } else y) ∧
        ({ t with xforms := s.xforms, banks := s.banks } : State).hush = s.hush) ∧
    (Accepts vXformStart c s → Does (.xformStart c) s fun t =>
      (∃ x, t.xforms.find? (fun x => x.id == argN c 0 2) = some x ∧ x.running = true ∧ x.startTime = (if (argT c 4).getD 0 = 0 then now s else (argT c 4).getD 0) ∧ x.origin = none ∧ x.formed = 0 ∧ x.next = 0 ∧ x.issued = [] ∧ x.completed = []) ∧
      (∀ y ∈ t.xforms, y.id ≠ argN c 0 2 → y ∈ s.xforms) ∧ ({ t with xforms := s.xforms, fab := s.fab, packs := s.packs } : State).hush = s.hush ∧ (t.fab.waits.length = s.fab.waits.length ∨ t.fab.waits.length = s.fab.waits.length + 1)) ∧
    (Accepts vXformStop c s → Waits (.xformStop c) vXformStop c s fun s =>
      { s with xforms := s.xforms.map fun x => if x.id == argN c 0 2 then { x with stopping := some c } else x }) ∧
    (Accepts vXformDelete c s → Answers (.xformDelete c) vXformDelete c s [] fun s => { s with xforms := s.xforms.filter fun x => x.id != argN c 0 2 }) ∧
    (Accepts vXformQuery c s → ∃ r : Bytes, r.length = 21 ∧ Answers (.xformQuery c) vXformQuery c s r id) ∧
    (Accepts vChanCreate c s → ∃ id, id < 64 ∧ (∀ x ∈ s.chans, x.id ≠ id) ∧ ∃ r, r.take 2 = le 2 id ∧
      Answers (.chanCreate c) vChanCreate c s r fun s => { s with chans := s.chans ++ [chanOfArgs c id] }) ∧
    (∀ x, cArg c s = some x → Accepts vChanBundle c s → Answers (.chanBundle c) vChanBundle c s [] fun s => { s with
      chans := s.chans.map fun y => if y.id == x.id then { y with bundles := y.bundles ++
        [{ first := argN c 4 4, count := argN c 8 4, ring := argN c 12 4, addAt := if x.running then some (now s + 100 * 65536000) else none }] } else y }) ∧
    (∀ x, cArg c s = some x → x.running = false → Accepts vChanUnbundle c s → Answers (.chanUnbundle c) vChanUnbundle c s [] fun s => { s with
      chans := s.chans.map fun y => if y.id == x.id then { y with bundles := y.bundles.filter fun b => b.first != argN c 4 4 } else y }) ∧
    (∀ x, cArg c s = some x → x.running = true → Accepts vChanUnbundle c s → Answers (.chanUnbundle c) vChanUnbundle c s [] fun s => { s with
      chans := s.chans.map fun y => if y.id == x.id then { y with
        bundles := lmod (fun b => b.first == argN c 4 4) (fun b => { b with removeAt := some (now s + 100 * 65536000) }) y.bundles } else y }) ∧
    (Accepts vChanStart c s → Does (.chanStart c) s fun t =>
      (∃ x, t.chans.find? (fun x => x.id == argN c 0 2) = some x ∧ x.running = true ∧ x.startTime = (if (argT c 4).getD 0 = 0 then now s else (argT c 4).getD 0) ∧ x.origin = none ∧ x.next = 0 ∧ x.publish = 0) ∧
      (∀ y ∈ t.chans, y.id ≠ argN c 0 2 → y ∈ s.chans) ∧ ({ t with chans := s.chans, fab := s.fab, packs := s.packs } : State).hush = s.hush ∧
      (t.fab.waits.length = s.fab.waits.length ∨ t.fab.waits.length = s.fab.waits.length + 1)) ∧
    (Accepts vChanStop c s → Waits (.chanStop c) vChanStop c s fun s =>
      { s with chans := s.chans.map fun x => if x.id == argN c 0 2 then { x with stopping := some c } else x }) ∧
    (Accepts vChanDelete c s → Answers (.chanDelete c) vChanDelete c s [] fun s => { s with chans := s.chans.filter fun x => x.id != argN c 0 2 })

/-- R167 to R170. -/
def Obligations.FabricRows : Prop :=
  ∀ s : State,
    (∀ rates, s.power.state ≠ .active → exec (.rateLockUpdate rates) s = .next s) ∧
    (∀ rates, s.power.state = .active → 6000 ≤ s.fab.vfab → s.fab.vfab ≤ 8500 → Does (.rateLockUpdate rates) s fun t =>
      6000 ≤ t.fab.vfab ∧ t.fab.vfab ≤ 8500 ∧ t.fab.vfab ≤ s.fab.vfab + 25 ∧ s.fab.vfab ≤ t.fab.vfab + 25 ∧ ({ t with fab := s.fab, packs := s.packs, events := s.events } : State).hush = s.hush) ∧
    (∀ rates, s.power.state = .active → reporters s = [] → exec (.rateLockUpdate rates) s = .next { s with fab := { s.fab with vfab := max 6000 (s.fab.vfab - 25), above := 0 } }) ∧
    (s.fab.waits = [] → exec .vFabRaiseDone s = .next s) ∧
    (s.power.state ≠ .active → exec .vFabRaiseDone s = .next s) ∧
    (∀ w ws, s.fab.waits = w :: ws → s.power.state = .active →
      exec .vFabRaiseDone s = .next (settled s (complete w.cmd w.opcode.toNat OK [] { s with fab := { s.fab with vfab := max s.fab.vfab w.level, waits := ws } })))

/-- R145, R149, R185, R351 and R569. -/
def Obligations.WorkEnds : Prop :=
  ∀ s : State,
    (∀ p id x q, isA s .pack p = true → pump .xform id s = s → s.xforms.find? (fun x => x.id == id) = some x → x.pack = p → x.running = true → x.stopping = some q →
      workEmpty s .xform id x.next x.publish x.redo = true → x.publish / xM x.cfg ≤ x.formed → x.gaps = [] → s.chans = [] → Does (.stopComplete p id) s fun t =>
        (∃ y, t.xforms.find? (fun x => x.id == id) = some y ∧ y.running = false ∧ y.stopping = none ∧ y.origin = none ∧ y.group = [] ∧ y.gaps = [] ∧ y.skips = [] ∧
          y.issued = [] ∧ y.completed = []) ∧
        (∀ y ∈ t.xforms, y.id ≠ id → y ∈ s.xforms) ∧ ({ t with xforms := s.xforms, packs := s.packs } : State).hush = s.hush) ∧
    (∀ id q, isA s .hk 0x1020 = true → s.hk.stopping = [q] → hkStopped s = true →
      exec (.stopComplete 0x1020 id) s = .next (settled s (complete q 0x1804 OK [] { s with hk := { s.hk with running := false, stopping := [] } }))) ∧
    (∀ (id : Fin 64) (first : Nat) (c : ChanSt) (b : Bundle) (a : Time), s.chans.find? (fun c => c.id == id.val) = some c → c.bundles.find? (fun b => b.first == first) = some b →
      b.addAt = some a → ringOf s c.ring = none → a ≤ now s → Does (.bundleTakeEffect id first) s fun t =>
        t.chans = s.chans.map (fun c => if c.id == id.val then { c with bundles := c.bundles.map fun b => if b.first == first then { b with addAt := none } else b } else c) ∧
        ({ t with chans := s.chans } : State) = s) ∧
    (∀ (id : Fin 64) (first : Nat) (c : ChanSt) (b : Bundle), s.chans.find? (fun c => c.id == id.val) = some c → c.bundles.find? (fun b => b.first == first) = some b →
      (b.steps = [] ∨ since s b.since < msC) → exec (.chanFrameClose id first) s = .next s) ∧
    (∀ (id : Fin 64) (first : Nat) (c : ChanSt) (b : Bundle), s.chans.find? (fun c => c.id == id.val) = some c → c.bundles.find? (fun b => b.first == first) = some b →
      b.steps ≠ [] → msC ≤ since s b.since → Does (.chanFrameClose id first) s fun t =>
        ({ t with chans := s.chans, events := s.events, fetch := s.fetch } : State).hush = s.hush) ∧
    (∀ (id : Fin 64) (first : Nat) (c : ChanSt) (b : Bundle), s.chans.find? (fun c => c.id == id.val) = some c → c.bundles.find? (fun b => b.first == first) = some b →
      b.steps ≠ [] → msC ≤ since s b.since → ringOf s b.ring = none → Does (.chanFrameClose id first) s fun t => ({ t with chans := s.chans } : State) = s ∧
        t.chans = s.chans.map (fun c => if c.id == id.val then { c with bundles := c.bundles.map fun b => if b.first == first then { b with steps := [], sent := 0 } else b } else c))

/-- R79, R80, R81, R82, R83 and R85. A block in progress completes before its stream ends: read from R81 (log entry 27, DEDUCED). -/
def Obligations.InputVerbs : Prop :=
  (∀ (c : Cmd) (s : State),
    let i := idx c.unit
    let x := vget s.inputs i
    (Accepts vInputConfigure c s → Does (.inputConfigure c) s fun t =>
      (vget t.inputs i).ovl = setFld (argW c 4 32) 15 12 0 ∧ (vget t.inputs i).cfg = setBit (setFld (argW c 0 32) 11 8 0) 3 (bitAt x.cfg 3) ∧
      (bitAt (argW c 0 32) 0 = true → (vget t.inputs i).running = x.running) ∧
      (bitAt (argW c 0 32) 0 = false → (vget t.inputs i).running = (x.running && decide (x.nextTime ≤ now s)) ∧
        (x.running = true → x.nextTime ≤ now s → (vget t.inputs i).ending = some 4)) ∧
      (∀ k, k ≠ i → vget t.inputs k = vget s.inputs k) ∧ ({ t with inputs := s.inputs, cals := s.cals } : State).hush = s.hush) ∧
    (Accepts vInputSetAtten c s → argN c 0 1 = x.atten → Answers (.inputSetAtten c) vInputSetAtten c s
      (le 1 (b2n (!argT0 c 4 && decide ((argT c 4).getD 0 < now s)))) id) ∧
    (Accepts vInputSetAtten c s → argN c 0 1 ≠ x.atten → x.running = true → Answers (.inputSetAtten c) vInputSetAtten c s
      (le 1 (b2n (!argT0 c 4 && decide ((argT c 4).getD 0 < now s))))
      fun s => { s with inputs := vmod s.inputs i fun x => { x with attenReq := some (argN c 0 1, max ((argT c 4).getD 0) (now s)), cfg := setFld x.cfg 7 4 (argN c 0 1) } }) ∧
    (Accepts vInputSetAtten c s → argN c 0 1 ≠ x.atten → x.running = false → Answers (.inputSetAtten c) vInputSetAtten c s
      (le 1 (b2n (!argT0 c 4 && decide ((argT c 4).getD 0 < now s))))
      fun s => { s with inputs := vmod s.inputs i fun x => { x with atten := argN c 0 1, cfg := setFld x.cfg 7 4 (argN c 0 1) } }) ∧
    (Accepts vInputArrange c s → bitAt x.cfg 3 = (argN c 0 1 == 1) → Answers (.inputArrange c) vInputArrange c s [] id) ∧
    (Accepts vInputArrange c s → bitAt x.cfg 3 ≠ (argN c 0 1 == 1) → Does (.inputArrange c) s fun t =>
      (∀ k, k = i ∨ k = i + 1 → (vget t.inputs k).switch = some ⟨1, argN c 0 1 == 1, 4096⟩ ∧
        (vget t.inputs k).running = ((vget s.inputs k).running && decide ((vget s.inputs k).nextTime ≤ now s)) ∧
        ((vget s.inputs k).running = true → (vget s.inputs k).nextTime ≤ now s → (vget t.inputs k).ending = some 1)) ∧
      (∀ k, k ≠ i → k ≠ i + 1 → vget t.inputs k = vget s.inputs k) ∧
      ({ t with inputs := s.inputs, cals := s.cals } : State).hush = s.hush)) ∧
  ∀ (i : Fin 8) (s : State),
    let x := vget s.inputs i
    (x.attenReq = none → exec (.attenApply i) s = .next s) ∧
    (∀ v t, x.attenReq = some (v, t) → x.running = true → x.conv + 1024 ≤ sampleAt s i t → exec (.attenApply i) s = .next s) ∧
    (∀ v t, x.attenReq = some (v, t) → x.running = true → sampleAt s i t < x.conv + 1024 → Does (.attenApply i) s fun u =>
      let c := sampleAt s i t
      vget u.inputs i = { x with attenReq := none, attenSpan := some (v, c + 128), spans := addSpan ⟨c, c + 128⟩ x.spans, wspans := addSpan ⟨wideFirst c, wideFirst c + 96⟩ x.wspans } ∧
      (∀ k, k ≠ i.val → vget u.inputs k = vget s.inputs k) ∧ ({ u with inputs := s.inputs, cals := s.cals } : State) = s) ∧
    (∀ v t, x.attenReq = some (v, t) → x.running = false → exec (.attenApply i) s =
      .next { s with inputs := vmod s.inputs i fun x => { x with atten := v, attenReq := none } }) ∧
    (x.attenSpan = none → x.arrangeSpan = none → x.rateSpan = none → exec (.settleSpanEnd i) s = .next s) ∧
    (∀ v e, x.attenSpan = some (v, e) → x.arrangeSpan = none → x.rateSpan = none → (selEnd s i e (wideFirst (e - 128) + 96)).all (fun m => decide (x.conv < m)) = true →
      exec (.settleSpanEnd i) s = .next s) ∧
    (∀ v e m, x.attenSpan = some (v, e) → x.arrangeSpan = none → x.rateSpan = none → selEnd s i e (wideFirst (e - 128) + 96) = some m → m ≤ x.conv →
      Does (.settleSpanEnd i) s fun u =>
        vget u.inputs i = { x with atten := v, attenSpan := none, lastValid := sampleTime s i m } ∧ (∀ k, k ≠ i.val → vget u.inputs k = vget s.inputs k) ∧
        ({ u with inputs := s.inputs, cals := s.cals } : State).hush = s.hush)

/-- R70, R75, R81, R290 and R291. -/
def Obligations.StreamRows : Prop :=
  ∀ (i : Fin 8) (s : State),
    let x := vget s.inputs i
    (x.running = false → ∀ codes ahead, exec (.ingestBlock i codes ahead) s = .next s) ∧
    (∀ codes ahead, x.running = true → codes.length = 512 → Does (.ingestBlock i codes ahead) s fun t =>
      (vget t.inputs i).conv = x.conv + 512 ∧ (vget t.inputs i).running = x.ending.isNone ∧ (∀ k, k ≠ i.val → vget t.inputs k = vget s.inputs k) ∧
      (x.gap = none → (vget s.store.skid i).overflow = none → skidBytes (vget s.store.skid i) + 1088 ≤ skidSize s i →
        ∃ b : Bytes, b.length = 1088 ∧ (vget t.store.skid i).blocks = (vget s.store.skid i).blocks ++ [b] ∧ (vget t.store.skid i).overflow = none) ∧
      ((vget s.store.skid i).overflow = none → skidSize s i < skidBytes (vget s.store.skid i) + 1088 →
        (vget t.store.skid i).blocks = (vget s.store.skid i).blocks ∧ (vget t.store.skid i).overflow.isSome = true) ∧
      ({ t with inputs := s.inputs, store := s.store, cals := s.cals, freeNo := s.freeNo } : State).hush = s.hush) ∧
    (∀ o, x.switch = none → exec (.streamSwitch i o) s = .next s) ∧
    (∀ o, x.ending.isSome = true → exec (.streamSwitch i o) s = .next s) ∧
    (∀ o w, x.switch = some w → s.power.state = .active → w.cause ≠ 1 → w.cause ≠ 2 → bitAt x.cfg 0 = true → pairedOut s i = false → w.paired = bitAt x.cfg 3 → x.ending = none →
      Does (.streamSwitch i o) s fun t => (vget t.inputs i).running = true ∧ (vget t.inputs i).conv = 0 ∧ (vget t.inputs i).origin = o ∧ (vget t.inputs i).switch = none ∧
        (∀ k, k ≠ i.val → vget t.inputs k = vget s.inputs k) ∧ ({ t with inputs := s.inputs, cals := s.cals, ddc := s.ddc } : State) = s) ∧
    (x.inOvl = false → exec (.overloadExit i) s = .next s) ∧
    (pairedOut s i = true → exec (.overloadExit i) s = .next s) ∧
    (x.inOvl = true → pairedOut s i = false → ovlExitTime s i ≤ (if x.running then x.nextTime else now s) → Does (.overloadExit i) s fun t =>
      vget t.inputs i = { x with inOvl := false } ∧ (∀ k, k ≠ i.val → vget t.inputs k = vget s.inputs k) ∧ ({ t with inputs := s.inputs } : State).hush = s.hush) ∧
    ((vget s.store.skid i).blocks = [] → exec (.skidDrain i) s = .next s) ∧
    (portsHeld s = true ∨ storeStalled s = true → exec (.skidDrain i) s = .next s) ∧
    (∀ b bs, (vget s.store.skid i).blocks = b :: bs → portsHeld s = false → storeStalled s = false → ringOf s (captureRing s i) = none → exec (.skidDrain i) s =
      .next { s with store := { s.store with skid := vmod s.store.skid i fun k => { k with blocks := bs } } }) ∧
    (∀ b bs r, (vget s.store.skid i).blocks = b :: bs → b.length = 1088 → portsHeld s = false → storeStalled s = false → ringOf s (captureRing s i) = some r →
      r.stopped = false → r.gapPending = false → r.consumer ≤ r.producer → occupancy r + 1088 < ringSize r → r.watermark = 0 → r.overSince = 0 →
      regionOf s.grade r.base = .store → Memory.wf s.mem = true → s.events.pins = [] →
      Does (.skidDrain i) s fun t => (vget t.store.skid i).blocks = bs ∧ (ringOf t (captureRing s i)).map (·.producer) = some (r.producer + 1088) ∧ (vget t.inputs i).blocks = x.blocks + 1 ∧
        ringRead t r r.producer 1088 = b ∧ (∀ a, a < r.base ∨ r.base + ringSize r ≤ a → memGet t.mem a = memGet s.mem a) ∧
        ({ t with inputs := s.inputs, store := s.store } : State).hush = s.hush)

/-- R89, R91 to R104 and R106 to R108. -/
def Obligations.CalibrationRows : Prop :=
  ∀ (i : Fin 8) (e : Time) (s : State),
    let c := vget s.cals i
    let st := calStats s i
    let due := c.periodFrom < e ∧ e ≤ now s ∧ calBoundary c e = e
    (¬ due → exec (.calUpdatePeriodEnd i e) s = .next s) ∧
    (due → (c.state = .paused ∨ c.state = .foreground) → exec (.calUpdatePeriodEnd i e) s =
      .next { s with freeNo := s.freeNo + calDraws, cals := vmod s.cals i fun c => { c with
        sufficient := calSufficient c st, act := st.act, breadth := st.breadth, tainted := true, periodFrom := e, acc := { tail := c.acc.tail }, run := 0 } }) ∧
    (due → c.state = .frozen → Does (.calUpdatePeriodEnd i e) s fun t =>
      (vget t.cals i).trims = c.trims ∧ (vget t.cals i).count = c.count ∧ (vget t.cals i).act = st.act ∧ (vget t.cals i).errs = st.errs ∧
      (∀ k, k ≠ i.val → vget t.cals k = vget s.cals k) ∧ ({ t with cals := s.cals, freeNo := s.freeNo } : State) = s) ∧
    (due → c.state = .tracking → calSufficient c st = false → Does (.calUpdatePeriodEnd i e) s fun t => (vget t.cals i).state = .holding ∧
      (vget t.cals i).trims = c.trims ∧ (vget t.cals i).count = c.count ∧ (∀ k, k ≠ i.val → vget t.cals k = vget s.cals k) ∧
      ({ t with cals := s.cals, freeNo := s.freeNo } : State).hush = s.hush) ∧
    (due → c.state = .tracking → calSufficient c st = true → Does (.calUpdatePeriodEnd i e) s fun t => (vget t.cals i).state = .tracking ∧
      (vget t.cals i).count = c.count + 1 ∧
      (vget t.cals i).trims.length = c.trims.length ∧ (∀ (k : Nat) (a b : Trim), c.trims[k]? = some a → (vget t.cals i).trims[k]? = some b →
        (b.offset - a.offset).natAbs + (b.gain - a.gain).natAbs + (b.delay - a.delay).natAbs + (b.bw - a.bw).natAbs ≤ 1) ∧
      (∀ k, k ≠ i.val → vget t.cals k = vget s.cals k) ∧ ({ t with cals := s.cals, inputs := s.inputs, freeNo := s.freeNo } : State).hush = s.hush) ∧
    (due → c.state = .holding → (calSufficient c st = false ∨ c.run + 1 < fld c.cfg 15 8) → Does (.calUpdatePeriodEnd i e) s fun t =>
      (vget t.cals i).state = .holding ∧ (vget t.cals i).trims = c.trims ∧ (vget t.cals i).count = c.count ∧
      (vget t.cals i).run = (if calSufficient c st then c.run + 1 else 0) ∧ ({ t with cals := s.cals, freeNo := s.freeNo } : State) = s) ∧
    (due → c.state = .holding → calSufficient c st = true → fld c.cfg 15 8 ≤ c.run + 1 → Does (.calUpdatePeriodEnd i e) s fun t =>
      (vget t.cals i).state = .tracking ∧ (vget t.cals i).count = c.count + 1 ∧ ({ t with cals := s.cals, inputs := s.inputs, freeNo := s.freeNo } : State).hush = s.hush) ∧
    (∀ q, Accepts vCalConfigure q s → idx q.unit = i → Does (.calConfigure q) s fun t =>
      (vget t.cals i).cfg = setFld (argW q 0 32) 7 2 0 ∧ (vget t.cals i).suff = setFld (argW q 4 32) 31 15 0 ∧
      (argN q 0 1 % 4 = 1 → (vget s.inputs i).running = true → (vget t.cals i).state = .frozen) ∧ (vget t.cals i).trims = c.trims ∧
      (∀ k, k ≠ i.val → vget t.cals k = vget s.cals k) ∧ ({ t with cals := s.cals } : State).hush = s.hush) ∧
    (∀ q, Accepts vCalForeground q s → Waits (.calForeground q) vCalForeground q s (maintAsk 3 q.unit 0 (argN q 0 1 % 2) (some q) 0x0402)) ∧
    (∀ q, Accepts vCalReadTrims q s → Answers (.calReadTrims q) vCalReadTrims q s [] (destWrite (argN q 0 6) ((vget s.cals (idx q.unit)).trims.flatMap fun t =>
      le 2 (unsgn 16 t.offset) ++ le 2 (unsgn 16 t.gain) ++ le 2 (unsgn 16 t.delay) ++ le 1 (unsgn 8 t.bw) ++ [0]))) ∧
    (maintRunning s 3 (BitVec.ofNat 16 (0x0110 + i)) = none → exec (.foregroundStart i) s = .next s) ∧
    (∀ r, maintRunning s 3 (BitVec.ofNat 16 (0x0110 + i)) = some r → c.fg = none → Does (.foregroundStart i) s fun t =>
      (vget t.cals i).state = .foreground ∧ (vget t.cals i).fg.isSome = true ∧ (vget t.cals i).trims = c.trims ∧ ({ t with cals := s.cals, inputs := s.inputs } : State) = s) ∧
    (∀ f errs, c.fg = some f → f.doneAt.isSome = true → exec (.foregroundIteration i errs) s = .next s) ∧
    (∀ f errs, c.fg = some f → f.doneAt = none → errs.length = (if f.second then c.stored else c.trims).length → Does (.foregroundIteration i errs) s fun t =>
      (errsSmall errs = true → f.both = false → (vget t.cals i).fg.any (·.doneAt.isSome) = true) ∧
      (errsSmall errs = false → f.iter + 1 < 64 → (vget t.cals i).fg.any (·.doneAt.isNone) = true) ∧
      ((errsSmall errs = true ∨ f.iter + 1 < 64) → f.second = false → (vget t.cals i).trims = fullCorrect c.trims errs) ∧
      (∀ k, k ≠ i.val → vget t.cals k = vget s.cals k) ∧ ({ t with cals := s.cals } : State).hush = s.hush) ∧
    (∀ f r, c.fg = some f → maintRunning s 3 (BitVec.ofNat 16 (0x0110 + i)) = some r → fgResettled s i f = false → exec (.foregroundEnd i) s = .next s) ∧
    (∀ f r, c.fg = some f → maintRunning s 3 (BitVec.ofNat 16 (0x0110 + i)) = some r → fgResettled s i f = true → Does (.foregroundEnd i) s fun t =>
      (vget t.cals i).fg = none ∧ (vget t.cals i).fgFailed = !f.converged ∧ (vget t.cals i).count = (if f.converged then c.count + 1 else c.count) ∧ (vget t.cals i).trims = c.trims ∧
      ({ t with cals := s.cals, inputs := s.inputs, maint := s.maint } : State).hush = s.hush)

/-- R117, R131, R132, R137 and R138. -/
def Obligations.DdcVerbs : Prop :=
  ∀ (c : Cmd) (s : State),
    let ch := idx c.unit
    let x := vget s.ddc ch
    let w := ddcArg c s
    let t := (argT c 16).getD 0
    (Accepts vDdcConfigure c s → (bitAt w 0 = false ∨ bitAt x.cfg 0 = true ∧ ddcChanged ch x.cfg w = false) → Does (.ddcConfigure c) s fun u =>
      (vget u.ddc ch).cfg = w ∧ (vget u.ddc ch).restart = x.restart ∧
      (fld w 239 192 ≠ fld x.cfg 239 192 → (vget u.ddc ch).retune = some ⟨BitVec.ofNat 48 (fld w 239 192), none, false, now s⟩) ∧
      (∀ k, k ≠ ch → vget u.ddc k = vget s.ddc k) ∧ ({ u with ddc := s.ddc } : State).hush = s.hush) ∧
    (Accepts vDdcConfigure c s → bitAt w 0 = true → (bitAt x.cfg 0 = false ∨ ddcChanged ch x.cfg w = true) → Does (.ddcConfigure c) s fun u =>
      (vget u.ddc ch).cfgNext = some w ∧ (vget u.ddc ch).restart = some (ddcSoon s (ddcSource ch w) (!bitAt x.cfg 0 && x.synced && !ddcChanged ch x.cfg w)) ∧
      (vget u.ddc ch).cfg = x.cfg ∧ (∀ k, k ≠ ch → vget u.ddc k = vget s.ddc k) ∧ ({ u with ddc := s.ddc } : State).hush = s.hush) ∧
    (Accepts vDdcTune c s → Answers (.ddcTune c) vDdcTune c s (le 1 (b2n (!argT0 c 16 && decide (t < now s)))) fun s => { s with
      ddc := vmod s.ddc ch fun x => { x with retune := some ⟨argW c 0 48, some (argW c 8 32), argBit c 12 0, max t (now s)⟩ } }) ∧
    (Accepts vDdcSetThreshold c s → Answers (.ddcSetThreshold c) vDdcSetThreshold c s [] fun s => { s with
      ddc := vmod s.ddc ch fun x => { x with
        thr := setFld (argW c 0 64) 63 51 0, hold := 0, window := ceilDiv x.nextM (2 ^ fld (argW c 0 64) 31 28) * 2 ^ fld (argW c 0 64) 31 28, power := some 0, averages := [] } }) ∧
    (Accepts vDdcSync c s → Answers (.ddcSync c) vDdcSync c s (le 1 (b2n (argN c 0 1 == 2 && !argT0 c 4 && decide ((argT c 4).getD 0 < now s)))) fun s => { s with
      ddcEng := vmod s.ddcEng ch fun x => { x with sync := some (argN c 0 1, max ((argT c 4).getD 0) (now s)) } }) ∧
    (Accepts vDdcEngine c s → Answers (.ddcEngine c) vDdcEngine c s [] fun s => { s with ddcEng := vmod s.ddcEng ch fun x => { x with cfg := argW c 0 32 } }) ∧
    (Accepts vDdcQuery c s → Reports (.ddcQuery c) vDdcQuery c s 48)

/-- R117, R119, R130 to R133, R135 and R136. -/
def Obligations.DdcRows : Prop :=
  ∀ (ch : Fin 128) (s : State),
    let x := vget s.ddc ch
    (x.retune = none → exec (.ddcRetuneApply ch) s = .next s) ∧
    (∀ rt, x.retune = some rt → Does (.ddcRetuneApply ch) s fun t => (vget t.ddc ch).retune = none ∧ (vget t.ddc ch).freq = rt.freq ∧
      fld (vget t.ddc ch).cfg 239 192 = rt.freq.toNat ∧ (∀ p, rt.phase = some p → rt.reset = true → (vget t.ddc ch).acc = p.setWidth 48 <<< 16) ∧
      (∀ k, k ≠ ch.val → vget t.ddc k = vget s.ddc k) ∧ ({ t with ddc := s.ddc } : State) = s) ∧
    (x.restart = none → bitAt x.cfg 0 = false → exec (.ddcRestart ch) s = .next s) ∧
    (∀ q, x.restart = some q → bitAt x.cfg 0 = false → ((ringOf s (captureRing s (ddcSource ch (x.cfgNext.getD x.cfg)))).bind fun r =>
      (srcBlocks s r (lastGapPos s r)).find? fun b => decide (q.at_ < b.first + 256)) = none → exec (.ddcRestart ch) s = .next s) ∧
    (∀ q w r b, x.restart = some q → x.cfgNext = some w → bitAt x.cfg 0 = false → ringOf s (captureRing s (ddcSource ch w)) = some r →
      (srcBlocks s r (lastGapPos s r)).find? (fun b => decide (q.at_ < b.first + 256)) = some b → runComing s (ddcSource ch w) = false → Does (.ddcRestart ch) s fun t =>
      (vget t.ddc ch).cfg = ddcResolve s ch w ∧ (vget t.ddc ch).restart = none ∧ (vget t.ddc ch).cfgNext = none ∧ (vget t.ddc ch).synced = q.keep ∧
      (vget t.ddc ch).restartAt = max q.at_ b.first ∧ (vget t.ddc ch).gain = ddcGain (vget t.ddc ch).cfg ∧
      (q.keep = false → (vget t.ddc ch).nref = max q.at_ b.first ∧ (vget t.ddc ch).nextM = 0) ∧
      (vget t.ddc ch).spans = [⟨(vget t.ddc ch).nextM, (vget t.ddc ch).nextM + ddcSettle (vget t.ddc ch).cfg⟩] ∧
      (∀ k, k ≠ ch.val → vget t.ddc k = vget s.ddc k) ∧ ({ t with ddc := s.ddc, events := s.events } : State) = s) ∧
    (∀ e : Fin 8, syncInstant e s = none → exec (.syncReset e) s = .next s) ∧
    (∀ (e : Fin 8) (t0 : Time), syncInstant e s = some t0 → Does (.syncReset e) s fun t =>
      (vget t.ddcEng e).pin = none ∧ (vget t.ddcEng e).sync = (if (vget s.ddcEng e).pin.isSome then (vget s.ddcEng e).sync else none) ∧
      (∀ k < 16, bitAt ((vget s.ddc (16 * e + k)).cfgNext.getD (vget s.ddc (16 * e + k)).cfg) 0 = true →
        (vget t.ddc (16 * e + k)).restart.any (fun q => q.sync && !q.keep) = true) ∧
      (∀ k < 16, bitAt ((vget s.ddc (16 * e + k)).cfgNext.getD (vget s.ddc (16 * e + k)).cfg) 0 = false →
        (vget t.ddc (16 * e + k)).synced = true ∧ (vget t.ddc (16 * e + k)).restart = none ∧ (vget t.ddc (16 * e + k)).cfgNext = none) ∧
      (∀ k : Fin 128, k.val / 16 ≠ e.val → vget t.ddc k = vget s.ddc k) ∧ (∀ j : Fin 8, j ≠ e → vget t.ddcEng j = vget s.ddcEng j) ∧
      ({ t with ddc := s.ddc, ddcEng := s.ddcEng } : State) = s) ∧
    (x.averages = [] → exec (.ddcThreshAverage ch) s = .next s) ∧
    (∀ t0 l, x.averages = (t0, none) :: l → exec (.ddcThreshAverage ch) s =
      .next { s with ddc := vmod s.ddc ch fun x => { x with averages := l, hold := 0 } }) ∧
    (∀ t0 p l, x.averages = (t0, some p) :: l → Does (.ddcThreshAverage ch) s fun t =>
      (vget t.ddc ch).averages = l ∧ ((vget t.ddc ch).above ≠ x.above → fld x.thr 47 32 ≤ x.hold + 1 ∧ (vget t.ddc ch).hold = 0) ∧
      (vget t.ddc ch).hold ≤ x.hold + 1 ∧ (∀ k, k ≠ ch.val → vget t.ddc k = vget s.ddc k) ∧ ({ t with ddc := s.ddc, events := s.events } : State).hush = s.hush)

/-- R189, R190, R195, R220 and R224. -/
def Obligations.TriggerVerbs : Prop :=
  ∀ (c : Cmd) (s : State),
    let e := idx c.unit
    let n := argN c 0 1
    let g := trigOf s e n
    (Accepts vTrigDefine c s → ∃ r, Answers (.trigDefine c) vTrigDefine c s r (trigMod e n fun g => { defn := some (trigDefn c), forced := g.forced })) ∧
    (∀ b, kennelRead (begun vTrigLoadMask c s) (argN c 4 6) (8 * argN c 2 2) = some b → Accepts vTrigLoadMask c s → Does (.trigLoadMask c) s fun t =>
      vget (vget t.events.eng e).masks n = (readMask b (argN c 2 2)).getD [] ∧
      (∀ k, k ≠ n → vget (vget t.events.eng e).masks k = vget (vget s.events.eng e).masks k) ∧ (vget t.events.eng e).trig = (vget s.events.eng e).trig ∧
      (∀ k, k ≠ e → vget t.events.eng k = vget s.events.eng k) ∧ ({ t with events := s.events, banks := s.banks } : State).hush = s.hush) ∧
    (Accepts vTrigArm c s → Does (.trigArm c) s fun t => (trigOf t e n).armed = true ∧ (trigOf t e n).defn = g.defn ∧ (trigOf t e n).fired = g.fired ∧ (trigOf t e n).holdoff = none ∧
      (∀ j : Fin 4, (trigOf t e n).conds[j].isTrue = false ∧ (trigOf t e n).conds[j].run = 0) ∧ (∀ k m, (k, m) ≠ (e, n) → trigOf t k m = trigOf s k m) ∧
      ({ t with events := s.events } : State).hush = s.hush) ∧
    (Accepts vTrigDisarm c s → Answers (.trigDisarm c) vTrigDisarm c s [] (trigMod e n fun g => { g with armed := false, win := none, holdoff := none })) ∧
    (Accepts vTrigForce c s → (if argT0 c 4 then now s else (argT c 4).getD 0) ≤ now s → Does (.trigForce c) s fun t =>
      (trigOf t e n).fired = wrapAdd 32 g.fired 1 ∧ (trigOf t e n).defn = g.defn ∧ (trigOf t e n).win = g.win ∧
      (trigOf t e n).lastTime = (if argT0 c 4 then now s else (argT c 4).getD 0) ∧ (∀ k m, (k, m) ≠ (e, n) → trigOf t k m = trigOf s k m) ∧
      ({ t with events := s.events, fetch := s.fetch } : State).hush = s.hush) ∧
    (Accepts vTrigForce c s → now s < (if argT0 c 4 then now s else (argT c 4).getD 0) → Does (.trigForce c) s fun t =>
      (∃ rec, trigOf t e n = { g with forced := g.forced ++ [((argT c 4).getD 0, rec, g.defn.getD [])] }) ∧ (∀ k m, (k, m) ≠ (e, n) → trigOf t k m = trigOf s k m) ∧
      t.events.pins = s.events.pins ∧ ({ t with events := s.events } : State).hush = s.hush) ∧
    (Accepts vTrigSignal c s → Answers (.trigSignal c) vTrigSignal c s [] (trigMod e n fun g => if !g.armed then g else { g with
      conds := Vector.ofFn fun j => if condKind (condDef (g.defn.getD []) j) = 8 then { g.conds[j] with
        formed := g.conds[j].formed ++ [(if argT0 c 4 then now s else (argT c 4).getD 0, false, 1)] } else g.conds[j] })) ∧
    (Accepts vTrigDelete c s → Answers (.trigDelete c) vTrigDelete c s [] (trigMod e n fun g => { forced := g.forced }))

/-- R190, R199 to R202 and R221. -/
def Obligations.TriggerRows : Prop :=
  ∀ (e n : Fin 16) (s : State),
    let g := trigOf s e n
    let due := fun (a : Time) => g.forced.any fun x => decide (x.1 ≤ a) && decide (a ≤ now s)
    let next := fun (d : Bytes) => earliest ((List.range 4).filterMap fun j => condNext s (condDef d j) (vget g.conds j))
    (∀ a, due a = false → g.armed = false ∨ s.power.state ≠ .active → exec (.triggerElement e n a) s = .next s) ∧
    (∀ a, Does (.triggerElement e n a) s fun t => (∀ k m, (k, m) ≠ (e.val, n.val) → trigOf t k m = trigOf s k m) ∧
      ({ t with events := s.events, fetch := s.fetch } : State).hush = s.hush) ∧
    (∀ a d, due a = false → g.defn = some d → (∀ j < 4, condKind (condDef d j) ≠ 1 ∧ condKind (condDef d j) ≠ 2) → next d ≠ some a →
      exec (.triggerElement e n a) s = .next s) ∧
    (∀ a d, due a = false → g.armed = true → s.power.state = .active → g.defn = some d → numAt d 1 1 = 0 →
      (∀ j < 4, condKind (condDef d j) ≠ 1 ∧ condKind (condDef d j) ≠ 2) → next d = some a → (∀ j < 4, condDone s (condDef d j) a (vget g.conds j) = true) →
      let was := Vector.ofFn fun j : Fin 4 => pulseEnd (condDef d j) a g.conds[j]
      let gap := Vector.ofFn fun j : Fin 4 => condGap s (condDef d j) a g.conds[j]
      let old := Vector.ofFn fun j : Fin 4 => if gap[j] then condClear was[j] else was[j]
      let new := Vector.ofFn fun j : Fin 4 => condStep s e (condDef d j) a gap[j] old[j]
      let rise := truth d 2 (condBits new) && !(rebased d was old g).f1
      let held := g.holdoff.any fun h => decide (a < h)
      Does (.triggerElement e n a) s fun t =>
        (trigOf t e n).conds = new ∧ (trigOf t e n).f1 = truth d 2 (condBits new) ∧ (trigOf t e n).fired = (if rise && !held then wrapAdd 32 g.fired 1 else g.fired) ∧
        (trigOf t e n).suppressed = (if rise && held then wrapAdd 32 g.suppressed 1 else g.suppressed) ∧ (rise && !held = true → (trigOf t e n).lastTime = a) ∧
        (bitAt (BitVec.ofNat 8 (numAt d 6 1)) 3 = false → (trigOf t e n).armed = true)) ∧
    (∀ (j : Fin 4) (u : Time), (vget g.conds j).due = some u → g.armed = true → condKind (condDef (g.defn.getD []) j) = 7 → u ≤ now s → exec (.timerDue e n j) s =
      .next (trigMod e n (fun x => { x with conds := vmod x.conds j fun c => { c with
        formed := c.formed ++ [(u, false, 1)]
        due := if numAt (condDef (g.defn.getD []) j) 16 8 = 0 then none else some (u + nsT (numAt (condDef (g.defn.getD []) j) 16 8)) } }) s)) ∧
    (∀ j : Fin 4, (vget g.conds j).due = none → exec (.timerDue e n j) s = .next s) ∧
    (exec (.seqWindowExpire e n) s = .next (trigMod e n (fun g => { g with win := g.win.filter fun w => decide (now s ≤ w.2) }) s)) ∧
    (exec (.holdoffEnd e n) s = .next (trigMod e n (fun g => { g with holdoff := g.holdoff.filter fun h => decide (now s < h) }) s))

/-- R206, R209, R211 to R213, R218, R225, R226 and R352. -/
def Obligations.RecordRows : Prop :=
  ∀ (c : Cmd) (s : State),
    (Accepts vRecRingPolicy c s → Does (.recRingPolicy c) s fun t => (policyOf t (argN c 0 4)).copy = (argN c 4 1 == 1) ∧ (policyOf t (argN c 0 4)).channel = argN c 5 1 ∧
      (policyOf t (argN c 0 4)).copies = (policyOf s (argN c 0 4)).copies ∧ (∀ k, k ≠ argN c 0 4 → policyOf t k = policyOf s k) ∧ ({ t with events := s.events } : State).hush = s.hush) ∧
    (Accepts vRecRelease c s → Does (.recRelease c) s fun t => (∀ p ∈ releaseArg c s, ∃ q ∈ t.events.pins, q.record = p.record ∧ q.span = p.span ∧ q.state = .released ∧ q.complete = true) ∧
      ({ t with events := s.events, fetch := s.fetch } : State).hush = s.hush) ∧
    (Accepts vRecEnvelope c s → ∃ v : EnvSt, (∀ w ∈ s.events.envs, w.id ≠ v.id) ∧ v.engine.val = idx c.unit % 16 ∧ v.src = argN c 0 4 ∧ v.k = argN c 4 4 ∧ v.out = argN c 8 4 ∧
      v.words = [] ∧ Answers (.recEnvelope c) vRecEnvelope c s (le 1 v.id) fun s => { s with events := { s.events with envs := s.events.envs ++ [v] } }) ∧
    (Accepts vRecEnvStop c s → Waits (.recEnvStop c) vRecEnvStop c s fun s =>
      { s with events := { s.events with envs := s.events.envs.map fun v => if v.id == argN c 0 1 then { v with stopping := some c } else v } }) ∧
    (∀ rec sp, s.events.pins.find? (fun p => p.record == rec && p.span == sp && !p.complete) = none → exec (.spanComplete rec sp) s = .next s) ∧
    (∀ rec sp p r, s.events.pins.find? (fun p => p.record == rec && p.span == sp && !p.complete) = some p → ringOf s p.ring = some r → p.state = .open_ → p.endTime ≤ now s →
      sourceRuns s p.ring = false → Does (.spanComplete rec sp) s fun t => (∃ q ∈ t.events.pins, q.record = rec ∧ q.span = sp ∧ q.complete = true ∧ q.state = .pinned) ∧
        ({ t with events := s.events } : State).hush = s.hush) ∧
    (∀ rec sp p, s.events.pins.find? (fun p => p.record == rec && p.span == sp && !p.complete) = some p → ringOf s p.ring = none → p.endTime ≤ now s →
      Does (.spanComplete rec sp) s fun t => (∃ q ∈ t.events.pins, q.record = rec ∧ q.span = sp ∧ q.complete = true ∧ q.state = .notPinned) ∧
        ({ t with events := s.events } : State).hush = s.hush) ∧
    (∀ rec sp p, s.events.pins.find? (fun p => p.record == rec && p.span == sp && p.state == .copying) = some p → p.copied < p.blocks →
      exec (.pinCopyComplete rec sp) s = .next s) ∧
    (∀ rec sp p, s.events.pins.find? (fun p => p.record == rec && p.span == sp && p.state == .copying) = some p → p.blocks ≤ p.copied →
      (∀ r, ringOf s p.ring = some r → ∀ e ∈ pinEntries r p, e.pos < p.nextPos) → (pinCopyOut true { p with state := .copied } s).isSome = true →
      Does (.pinCopyComplete rec sp) s fun t =>
        (∃ q ∈ t.events.pins, q.record = rec ∧ q.span = sp ∧ q.state = .copied) ∧ (policyOf t p.ring).copies = wrapAdd 32 (policyOf s p.ring).copies 1 ∧
        ({ t with events := s.events, fetch := s.fetch } : State).hush = s.hush) ∧
    (∀ (id : Fin 64) v, s.events.envs.find? (fun v => v.id == id.val) = some v → v.words = [] ∨ since s v.first.2.2 < msC → exec (.envFrameClose id) s = .next s) ∧
    (∀ (id : Fin 64) v, s.events.envs.find? (fun v => v.id == id.val) = some v → v.words ≠ [] → msC ≤ since s v.first.2.2 → Does (.envFrameClose id) s fun t =>
      ({ t with events := s.events, fetch := s.fetch } : State).hush = s.hush) ∧
    (∀ (id : Fin 64) v, s.events.envs.find? (fun v => v.id == id.val) = some v → v.words ≠ [] → msC ≤ since s v.first.2.2 → ringOf s v.out = none → Does (.envFrameClose id) s fun t =>
      t.events.envs = s.events.envs.map (fun v => if v.id == id.val then { v with gaps := [], words := [], flags := 0 } else v) ∧ ({ t with events := s.events } : State) = s) ∧
    (Accepts vMeasDefine c s → Answers (.measDefine c) vMeasDefine c s [] fun s => { s with events := { s.events with meas := vmod s.events.meas (argN c 0 1) fun _ => padTo 29 c.args } }) ∧
    (Accepts vMeasRun c s → Does (.measRun c) s fun t => (vget t.events.eng (idx c.unit)).jobs =
      (vget s.events.eng (idx c.unit)).jobs ++ [(argW c 0 32, argN c 4 1, argN c 5 1, argN c 8 4, 0xFF)] ∧ ({ t with events := s.events } : State).hush = s.hush) ∧
    (∀ (e : Fin 16) j js, (vget s.events.eng e).jobs = j :: js → Does (.measComplete e) s fun t => (vget t.events.eng e).jobs = js ∧
      (vget t.events.eng e).done = wrapAdd 32 (vget s.events.eng e).done 1 ∧ (vget t.events.eng e).trig = (vget s.events.eng e).trig ∧ ({ t with events := s.events } : State).hush = s.hush) ∧
    (∀ e : Fin 16, (vget s.events.eng e).jobs = [] → exec (.measComplete e) s = .next s)

/-- R231, R232, R238, R240 to R244, R246 and R267. -/
def Obligations.DensityRows : Prop :=
  ∀ (c : Cmd) (s : State),
    let i := idx c.unit
    let d := vget s.dens i
    (Accepts vDensConfigure c s → Answers (.densConfigure c) vDensConfigure c s [] fun s => { s with dens := vmod s.dens i fun d => { d with cfg := densArg c } }) ∧
    (∀ b, kennelRead (begun vDensLoadColours c s) (argN c 0 6) 1024 = some b → Accepts vDensLoadColours c s → Does (.densLoadColours c) s fun t => (vget t.dens i).colours.length = 256 ∧ (vget t.dens i).cfg = d.cfg ∧ (∀ k, k ≠ i → vget t.dens k = vget s.dens k) ∧
      (∀ k < 256, (vget t.dens i).colours[k]? = some (BitVec.ofNat 32 (numAt b (4 * k) 4))) ∧ ({ t with dens := s.dens, banks := s.banks } : State).hush = s.hush) ∧
    (Accepts vDensStart c s → d.running = false → ∃ r, Answers (.densStart c) vDensStart c s r fun s => { s with dens := vmod s.dens i fun d => { d with
      running := true, fault := false, frameStart := nextBoundary s (densPeriod d), latest := none, spectra := 0, flags := 0, satRaised := false, next := [], stepped := false } }) ∧
    (Accepts vDensStop c s → Waits (.densStop c) vDensStop c s fun s => { s with dens := vmod s.dens i fun d => { d with stopping := some c } }) ∧
    (Accepts vDensClear c s → Answers (.densClear c) vDensClear c s [] fun s => { s with dens := vmod s.dens i fun d => { d with clearing := d.clearing ++ [nextBoundary s (densPeriod d)] } }) ∧
    (∀ a : Fin 8, let d := vget s.dens a; s.power.state = .active → d.running = false → (d.clearing.any fun b => b ≤ nowUs s) = true → (densBanks d).all (densOwns s a) = true →
      exec (.densFrameComplete a) s = .next { s with
        mem := memZero s.mem (cellAddr d 0) (cellAddr d (densCols d * densRows d)), dens := vmod s.dens a fun d => { d with clearing := d.clearing.filter fun b => nowUs s < b } }) ∧
    (∀ b, d.latest = some b → Accepts vDensStatus c s → Reports (.densStatus c) vDensStatus c s 32) ∧
    (d.latest = none → Accepts vDensStatus c s → ∃ r : Bytes, r.length = 32 ∧ Answers (.densStatus c) vDensStatus c s r fun s => (draw s).2) ∧
    (Accepts vOccConfigure c s → Answers (.occConfigure c) vOccConfigure c s [] fun s => { s with dens := vmod s.dens i fun d => { d with occCfg := occArg c } }) ∧
    (Accepts vOccChannel c s → argN c 8 4 ≠ 0xFFFFFFFF → Answers (.occChannel c) vOccChannel c s [] fun s => { s with dens := vmod s.dens i fun d => { d with
      chans := (d.chans.filter fun x => x.1 != argN c 0 1) ++ [(argN c 0 1, { first := argN c 4 4, last := argN c 8 4 })] } }) ∧
    (Accepts vOccStart c s → d.occRunning = false → Does (.occStart c) s fun t => (vget t.dens i).occRunning = true ∧ (vget t.dens i).slotStart = nextBoundary s (occPeriod d) ∧
      (vget t.dens i).row = 0 ∧ (∀ x ∈ (vget t.dens i).chans, x.2.slots = []) ∧ (∀ k, k ≠ i → vget t.dens k = vget s.dens k) ∧ ({ t with dens := s.dens, banks := s.banks } : State).hush = s.hush) ∧
    (Accepts vOccStop c s → Waits (.occStop c) vOccStop c s fun s => { s with dens := vmod s.dens i fun d => { d with occStopping := some c } }) ∧
    (Accepts vOccStatus c s → Answers (.occStatus c) vOccStatus c s [] (destWrite (argN c 0 6) ((List.range 64).flatMap (occEntry d)))) ∧
    (∀ a : Fin 8, let d := vget s.dens a; let stop := (d.frameStart + densPeriod d) * 65536000
      (s.power.state ≠ .active ∨ (d.running = false ∧ (d.clearing.any fun b => b ≤ nowUs s) = false) ∨
        (d.running = true ∧ d.stepped = false ∧ (now s < stop ∨ densDelivered s d stop = false)) → exec (.densFrameComplete a) s = .next s)) ∧
    (∀ a : Fin 8, let o := vget s.dens a; let stop := (o.slotStart + occPeriod o) * 65536000
      (s.power.state ≠ .active ∨ o.occRunning = false ∨ (o.occStepped = false ∧ (now s < stop ∨ densDelivered s o stop = false)) → exec (.occSlotComplete a) s = .next s)) ∧
    (∀ a : Fin 8, let o := vget s.dens a; o.occRunning = true → s.power.state = .active → (o.slotStart + occPeriod o) * 65536000 ≤ now s → densDelivered s o ((o.slotStart + occPeriod o) * 65536000) = true → o.occStepped = false → o.slotSpectra ≠ 0 →
      o.occStopping = none → o.occNext = [] → s.rings = [] → Memory.wf s.mem = true → Does (.occSlotComplete a) s fun t =>
        (vget t.dens a).row = 1 - o.row ∧ (vget t.dens a).slotStart = o.slotStart + occPeriod o ∧ (vget t.dens a).slotSpectra = 0 ∧ (vget t.dens a).occRunning = true ∧
        (vget t.dens a).chans = o.chans.map (fun (n, k) => (n, { k with slots := ((occIn (occBits s o (densK s o)) k.first k.last != 0) :: k.slots).take 4095 })) ∧
        (∀ x, occRowAddr o (1 - o.row) ≤ x → x < occRowAddr o (1 - o.row) + 0x2000 → memGet t.mem x = 0) ∧ (∀ k, k ≠ a.val → vget t.dens k = vget s.dens k))

/-- R235: what decay does to every count of the array at a frame that completes (no ring is configured, so that nothing else can write the banks),
and that a decaying count reaches 0. -/
def Obligations.DecayOfCounts : Prop :=
  (∀ (a : Fin 8) (s : State), let d := vget s.dens a
    d.running = true → s.power.state = .active → (d.frameStart + densPeriod d) * 65536000 ≤ now s → densDelivered s d ((d.frameStart + densPeriod d) * 65536000) = true → d.clearing = [] → d.next = [] → d.stopping = none → s.rings = [] →
    Memory.wf s.mem = true → Does (.densFrameComplete a) s fun t =>
      densCounts t (vget t.dens a) = (densCounts s d).map fun n => if fld d.cfg 51 48 = 0 then n else n - (n + 2 ^ fld d.cfg 51 48 - 1) / 2 ^ fld d.cfg 51 48) ∧
  ∀ k n : Nat, 1 ≤ k → k ≤ 15 → ∃ m, Nat.rec (motive := fun _ => Nat) n (fun _ x => x - (x + 2 ^ k - 1) / 2 ^ k) m = 0

/-- R64: the sample words of a raw block that goes into the skid buffer. -/
def Obligations.RawBlocks : Prop :=
  ∀ (i : Fin 8) (codes ahead : List Int) (s : State), let x := vget s.inputs i
    x.running = true → (x.held.getD (bitAt x.cfg 1, bitAt x.cfg 2)).1 = false → codes.length = 512 → (∀ v ∈ codes, -2048 ≤ v ∧ v ≤ 2047) → x.spans = [] → x.openSpan = none → x.gap = none → (vget s.store.skid i).overflow = none →
    skidBytes (vget s.store.skid i) + 1088 ≤ skidSize s i → Does (.ingestBlock i codes ahead) s fun t =>
      (vget t.inputs i).conv = x.conv + 512 ∧ ∃ b : Bytes, (vget t.store.skid i).blocks = (vget s.store.skid i).blocks ++ [b] ∧ b.length = 64 + 256 * 4 ∧
        ∀ j < 256, numAt b (64 + 4 * j) 4 = unsgn 16 (codes.getD (2 * j) 0 * 16) + 65536 * unsgn 16 (codes.getD (2 * j + 1) 0 * 16)

/-- R248, R250 to R252, R257, R258 and R268. -/
def Obligations.DisplayVerbs : Prop :=
  ∀ (c : Cmd) (s : State),
    let d := s.disp
    let target := (d.frame + (if dispLine s < fld d.committed.timing 79 64 - 64 then 1 else 2)).toNat
    (Accepts vDispTiming c s → Answers (.dispTiming c) vDispTiming c s [] fun s => { s with disp := { s.disp with staged := { s.disp.staged with
      timing := setFld (setFld (argW c 0 256) 175 169 0) 255 200 0 } } }) ∧
    (Accepts vDispLayer c s → Answers (.dispLayer c) vDispLayer c s [] fun s => { s with disp := { s.disp with staged := { s.disp.staged with
      layers := vmod s.disp.staged.layers (argN c 0 1) fun _ => setFld (setFld (argW c 16 256) 63 55 0) 255 152 0 } } }) ∧
    (Accepts vDispCommit c s → d.enabled = false → Answers (.dispCommit c) vDispCommit c s (le 4 1 ++ le 4 0) fun s => { s with disp := { s.disp with committed := d.staged, flipDue := true, scanning := Vector.replicate 4 none } }) ∧
    (Accepts vDispCommit c s → d.enabled = true → d.stopped = true → Does (.dispCommit c) s fun t => t.disp.committed = d.staged ∧ t.disp.staged = d.staged ∧ t.disp.pending = [] ∧ t.disp.flipDue = true ∧
      t.disp.frame = d.frame ∧ ({ t with disp := s.disp, synth := s.synth } : State).hush = s.hush) ∧
    (Accepts vDispCommit c s → d.enabled = true → d.stopped = false → Does (.dispCommit c) s fun t => t.disp.committed = d.committed ∧ t.disp.staged = d.staged ∧
      t.disp.pending = (d.pending.filter fun p => p.1 != target) ++ [(target, d.staged)] ∧ ({ t with disp := s.disp } : State).hush = s.hush) ∧
    (Accepts vDispEnable c s → argN c 0 1 = 0 → Does (.dispEnable c) s fun t => t.disp.enabled = false ∧ t.disp.train = .off ∧ t.disp.pending = [] ∧ t.disp.enabling = [] ∧
      t.disp.staged = d.staged ∧ (vget t.synth.loop 3).lock = .off ∧ ({ t with disp := s.disp, synth := s.synth } : State).hush = s.hush) ∧
    (Accepts vDispEnable c s → argN c 0 1 = 1 → d.enabled = true → d.train = .trained → Answers (.dispEnable c) vDispEnable c s [] id) ∧
    (Accepts vDispEnable c s → argN c 0 1 = 1 → d.enabled = false → d.hpd = false ∨ sinkAsked s = true → Does (.dispEnable c) s fun t => t.disp.enabled = true ∧ t.disp.enabling = d.enabling ++ [c] ∧
      t.disp.frame = 0 ∧ t.disp.stopped = true ∧ (vget t.synth.loop 3).lock = .acquiring ∧ ({ t with disp := s.disp, synth := s.synth } : State).hush = s.hush) ∧
    (∀ r l, Accepts vDispEnable c s → argN c 0 1 = 1 → d.enabled = false → d.hpd = true → sinkAsked s = false → d.pending = [] → dpChoose d.committed.timing d.sink = some (r, l) → Does (.dispEnable c) s fun t =>
      t.disp.enabled = true ∧ t.disp.enabling = d.enabling ++ [c] ∧ t.disp.train = .setup ∧ t.disp.rate = r ∧ t.disp.lanes = l ∧ t.disp.tries = 0 ∧ t.disp.frame = 0 ∧
      ({ t with disp := s.disp, synth := s.synth } : State).hush = s.hush) ∧
    (Accepts vDispAux c s → argN c 0 1 % 2 = 0 → Waits (.dispAux c) vDispAux c s fun s => { s with disp := { s.disp with
      aux := s.disp.aux ++ [{ cmd := some c, kind := argN c 0 1, addr := argN c 4 4, len := argN c 8 2, done := 0, buffer := argN c 16 6, tries := 0, since := s.cyc }] } }) ∧
    (∀ b, Accepts vDispAux c s → argN c 0 1 % 2 = 1 → kennelRead (begun vDispAux c s) (argN c 16 6) (argN c 8 2) = some b → Waits (.dispAux c) vDispAux c s fun s =>
      dispMod (fun d => { d with aux := d.aux ++ [{ cmd := some c, kind := argN c 0 1, addr := argN c 4 4, len := argN c 8 2, done := 0, buffer := argN c 16 6, data := b, tries := 0, since := s.cyc }] })
        (kennelNote (argN c 16 6) (argN c 8 2) s))

/-- R249, R250, R252 and R256 to R262. -/
def Obligations.DisplayRows : Prop :=
  ∀ s : State,
    let d := s.disp
    (∀ r, d.aux = [] → exec (.auxReply r) s = .next s) ∧ (d.aux = [] → exec .auxReplyTimeout s = .next s) ∧
    (∀ a as, d.aux = a :: as → a.tries < 7 → exec (.auxReply .defer) s = .next { s with disp := { d with aux := { a with tries := a.tries + 1, since := s.cyc } :: as } }) ∧
    (∀ a as, d.aux = a :: as → s.cyc - a.since < 40000 → exec .auxReplyTimeout s = .next s) ∧
    (∀ a as, d.aux = a :: as → 40000 ≤ s.cyc - a.since → a.tries < 7 → exec .auxReplyTimeout s = .next { s with disp := { d with aux := { a with tries := a.tries + 1, since := s.cyc } :: as } }) ∧
    (∀ a as c, d.aux = a :: as → a.cmd = some c → 40000 ≤ s.cyc - a.since → 7 ≤ a.tries → (auxNext s).disp.aux.length = as.length ∧
      exec .auxReplyTimeout s = .next (settled s (complete c 0x0D05 TIMEOUT (le 2 a.done) (auxNext s)))) ∧
    (∀ a as c x xs, d.aux = a :: as → a.cmd = some c → a.kind = 0 ∨ a.kind = 2 → (x :: xs).length = min 16 (a.len - a.done) → a.done + (x :: xs).length < a.len →
      exec (.auxReply (.ack (x :: xs))) s = .next (settled s (dispMod (fun d => { d with aux := { a with done := a.done + (x :: xs).length, tries := 0, since := (destWrite (a.buffer + a.done) (x :: xs) s).cyc } :: as })
        (destWrite (a.buffer + a.done) (x :: xs) s)))) ∧
    (∀ a as c l, d.aux = a :: as → a.cmd = some c → a.kind = 1 ∨ a.kind = 3 → a.done + 16 < a.len →
      exec (.auxReply (.ack l)) s = .next { s with disp := { d with aux := { a with done := a.done + 16, tries := 0, since := s.cyc } :: as } }) ∧
    (Does .hpdInFall s fun t => t.disp.hpd = false ∧ (d.hpd = true → t.disp.hpdFell = some s.cyc) ∧ ({ t with disp := { t.disp with hpd := d.hpd, hpdFell := d.hpdFell } } : State) = s) ∧
    (d.hpd = true ∨ d.unplugged = true → exec .hpdUnplug s = .next s) ∧
    (∀ f, d.hpd = false → d.unplugged = false → d.hpdFell = some f → f + 200000 ≤ s.cyc → Does .hpdUnplug s fun t => t.disp.unplugged = true ∧ t.disp.stopped = true ∧ t.disp.sink = none ∧ t.disp.train ≠ .trained ∧
      t.disp.committed = d.committed ∧ t.disp.frame = d.frame ∧ ({ t with disp := d } : State).hush = s.hush) ∧
    (d.hpd = true → exec .hpdInRise s = .next s) ∧
    (d.hpd = false → d.unplugged = true → Does .hpdInRise s fun t => t.disp.hpd = true ∧ t.disp.unplugged = false ∧
      (∃ a, t.disp.aux = d.aux ++ [a] ∧ a.cmd = none ∧ a.addr = 0 ∧ a.len = 16) ∧ ({ t with disp := d } : State).hush = s.hush) ∧
    (∀ f, d.hpd = false → d.unplugged = false → d.hpdFell = some f → since s f < 25000 → d.train ≠ .off →
      exec .hpdInRise s = .next { s with disp := { d with hpd := true, hpdFell := none } }) ∧
    (∀ pass want, (d.train ≠ .clock ∧ d.train ≠ .equal) ∨ (vget s.synth.loop 3).lock ≠ .locked → exec (.dpTrainStep pass want) s = .next s) ∧
    (∀ want, d.train = .clock → (vget s.synth.loop 3).lock = .locked → exec (.dpTrainStep true want) s = .next { s with disp := { d with train := .equal, tries := 0, pattern := eqPattern d } }) ∧
    (∀ want, d.train = .equal → (vget s.synth.loop 3).lock = .locked → Does (.dpTrainStep true want) s fun t => t.disp.train = .trained ∧ t.disp.enabling = [] ∧ t.disp.rate = d.rate ∧ t.disp.lanes = d.lanes ∧
      ({ t with disp := d } : State).hush = s.hush) ∧
    (∀ want, d.train = .clock → (vget s.synth.loop 3).lock = .locked → driveOf want ≠ d.drive → exec (.dpTrainStep false want) s = .next { s with disp := { d with drive := driveOf want, tries := 0 } }) ∧
    (∀ want, d.train = .equal ∨ (d.train = .clock ∧ driveOf want = d.drive) → (vget s.synth.loop 3).lock = .locked → d.tries < 4 →
      exec (.dpTrainStep false want) s = .next { s with disp := { d with drive := driveOf want, tries := d.tries + 1 } }) ∧
    (∀ want r l, d.train = .equal → (vget s.synth.loop 3).lock = .locked → 4 ≤ d.tries → bitAt d.committed.timing 168 = true → dpFallback d.committed.timing d.sink d.rate d.lanes = some (r, l) →
      Does (.dpTrainStep false want) s fun t => t.disp.train = .setup ∧ t.disp.rate = r ∧ t.disp.lanes = l ∧ t.disp.tries = 0 ∧ t.disp.enabling = d.enabling ∧ ({ t with disp := d } : State).hush = s.hush) ∧
    (∀ want, d.train = .equal → (vget s.synth.loop 3).lock = .locked → 4 ≤ d.tries → bitAt d.committed.timing 168 = false → Does (.dpTrainStep false want) s fun t => t.disp.train = .fail ∧ t.disp.stopped = true ∧ t.disp.enabling = [] ∧
      ({ t with disp := d } : State).hush = s.hush) ∧
    (d.enabled = false ∨ d.stopped = true → exec .verticalBlank s = .next s) ∧
    (∀ p, d.enabled = true → d.stopped = false → d.pending.find? (fun p => p.1 == (d.frame + 1).toNat) = some p → Does .verticalBlank s fun t => t.disp.committed = p.2 ∧ t.disp.flipDue = true ∧
      t.disp.pending = d.pending.filter (fun q => q.1 != p.1) ∧ t.disp.staged = d.staged ∧ t.disp.frame = d.frame ∧ t.disp.msa = some p.2.timing ∧ ({ t with disp := d, synth := s.synth } : State).hush = s.hush) ∧
    (d.enabled = true → d.stopped = false → d.pending.find? (fun p => p.1 == (d.frame + 1).toNat) = none → exec .verticalBlank s = .next { s with disp := { d with msa := some d.committed.timing } }) ∧
    (d.enabled = false ∨ d.train ≠ .trained ∨ (vget s.synth.loop 3).lock ≠ .locked → exec .frameStart s = .next s) ∧
    (d.enabled = true → d.train = .trained → (vget s.synth.loop 3).lock = .locked → Does .frameStart s fun t => t.disp.frame = d.frame + 1 ∧ ((∀ n < 4, layerDenied s n = false) → t.disp.off = 0) ∧ t.disp.stopped = false ∧ t.disp.frameAt = s.cyc ∧
      t.disp.lastFlip = (if d.flipDue = true then now s else d.lastFlip) ∧ t.disp.committed = d.committed ∧ t.disp.pending = d.pending ∧ ({ t with disp := d } : State).hush = s.hush) ∧
    (∀ (n : Fin 4) (line : Nat), d.enabled = false ∨ d.stopped = true ∨ bitAt (vget d.committed.layers n) 50 = false ∨ bitAt d.off n = true ∨ fld d.committed.timing 79 64 ≤ line → exec (.layerUnderrun n line) s = .next s) ∧
    (∀ (n : Fin 4) (line : Nat), d.enabled = true → d.stopped = false → bitAt (vget d.committed.layers n) 50 = true → bitAt d.off n = false → d.storeDark = false → line < fld d.committed.timing 79 64 →
      Does (.layerUnderrun n line) s fun t => bitAt t.disp.off n = true ∧ vget t.disp.underruns n = (vget d.underruns n + 1) % 65536 ∧
        (∀ k : Fin 4, k ≠ n → bitAt t.disp.off k = bitAt d.off k ∧ vget t.disp.underruns k = vget d.underruns k) ∧ t.disp.committed = d.committed ∧ ({ t with disp := d } : State).hush = s.hush)

/-- R278, R281, R285, R288, R289, R293, R296, R300 and R303. -/
def Obligations.StoreOperations : Prop :=
  ∀ (c : Cmd) (s : State) (ch : Fin 64),
    let x := vget s.store.chans ch
    let k := ch.val / 16
    let on := ch.val < nCh s.grade ∧ portsHeld s = false ∧ stackStalled s k = false ∧ pausing s x = false
    let q := x.queue.map fun r => { r with late := r.late || reqLate s r }
    (Accepts vStoreConfigure c s → Answers (.storeConfigure c) vStoreConfigure c s [] fun s => { s with store := { s.store with cfg := setFld (argW c 0 32) 1 0 (fld s.store.cfg 1 0) } }) ∧
    (Accepts vStoreSetRate c s → argN c 0 1 = fld s.store.cfg 1 0 → Answers (.storeSetRate c) vStoreSetRate c s (le 4 0) id) ∧
    (Accepts vStoreSetRate c s → argN c 0 1 ≠ fld s.store.cfg 1 0 → Waits (.storeSetRate c) vStoreSetRate c s fun s =>
      maintAsk 1 0x0800 0 (argN c 0 1) (some c) 0x0E02 { s with store := { s.store with rateChange := some ⟨argN c 0 1, some c, none⟩ } }) ∧
    (Accepts vStorePort c s → Does (.storePort c) s fun t => t.store.ports.length = s.store.ports.length ∧
      (∀ i p, s.store.ports[i]? = some p → t.store.ports[i]? = some (if i = argN c 0 1 + 6 then { p with target := argN c 4 4 } else p)) ∧ ({ t with store := s.store } : State).hush = s.hush) ∧
    (Accepts vStoreRetrain c s → Waits (.storeRetrain c) vStoreRetrain c s fun s => maintAsk 2 c.unit 0 0 (some c) 0x0E04 s) ∧
    (Accepts vStorePortStatus c s → Does (.storePortStatus c) s fun t => t.store.ports.map (·.target) = s.store.ports.map (·.target) ∧ t.store.cfg = s.store.cfg ∧
      ((∀ j : Fin 64, (vget s.store.chans j).queue = []) → t.store.ports = if argBit c 8 0 then s.store.ports.map portClear else s.store.ports)) ∧
    (nCh s.grade ≤ ch → (∀ a e, exec (.storeAccessIssue ch a e) s = .next s) ∧ exec (.perBankRefresh ch) s = .next s ∧ exec (.retrainPause ch) s = .next s ∧ (∀ e, exec (.scrubRead ch e) s = .next s)) ∧
    (∀ r n, on → x.burst = some (r, n) → x.forced = none → x.pauseDue = false → 1 < n → Does (.storeAccessIssue ch [] .clean) s fun t => (vget t.store.chans ch).burst = some (r, n - 1) ∧
      (vget t.store.chans ch).queue = q ∧ ∀ j, j ≠ ch.val → vget t.store.chans j = vget s.store.chans j) ∧
    (on → x.burst = none → x.queue ≠ [] → Does (.storeAccessIssue ch [] .clean) s fun t => ∃ r, r ∈ q ∧ (vget t.store.chans ch).queue = q.erase r ∧
      (∀ y ∈ q, urgency s y ≤ urgency s r) ∧ (∀ y ∈ q, urgency s y = urgency s r → r.rank ≤ y.rank) ∧ (∀ j, j ≠ ch.val → vget t.store.chans j = vget s.store.chans j)) ∧
    (ch.val < nCh s.grade → s.store.dozing = false → s.store.selfRefresh = false → Does (.perBankRefresh ch) s fun t => (vget t.store.chans ch).nextBank = (x.nextBank + 1) % 96 ∧
      (x.burst = none → pausing s x = false → (vget t.store.chans ch).owed = x.owed ∧ t.store.stks = s.store.stks) ∧
      (x.burst = none → pausing s x = true → (vget t.store.chans ch).pauseOwed = x.pauseOwed ++ [x.nextBank] ∧ (vget t.store.stks k).postponed = ((vget s.store.stks k).postponed + 1) % 2 ^ 32) ∧
      (x.burst ≠ none → (vget t.store.chans ch).owed = x.owed ++ [x.nextBank] ∧ (vget t.store.stks k).postponed = ((vget s.store.stks k).postponed + 1) % 2 ^ 32 ∧
        ((x.owed.filter (· == x.nextBank)).length < 4 → (vget t.store.chans ch).forced = x.forced) ∧ (4 ≤ (x.owed.filter (· == x.nextBank)).length → (vget t.store.chans ch).forced = some x.nextBank)) ∧
      ({ t with store := s.store } : State) = s) ∧
    (pauseCount s ch ≤ x.pausesDone → exec (.retrainPause ch) s = .next s) ∧
    (ch.val < nCh s.grade → x.pausesDone < pauseCount s ch → rateChanging s = true ∨ s.store.dozing = true ∨ s.store.selfRefresh = true →
      exec (.retrainPause ch) s = .next { s with store := { s.store with chans := vmod s.store.chans ch fun x => { x with pausesDone := pauseCount s ch } } }) ∧
    (ch.val < nCh s.grade → x.pausesDone < pauseCount s ch → rateChanging s = false → s.store.dozing = false → s.store.selfRefresh = false → Does (.retrainPause ch) s fun t =>
      (vget t.store.chans ch).pausesDone = pauseCount s ch ∧
      (x.burst = none → (vget t.store.stks k).pauses = ((vget s.store.stks k).pauses + 1) % 2 ^ 32 ∧ (vget t.store.chans ch).pauseDue = false ∧ (vget t.store.chans ch).pausedAt = some s.cyc) ∧
      (x.burst ≠ none → (vget t.store.chans ch).pauseDue = true ∧ t.store.stks = s.store.stks) ∧ ({ t with store := s.store } : State) = s) ∧
    (bitAt s.store.cfg 3 = false ∨ portsHeld s = true → ∀ e, exec (.scrubRead ch e) s = .next s) ∧
    (on → bitAt s.store.cfg 3 = true → scrubWord s (granuleAddr s.grade ch x.scrub) = none → exec (.scrubRead ch .clean) s = .next { s with store := { s.store with chans := vmod s.store.chans ch fun x => { x with scrub := (x.scrub + 1) % 6291456 } } }) ∧
    (∀ (st : Fin 4) (failed : BitVec 16), maintRunning s 2 (BitVec.ofNat 16 (0x0801 + st)) = none → exec (.storeRetrainDone st failed) s = .next s) ∧
    (∀ (st : Fin 4) (failed : BitVec 16) r, maintRunning s 2 (BitVec.ofNat 16 (0x0801 + st)) = some r → Does (.storeRetrainDone st failed) s fun t => ((vget t.store.stks st).degraded = true ↔ failed ≠ 0) ∧
      t.maint.running = s.maint.running.filter (fun q => q.ticket != r.ticket)) ∧
    (∀ step pause, (s.maint.running.find? fun r => r.activity == 1) = none → exec (.storeRateChangeDone step pause) s = .next s) ∧
    (∀ step pause r, (s.maint.running.find? fun r => r.activity == 1) = some r → r.opcode = 0x0E02 → r.origin = 0 → Does (.storeRateChangeDone step pause) s fun t =>
      t.store.cfg = (if step = 0 then setFld s.store.cfg 1 0 r.arg else s.store.cfg) ∧ t.store.rateChange = none ∧ t.store.lastPause = pause % 2 ^ 32 ∧
      t.maint.running = s.maint.running.filter (fun q => q.ticket != r.ticket) ∧ ({ t with store := s.store, maint := s.maint } : State).hush = s.hush) ∧
    exec .storeWake s = .next (if s.store.dozing = true then { s with store := { s.store with dozing := false, lastAccess := s.cyc } } else s) ∧
    (s.power.state = .active → exec .storeDoze s = .next s) ∧
    (s.power.state = .quiet → s.store.dozing = false → s.store.lastAccess + 100000 ≤ s.cyc → (∀ j : Fin 64, (vget s.store.chans j).queue = []) → Does .storeDoze s fun t => t.store.dozing = true ∧ ({ t with store := s.store } : State) = s)

/-- R308, R311 to R314, R316 and R318. -/
def Obligations.BankOperations : Prop :=
  ∀ (c : Cmd) (s : State) (b : Fin 32),
    let k := vget s.banks b
    let on := fun (h : Handle) => k.owner = h ∧ h ≠ 0xFFFF ∧ actsAs h = h ∧ k.pendingOwner = 0xFFFF ∧ k.power = 0 ∧ k.filling = none ∧ k.badWords = []
    let rd := fun (h : Handle) (o n : Nat) => ({ who := h, addr := b * 0x400000 + o, op := .read n } : BankAcc)
    let wr := fun (h : Handle) (al o : Nat) (d : Bytes) => ({ who := h, addr := al * 0x8000000 + b * 0x400000 + o, op := .write d } : BankAcc)
    let line := fun (o n : Nat) => 0 < n ∧ o % 64 + n ≤ 64 ∧ o < 0x400000
    (∀ a, accPort a 0 = false → exec (.bankAccess b (some a) none) s = .next s) ∧ (∀ a, accPort a 1 = false → exec (.bankAccess b none (some a)) s = .next s) ∧
    (∀ h o n, on h → line o n → accPort (rd h o n) 0 = true → Does (.bankAccess b (some (rd h o n)) none) s fun t => vget (vget t.banks b).out 0 = memTake s.mem (b * 0x400000 + o) n ∧
      ({ t with banks := s.banks } : State) = s ∧ ∀ j, j ≠ b.val → vget t.banks j = vget s.banks j) ∧
    (∀ h o d, on h → line o d.length → accPort (wr h 0 o d) 1 = true → Does (.bankAccess b none (some (wr h 0 o d))) s fun t => t.mem = memPut s.mem (b * 0x400000 + o) d ∧
      ({ t with banks := s.banks, mem := s.mem } : State) = s ∧ ∀ j, j ≠ b.val → vget t.banks j = vget s.banks j) ∧
    (∀ h o d, on h → line o d.length → accPort (wr h 1 o d) 1 = true → Does (.bankAccess b none (some (wr h 1 o d))) s fun t =>
      t.mem = memPut s.mem (b * 0x400000 + o) (List.zipWith (· ||| ·) (memTake s.mem (b * 0x400000 + o) d.length) d) ∧ ({ t with banks := s.banks, mem := s.mem } : State) = s) ∧
    (∀ h o d, on h → line o d.length → accPort (wr h 2 o d) 1 = true → Does (.bankAccess b none (some (wr h 2 o d))) s fun t =>
      t.mem = memPut s.mem (b * 0x400000 + o) (List.zipWith (fun x m => x &&& ~~~m) (memTake s.mem (b * 0x400000 + o) d.length) d) ∧ ({ t with banks := s.banks, mem := s.mem } : State) = s) ∧
    (∀ h o d e, on h → line o d.length → e.length = d.length → accPort (wr h 0 o d) 0 = true → accPort (wr h 0 o e) 1 = true → Does (.bankAccess b (some (wr h 0 o d)) (some (wr h 0 o e))) s fun t =>
      t.mem = memPut (memPut s.mem (b * 0x400000 + o) e) (b * 0x400000 + o) d) ∧
    (∀ h o d, on h → line o d.length → accPort (rd h o d.length) 0 = true → accPort (wr h 0 o d) 1 = true → Does (.bankAccess b (some (rd h o d.length)) (some (wr h 0 o d))) s fun t =>
      vget (vget t.banks b).out 0 = memTake s.mem (b * 0x400000 + o) d.length ∧ t.mem = memPut s.mem (b * 0x400000 + o) d) ∧
    (∀ h o n, bankAns k h = .denied → line o n → accPort (rd h o n) 0 = true → Does (.bankAccess b (some (rd h o n)) none) s fun t => vget (vget t.banks b).out 0 = List.replicate n 0 ∧
      (vget t.banks b).lastDenied = h ∧ (vget t.banks b).lastDeniedTime = now s ∧ (vget t.banks b).deniedReads = (k.deniedReads + 1) % 2 ^ 32 ∧ (vget t.banks b).deniedWrites = k.deniedWrites ∧
      ({ t with banks := s.banks } : State).hushEv = s.hushEv) ∧
    (∀ h o d, bankAns k h = .denied → line o d.length → accPort (wr h 0 o d) 0 = true → Does (.bankAccess b (some (wr h 0 o d)) none) s fun t => (vget t.banks b).deniedWrites = (k.deniedWrites + 1) % 2 ^ 32 ∧
      (vget t.banks b).lastDenied = h ∧ ({ t with banks := s.banks } : State).hushEv = s.hushEv ∧ (s.rings = [] → t.mem = s.mem)) ∧
    (∀ h o n, k.pendingOwner ≠ 0xFFFF → actsAs h = k.pendingOwner → line o n → accPort (rd h o n) 0 = true → exec (.bankAccess b (some (rd h o n)) none) s =
      .next { s with banks := vmod s.banks b fun k => { k with held := k.held ++ [(false, rd h o n)] } }) ∧
    (Accepts vBankHandover c s → Waits (.bankHandover c) vBankHandover c s fun s => { s with banks := vmod s.banks (idx c.unit) fun b => { b with pendingOwner := argW c 2 16, handover := some (some c, s.cyc) } }) ∧
    (k.handover = none → exec (.handoverDrainDone b) s = .next s) ∧
    (k.handover ≠ none → Does (.handoverDrainDone b) s fun t => (vget t.banks b).owner = k.pendingOwner ∧ (vget t.banks b).pendingOwner = 0xFFFF ∧ (vget t.banks b).handover = none ∧
      (k.pendingOwner ≠ 0xFFFF → (vget t.banks b).held = [])) ∧
    (Accepts vBankPower c s → argN c 0 1 = 0 → (vget s.banks (idx c.unit)).power = 2 → Waits (.bankPower c) vBankPower c s fun s =>
      { s with banks := vmod s.banks (idx c.unit) fun b => { b with power := 0, filling := some (.powerOn c) } }) ∧
    (Accepts vBankPower c s → argN c 0 1 ≠ 0 ∨ (vget s.banks (idx c.unit)).power ≠ 2 → Does (.bankPower c) s fun t => (vget t.banks (idx c.unit)).power = argN c 0 1 ∧ (vget t.banks (idx c.unit)).owner = (vget s.banks (idx c.unit)).owner ∧
      ({ t with banks := s.banks } : State).hush = s.hush) ∧
    (Accepts vBankFill c s → Waits (.bankFill c) vBankFill c s fun s => { s with banks := vmod s.banks (idx c.unit) fun b => { b with filling := some (.fill c (argW c 0 32)) } }) ∧
    (k.filling = none → exec (.bankFillDone b) s = .next s) ∧
    (k.filling = some .zero → Does (.bankFillDone b) s fun t => (vget t.banks b).filling = none ∧ t.mem = memZero s.mem (b * 0x400000) ((b + 1) * 0x400000) ∧ ({ t with banks := s.banks, mem := s.mem } : State) = s) ∧
    (∀ c, k.filling = some (.powerOn c) → Does (.bankFillDone b) s fun t => (vget t.banks b).filling = none ∧ (vget t.banks b).badWords = [] ∧ ({ t with banks := s.banks } : State).hush = s.hush) ∧
    (∀ c w, k.filling = some (.fill c w) → Does (.bankFillDone b) s fun t => (vget t.banks b).filling = none ∧ (vget t.banks b).badWords = [] ∧ ({ t with banks := s.banks } : State).hush = s.hush)

/-- R322 to R329, R331 and R333. -/
def Obligations.FetchOperations : Prop :=
  ∀ (c : Cmd) (s : State),
    let n := idx c.unit
    let x := vget s.fetch.ch n
    (Accepts vFetchStart c s → x.ch = .idle → x.queue = [] → x.waiting = [] → Does (.fetchStart c) s fun t => (vget t.fetch.ch n).ch = .running ∧ (vget t.fetch.ch n).queue = [fetchDesc c] ∧
      (vget t.fetch.ch n).beatsDone = 0 ∧ (vget t.fetch.ch n).beatsTotal = argN c 16 8 / 64 ∧ (vget t.fetch.ch n).order = fetchOrder s.grade (fetchDesc c) ∧
      (∀ k, k ≠ n → vget t.fetch.ch k = vget s.fetch.ch k) ∧ ({ t with fetch := s.fetch } : State).hush = s.hush) ∧
    (Accepts vFetchStart c s → x.ch ≠ .idle → Answers (.fetchStart c) vFetchStart c s (le 1 (x.queue.length + 1)) fun s => { s with
      fetch := { s.fetch with ch := vmod s.fetch.ch n fun x => { x with queue := x.queue ++ [fetchDesc c] } } }) ∧
    (Accepts vFetchConfigure c s → Answers (.fetchConfigure c) vFetchConfigure c s [] fun s => { s with fetch := { s.fetch with ch := vmod s.fetch.ch n fun x => { x with cfg := argW c 0 32 } } }) ∧
    (Accepts vFetchAbort c s → argBit c 0 0 = true → x.waiting = [] → Does (.fetchAbort c) s fun t => (vget t.fetch.ch n).ch = .idle ∧ (vget t.fetch.ch n).queue = [] ∧ (vget t.fetch.ch n).staged = none ∧
      (∀ k, k ≠ n → vget t.fetch.ch k = vget s.fetch.ch k) ∧ ({ t with fetch := s.fetch } : State).hush = s.hush) ∧
    (∀ d e q, Accepts vFetchAbort c s → argBit c 0 0 = false → x.waiting = [] → x.queue = d :: e :: q → Does (.fetchAbort c) s fun t => (vget t.fetch.ch n).ch = .running ∧ (vget t.fetch.ch n).queue = e :: q ∧
      (vget t.fetch.ch n).beatsDone = 0 ∧ ({ t with fetch := s.fetch } : State).hush = s.hush) ∧
    (∀ d e q, Accepts vFetchClear (withByte c 0 0) s → argBit c 1 0 = false → x.waiting = [] → x.queue = d :: e :: q → Does (.fetchClearAbandon c) s fun t => (vget t.fetch.ch n).ch = .running ∧
      (vget t.fetch.ch n).queue = e :: q ∧ (vget t.fetch.ch n).beatsDone = 0 ∧ (vget t.fetch.ch n).errKind = 0 ∧ ({ t with fetch := s.fetch } : State).hush = s.hush) ∧
    (Accepts vFetchClear (withByte c 0 1) s → argBit c 1 0 = false → Does (.fetchClearRetry c) s fun t => (vget t.fetch.ch n).ch = .running ∧ (vget t.fetch.ch n).queue = x.queue ∧
      (vget t.fetch.ch n).beatsDone = x.beatsDone ∧ (vget t.fetch.ch n).order = x.order ∧ (vget t.fetch.ch n).errKind = 0 ∧ ({ t with fetch := s.fetch } : State).hush = s.hush) ∧
    ((∀ k : Fin 32, (vget s.fetch.ch k).ch = .idle ∨ (vget s.fetch.ch k).ch = .halted) → Does .fetchBeat s fun t =>
      (∀ k : Fin 32, vget t.fetch.ch k = { vget s.fetch.ch k with heldSince := none }) ∧ ({ t with fetch := s.fetch } : State) = s) ∧
    (∀ (k : Fin 32) (d : FetchDesc) (q : List FetchDesc), fetchPick (fetchHold (fetchPreempt s)) = some k.val → (vget s.fetch.ch k).queue = d :: q → d.pin = none → d.flags = 0 →
      (vget s.fetch.ch k).staged = none → (vget s.fetch.ch k).outstanding = none →
      let ra := d.src + beatOffset (vget s.fetch.ch k)
      let wa := d.dst + beatOffset (vget s.fetch.ch k)
      (∀ kind, readAns (fetchHold (fetchPreempt s)) k ra = .err kind → kind ≠ 2 → kind ≠ 5 → Does .fetchBeat s fun t => (vget t.fetch.ch k).ch = .halted ∧ (vget t.fetch.ch k).queue = d :: q ∧
        (vget t.fetch.ch k).errKind = kind ∧ (vget t.fetch.ch k).errSide = 0 ∧ (vget t.fetch.ch k).errAddr = ra ∧ (vget t.fetch.ch k).beatsDone = (vget s.fetch.ch k).beatsDone ∧
        ({ t with fetch := s.fetch } : State).hushEv = s.hushEv) ∧
      (∀ b p w y, readAns (fetchHold (fetchPreempt s)) k ra = .go → writeAns (fetchHold (fetchPreempt s)) k wa = .go → regionOf s.grade ra = .bank b 0 p → regionOf s.grade wa = .bank w 0 y →
        ra % 64 = 0 → wa % 64 = 0 → Does .fetchBeat s fun t =>
        t.mem = memPut s.mem y (memTake s.mem p 64) ∧ (vget t.fetch.ch k).bytesMoved = ((vget s.fetch.ch k).bytesMoved + 64) % 2 ^ 64 ∧
        ((vget s.fetch.ch k).beatsDone + 1 < (vget s.fetch.ch k).beatsTotal → (vget t.fetch.ch k).beatsDone = (vget s.fetch.ch k).beatsDone + 1 ∧ (vget t.fetch.ch k).queue = d :: q) ∧
        ((vget s.fetch.ch k).beatsDone + 1 = (vget s.fetch.ch k).beatsTotal → q = [] → (vget s.fetch.ch k).waiting = [] → (vget t.fetch.ch k).ch = .idle ∧ (vget t.fetch.ch k).queue = [] ∧
          (vget t.fetch.ch k).transfers = ((vget s.fetch.ch k).transfers + 1) % 2 ^ 32) ∧ ({ t with fetch := s.fetch, mem := s.mem, banks := s.banks } : State) = s)) ∧
    (∀ k : Fin 32, (vget s.fetch.ch k).heldSince = none → exec (.fetchBondDownTimeout k) s = .next s) ∧
    (∀ (k : Fin 32) h d q, (vget s.fetch.ch k).heldSince = some h → h + 10000000 ≤ s.cyc → (vget s.fetch.ch k).queue = d :: q → Does (.fetchBondDownTimeout k) s fun t => (vget t.fetch.ch k).ch = .halted ∧
      (vget t.fetch.ch k).errKind = 4 ∧ (vget t.fetch.ch k).queue = d :: q ∧ ({ t with fetch := s.fetch } : State).hushEv = s.hushEv)

/-- R337, R339, R341, R342, R345, R346, R358, R359, R361, R363 and R364. -/
def Obligations.RingAndStreamOperations : Prop :=
  ∀ (c : Cmd) (s : State),
    let id := argN c 0 4
    (Accepts vRingCreate c s → Does (.ringCreate c) s fun t => (∃ r, ringOf t id = some r ∧ r.base = argN c 4 6 ∧ r.log2 = argN c 10 1 ∧ r.type = argN c 11 1 ∧ r.owner = argW c 12 16 ∧ r.policy = argN c 14 1 ∧
      r.watermark = argN c 16 2 ∧ r.producer = 0 ∧ r.consumer = 0 ∧ r.entries = []) ∧ ({ t with rings := s.rings } : State).hush = s.hush) ∧
    (Accepts vRingDelete c s → Answers (.ringDelete c) vRingDelete c s [] fun s => { s with rings := s.rings.filter fun r => r.id != id }) ∧
    (∀ r, Accepts vRingModify c s → ringOf s id = some r → argBit c 10 0 = false → Answers (.ringModify c) vRingModify c s [] fun s => ringSet { r with
      policy := argN c 4 1, watermark := argN c 6 2, owner := if argN c 8 2 = 0xFFFE then r.owner else argW c 8 16 } s) ∧
    (∀ r, Accepts vRingModify c s → ringOf s id = some r → argBit c 10 0 = true → Answers (.ringModify c) vRingModify c s [] fun s => ringSet (ringFreed s { r with
      policy := argN c 4 1, watermark := argN c 6 2, owner := if argN c 8 2 = 0xFFFE then r.owner else argW c 8 16, stopped := false, consumer := r.producer }) s) ∧
    (Accepts vRingConsume c s → id < 0x40 ∨ 0x80 ≤ id → Answers (.ringConsume c) vRingConsume c s [] (ringConsumeTo id (argN c 8 8))) ∧
    (∀ (ring : Nat) (b : Bytes), ringOf s ring = none → exec (.ringPublish ring (.entry b)) s = .next s) ∧
    (∀ (ring : Nat) (b : Bytes) (r : RingCtx), ringOf s ring = some r → entryFits r.type b = false → exec (.ringPublish ring (.entry b)) s = .next s) ∧
    (∀ (ring : Nat) (b : Bytes) (r : RingCtx), ringOf s ring = some r → 0x90 ≤ ring → entryFits r.type b = true → r.stopped = false → r.gapPending = false → ringPlaceOk s r = true → ringReach s r = true →
      r.producer + b.length ≤ r.consumer + 2 ^ r.log2 → (∀ p ∈ s.events.pins, p.ring ≠ ring) →
      Does (.ringPublish ring (.entry b)) s fun t => (∃ u, ringOf t ring = some u ∧ u.producer = r.producer + b.length ∧ u.consumer = r.consumer ∧ u.base = r.base ∧ u.stopped = false) ∧
        (∀ k, 0x90 ≤ k → k ≠ ring → ringOf t k = ringOf s k)) ∧
    (∀ r, Accepts vStreamStart c s → ringOf s id = some r → argN c 5 1 = 0 → Answers (.streamStart c) vStreamStart c s [] fun s => ringSet { r with reader := c.unit } { s with streams := s.streams ++ [startStreamSt c r] }) ∧
    (∀ st, Accepts vStreamStop c s → s.streams.find? (fun x => x.ring == id) = some st → st.unacked ≠ [] → Does (.streamStop c) s fun t =>
      t.streams.find? (fun x => x.ring == id) = some { st with stopping := some c } ∧ ({ t with streams := s.streams } : State).hush = s.hush) ∧
    (∀ st, Accepts vStreamStop c s → s.streams.find? (fun x => x.ring == id) = some st → st.unacked = [] → st.resend = [] → st.inEntry = 0 → Does (.streamStop c) s fun t =>
      t.streams.find? (fun x => x.ring == id) = none ∧ ({ t with streams := s.streams } : State).hush = s.hush) ∧
    (∀ ring, s.streams.find? (fun x => x.ring == ring) = none → exec (.streamSendPacket ring) s = .next s) ∧
    (∀ ring st, s.streams.find? (fun x => x.ring == ring) = some st → bondUp s st.bond = false → exec (.streamSendPacket ring) s = .next s) ∧
    (∀ ring st r p ps, s.streams.find? (fun x => x.ring == ring) = some st → ringOf s ring = some r → bondUp s st.bond = true → s.power.state = .active → st.resend = p :: ps → Does (.streamSendPacket ring) s fun t =>
      (∃ st', t.streams.find? (fun x => x.ring == ring) = some st' ∧ st'.resend = ps ∧ st'.seq = st.seq ∧ st'.sendPos = st.sendPos ∧ st'.unacked.length = st.unacked.length + 1) ∧ t.rings = s.rings) ∧
    (∀ ring st r e, s.streams.find? (fun x => x.ring == ring) = some st → ringOf s ring = some r → bondUp s st.bond = true → s.power.state = .active → st.resend = [] → st.lostFirst = none → st.stopping = none → st.inEntry = 0 →
      (r.entries.filter fun e => st.sendPos < e.pos + e.len) = [e] → e.pos = st.sendPos → e.len ≤ st.maxPayload → entryBad s r e = false → Does (.streamSendPacket ring) s fun t =>
      t = packetNew st e.kind 3 e.time st.sendPos e.len (st.sendPos + e.len) 0 (ringRead s r st.sendPos e.len) s ∧ ∃ st', t.streams.find? (fun x => x.ring == ring) = some st' ∧ st'.seq = (st.seq + 1) % 2 ^ 32 ∧
        st'.sendPos = st.sendPos + e.len ∧ st'.unacked.length = st.unacked.length + 1)

/-- R374, R378, R380, R383 to R386, R388, R391, R393 and R394. -/
def Obligations.SynthVerbs : Prop :=
  ∀ (c : Cmd) (s : State),
    let l := idx c.unit
    let x := vget s.synth.loop l
    let axs := fun (f : AxsSt → AxsSt) (s : State) => ({ s with synth := { s.synth with axs := f s.synth.axs } } : State)
    (Accepts vSynthSetRate c s → Does (.synthSetRate c) s fun t => vget t.synth.ref.changes l = some ⟨some c, 0x1301, argW c 0 40, false⟩ ∧ t.synth.loop = s.synth.loop ∧
      (∀ i : Fin 8, (vget s.inputs i).running = true → (vget s.inputs i).ending = none → i.val / 4 = l → (vget t.inputs i).switch.isSome = true) ∧ (∀ i : Fin 8, i.val / 4 ≠ l → vget t.inputs i = vget s.inputs i) ∧
      ({ t with synth := s.synth, inputs := s.inputs, cals := s.cals } : State).hush = s.hush) ∧
    (Accepts vSynthConfigure c s → Answers (.synthConfigure c) vSynthConfigure c s [] fun s => { s with synth := { s.synth with
      loop := vmod s.synth.loop l fun x => { x with cfg := setFld (setFld (setFld (argW c 0 32) 31 27 0) 1 1 0) 3 2 (fld x.cfg 3 2) } } }) ∧
    (Accepts vSynthAlign c s → argN c 0 1 = 0 → phaseEqual s l = some true → Does (.synthAlign c) s fun t => (vget t.synth.loop l).aligned = true ∧ (vget t.synth.loop l).phase = x.phase ∧
      (vget t.synth.loop l).n = x.n ∧ (x.suspect = false → t.inputs = s.inputs) ∧ ({ t with synth := s.synth, inputs := s.inputs } : State).hush = s.hush) ∧
    (Accepts vSynthAlign c s → argN c 0 1 = 0 → phaseEqual s l = some false → Does (.synthAlign c) s fun t => (vget t.synth.loop l).aligned = true ∧
      (vget t.synth.loop l).phase = some (s.cyc, buildOutNow s) ∧ (vget t.synth.loop l).n = x.n ∧ vget t.synth.markers l = [] ∧
      (∀ i : Fin 8, (vget s.inputs i).running = true → (vget s.inputs i).ending = none → i.val / 4 = l → (vget t.inputs i).switch.isSome = true) ∧ ({ t with synth := s.synth, inputs := s.inputs, cals := s.cals } : State).hush = s.hush) ∧
    (Accepts vSynthAlign c s → argN c 0 1 = 1 → Waits (.synthAlign c) vSynthAlign c s fun s => { s with synth := { s.synth with ref := { s.synth.ref with
      aligns := vmod s.synth.ref.aligns l fun as => as ++ [(c, (argT c 4).getD 0)] } } }) ∧
    (Accepts vSynthSpread c s → l < 8 → Waits (.synthSpread c) vSynthSpread c s (maintAsk 1 c.unit 0 (argN c 0 1) (some c) 0x1304)) ∧
    (Accepts vSynthSpread c s → 8 ≤ l → octetBonds s (l - 8) = [] → Answers (.synthSpread c) vSynthSpread c s [] fun s => { s with synth := { s.synth with
      loop := vmod s.synth.loop l fun x => { x with cfg := setFld x.cfg 3 2 (argN c 0 1) } } }) ∧
    (Accepts vSynthAxsSet c s → argT0 c 8 = true → s.synth.axs.ramp = none → within1 s.synth.axs.bandN.toNat (fld (axsCfgOf c) 39 0) = true → Does (.synthAxsSet c) s fun t =>
      (vget t.synth.loop 2).n = BitVec.ofNat 40 (fld (axsCfgOf c) 39 0) ∧ t.synth.axs = { s.synth.axs with cfg := axsCfgOf c, hopIdx := 0xFF } ∧ t.maint = s.maint ∧ ({ t with synth := s.synth } : State).hush = s.hush) ∧
    (Accepts vSynthAxsSet c s → argT0 c 8 = true → s.synth.axs.ramp = none → within1 s.synth.axs.bandN.toNat (fld (axsCfgOf c) 39 0) = false →
      Waits (.synthAxsSet c) vSynthAxsSet c s (maintAsk 6 0x0C02 0 (axsCfgOf c).toNat (some c) 0x1305)) ∧
    (Accepts vSynthAxsSet c s → argT0 c 8 = false → Waits (.synthAxsSet c) vSynthAxsSet c s (axs fun a => { a with retune := a.retune ++ [(c, axsCfgOf c, (argT c 8).getD 0)] })) ∧
    (Accepts vSynthAxsStore c s → Waits (.synthAxsStore c) vSynthAxsStore c s (maintAsk 6 0x0C02 0 (2 ^ 72 + argN c 0 1 * 2 ^ 64 + argN c 4 5) (some c) 0x1306)) ∧
    (Accepts vSynthAxsHop c s → Waits (.synthAxsHop c) vSynthAxsHop c s (axs fun a => { a with hop := a.hop ++ [(c, argN c 0 1, (argT c 4).getD 0, !argT0 c 4 && decide ((argT c 4).getD 0 < now s))] })) ∧
    (∀ b, Accepts vSynthAxsRampLoad c s → kennelRead (begun vSynthAxsRampLoad c s) (argN c 0 6) (16 * argN c 6 1) = some b → Answers (.synthAxsRampLoad c) vSynthAxsRampLoad c s [] fun s =>
      axs (fun a => { a with profile := rampCut (rampSegs b (argN c 6 1)) }) (kennelNote (argN c 0 6) (16 * argN c 6 1) s)) ∧
    (Accepts vSynthAxsRampRun c s → Answers (.synthAxsRampRun c) vSynthAxsRampRun c s [] (axs fun a => { a with ramp := some ⟨(argT c 0).getD 0, false, argN c 12 4, 0, 0, (vget s.synth.loop 2).n.toNat⟩ })) ∧
    (Accepts vSynthReference c s → Answers (.synthReference c) vSynthReference c s [] fun s => { s with synth := { s.synth with ref := { s.synth.ref with
      cfg := setFld (setFld (setFld (argW c 0 32) 31 24 0) 7 2 0) 1 1 (fld s.synth.ref.cfg 1 1) } } }) ∧
    (Accepts vSynthStatus c s → argBit c 0 0 = false → Does (.synthStatus c) s fun t => (t.freeNo = s.freeNo ∨ t.freeNo = s.freeNo + 1) ∧ ({ t with freeNo := s.freeNo } : State).hush = s.hush) ∧
    (∀ n m : Nat, ∀ g : Nat × Nat × Nat, (rampCheck n m [g]).1 = true → segHold g = false → g.1 ≤ n + n / 100 ∧ n ≤ g.1 + n / 100)

/-- R368 to R373, R375, R377, R378, R380, R383 to R386 and R389. -/
def Obligations.SynthRows : Prop :=
  ∀ s : State,
    let r := s.synth.ref
    let a := s.synth.axs
    (r.coasting = true → exec .refinLost s = .next s) ∧
    (r.coasting = false → stage s ≠ 0 → Does .refinLost s fun t => t.synth.ref = { r with coasting := true, buildOut := buildOutNow s, realignSince := none, losses := (r.losses + 1) % 2 ^ 32 } ∧
      t.synth.loop = s.synth.loop ∧ ({ t with synth := s.synth } : State).hush = s.hush) ∧
    (∀ j, r.coasting = false → exec (.refinQualified j) s = .next s) ∧
    (∀ j, r.coasting = true → j.natAbs ≤ 5000 → Does (.refinQualified j) s fun t => t.synth.ref = { r with coasting := false, buildOut := r.buildOut + j, realignSince := if bitAt r.cfg 0 = true then some s.cyc else none } ∧
      t.synth.loop = s.synth.loop ∧ ({ t with synth := s.synth } : State).hush = s.hush) ∧
    (Does .refinQualifyFail s fun t => t.synth = s.synth ∧ t.hush = s.hush) ∧ (r.realignSince = none → exec .realignDone s = .next s) ∧
    (r.realignSince ≠ none → buildOutNow s = 0 → Does .realignDone s fun t => t.synth.ref = { r with buildOut := 0, realignSince := none } ∧ ({ t with synth := s.synth } : State).hush = s.hush) ∧
    (∀ l : Fin 26, (vget s.synth.loop l).lock = .off ∨ (vget s.synth.loop l).lock = .fault → ∀ b, exec (.loopLockChange l b) s = .next s) ∧
    (∀ l : Fin 26, onGrade s.grade .synth l = true → (vget s.synth.loop l).lock = .acquiring ∨ (vget s.synth.loop l).lock = .unlocked → Does (.loopLockChange l true) s fun t =>
      (vget t.synth.loop l).lock = .locked ∧ (vget t.synth.loop l).n = (vget s.synth.loop l).n ∧ (vget t.synth.loop l).lastLock = now s ∧ (∀ k, k ≠ l.val → vget t.synth.loop k = vget s.synth.loop k) ∧
      t.synth.axs = a ∧ t.synth.ref = r ∧ ({ t with synth := s.synth, freeNo := s.freeNo } : State).hush = s.hush) ∧
    (∀ l : Fin 26, onGrade s.grade .synth l = true → (vget s.synth.loop l).lock = .locked → l.val < 8 → Does (.loopLockChange l false) s fun t =>
      (vget t.synth.loop l).lock = .unlocked ∧ (vget t.synth.loop l).n = (vget s.synth.loop l).n ∧ (vget t.synth.loop l).losses = ((vget s.synth.loop l).losses + 1) % 2 ^ 32 ∧
      (vget t.synth.loop l).unlockedSince = s.cyc ∧ (l.val < 2 → (vget t.synth.loop l).suspect = true) ∧ (l.val = 2 → t.synth.axs.ramp = none) ∧ (∀ k, k ≠ l.val → vget t.synth.loop k = vget s.synth.loop k) ∧
      ({ t with synth := s.synth, disp := s.disp, freeNo := s.freeNo } : State).hush = s.hush) ∧
    (∀ l : Fin 26, Does (.loopAcquireRetry l) s fun t => ((vget s.synth.loop l).lock = .unlocked → (vget s.synth.loop l).retried + 10000 ≤ s.cyc → (vget t.synth.loop l).retried = s.cyc) ∧
      (vget t.synth.loop l).lock = (vget s.synth.loop l).lock ∧ ({ t with synth := s.synth } : State) = s) ∧
    (∀ l : Fin 26, (vget s.synth.loop l).lock = .locked ∨ s.cyc - (vget s.synth.loop l).unlockedSince < 1000000 → exec (.synthFault l) s = .next s) ∧
    (∀ l : Fin 26, (vget s.synth.loop l).lock = .unlocked ∨ (vget s.synth.loop l).lock = .acquiring → (vget s.synth.loop l).unlockedSince + 1000000 ≤ s.cyc → Does (.synthFault l) s fun t => (vget t.synth.loop l).lock = .fault ∧
      (∀ k, k ≠ l.val → vget t.synth.loop k = vget s.synth.loop k) ∧ ({ t with synth := s.synth, freeNo := s.freeNo } : State).hush = s.hush) ∧
    (∀ d : Fin 2, vget r.changes d = none → exec (.scsRateChangeDone d) s = .next s) ∧
    (∀ (d : Fin 2) c n, vget r.changes d = some ⟨some c, 0x1301, n, false⟩ → (vget s.synth.loop d).lock = .locked → (∀ i : Fin 8, i.val / 4 = d.val → (vget s.inputs i).switch = none ∧ (vget s.inputs i).rateSpan = none) →
      Does (.scsRateChangeDone d) s fun t => (vget t.synth.loop d).n = n ∧ (vget t.synth.loop d).phase = some (s.cyc, buildOutNow s) ∧ (vget t.synth.loop d).aligned = false ∧ vget t.synth.ref.changes d = none ∧ vget t.synth.markers d = [] ∧
        ({ t with synth := s.synth, cals := s.cals, ddc := s.ddc } : State).hush = s.hush) ∧
    (∀ d : Fin 2, (∀ x ∈ vget r.aligns d, now s < x.2) → exec (.synthAlignApply d) s = .next s) ∧
    (∀ (d : Fin 2) c t0, vget r.aligns d = [(c, t0)] → t0 ≤ now s → phaseEqual s d = some true → Does (.synthAlignApply d) s fun t => vget t.synth.ref.aligns d = [] ∧ (vget t.synth.loop d).aligned = true ∧
      (vget t.synth.loop d).phase = (vget s.synth.loop d).phase ∧ ({ t with synth := s.synth, inputs := s.inputs } : State).hush = s.hush) ∧
    ((∀ x ∈ a.retune, now s < x.2.2) → exec .axsRetuneApply s = .next s) ∧
    (∀ c w t0, a.retune = [(c, w, t0)] → t0 ≤ now s → a.ramp = none → within1 a.bandN.toNat (fld w 39 0) = true → axsSearching s = false → Does .axsRetuneApply s fun t =>
      (vget t.synth.loop 2).n = BitVec.ofNat 40 (fld w 39 0) ∧ t.synth.axs = { a with cfg := w, hopIdx := 0xFF, retune := [] } ∧ ({ t with synth := s.synth } : State).hush = s.hush) ∧
    ((∀ x ∈ a.hop, now s < x.2.2.1) → exec .axsHopApply s = .next s) ∧
    (∀ c i t0 late n, a.hop = [(c, i, t0, late)] → t0 ≤ now s → a.hops.find? (·.1 == i) = some (i, n) → Does .axsHopApply s fun t => (vget t.synth.loop 2).n = n ∧ t.synth.axs.bandN = n ∧ t.synth.axs.hopIdx = i ∧ t.synth.axs.hop = [] ∧
      t.synth.axs.ramp = none ∧ t.synth.axs.hops = a.hops ∧ ({ t with synth := s.synth } : State).hush = s.hush) ∧
    (a.ramp = none → exec .axsRampStep s = .next s) ∧
    (∀ p, a.ramp = some p → p.started = false → now s < p.startTime → exec .axsRampStep s = .next s) ∧
    (∀ p g, a.ramp = some p → p.started = true → a.profile[p.seg]? = some g → segHold g = false → p.nStart < 2 ^ 40 → g.1 < 2 ^ 40 → p.k + 1 = g.2.2 → p.seg + 1 = a.profile.length → p.repeats = 1 → Does .axsRampStep s fun t =>
      (vget t.synth.loop 2).n = BitVec.ofNat 40 g.1 ∧ t.synth.axs.ramp = none ∧ ({ t with synth := s.synth } : State).hush = s.hush) ∧
    (∀ p g, a.ramp = some p → p.started = true → a.profile[p.seg]? = some g → segHold g = true → p.k + 1 < g.2.2 → Does .axsRampStep s fun t => (vget t.synth.loop 2).n = BitVec.ofNat 40 p.nStart ∧
      t.synth.axs.ramp = some { p with k := p.k + 1 } ∧ ({ t with synth := s.synth } : State) = s) ∧
    (∀ b, maintRunning s 6 0x0C02 = none → exec (.axsSearchDone b) s = .next s) ∧
    (∀ q, maintRunning s 6 0x0C02 = some q → Does (.axsSearchDone false) s fun t => t.synth = s.synth ∧ t.maint.running = s.maint.running.filter (fun x => x.ticket != q.ticket) ∧ ({ t with maint := s.maint } : State).hush = s.hush) ∧
    (∀ q, maintRunning s 6 0x0C02 = some q → q.arg < 2 ^ 64 → Does (.axsSearchDone true) s fun t => (vget t.synth.loop 2).n = BitVec.ofNat 40 q.arg ∧ t.synth.axs.bandN = BitVec.ofNat 40 q.arg ∧ t.synth.axs.cfg = BitVec.ofNat 64 q.arg ∧
      ({ t with maint := s.maint, synth := s.synth } : State).hush = s.hush) ∧
    (∀ o, stage s = 0 → exec (.syncInEdge o) s = .next s) ∧
    (∀ o, stage s ≠ 0 → bitAt (vget s.synth.loop 0).cfg 0 = false → bitAt (vget s.synth.loop 1).cfg 0 = false → Does (.syncInEdge o) s fun t => t.synth.ref.syncEdges = (r.syncEdges + 1) % 2 ^ 32 ∧ t.synth.ref.syncOffset = o ∧
      (o.natAbs ≤ 1500 → t.synth.ref.marginal = true) ∧ (1500 < o.natAbs → o.natAbs < 8500 → t.synth.ref.marginal = false) ∧ ({ t with synth := s.synth, ddcEng := s.ddcEng } : State).hush = s.hush) ∧
    (∀ (d : Fin 2) c f, s.boot.mainOn = false ∨ (vget s.synth.loop d).lock = .off → exec (.scsMarker d c f) s = .next s) ∧
    (∀ (d : Fin 2) c f u, s.boot.mainOn = true → (vget s.synth.loop d).lock ≠ .off → crossing (6 + d) false c f s = (none, u) → exec (.scsMarker d c f) s = .next (settled s u)) ∧
    (∀ (d : Fin 2) c f e u, s.boot.mainOn = true → (vget s.synth.loop d).lock ≠ .off → crossing (6 + d) false c f s = (some e, u) → exec (.scsMarker d c f) s = .next (settled s { u with synth := { u.synth with
      markCount := vmod u.synth.markCount d fun k => k + 1, markers := vmod u.synth.markers d fun l => ((65536 * (vget u.synth.markCount d + 1), edgeStamp u e) :: l).take 16 } }))

/-- R395 to R397, R415 and R417. -/
def Obligations.TimeVerbs : Prop :=
  ∀ (c : Cmd) (s : State),
    let x := s.time
    (Accepts vTimeSet c s → argN c 12 1 = 0 → Does (.timeSet c) s fun t => t.time.counter = (argT c 0).getD 0 * 2 ^ 32 ∧ t.time.steps = (x.steps + 1) % 2 ^ 32 ∧ t.time.increment = x.increment ∧
      (t.time.state = if tSource s = 3 ∧ x.state = .locked then .acquiring else x.state) ∧ ({ t with time := s.time, dens := s.dens, synth := s.synth, events := s.events, cals := s.cals } : State).hush = s.hush) ∧
    (Accepts vTimeSet c s → argN c 12 1 = 1 → Waits (.timeSet c) vTimeSet c s fun s => { s with time := { s.time with setPending := s.time.setPending ++ [(c, (argT c 0).getD 0, s.cyc)] } }) ∧
    (Accepts vTimeAdjust c s → Answers (.timeAdjust c) vTimeAdjust c s [] fun s => { s with time := { s.time with adjust := s.time.adjust + sgn 64 (argN c 0 8) * 2 ^ 48 / 1000 } }) ∧
    (Accepts vTimeConfigure c s → fld (argW c 0 256) 1 0 = 0 → Does (.timeConfigure c) s fun t => t.time.state = .free ∧ t.time.counter = x.counter ∧ fld t.time.cfg 1 0 = 0 ∧ ({ t with time := s.time } : State).hush = s.hush) ∧
    (Accepts vTimeConfigure c s → fld (argW c 0 256) 1 0 ≠ 0 → x.state = .free → tSource s = 0 → Does (.timeConfigure c) s fun t => t.time.state = .acquiring ∧ t.time.counter = x.counter ∧ t.time.increment = x.increment ∧
      ({ t with time := s.time } : State).hush = s.hush) ∧
    (∀ p, x.setPending = [p] → p.2.2 + 150000000 ≤ s.cyc → exec .timeSetTimeout s = .next (settled s (complete p.1 0x1402 TIMEOUT [] { s with time := { x with setPending := [] } }))) ∧
    (∀ p, x.setPending = [p] → s.cyc < p.2.2 + 150000000 → exec .timeSetTimeout s = .next s) ∧
    (∀ off : Int, x.state = .free ∨ x.state = .holdover → measure off s = s) ∧
    (∀ off : Int, x.state = .locked → (measure off s).time.counter = x.counter ∧
      ((off - servoPredict s).natAbs ≤ 8 * tLockPs s → (measure off s).time.state = .locked ∧ (measure off s).time.lastOffset = off ∧ (measure off s).time.outlierRun = 0) ∧
      (8 * tLockPs s < (off - servoPredict s).natAbs → (measure off s).time.outliers = (x.outliers + 1) % 2 ^ 32 ∧ (measure off s).time.increment = x.increment ∧
        (measure off s).time.state = if 3 ≤ x.outlierRun then .acquiring else .locked)) ∧
    (∀ off : Int, x.state = .acquiring → off.natAbs ≤ tLockPs s → off.natAbs < fld x.cfg 95 64 * 1000 → x.accepted = 15 → tSource s ≠ 2 → (measure off s).time.state = .locked ∧ (measure off s).time.counter = x.counter) ∧
    (∀ off : Int, x.state = .acquiring → bitAt x.cfg 2 = true → fld x.cfg 95 64 * 1000 ≤ off.natAbs → tLockPs s < off.natAbs → (measure off s).time.state = .acquiring ∧ (measure off s).time.accepted = 0 ∧
      (measure off s).time.counter = ((x.counter : Int) - off * 2 ^ 48 / 1000).toNat) ∧
    (∀ off : Int, let i := (measure off s).time.increment
      i = x.increment ∨ ((i : Int) - 10 * 2 ^ 48).natAbs ≤ 10 * 2 ^ 48 * 500 / 1000000)

/-- R396, R400 to R404. -/
def Obligations.TimeSources : Prop :=
  ∀ s : State,
    let x := s.time
    let p := x.ptp
    (∀ m, ptpOn s = false → exec (.ptpMessage m) s = .next s) ∧ (ptpOn s = true → exec (.ptpMessage .other) s = .next s) ∧
    (∀ d id port rank utc la, ptpOn s = true → d ≠ fld x.cfg 11 4 → exec (.ptpMessage (.announce d id port rank utc la)) s = .next s) ∧
    (∀ d id port rank utc la, ptpOn s = true → d = fld x.cfg 11 4 → p.masters = [] → p.selected = none → Does (.ptpMessage (.announce d id port rank utc la)) s fun t => t.time.ptp.selected = some (id, port) ∧
      (∃ m, t.time.ptp.masters = [m] ∧ m.identity = id ∧ m.port = port ∧ m.rank = rank) ∧ t.time.counter = x.counter ∧ t.time.state = x.state ∧ ({ t with time := s.time } : State).hush = s.hush) ∧
    (∀ d id port q logS t1 t2 corr, ptpOn s = true → fromMaster s d id port = false → exec (.ptpMessage (.sync d id port q true logS t1 t2 corr)) s = .next s) ∧
    (∀ d id port q t1 corr t2, ptpOn s = true → fromMaster s d id port = true → p.waiting = some (q, t2) → exec (.ptpMessage (.followUp d id port q t1 corr)) s =
      .next { s with time := { x with ptp := { p with waiting := none, sync := some (t1 + corr, t2) } } }) ∧
    (∀ d id port q ld t4 corr t1 t2 t3, ptpOn s = true → fromMaster s d id port = true → p.delayReq = some (q, t3) → p.sync = some (t1, t2) → Does (.ptpMessage (.delayResp d id port q (clockIdentity s) ld t4 corr)) s fun t =>
      t.time.pathDelay = ((t2 - t1) + (t4 - corr - t3)) * 1000 / 131072 ∧ t.time.ptp.delayReq = none) ∧
    (∀ t3, p.selected = none ∨ ptpOn s = false → exec (.ptpDelayReqSend t3) s = .next s) ∧
    (∀ t3, ptpOn s = true → p.selected ≠ none → p.sync ≠ none → logSecs p.logDelay ≤ s.cyc - p.delayAt → Does (.ptpDelayReqSend t3) s fun t => t.time.ptp.delayReq = some (p.delaySeq, t3) ∧
      t.time.ptp.delaySeq = (p.delaySeq + 1) % 2 ^ 16 ∧ (vget t.eth (tPort s)).sent = ((vget s.eth (tPort s)).sent + 1) % 2 ^ 64 ∧ ({ t with time := s.time, eth := s.eth } : State) = s) ∧
    (p.selected = none → exec .ptpSourceTimeout s = .next s) ∧
    (∀ m, selMaster s = some m → tSource s = 1 → 3 * logSecs m.logAnnounce ≤ s.cyc - p.announceAt → Does .ptpSourceTimeout s fun t => t.time.ptp.selected = none ∧ t.time.ptp.lost = true ∧
      t.time.state = (if x.state = .locked then .holdover else x.state) ∧ t.time.counter = x.counter ∧ ({ t with time := s.time } : State).hush = s.hush) ∧
    (∀ up, tSource s ≠ 2 → exec (.l1SyncChange up) s = .next s) ∧
    (tSource s = 2 → p.l1Up = true → x.state = .locked → Does (.l1SyncChange false) s fun t => t.time.ptp.l1Up = false ∧ t.time.state = .holdover ∧ t.time.counter = x.counter ∧ ({ t with time := s.time } : State).hush = s.hush) ∧
    (∀ e c, x.ppsLast = some c → s.cyc - c < 99000000 → ppsTake e s = { s with time := { x with ppsIgnored := (x.ppsIgnored + 1) % 2 ^ 32 } }) ∧
    (∀ e, x.ppsLast = none → x.setPending = [] → tSource s ≠ 3 → ppsTake e s = { s with time := { x with ppsLast := some s.cyc, ppsSince := s.cyc } }) ∧
    (∀ coarse fine u, crossing 8 false coarse fine s = (none, u) → exec (.ppsInEdge coarse fine) s = .next (settled s u)) ∧
    (∀ coarse fine e u, crossing 8 false coarse fine s = (some e, u) → exec (.ppsInEdge coarse fine) s = .next (settled s (ppsTake (edgeTime u e) u))) ∧
    (tSource s ≠ 3 ∨ x.ppsLost = true → exec .ppsInMissing s = .next s) ∧
    (tSource s = 3 → x.ppsLost = false → x.state = .locked → x.ppsSince + 150000000 ≤ s.cyc → Does .ppsInMissing s fun t => t.time.ppsLost = true ∧ t.time.state = .holdover ∧ t.time.counter = x.counter ∧
      t.time.increment = meanInc (keepMinute 6000000000 ((x.increment, s.cyc - x.lockedSince) :: x.lockedInc)) x.increment ∧ ({ t with time := s.time } : State).hush = s.hush) ∧
    (∀ c, x.ppsOut = some c → fld x.cfg 232 224 * 100000 ≤ s.cyc - c → exec .ppsOutPulse s = .next { s with time := { x with ppsOut := none } }) ∧
    (∀ c, x.ppsOut = some c → s.cyc - c < fld x.cfg 232 224 * 100000 → exec .ppsOutPulse s = .next s) ∧
    (∀ n, x.ppsOut = none → x.ppsSecond = some n → fld x.cfg 223 192 = 0 → now s / 65536000000000 ≤ n → exec .ppsOutPulse s = .next s) ∧
    (x.ppsOut = none → x.ppsSecond = none → fld x.cfg 223 192 = 0 → Does .ppsOutPulse s fun t => t.time.ppsSecond = some (now s / 65536000000000) ∧
      (t.time.ppsOut = if fld x.cfg 234 233 = 1 ∨ (fld x.cfg 234 233 = 2 ∧ (x.state = .locked ∨ x.state = .holdover)) then some s.cyc else none) ∧ ({ t with time := s.time } : State) = s) ∧
    (x.state ≠ .holdover → exec .holdoverExpired s = .next s) ∧ (fld x.cfg 159 128 = 0 → exec .holdoverExpired s = .next s) ∧
    (x.state = .holdover → 0 < fld x.cfg 159 128 → x.holdSince + fld x.cfg 159 128 * 100000000 ≤ s.cyc → Does .holdoverExpired s fun t => t.time.state = .free ∧ t.time.counter = x.counter ∧ t.time.increment = x.increment ∧
      ({ t with time := s.time } : State).hush = s.hush)

/-- R407, R408, R410 to R417. -/
def Obligations.EthernetOperations : Prop :=
  ∀ (c : Cmd) (s : State),
    let n := idx c.unit
    let w := setFld (setFld (setFld (setFld (argW c 0 256) 7 5 0) 31 31 0) 79 32 0) 127 112 0
    let d := bytesAt c.args 0 64
    (Accepts vEthConfigure c s → bitAt w 0 = false → (vget s.eth n).wait = [] → Does (.ethConfigure c) s fun t => (vget t.eth n).cfg = w ∧ (vget t.eth n).up = false ∧ (∀ k, k ≠ n → vget t.eth k = vget s.eth k) ∧
      ({ t with eth := s.eth, time := s.time } : State).hush = s.hush) ∧
    (Accepts vEthConfigure c s → bitAt w 0 = true → (vget s.eth n).up = false → Waits (.ethConfigure c) vEthConfigure c s fun s => { s with eth := vmod s.eth n fun x => { x with cfg := w, wait := x.wait ++ [(c, 0x1601)] } }) ∧
    (Accepts vEthVitaCreate c s → Answers (.ethVitaCreate c) vEthVitaCreate c s [] fun s => { s with vita := s.vita ++ [(numAt d 0 1, { defn := d, pos := ((ringOf s (numAt d 4 4 % 2 ^ 20)).map (·.producer)).getD 0 })] }) ∧
    (Accepts vEthVitaDelete c s → Answers (.ethVitaDelete c) vEthVitaDelete c s [] fun s => { s with vita := s.vita.filter fun v => v.1 != argN c 0 1 }) ∧
    (∀ (p : Fin 16) f, (vget s.eth p).up = false → exec (.ethFrameReceived p f) s = .next s) ∧
    (∀ (p : Fin 16) f, (vget s.eth p).up = true → beAt f 12 2 ≠ 0x8100 → (fld (vget s.eth p).cfg 27 16 ≠ 0 ∨ 9014 < f.length ∨ (beAt f 12 2 ≠ 0x0806 ∧ beAt f 12 2 ≠ 0x0800 ∧ beAt f 12 2 ≠ 0x86DD ∧ beAt f 12 2 ≠ 0x88F7)) →
      Does (.ethFrameReceived p f) s fun t => (vget t.eth p).received = ((vget s.eth p).received + 1) % 2 ^ 64 ∧ (vget t.eth p).dropped = ((vget s.eth p).dropped + 1) % 2 ^ 32 ∧
        (vget t.eth p).out = (vget s.eth p).out ∧ (vget t.eth p).sent = (vget s.eth p).sent ∧ (∀ k, k ≠ p.val → vget t.eth k = vget s.eth k) ∧ ({ t with eth := s.eth } : State).hush = s.hush) ∧
    (∀ (p : Fin 16) f, (vget s.eth p).up = true → fld (vget s.eth p).cfg 27 16 = 0 → f.length ≤ 1514 → beAt f 12 2 = 0x0806 → beAt (f.drop 14) 6 2 = 1 → fld (vget s.eth p).cfg 111 80 ≠ 0 →
      beAt (f.drop 14) 24 4 = fld (vget s.eth p).cfg 111 80 → Does (.ethFrameReceived p f) s fun t => (vget t.eth p).sent = ((vget s.eth p).sent + 1) % 2 ^ 64 ∧ (vget t.eth p).dropped = (vget s.eth p).dropped ∧
        (∃ g, (vget t.eth p).out = ((0, g) :: (vget s.eth p).out).take 16 ∧ beAt g 0 6 = beAt f 6 6 ∧ beAt g 6 6 = ethMac s p ∧ beAt g 12 2 = 0x0806 ∧ beAt g 20 2 = 2 ∧ beAt g 28 4 = fld (vget s.eth p).cfg 111 80) ∧
        ({ t with eth := s.eth } : State) = s) ∧
    (∀ (p : Fin 16) up, s.boot.mainOn = false ∨ bitAt (vget s.eth p).cfg 0 = false ∨ (vget s.eth p).up = up → exec (.ethLinkChange p up) s = .next s) ∧
    (∀ p : Fin 16, s.boot.mainOn = true → bitAt (vget s.eth p).cfg 0 = true → (vget s.eth p).up = false → Does (.ethLinkChange p true) s fun t => (vget t.eth p).up = true ∧ (vget t.eth p).wait = [] ∧
      (vget t.eth p).cfg = (vget s.eth p).cfg ∧ (∀ k, k ≠ p.val → vget t.eth k = vget s.eth k) ∧ ({ t with eth := s.eth } : State).hush = s.hush) ∧
    (∀ p : Fin 16, s.boot.mainOn = true → bitAt (vget s.eth p).cfg 0 = true → (vget s.eth p).up = true → tSource s ≠ 1 → tSource s ≠ 2 → Does (.ethLinkChange p false) s fun t => (vget t.eth p).up = false ∧
      (vget t.eth p).cfg = (vget s.eth p).cfg ∧ ({ t with eth := s.eth } : State).hush = s.hush) ∧
    (∀ k : Fin 64, s.vita.find? (fun v => v.1 == k.val) = none → exec (.vitaSend k) s = .next s ∧ exec (.vitaContext k) s = .next s) ∧
    (∀ (k : Fin 64) v, s.vita.find? (fun v => v.1 == k.val) = some (k.val, v) → vitaReady s v = none → exec (.vitaSend k) s = .next s ∧ exec (.vitaContext k) s = .next s) ∧
    (∀ (k : Fin 64) v r e es, s.vita.find? (fun v => v.1 == k.val) = some (k.val, v) → vitaReady s v = some r → heldStart r ≤ v.pos → numAt v.defn 1 1 < 16 → vitaNext s r v = ([], e :: es) → v.context = none → Does (.vitaContext k) s fun t =>
      (∃ g, (vget t.eth (numAt v.defn 1 1)).out.head? = some (5, g)) ∧ (∃ u, t.vita.find? (fun v => v.1 == k.val) = some (k.val, u) ∧ u.context ≠ none ∧ u.contextAt = s.cyc ∧ u.pos = v.pos ∧ u.count = v.count) ∧
      ({ t with eth := s.eth, vita := s.vita } : State) = s) ∧
    (∀ (k : Fin 64) v r e es, s.vita.find? (fun v => v.1 == k.val) = some (k.val, v) → vitaReady s v = some r → heldStart r ≤ v.pos → numAt v.defn 1 1 < 16 → vitaNext s r v = ([], e :: es) → e.kind = 1 → Does (.vitaSend k) s fun t =>
      (∃ g, (vget t.eth (numAt v.defn 1 1)).out.head? = some (4, g)) ∧ (∃ u, t.vita.find? (fun v => v.1 == k.val) = some (k.val, u) ∧ u.pos = ((e :: es).getLast (by simp)).pos + ((e :: es).getLast (by simp)).len ∧
        u.count = (v.count + 1) % 16 ∧ u.skipped = false ∧ u.part = 0) ∧ ({ t with eth := s.eth, vita := s.vita } : State) = s)

/-- R419, R420, R425 to R429, R431, R432 and R434. -/
def Obligations.IntervalMeasurement : Prop :=
  ∀ (c : Cmd) (s : State) (i : Fin 4),
    let n := idx c.unit
    let x := vget s.tdc.ch i
    let tdc := fun (n : Nat) (f : TdcSt → TdcSt) (s : State) => ({ s with tdc := { s.tdc with ch := vmod s.tdc.ch n f } } : State)
    let clean := fun (x : TdcSt) => { x with armed := true, armAt := none, start := none, stop := none, gate := none, number := 0, result := none }
    (Accepts vTdcConfigure c s → Answers (.tdcConfigure c) vTdcConfigure c s [] (tdc n fun x => { x with cfg := setFld (setFld (argW c 0 128) 63 60 0) 127 80 0 })) ∧
    (Accepts vTdcArm c s → argT0 c 0 = true → Answers (.tdcArm c) vTdcArm c s [0] (tdc n clean)) ∧
    (∀ t0, Accepts vTdcArm c s → argT0 c 0 = false → argT c 0 = some t0 → now s < t0 → Answers (.tdcArm c) vTdcArm c s [0] (tdc n fun x => { x with armAt := some t0 })) ∧
    (∀ t0, Accepts vTdcArm c s → argT0 c 0 = false → argT c 0 = some t0 → t0 ≤ now s → Answers (.tdcArm c) vTdcArm c s (le 1 (b2n (decide (t0 < now s)))) (tdc n clean)) ∧
    (Accepts vTdcDisarm c s → Answers (.tdcDisarm c) vTdcDisarm c s [] (tdc n fun x => { x with armed := false, armAt := none, start := none, stop := none, gate := none })) ∧
    (∀ r, Accepts vTdcRead c s → (vget s.tdc.ch n).result = some r → Answers (.tdcRead c) vTdcRead c s (resultBytes r) id) ∧
    (Accepts vTdcSelfcal c s → Waits (.tdcSelfcal c) vTdcSelfcal c s (maintAsk 5 c.unit 0 0 (some c) 0x1505)) ∧
    (x.armAt = none → exec (.tdcArmTime i) s = .next s) ∧ (∀ t0, x.armAt = some t0 → now s < t0 → exec (.tdcArmTime i) s = .next s) ∧
    (∀ t0, x.armAt = some t0 → t0 ≤ now s → exec (.tdcArmTime i) s = .next (tdc i clean s)) ∧
    (stage s = 0 → ∀ k d co f, exec (.tinEdge k d co f) s = .next s) ∧
    (∀ (k : Fin 10) co f, 4 ≤ k.val → exec (.tinEdge k true co f) s = .next s) ∧
    (∀ co f, fld x.cfg 14 13 = 0 → exec (.tinEdge (Fin.castLE (by decide) i) true co f) s = .next s) ∧ (∀ co f, fld x.cfg 14 13 = 1 → exec (.tinEdge (Fin.castLE (by decide) i) false co f) s = .next s) ∧
    (∀ (k : Fin 10) (co f p : Nat) t0, stage s ≠ 0 → 4 ≤ k.val → k.val ≠ 7 → pairFor s k = some p → (vget s.tdc.inp k).lastAt = some t0 → pairsOk (vget s.tdc.inp k) = 18 →
      (co : Int) * 2500000 - ((f * (vget (vget s.tdc.inp k).pairs p).lsb : Nat) + (vget (vget s.tdc.inp k).pairs p).ofs) < t0 + 10000000 → Does (.tinEdge k false co f) s fun t =>
      (vget t.tdc.inp k).missed = ((vget s.tdc.inp k).missed + 1) % 2 ^ 32 ∧ (vget t.tdc.inp k).next = (vget s.tdc.inp k).next ∧ t.tdc.ch = s.tdc.ch ∧ ({ t with tdc := s.tdc } : State) = s) ∧
    (∀ (k : Fin 10) (co f p : Nat), stage s ≠ 0 → 4 ≤ k.val → k.val ≠ 7 → pairFor s k = some p → (vget s.tdc.inp k).lastAt = none → (∀ j : Fin 4, (vget s.tdc.ch j).armed = false) → Does (.tinEdge k false co f) s fun t =>
      (vget t.tdc.inp k).next = (p + 1) % 18 ∧ (vget t.tdc.inp k).missed = (vget s.tdc.inp k).missed ∧ t.tdc.ch = s.tdc.ch ∧ ({ t with tdc := s.tdc } : State) = s) ∧
    (∀ (co f p : Nat), let e : Edge := ⟨co, (f * (vget (vget s.tdc.inp i).pairs p).lsb : Nat) + (vget (vget s.tdc.inp i).pairs p).ofs, (vget (vget s.tdc.inp i).pairs p).lsb, false⟩
      stage s ≠ 0 → fld x.cfg 14 13 ≠ 1 → pairFor s i = some p → (vget s.tdc.inp i).lastAt = none → x.armed = true → fld x.cfg 18 17 = 0 → x.start = none → x.stop = none → (∀ j : Fin 4, j ≠ i → (vget s.tdc.ch j).armed = false) →
      Does (.tinEdge (Fin.castLE (by decide) i) false co f) s fun t => (vget t.tdc.ch i).start = some (e, edgeStamp s e) ∧ (vget t.tdc.ch i).armed = true ∧ (vget t.tdc.ch i).result = x.result ∧
        (vget t.tdc.inp i).next = (p + 1) % 18 ∧ (∀ j : Fin 4, j ≠ i → vget t.tdc.ch j = vget s.tdc.ch j) ∧ ({ t with tdc := s.tdc, events := s.events } : State) = s) ∧
    (∀ (a b : Edge) t0, let v := ((b.coarse : Int) - a.coarse) * 2500000 - (b.fine - a.fine)
      let t := intervalEnd i a t0 b s
      ∃ r, (vget t.tdc.ch i).result = some r ∧ r.time = t0 ∧ r.mode = fld x.cfg 18 17 ∧ r.count = x.number + 1 ∧ (vget t.tdc.ch i).armed = !bitAt x.cfg 19 ∧ (vget t.tdc.ch i).start = none ∧
        (v.natAbs < a.lsb → r.value = 0 ∧ bitAt r.flags 0 = true ∧ bitAt r.flags 1 = false) ∧
        (a.lsb ≤ v.natAbs → 0 ≤ v → r.value = roundDivI (v * 65536) 1000000 ∧ bitAt r.flags 0 = false ∧ bitAt r.flags 1 = false) ∧
        (a.lsb ≤ v.natAbs → v < 0 → bitAt x.cfg 16 = true → v.natAbs < 2500000 → r.value = roundDivI (v * 65536) 1000000 ∧ bitAt r.flags 1 = false) ∧
        (a.lsb ≤ v.natAbs → v < 0 → bitAt x.cfg 16 = false ∨ 2500000 ≤ v.natAbs → r.value = 0 ∧ bitAt r.flags 1 = true ∧ (vget t.tdc.ch i).orders = (x.orders + 1) % 2 ^ 32)) ∧
    (∀ e, x.fifo.length < 1024 → (vget (fifoTake i e s).tdc.ch i).fifo = x.fifo ++ [(s.cyc, intervalEntry s i e (x.lostNow != 0))]) ∧
    (∀ e, x.fifo.length = 1024 → (vget (fifoTake i e s).tdc.ch i).fifo = x.fifo ∧ (vget (fifoTake i e s).tdc.ch i).fifoLost = (x.fifoLost + 1) % 2 ^ 32 ∧ (vget (fifoTake i e s).tdc.ch i).lostNow = x.lostNow + 1) ∧
    (x.armed = false → exec (.tdcGateEnd i) s = .next s) ∧
    (∀ a t0, x.armed = true → fld x.cfg 18 17 = 2 → x.start = some (a, t0) → x.gate = some (a, 1) → a.coarse + fld x.cfg 39 24 * 400 ≤ 4 * s.cyc → Does (.tdcGateEnd i) s fun t => ∃ r, (vget t.tdc.ch i).result = some r ∧ r.value = 0 ∧
      r.count = 1 ∧ bitAt r.flags 2 = true ∧ (vget t.tdc.ch i).overflows = (x.overflows + 1) % 2 ^ 32 ∧ ({ t with tdc := s.tdc } : State).hush = s.hush) ∧
    (x.start = none → exec (.tdcIntervalOverflow i) s = .next s) ∧
    (∀ a t0, x.armed = true → fld x.cfg 18 17 = 0 → x.start = some (a, t0) → x.stop = none → a.coarse + 2 ^ 24 < 4 * s.cyc → Does (.tdcIntervalOverflow i) s fun t => ∃ r, (vget t.tdc.ch i).result = some r ∧ r.value = 0 ∧ r.time = t0 ∧ bitAt r.flags 2 = true) ∧
    (x.fifo = [] → exec (.tdcFifoDrain i) s = .next s) ∧
    (x.fifo ≠ [] → isReady s = true → x.fifo.length < 512 → (∀ e ∈ x.fifo, e.1 + 100000 ≤ s.cyc) → x.mainOffLost = none → Does (.tdcFifoDrain i) s fun t => (vget t.tdc.ch i).fifo = [] ∧
      (∀ r, 0x90 ≤ fld x.cfg 59 40 → ringOf s (fld x.cfg 59 40) = some r → ringItems t (fld x.cfg 59 40) = r.items + x.fifo.length)) ∧
    (∀ b, calAsked s = true → exec (.tdcAutoCal b) s = .next s) ∧ ((∀ j : Fin 4, fld (vget s.tdc.ch j).cfg 79 64 = 0) → exec (.tdcAutoCal false) s = .next s) ∧
    ((∀ j : Fin 4, fld (vget s.tdc.ch j).cfg 79 64 = 0) → calAsked s = false → exec (.tdcAutoCal true) s = .next (maintAsk 5 0x0D10 1 0 none 0 s)) ∧
    (∀ l o, s.tdc.cal = none → exec (.tdcSelfcalPairDone l o) s = .next s) ∧
    (∀ (k : Fin 10) (p : Fin 18) l o, s.tdc.cal = some (k.val, p.val) → Does (.tdcSelfcalPairDone l o) s fun t =>
      vget (vget t.tdc.inp k).pairs p = (if 1450 ≤ l ∧ l ≤ 1550 then ⟨l, o, true⟩ else { vget (vget s.tdc.inp k).pairs p with ok := false }) ∧
      (∀ q, q ≠ p.val → vget (vget t.tdc.inp k).pairs q = vget (vget s.tdc.inp k).pairs q) ∧ (p.val < 17 → t.tdc.cal = some (k.val, p.val + 1)) ∧ (p.val = 17 → t.tdc.cal = some (if k.val = 6 ∧ s.grade = .g480 then 8 else k.val + 1, 0)) ∧
      ({ t with tdc := s.tdc } : State).hush = s.hush) ∧
    (s.tdc.cal = none → exec .tdcSelfcalDone s = .next s) ∧
    (∀ q, s.tdc.cal = some (10, 0) → (s.maint.running.find? fun r => r.activity == 5) = some q → Does .tdcSelfcalDone s fun t => t.tdc.cal = none ∧ (∀ j : Fin 4, (vget t.tdc.ch j).lastCal = now s ∧ (vget t.tdc.ch j).lastCalCyc = s.cyc) ∧
      t.tdc.inp = s.tdc.inp ∧ t.maint.running = s.maint.running.filter (fun r => r.ticket != q.ticket) ∧ ({ t with tdc := s.tdc, maint := s.maint } : State).hush = s.hush)

/-- R547 to R555 and R568. -/
def Obligations.ControlOutputs : Prop :=
  ∀ (c : Cmd) (s : State) (i : Fin 12),
    let n := idx c.unit
    let x := vget s.dacs.ch i
    let dac := fun (f : DacSt → DacSt) (s : State) => ({ s with dacs := { s.dacs with ch := vmod s.dacs.ch n f } } : State)
    (Accepts vDacConfigure c s → bitAt (argW c 0 64) 0 = bitAt (vget s.dacs.ch n).cfg 0 → Does (.dacConfigure c) s fun t => (vget t.dacs.ch n).cfg = setFld (setFld (argW c 0 64) 15 3 0) 63 48 0 ∧
      (vget t.dacs.ch n).out = (vget s.dacs.ch n).out ∧ (vget t.dacs.ch n).newRange = (vget s.dacs.ch n).newRange ∧ (∀ k, k ≠ n → vget t.dacs.ch k = vget s.dacs.ch k) ∧ ({ t with dacs := s.dacs } : State).hush = s.hush) ∧
    (Accepts vDacWrite c s → Answers (.dacWrite c) vDacWrite c s [] (dac fun x => { x with inReg := argW c 0 16, loadPending := x.loadPending || bitAt x.cfg 1 || argBit c 2 0 })) ∧
    (Accepts vDacStrobe c s → Waits (.dacStrobe c) vDacStrobe c s fun s => { s with dacs := { s.dacs with strobes := s.dacs.strobes ||| argW c 0 3, strobeCmds := s.dacs.strobeCmds ++ [c] } }) ∧
    (∀ t0, Accepts vDacSchedule c s → argT c 4 = some t0 → Answers (.dacSchedule c) vDacSchedule c s (le 1 (b2n (decide (t0 < now s)))) fun s => { s with dacs := { s.dacs with scheduled := s.dacs.scheduled ++ [(argN c 0 1 % 8, t0)] } }) ∧
    (Accepts vDacSetClear c s → s.grade ≠ .g880x → Answers (.dacSetClear c) vDacSetClear c s [] (dac fun x => { x with clearCode := argW c 0 16 })) ∧
    (Accepts vDacSetClear c s → s.grade = .g880x → Answers (.dacSetClear c) vDacSetClear c s [] (dac fun x => { x with nvmCode := argW c 0 16, nvmRange := bitAt x.cfg 0 })) ∧
    (Accepts vDacRelease c s → Does (.dacRelease c) s fun t => (∀ k : Fin 12, (vget t.dacs.ch k).refClear = false ∧ (vget t.dacs.ch k).overcurrent = false ∧ (vget t.dacs.ch k).out = (vget s.dacs.ch k).out ∧
      (vget t.dacs.ch k).ch = (if (vget s.dacs.ch k).ch = .cleared ∧ (vget s.dacs.ch k).clearDue = false ∧ s.dacs.clrLow = false then .held else (vget s.dacs.ch k).ch)) ∧ ({ t with dacs := s.dacs } : State).hush = s.hush) ∧
    (∀ (g : Fin 3) ns, ns < 100 → exec (.loadGFall g ns) s = .next s) ∧
    (∀ (g : Fin 3) ns, 100 ≤ ns → Does (.loadGFall g ns) s fun t => bitAt t.dacs.strobes g = true ∧ (∀ k : Fin 3, k ≠ g → bitAt t.dacs.strobes k = bitAt s.dacs.strobes k) ∧ t.dacs.ch = s.dacs.ch ∧ ({ t with dacs := s.dacs } : State) = s) ∧
    (s.dacs.lastTick = some (nowUs s) → exec .dacUpdateTick s = .next s) ∧
    (s.dacs.lastTick ≠ some (nowUs s) → s.dacs.powerUpPending = false → Does .dacUpdateTick s fun t => t.dacs.lastTick = some (nowUs s) ∧ t.dacs.strobes = 0 ∧ t.dacs.strobeCmds = [] ∧
      (∀ p ∈ t.dacs.scheduled, nowUs s * 65536000 < p.2) ∧ (∀ k : Fin 12, (vget t.dacs.ch k).inReg = (vget s.dacs.ch k).inReg ∧ (vget t.dacs.ch k).cfg = (vget s.dacs.ch k).cfg) ∧
      (∀ k : Fin 12, (vget s.dacs.ch k).loadPending = false → (vget s.dacs.ch k).newRange = false → (vget s.dacs.ch k).leaveClamp = false → (vget s.dacs.ch k).clearDue = false → s.dacs.strobes = 0 → s.dacs.scheduled = [] →
        vget t.dacs.ch k = vget s.dacs.ch k) ∧
      (∀ k : Fin 12, (vget s.dacs.ch k).clearDue = true → (vget s.dacs.ch k).ch ≠ .clamped → (vget s.dacs.ch k).newRange = false → (vget s.dacs.ch k).leaveClamp = false → (vget t.dacs.ch k).out = clearOf s (vget s.dacs.ch k) ∧
        (cleared s (vget s.dacs.ch k) = true → (vget t.dacs.ch k).ch = .cleared)) ∧
      (∀ k : Fin 12, (vget s.dacs.ch k).loadPending = true → (vget s.dacs.ch k).clearDue = false → (vget s.dacs.ch k).newRange = false → (vget s.dacs.ch k).leaveClamp = false → (vget t.dacs.ch k).dacReg = (vget s.dacs.ch k).inReg ∧
        (vget t.dacs.ch k).lastLoad = now s ∧ ((vget s.dacs.ch k).ch = .cleared → (vget t.dacs.ch k).out = (vget s.dacs.ch k).out ∧ (vget t.dacs.ch k).ch = .cleared) ∧
        ((vget s.dacs.ch k).ch = .normal → bitAt (vget s.dacs.ch k).cfg 2 = false → (vget t.dacs.ch k).out = (vget s.dacs.ch k).inReg ∧ (vget t.dacs.ch k).ch = .normal)) ∧ ({ t with dacs := s.dacs } : State).hush = s.hush) ∧
    (s.dacs.lastTick ≠ some (nowUs s) → s.dacs.powerUpPending = true → s.dacs.strobes = 0 → s.dacs.scheduled = [] → Does .dacUpdateTick s fun t => t.dacs.powerUpPending = false ∧
      ∀ k : Fin 12, (vget s.dacs.ch k).loadPending = false → (vget s.dacs.ch k).newRange = false → (vget s.dacs.ch k).leaveClamp = false →
        (cleared s (vget s.dacs.ch k) = true → (vget t.dacs.ch k).out = clearOf s (vget s.dacs.ch k) ∧ (vget t.dacs.ch k).ch = .cleared) ∧
        (cleared s (vget s.dacs.ch k) = false → (vget s.dacs.ch k).clearDue = false → (vget t.dacs.ch k).out = (vget s.dacs.ch k).dacReg ∧ (vget t.dacs.ch k).ch = .normal)) ∧
    (x.ch ≠ .slewing ∨ nowUs s < x.slewAt + fld x.cfg 47 32 → exec (.leashStep i) s = .next s) ∧
    (x.ch = .slewing → x.slewAt + fld x.cfg 47 32 ≤ nowUs s → Does (.leashStep i) s fun t => let y := vget t.dacs.ch i
      y.slewAt = x.slewAt + fld x.cfg 47 32 ∧ y.dacReg = x.dacReg ∧ ((y.out.toNat : Int) - x.out.toNat).natAbs = min (fld x.cfg 31 16) ((x.dacReg.toNat : Int) - x.out.toNat).natAbs ∧
      ((x.dacReg.toNat : Int) - y.out.toNat).natAbs = ((x.dacReg.toNat : Int) - x.out.toNat).natAbs - fld x.cfg 31 16 ∧ (y.ch = .normal ↔ y.out = x.dacReg) ∧
      (∀ k, k ≠ i.val → vget t.dacs.ch k = vget s.dacs.ch k) ∧ ({ t with dacs := s.dacs } : State) = s) ∧
    (x.clampStart = none → exec (.dacClampEnd i) s = .next s) ∧ (∀ u, x.clampStart = some u → nowUs s < u + 25 → exec (.dacClampEnd i) s = .next s) ∧
    (∀ u, x.clampStart = some u → x.ch = .clamped → x.leaveClamp = false → u + 25 ≤ nowUs s → Does (.dacClampEnd i) s fun t => (x.clampCleared = false → (vget t.dacs.ch i).leaveClamp = true ∧ (vget t.dacs.ch i).out = x.out) ∧
      (x.clampCleared = true → (vget t.dacs.ch i).out = clearOf s x ∧ (vget t.dacs.ch i).ch = if cleared s x = true then .cleared else .held) ∧ ({ t with dacs := s.dacs } : State) = s) ∧
    (exec (.dacClrNChange s.dacs.clrLow) s = .next s) ∧
    (s.dacs.clrLow = false → Does (.dacClrNChange true) s fun t => t.dacs.clrLow = true ∧ (∀ k : Fin 12, vget t.dacs.ch k = { vget s.dacs.ch k with clearDue := true }) ∧ ({ t with dacs := s.dacs } : State).hush = s.hush) ∧
    (s.dacs.clrLow = true → Does (.dacClrNChange false) s fun t => t.dacs.clrLow = false ∧ (∀ k : Fin 12, (vget t.dacs.ch k).out = (vget s.dacs.ch k).out ∧
      (vget t.dacs.ch k).ch = (if (vget s.dacs.ch k).ch = .cleared ∧ (vget s.dacs.ch k).clearDue = false ∧ (vget s.dacs.ch k).refClear = false ∧ (vget s.dacs.ch k).overcurrent = false then .held else (vget s.dacs.ch k).ch)) ∧
      ({ t with dacs := s.dacs } : State).hush = s.hush) ∧
    (exec (.dacReferenceFault s.dacs.refBad) s = .next s) ∧
    (s.dacs.refBad = false → Does (.dacReferenceFault true) s fun t => t.dacs.refBad = true ∧ (∀ k : Fin 12, vget t.dacs.ch k = { vget s.dacs.ch k with refClear := true, clearDue := true }) ∧ ({ t with dacs := s.dacs } : State).hush = s.hush) ∧
    (s.dacs.refBad = true → exec (.dacReferenceFault false) s = .next { s with dacs := { s.dacs with refBad := false } }) ∧
    (∀ cur : Int, Does (.dacOvercurrent i cur) s fun t => vget t.dacs.ch i = { x with current := cur, ocPersists := decide (1500 < cur.natAbs), overcurrent := x.overcurrent || decide (1500 < cur.natAbs), clearDue := x.clearDue || (decide (1500 < cur.natAbs) && !x.overcurrent) } ∧ (∀ k, k ≠ i.val → vget t.dacs.ch k = vget s.dacs.ch k) ∧ ({ t with dacs := s.dacs } : State).hush = s.hush) ∧
    (∀ mv, Does (.dacHeadroom i mv) s fun t => vget t.dacs.ch i = { x with headroom := decide (mv < 2800) && bitAt x.cfg 0 } ∧ (∀ k, k ≠ i.val → vget t.dacs.ch k = vget s.dacs.ch k) ∧ ({ t with dacs := s.dacs } : State).hush = s.hush) ∧
    (s.dacs.powered = true ∨ stage s = 0 → exec .dacPowerUp s = .next s) ∧
    (s.dacs.powered = false → stage s ≠ 0 → Does .dacPowerUp s fun t => t.dacs.powered = true ∧ t.dacs.powerUpPending = true ∧ (∀ k : Fin 12, (vget t.dacs.ch k).inReg = clearOf s (vget s.dacs.ch k) ∧
      (vget t.dacs.ch k).dacReg = clearOf s (vget s.dacs.ch k) ∧ (vget t.dacs.ch k).out = (vget s.dacs.ch k).out ∧ (s.grade ≠ .g880x → bitAt (vget t.dacs.ch k).cfg 0 = false)) ∧ ({ t with dacs := s.dacs } : State).hush = s.hush)

/-- R556, R558, R559, R561 to R565, R569 and R570. -/
def Obligations.HousekeepingAndLoops : Prop :=
  ∀ (c : Cmd) (s : State),
    let h := s.hk
    let l := idx c.unit
    let hk := fun (f : HkSt → HkSt) (s : State) => ({ s with hk := f s.hk } : State)
    let loop := fun (f : LoopSt → LoopSt) (s : State) => ({ s with loops := vmod s.loops l f } : State)
    (Accepts vHkConfigure c s → Answers (.hkadcConfigure c) vHkConfigure c s [] (hk fun h => { h with cfg := setFld (setFld (setFld (argW c 0 64) 7 1 0) 31 15 0) 63 52 0 })) ∧
    (∀ b, Accepts vHkLoadSeq c s → kennelRead (begun vHkLoadSeq c s) (argN c 0 6) (4 * argN c 6 1) = some b → Does (.hkadcLoadSeq c) s fun t => (∀ k : Fin 64, vget t.hk.slots k = if k.val < argN c 6 1 then
      setFld (setFld (BitVec.ofNat 32 (numAt b (4 * k) 4)) 15 14 0) 31 24 0 else vget h.slots k) ∧ t.hk.running = h.running ∧ ({ t with hk := h, banks := s.banks } : State).hush = s.hush) ∧
    (Accepts vHkStart c s → Does (.hkadcStart c) s fun t => t.hk.running = true ∧ t.hk.fifo = h.fifo ∧ t.hk.slots = h.slots ∧ ({ t with hk := h } : State).hush = s.hush) ∧
    (Accepts vHkStop c s → h.running = true → Waits (.hkadcStop c) vHkStop c s (hk fun h => { h with stopping := h.stopping ++ [c], stopAt := if h.stopping.isEmpty then s.cyc else h.stopAt })) ∧
    (Accepts vHkStop c s → h.running = false → Answers (.hkadcStop c) vHkStop c s [] id) ∧
    (Accepts vHkRead c s → Does (.hkadcRead c) s fun t => t.hk = h ∧ t.loops = s.loops ∧ t.dacs = s.dacs) ∧
    (∀ b v, convIdle s b (if b then h.modB else h.modA) = true → exec (.hkConversion b v) s = .next s) ∧
    (∀ v, convIdle s false h.modA = false → h.modA.discards ≠ 0 → Does (.hkConversion false v) s fun t => t.hk.modA.discards = h.modA.discards - 1 ∧ t.hk.modA.began = h.modA.began + convCycles (slotOf s h.modA.slot) ∧
      t.hk.modA.slot = h.modA.slot ∧ t.hk.discards = (h.discards + 1) % 2 ^ 32 ∧ t.hk.latest = h.latest ∧ t.hk.fifo = h.fifo ∧ t.hk.modB = h.modB ∧ ({ t with hk := h } : State) = s) ∧
    (∀ v : Int, convIdle s true h.modB = false → h.modB.discards = 0 → -8388608 ≤ v → v ≤ 8388607 → bitAt (vget h.slots h.modB.slot) 13 = true → 0x90 ≤ fld h.cfg 51 32 → hkWords h.fifo < 4096 → Does (.hkConversion true v) s fun t =>
      t.hk.latest.head? = some (fld (vget h.slots h.modB.slot) 5 0, v, now s) ∧ (∃ w, t.hk.fifo = h.fifo ++ [.word w (now s) s.cyc] ∧ sgn 24 (fld w 23 0) = v ∧ fld w 29 24 = fld (vget h.slots h.modB.slot) 5 0 ∧ bitAt w 30 = true ∧
        bitAt w 31 = h.modB.visitStart) ∧ t.hk.modA = h.modA ∧ t.hk.modB.began = h.modB.began + convCycles (slotOf s h.modB.slot) ∧ (1 < h.modB.left → t.hk.modB.slot = h.modB.slot ∧ t.hk.modB.left = h.modB.left - 1) ∧
      ({ t with hk := h } : State) = s) ∧
    (∀ v : Int, convIdle s true h.modB = false → h.modB.discards = 0 → v < -8388608 → Does (.hkConversion true v) s fun t => t.hk.latest.head? = some (fld (vget h.slots h.modB.slot) 5 0, -8388608, now s)) ∧
    (∀ v : Int, convIdle s true h.modB = false → h.modB.discards = 0 → 8388607 < v → Does (.hkConversion true v) s fun t => t.hk.latest.head? = some (fld (vget h.slots h.modB.slot) 5 0, 8388607, now s)) ∧
    (∀ w code, 4096 ≤ hkWords h.fifo → (hkPut w code s).hk.fifoLost = (h.fifoLost + 1) % 2 ^ 32 ∧ hkWords (hkPut w code s).hk.fifo = hkWords h.fifo) ∧
    (∀ r : Vector Nat 13, stage s = 0 ∨ h.windowMs = some (nowMs s) ∨ nowUs s % 1000 < 208 → exec (.hkSystemWindow r) s = .next s) ∧
    (∀ r : Vector Nat 13, stage s ≠ 0 → h.windowMs ≠ some (nowMs s) → 208 ≤ nowUs s % 1000 → Does (.hkSystemWindow r) s fun t => t.hk.windowMs = some (nowMs s) ∧
      (∀ k : Fin 13, (t.hk.latest.find? fun x => x.1 == windowChannels.getD k 0) = some (windowChannels.getD k 0, ((vget r k : Nat) : Int), now s)) ∧ t.hk.fifo = h.fifo ∧
      t.power.mainMv = 8 * (vget r 0 * 2500 / 8388608) ∧ t.power.auxMv = 2 * (vget r 1 * 2500 / 8388608) ∧ (∀ k : Fin 10, vget t.power.railMv k = vget r (k + 2) * 2500 / 8388608) ∧ ({ t with hk := h, power := s.power } : State) = s) ∧
    (fld h.cfg 51 32 < 0x90 → exec .hkFifoDrain s = .next { s with hk := { h with fifo := [] } }) ∧ (isReady s = false → 0x90 ≤ fld h.cfg 51 32 → exec .hkFifoDrain s = .next s) ∧ (h.fifo = [] → isReady s = true → 0x90 ≤ fld h.cfg 51 32 → exec .hkFifoDrain s = .next s) ∧
    (∀ w t0 k, h.fifo = [.word w t0 k] → isReady s = true → 0x90 ≤ fld h.cfg 51 32 → k + 100000 ≤ s.cyc → Does .hkFifoDrain s fun t => t.hk.fifo = [] ∧ (∀ r, ringOf s (fld h.cfg 51 32) = some r → ringItems t (fld h.cfg 51 32) = r.items + 1) ∧ t.hk.delivered = (h.delivered + 1) % 2 ^ 64) ∧
    (∀ u, isA s .hk u = false → isA s .tdc u = false → exec (.hkIntervalFrameClose u) s = .next s) ∧ (exec (.hkIntervalFrameClose 0x1020) s = exec .hkFifoDrain s) ∧
    (Accepts vThermConfigure c s → Answers (.thermConfigure c) vThermConfigure c s [] (loop fun x => { x with cfg := setFld (setFld (setFld (setFld (argW c 0 256) 7 6 0) 15 12 0) 31 26 0) 255 216 0 })) ∧
    (Accepts vThermStart c s → (vget s.loops l).state = .off → Waits (.thermStart c) vThermStart c s (loop fun x => { x with state := .running, bumpless := true, starting := x.starting ++ [c], grid := nowMs s / max 1 (lPeriod x.cfg) })) ∧
    (Accepts vThermStop c s → Does (.thermStop c) s fun t => (vget t.loops l).state = .off ∧ (vget t.loops l).starting = [] ∧ (vget t.loops l).integ = (vget s.loops l).integ ∧ t.dacs = s.dacs ∧ ({ t with loops := s.loops } : State).hush = s.hush) ∧
    (Accepts vThermSetpoint c s → Answers (.thermSetpoint c) vThermSetpoint c s [] (loop fun x => { x with cfg := setFld x.cfg 63 32 (argN c 0 4) })) ∧
    (∀ k : Fin 8, (vget s.loops k).state = .off → exec (.thermTick k) s = .next s) ∧
    (∀ k : Fin 8, nowMs s / max 1 (lPeriod (vget s.loops k).cfg) = (vget s.loops k).grid → exec (.thermTick k) s = .next s) ∧
    (∀ (k : Fin 8) y t0, let x := vget s.loops k
      let d := vget s.dacs.ch (lOut x.cfg)
      x.state = .running → x.starting = [] → lOut x.cfg < 12 → nowMs s / max 1 (lPeriod x.cfg) ≠ x.grid → (h.latest.find? fun p => p.1 == lIn x.cfg) = some (lIn x.cfg, y, t0) → now s ≤ t0 + lStale x.cfg * lPeriod x.cfg * 65536000000 →
      Does (.thermTick k) s fun t =>
        (d.ch = .cleared ∨ d.ch = .held → t.dacs = s.dacs ∧ (vget t.loops k).state = .hold ∧ (vget t.loops k).integ = x.integ ∧ (vget t.loops k).yPrev = x.yPrev) ∧
        (d.ch = .normal ∨ d.ch = .slewing ∨ d.ch = .clamped → x.bumpless = false →
          let r := pid x.cfg x.integ y x.yPrev
          (vget t.dacs.ch (lOut x.cfg)).inReg = BitVec.ofNat 16 r.1 ∧ (vget t.dacs.ch (lOut x.cfg)).loadPending = true ∧ (vget t.dacs.ch (lOut x.cfg)).out = d.out ∧ (vget t.loops k).integ = r.2.1 ∧ (vget t.loops k).yPrev = y ∧
          (vget t.loops k).state = .running ∧ (vget t.loops k).ticks = (x.ticks + 1) % 2 ^ 32) ∧ ({ t with loops := s.loops, dacs := s.dacs } : State).hush = s.hush) ∧
    (∀ (w : BitVec 256) (i y yp : Int), lMin w ≤ lMax w → let r := pid w i y yp
      let u : Int := lBias w * 65536 + lKp w * (lSet w - y) + i - lKd w * (y - yp)
      lMin w ≤ r.1 ∧ r.1 ≤ lMax w ∧ ((lMin w : Int) * 65536 ≤ u → u ≤ lMax w * 65536 → (r.1 : Int) = u / 65536) ∧ (u < lMin w * 65536 → r.1 = lMin w ∧ (lKi w * (lSet w - y) < 0 → r.2.1 = i)) ∧
        (lMax w * 65536 < u → r.1 = lMax w ∧ (0 < lKi w * (lSet w - y) → r.2.1 = i)))

/-- R571, R573, R576, R577, R579 to R581, R588 and R590. -/
def Obligations.SecurityCommands : Prop :=
  ∀ (c : Cmd) (s : State),
    let sec := fun (f : SecSt → SecSt) (s : State) => ({ s with sec := f s.sec } : State)
    let o := s.sec.otp
    let k := argN c 0 1
    let d0 := withByte c 0 0
    let d1 := withByte c 0 1
    let keyed := fun (a : Nat) (v : Instr) (new : Bytes → OtpSt) (may : Bytes → Bool) =>
      (∀ b, Accepts (vSecKey a) c s → srcBad (begun (vSecKey a) c s) (argN c 0 6) 160 = false → keyRequest (begun (vSecKey a) c s) c a = some b → o.dead = [] → Does v s fun t =>
        t.sec = { s.sec with otp := (if keyAuth s a b = true ∧ may b = true then new b else o), authFails := (if keyAuth s a b = true then s.sec.authFails else (s.sec.authFails + 1) % 2 ^ 32) } ∧
        ({ t with sec := s.sec, banks := s.banks } : State).hush = s.hush)
    let taken := fun (b : Bytes) => (updateFails s b = none ∧ argN c 6 1 ≤ 1 ∧ argN c 6 1 ≠ s.boot.bootSlot ∧ s.sec.update = none)
    (Accepts vSecAttest c s → ∃ r g : Bytes, r.length = 416 ∧ g.length = 96 ∧ numAt r 0 4 = 0x4F415454 ∧ numAt r 8 8 = o.serial.toNat ∧ numAt r 16 4 = s.boot.bootCount.toNat ∧ bytesAt r 32 32 = bytesAt c.args 0 32 ∧
      (s.boot.runSecVersion.length = 3 → numAt r 215 1 = s.sec.scope.toNat) ∧ Answers (.secAttest c) vSecAttest c s [] fun s => destWrite (argN c 32 6) (r ++ g) { s with sec := { s.sec with signNo := s.sec.signNo + 1 } }) ∧
    (Accepts vSecCert c s → Answers (.secCert c) vSecCert c s (le 4 s.sec.certs.length) (destWrite (argN c 0 6) s.sec.certs)) ∧
    (∀ h b, Accepts vSecUpdate c s → srcBad (begun vSecUpdate c s) (argN c 0 6) 64 = false → kennelRead (begun vSecUpdate c s) (argN c 0 6) 64 = some h →
      kennelRead (begun vSecUpdate c s) (argN c 0 6) (min 0x2000000 (slotSpan h)) = some b → Does (.secUpdate c) s fun t =>
        (taken b → t.sec.update = some ⟨c, argN c 6 1, BitVec.ofNat 32 (slotSeq s (1 - argN c 6 1) + 1), b⟩ ∧ (∀ a, a < argN c 6 1 * 0x2000000 ∨ argN c 6 1 * 0x2000000 + 0x2000000 ≤ a → memGet t.sec.flash a = memGet s.sec.flash a)) ∧
        (¬ taken b → t.sec.update = s.sec.update ∧ t.sec.flash = s.sec.flash) ∧
        t.sec.authFails = (if updateFails s b = none then s.sec.authFails else (s.sec.authFails + 1) % 2 ^ 32) ∧ t.sec.otp = o ∧ ({ t with sec := s.sec, banks := s.banks } : State).hush = s.hush) ∧
    (s.sec.update = none → exec .secUpdateDone s = .next s) ∧
    (∀ u, s.sec.update = some u → Memory.wf s.sec.flash = true → 64 ≤ u.image.length → u.image.length ≤ 0x2000000 → numAt u.image 0 4 = 0x4F534C54 → Does .secUpdateDone s fun t =>
      t.sec.update = none ∧ t.sec.otp = o ∧ (∀ a, a < u.slot * 0x2000000 ∨ u.slot * 0x2000000 + 0x2000000 ≤ a → memGet t.sec.flash a = memGet s.sec.flash a) ∧
      (∀ n, 64 ≤ n → n < 0x2000000 → memGet t.sec.flash (u.slot * 0x2000000 + n) = u.image.getD n 0) ∧ slotSeq t u.slot = u.newSeq.toNat ∧ ({ t with sec := s.sec } : State).hush = s.hush) ∧
    (Accepts vSecRollback c s → o.rollback.length = 3 → Does (.secRollbackCommit c) s fun t =>
      (o.dead = [] → rollbackOf t k = max (rollbackOf s k) (min 128 (s.boot.runSecVersion.getD (k - 1) 0))) ∧ (∀ i < 128, bitAt (o.rollback.getD (k - 1) 0) i = true → bitAt (t.sec.otp.rollback.getD (k - 1) 0) i = true) ∧
      (∀ j, j ≠ k - 1 → t.sec.otp.rollback.getD j 0 = o.rollback.getD j 0) ∧ ({ t with sec := { t.sec with otp := { t.sec.otp with rollback := o.rollback } } } : State).hush = s.hush) ∧
    keyed 1 (.secKeyEnrolOwner c) (fun b => { o with ownerHash := o.ownerHash.set (numAt b 5 1) (bytesAt b 16 48) }) (fun b => decide (numAt b 5 1 < 2) && !filled (o.ownerHash.getD (numAt b 5 1) [])) ∧
    keyed 2 (.secKeyRevokeVendor c) (fun b => { o with vendorRevoked := setBit o.vendorRevoked (numAt b 5 1) true }) (fun b => decide (numAt b 5 1 < 4) && (List.range 4).any fun k => k != numAt b 5 1 && vendorUsable o k) ∧
    keyed 3 (.secKeySetOwnerEnforce c) (fun _ => { o with ownerEnforce := true }) (fun _ => true) ∧
    keyed 4 (.secKeyRevokeOwner c) (fun b => { o with ownerRevoked := setBit o.ownerRevoked (numAt b 5 1) true }) (fun b => decide (numAt b 5 1 < 2)) ∧
    (Accepts vDebugChallenge d0 s → ∃ b : Bytes, b.length = 32 ∧ Answers (.secDebugChallenge c) vDebugChallenge d0 s b (sec fun x => { x with challenge := some (b, s.cyc), challengeNo := x.challengeNo + 1 })) ∧
    (∀ b, Accepts vDebugToken d1 s → srcBad (begun vDebugToken d1 s) (argN d1 8 6) 160 = false → kennelRead (begun vDebugToken d1 s) (argN d1 8 6) 160 = some b → Does (.secDebugUnlockToken c) s fun t =>
      t.sec = (if tokenOk s b = true then { s.sec with unlocked := true, scope := BitVec.ofNat 8 (numAt b 4 1 % 8), challenge := none } else { s.sec with authFails := (s.sec.authFails + 1) % 2 ^ 32 }) ∧
      ({ t with sec := s.sec, banks := s.banks } : State).hush = s.hush) ∧
    (∀ b, tokenOk s b = true → numAt b 8 8 = o.serial.toNat ∧ numAt b 5 1 < 6 ∧ (4 ≤ numAt b 5 1 → numAt b 4 1 / 4 % 2 = 0) ∧ ∃ h, s.sec.challenge = some h ∧ h.1 = bytesAt b 16 32 ∧ s.cyc - h.2 ≤ 60000000000) ∧
    (Accepts vDebugRelock (withByte c 0 2) s → Does (.secDebugRelock c) s fun t => t.sec = { s.sec with unlocked := false, scope := 0 } ∧ ({ t with sec := s.sec } : State).hush = s.hush)

/-- R582 to R585, R587 and R589. -/
def Obligations.BlackBoxCommands : Prop :=
  ∀ (c : Cmd) (s : State),
    let sec := fun (f : SecSt → SecSt) (s : State) => ({ s with sec := f s.sec } : State)
    let f := argN c 0 4
    let n := argN c 4 4
    let p0 := withByte c 24 0
    let p1 := withByte c 24 1
    let i := if s.box.nextSeq < 1024 then s.box.nextSeq else 1024 + (s.box.nextSeq - 1024) % 130048
    let clear := (∀ x, s.sec.signing = some x → ¬ (i + 131072 - x.1) % 131072 < x.2.1)
    (Accepts vBoxRead c s → Answers (.boxRead c) vBoxRead c s [] (destWrite (argN c 8 6) ((List.range n).flatMap fun k => boxEntryAt s ((f + k) % 131072)))) ∧
    (Accepts vBoxExport c s → Waits (.boxExport c) vBoxExport c s (sec fun x => { x with signing := some (f, n, some (argN c 24 6), bytesAt c.args 8 16, c) })) ∧
    (Accepts vBoxSign0 p0 s → Waits (.boxSignPart0 c) vBoxSign0 p0 s (sec fun x => { x with signing := some (argN p0 0 4, argN p0 4 4, none, bytesAt p0.args 8 16, p0) })) ∧
    (∀ g m, Accepts vBoxSign1 p1 s → c.path = .mailbox m → s.sec.mbxSigS = some g → Answers (.boxSignPart1 c) vBoxSign1 p1 s g id) ∧
    (∀ g p, Accepts vBoxSign1 p1 s → c.path = .junction p → (bankOf s p).lastSigS = some g → Answers (.boxSignPart1 c) vBoxSign1 p1 s g id) ∧
    (Accepts vBoxNote c s → Does (.boxNote c) s fun t => (∃ e : BoxEntry, t.box.queue = s.box.queue ++ [e] ∧ e.time = now s ∧ e.origin = 5 ∧ e.code = 0x0602 ∧ e.unit = 0xFFFF ∧ e.detail = bytesAt c.args 0 32 ∧ e.note = some c) ∧
      t.box.lostTotal = s.box.lostTotal ∧ t.box.nextSeq = s.box.nextSeq ∧ t.box.entries = s.box.entries ∧ t.hush = s.hush) ∧
    (s.sec.signing = none → exec .boxSigningDone s = .next s) ∧
    (∀ f n a x d, s.sec.signing = some (f, n, some a, x, d) → Does .boxSigningDone s fun t => t.sec = { s.sec with signing := none, signNo := s.sec.signNo + 1 } ∧ t.boot = s.boot ∧ t.power = s.power ∧ t.time = s.time) ∧
    (∀ f n x d m, s.sec.signing = some (f, n, none, x, d) → d.path = .mailbox m → Does .boxSigningDone s fun t =>
      (∃ g : Bytes, g.length = 96 ∧ t = settled s (complete d 0x1B04 OK (g.take 48) (sec (fun y => { y with signing := none, signNo := y.signNo + 1, mbxSigS := some (g.drop 48) }) s))) ∧ ({ t with sec := s.sec } : State).hush = s.hush) ∧
    (∀ f n x d p, s.sec.signing = some (f, n, none, x, d) → d.path = .junction p → Does .boxSigningDone s fun t => ({ t with sec := { t.sec with signing := s.sec.signing, signNo := s.sec.signNo } } : State).hush = s.hush ∧
      t.sec.signing = none ∧ ∃ g : Bytes, (bankOf t p).lastSigS = some g ∧ g.length = 48) ∧
    (¬ clear → exec .boxEntryWrite s = .next s) ∧ (s.box.lost = none → s.box.queue = [] → exec .boxEntryWrite s = .next s) ∧
    (∀ e q, clear → s.box.lost = none → s.box.queue = e :: q → Does .boxEntryWrite s fun t => (e.note = none → t.box.queue = q ∧ t.box.lost = none) ∧ t.box.nextSeq = min 0xFFFFFFFF (s.box.nextSeq + 1) ∧ t.boot.boxNew = true ∧
      (∀ j, j ≠ i → boxEntryAt t j = boxEntryAt s j) ∧ (boxEntryAt t i).length = 64 ∧ numAt (boxEntryAt t i) 0 4 = s.box.nextSeq % 2 ^ 32 ∧ numAt (boxEntryAt t i) 22 2 = e.code.toNat ∧
      ({ t with boot := s.boot } : State).hush = s.hush) ∧
    (∀ k t0, clear → s.box.lost = some (k, t0) → Does .boxEntryWrite s fun t => t.box.queue = s.box.queue ∧ t.box.lost = none ∧ t.box.nextSeq = min 0xFFFFFFFF (s.box.nextSeq + 1) ∧ t.boot.boxNew = true ∧
      (∀ j, j ≠ i → boxEntryAt t j = boxEntryAt s j) ∧ numAt (boxEntryAt t i) 22 2 = 0x0601 ∧ numAt (boxEntryAt t i) 28 4 = k % 2 ^ 32 ∧ ({ t with boot := s.boot } : State).hush = s.hush)

/-- R467, R473 to R478, R489, R492, R494, R497, R498, R500, R503 and R511. -/
def Obligations.LinkTraining : Prop :=
  ∀ (c : Cmd) (s : State) (b : Fin 8) (j : Fin 144) (blk : Bytes),
    let x := vget s.link.bond b
    let l := vget s.link.lane j
    let u : Nat := idx c.unit
    let o := vget s.link.bond u
    let w := bondCfgOf c
    let only := fun (t : State) => (({ t with link := s.link } : State).hush = s.hush)
    let rest := fun (t : State) (b : Nat) => (∀ k : Fin 8, k.val ≠ b → (vget t.link.bond k).hush = (vget s.link.bond k).hush)
    let trained := fun (t : State) (b : Nat) (cfg : BitVec 128) => (let y := vget t.link.bond b
      y.cfg = cfg ∧ y.cfgNext = none ∧ y.rate = 0 ∧ y.mask = 0 ∧ y.firstMapped = none ∧ (bitAt cfg 40 = true → s.boot.mainOn = true → y.phase = .cap) ∧ (bitAt cfg 40 = false ∨ s.boot.mainOn = false → y.phase = .down) ∧
      ∀ k ∈ cfgLanes cfg, (vget t.link.lane k).caps = 0 ∧ (vget t.link.lane k).ackSent = false ∧ (vget t.link.lane k).ackRecv = false ∧ (vget t.link.lane k).rate = 0)
    let reset := fun (t : State) (b cause : Nat) => (let x := vget s.link.bond b; trained t b (x.cfgNext.getD x.cfg) ∧ (vget t.link.bond b).resets = (x.resets + 1) % 2 ^ 32 ∧ (vget t.link.bond b).cause = cause ∧
      (vget t.link.bond b).unacked = [] ∧ (vget t.link.bond b).rxq = [] ∧ (vget t.link.bond b).txSeq = 0 ∧ (vget t.link.bond b).rxSeq = 0 ∧ (vget t.link.bond b).credits = Vector.replicate 4 0 ∧
      rest t b ∧ ({ t with link := s.link, fetch := s.fetch } : State).hush = s.hush)
    let thr := l.fomCal * fld x.cfg 55 48 / 100
    let without := setBit ((x.width.map (·.mask)).getD x.mask) (logicalOf s b j) false
    let leaves := fun (t : State) => ((vget t.link.lane j).state = .left ∧ (vget t.link.lane j).departures = (l.departures + 1) % 2 ^ 32 ∧ (∃ v, (vget t.link.bond b).width = some v ∧ v.mask = without ∧ v.acked = false) ∧
      (vget t.link.bond b).phase = .up ∧ (vget t.link.bond b).mask = x.mask ∧ rest t b ∧ only t)
    let enough := (fld x.cfg 36 32 ≤ (bondLanes s b).length)
    (Accepts vLinkBond c s → bitAt o.cfg 40 = false → Does (.linkBond c) s fun t => trained t u w ∧ rest t u ∧ only t) ∧
    (Accepts vLinkBond c s → bitAt o.cfg 40 = true → bondMajor o.cfg w = true → Does (.linkBond c) s fun t => (vget t.link.bond u).cfgNext = some w ∧ (vget t.link.bond u).phase = o.phase ∧ (vget t.link.bond u).mask = o.mask ∧
      fld (vget t.link.bond u).cfg 31 0 = fld o.cfg 31 0 ∧ bitAt (vget t.link.bond u).cfg 40 = true ∧ t.link.lane = s.link.lane ∧ rest t u ∧ only t) ∧
    (Accepts vLinkBond c s → bitAt o.cfg 40 = true → bondMajor o.cfg w = false → Does (.linkBond c) s fun t => (vget t.link.bond u).cfg = w ∧ (vget t.link.bond u).phase = o.phase ∧ (vget t.link.bond u).mask = o.mask ∧
      t.link.lane = s.link.lane ∧ rest t u ∧ only t) ∧
    (Accepts vLinkRetrain c s → s.boot.mainOn = true → Does (.linkRetrain c) s fun t => trained t u (o.cfgNext.getD o.cfg) ∧ (vget t.link.bond u).cause = 1 ∧ (vget t.link.bond u).resets = (o.resets + 1) % 2 ^ 32) ∧
    (Accepts vLinkAperture c s → Answers (.linkAperture c) vLinkAperture c s [] fun s => { s with link := { s.link with bond := vmod s.link.bond u fun x => { x with
      segs := vmod x.segs (argN c 14 1) fun _ => ⟨argN c 0 8, argN c 8 5, argN c 13 1, argN c 15 1 == 1⟩ } } }) ∧
    (Accepts vLinkReadapt c s → Does (.linkReadapt c) s fun t => (∃ r : MaintReq, t.maint.arrived = s.maint.arrived ++ [r] ∧ r.activity = 4 ∧ r.unit = c.unit ∧ r.origin = 0 ∧ r.cmd = some c) ∧ (vget t.link.lane u).readapting = true ∧
      t.maint.running = s.maint.running ∧ t.maint.queue = s.maint.queue ∧ ({ t with link := s.link, maint := s.maint } : State).hush = s.hush) ∧
    (∀ cause : Fin 8, (bitAt x.cfg 40 = false ∨ s.boot.mainOn = false ∨ cause = 0) → exec (.lReset b cause) s = .next s) ∧
    (∀ cause : Fin 8, bitAt x.cfg 40 = true → s.boot.mainOn = true → cause ≠ 0 → Does (.lReset b cause) s fun t => reset t b cause) ∧
    (laneBond s j = some b.val → ctlOk 10 blk = true → x.phase ≠ .cap → exec (.retrain j blk) s = exec (.lReset b 6) s) ∧ (ctlOk 10 blk = false → exec (.retrain j blk) s = .next s) ∧
    (laneBond s j = none → exec (.cap j blk) s = .next s ∧ exec (.capAck j blk) s = .next s) ∧ (ctlOk 2 blk = false → exec (.capAck j blk) s = .next s) ∧
    (laneBond s j = some b.val → x.phase ≠ .cap → exec (.cap j blk) s = .next s ∧ exec (.capAck j blk) s = .next s) ∧
    (laneBond s j = some b.val → x.phase = .cap → l.state = .training →
      (ctlOk 1 blk = false → Does (.cap j blk) s fun t => vget t.link.lane j = { l with caps := 0 } ∧ t.link.bond = s.link.bond) ∧
      (ctlOk 1 blk = true → enough → Does (.cap j blk) s fun t => (vget t.link.lane j).caps = l.caps + 1 ∧ (vget t.link.lane j).ackSent = (l.ackSent || decide (8 ≤ l.caps + 1)) ∧ (vget t.link.lane j).ackRecv = l.ackRecv ∧
        (vget t.link.bond b).partnerMax = numAt blk 4 1 % 4 ∧ ((vget t.link.bond b).phase = .mapped ↔ ∀ k ∈ bondLanes s b, laneMapped (vget t.link.lane k) = true) ∧ rest t b ∧ ({ t with link := s.link } : State) = s) ∧
      (ctlOk 2 blk = true → enough → Does (.capAck j blk) s fun t => (vget t.link.lane j).caps = l.caps ∧ (vget t.link.lane j).ackSent = l.ackSent ∧ (vget t.link.lane j).ackRecv = true ∧
        ((vget t.link.bond b).phase = .mapped ↔ ∀ k ∈ bondLanes s b, laneMapped (vget t.link.lane k) = true) ∧ rest t b ∧ ({ t with link := s.link } : State) = s) ∧
      (ctlOk 2 blk = true → ¬ enough → l.ackSent = true → (∀ k ∈ bondLanes s b, k ≠ j.val → laneMapped (vget s.link.lane k) = true) → Does (.capAck j blk) s fun t => (vget t.link.bond b).waitRaised = true ∧ (vget t.link.bond b).mask = 0 ∧
        (vget t.link.bond b).firstMapped = none ∧ (vget t.link.bond b).phase = (if bitAt x.cfg 40 = true ∧ s.boot.mainOn = true then .cap else .down) ∧ (∀ k ∈ bondLanes s b, laneMapped (vget t.link.lane k) = false) ∧ rest t b ∧ only t)) ∧
    (x.firstMapped = none ∨ x.phase ≠ .cap → exec (.laneMapTimeout b) s = .next s) ∧ (∀ k, x.firstMapped = some k → s.cyc - k < 10000000 → exec (.laneMapTimeout b) s = .next s) ∧
    (∀ k, x.firstMapped = some k → x.phase = .cap → 10000000 ≤ s.cyc - k → let m := (bondLanes s b).filter fun i => laneMapped (vget s.link.lane i)
      Does (.laneMapTimeout b) s fun t => rest t b ∧ only t ∧ (m.length < fld x.cfg 36 32 → (vget t.link.bond b).waitRaised = true ∧ (vget t.link.bond b).firstMapped = none ∧ (vget t.link.bond b).mask = 0) ∧
        (fld x.cfg 36 32 ≤ m.length → (vget t.link.bond b).phase = .mapped ∧ (∀ i ∈ bondLanes s b, laneMapped (vget s.link.lane i) = false → (vget t.link.lane i).state = .absent) ∧ ∀ i ∈ m, vget t.link.lane i = vget s.link.lane i)) ∧
    (x.phase ≠ .mapped ∨ min (fld x.cfg 11 10) x.partnerMax ≤ x.rate → exec (.step b) s = .next s) ∧
    (x.phase = .mapped → x.rate < min (fld x.cfg 11 10) x.partnerMax → Does (.step b) s fun t => vget t.link.bond b = { x with phase := .stepSent, ctlOut := (vget t.link.bond b).ctlOut } ∧
      (∀ p ∈ (vget t.link.bond b).ctlOut, ctlOk 3 p.2 = true ∧ numAt p.2 4 1 = x.rate + 1) ∧ (vget t.link.bond b).ctlOut.map (·.1) = maskLanes s b x.mask ∧ rest t b ∧ ({ t with link := s.link } : State) = s) ∧
    (laneBond s j = some b.val → x.phase = .stepSent → ctlOk 4 blk = true → numAt blk 4 1 = x.rate + 1 → Does (.stepAck j blk) s fun t => rest t b ∧ ({ t with link := s.link } : State) = s ∧
      (numAt blk 5 1 = 1 → (vget t.link.bond b).phase = .adapt ∧ (vget t.link.bond b).rate = x.rate + 1 ∧ (vget t.link.bond b).prevRate = x.rate ∧ ∀ k ∈ maskLanes s b x.mask, (vget t.link.lane k).rate = x.rate + 1) ∧
      (numAt blk 5 1 ≠ 1 → (vget t.link.bond b).phase = .ended ∧ (vget t.link.bond b).rate = x.rate ∧ t.link.lane = s.link.lane)) ∧
    (x.phase ≠ .adapt → exec (.receiverAdapted b) s = .next s) ∧
    (x.phase = .adapt → Does (.receiverAdapted b) s fun t => vget t.link.bond b = { x with phase := .check } ∧ (∀ k ∈ maskLanes s b x.mask, vget t.link.lane k = { vget s.link.lane k with localPass := none, remotePass := none }) ∧
      rest t b ∧ ({ t with link := s.link } : State) = s) ∧
    (∀ found, x.phase ≠ .check → exec (.prbsCheckDone b found) s = .next s) ∧
    (∀ found : List (Fin 144 × Nat × Nat), x.phase = .check → Does (.prbsCheckDone b found) s fun t => rest t b ∧ ({ t with link := s.link } : State) = s ∧
      (∀ k ∈ maskLanes s b x.mask, ∀ p, found.find? (fun p => p.1.val == k) = some p → (vget t.link.lane k).errors = p.2.1 ∧ (vget t.link.lane k).fom = p.2.2 % 256 ∧
        (vget t.link.lane k).localPass = some (decide (p.2.1 ≤ if x.rate = 3 then 53 else 0))) ∧
      ((∃ k ∈ maskLanes s b x.mask, (vget t.link.lane k).localPass = some false) → (vget t.link.bond b).phase = .ended ∧ (vget t.link.bond b).rate = x.prevRate) ∧
      ((∃ k ∈ maskLanes s b x.mask, (vget s.link.lane k).remotePass = none) → (∀ k ∈ maskLanes s b x.mask, (vget t.link.lane k).localPass = some true ∧ (vget s.link.lane k).remotePass ≠ some false) →
        (vget t.link.bond b).phase = .result ∧ (vget t.link.bond b).rate = x.rate)) ∧
    (laneBond s j = some b.val → x.phase = .result → ctlOk 5 blk = true → Does (.result j blk) s fun t => (vget t.link.lane j).remotePass = some (numAt blk 4 1 == 1) ∧
      (numAt blk 4 1 ≠ 1 → j.val ∈ maskLanes s b x.mask → (vget t.link.bond b).phase = .ended ∧ (vget t.link.bond b).rate = x.prevRate) ∧
      (numAt blk 4 1 = 1 → (∀ k ∈ maskLanes s b x.mask, (vget s.link.lane k).localPass = some true ∧ (k ≠ j.val → (vget s.link.lane k).remotePass = some true)) →
        (vget t.link.bond b).phase = .mapped ∧ (vget t.link.bond b).rate = x.rate ∧ ∀ k ∈ maskLanes s b x.mask, (vget t.link.lane k).fomCal = (vget s.link.lane k).fom) ∧ rest t b ∧ ({ t with link := s.link } : State) = s) ∧
    (x.phase ≠ .result ∨ s.cyc - x.resultSince < 20000 ∨ (∀ k ∈ maskLanes s b x.mask, (vget s.link.lane k).remotePass.isSome = true) → exec (.resultTimeout b) s = .next s) ∧
    (x.phase = .result → 20000 ≤ s.cyc - x.resultSince → (∃ k ∈ maskLanes s b x.mask, (vget s.link.lane k).remotePass = none) → Does (.resultTimeout b) s fun t => (vget t.link.bond b).phase = .ended ∧ (vget t.link.bond b).rate = x.prevRate ∧ rest t b) ∧
    (x.phase ≠ .ended → (x.phase ≠ .mapped ∨ x.rate < min (fld x.cfg 11 10) x.partnerMax) → exec (.bondUp b) s = .next s) ∧
    ((x.phase = .ended ∨ (x.phase = .mapped ∧ min (fld x.cfg 11 10) x.partnerMax ≤ x.rate)) → s.boot.mainOn = true → s.boot.linkBoot = false → Does (.bondUp b) s fun t => (vget t.link.bond b).phase = .up ∧ (vget t.link.bond b).upTime = now s ∧
      (vget t.link.bond b).rxSeq = 0 ∧ (∀ k ∈ maskLanes s b x.mask, (vget t.link.lane k).state = .inService) ∧ (b = 0 → t.boot.b0WasUp = true) ∧ rest t b ∧ ({ t with link := s.link, boot := s.boot } : State).hush = s.hush) ∧
    (∀ v, laneBond s j = none ∨ l.state ≠ .inService → exec (.fomCheck j v) s = .next s) ∧
    (∀ v : BitVec 8, laneBond s j = some b.val → x.phase = .up → l.state = .inService → 2 ≤ fld x.cfg 63 56 → thr ≤ v.toNat → Does (.fomCheck j v) s fun t => vget t.link.lane j = { l with fom := v.toNat, below := 0 } ∧ t.link.bond = s.link.bond) ∧
    (∀ v : BitVec 8, laneBond s j = some b.val → x.phase = .up → l.state = .inService → v.toNat < thr → l.below + 1 < fld x.cfg 63 56 → Does (.fomCheck j v) s fun t => vget t.link.lane j = { l with fom := v.toNat, below := l.below + 1 } ∧ t.link.bond = s.link.bond) ∧
    (∀ v : BitVec 8, laneBond s j = some b.val → x.phase = .up → l.state = .inService → v.toNat < thr → fld x.cfg 63 56 ≤ l.below + 1 → fld x.cfg 36 32 ≤ maskWidth without → Does (.fomCheck j v) s leaves) ∧
    (laneBond s j = some b.val → x.phase = .up → l.state = .inService → (∃ k ∈ maskLanes s b x.mask, k ≠ j.val ∧ (vget s.link.lane k).state = .inService) → fld x.cfg 36 32 ≤ maskWidth without → Does (.laneLockLost j) s leaves) ∧
    (laneBond s j = some b.val → x.phase = .up → l.state = .inService → (∃ k ∈ maskLanes s b x.mask, k ≠ j.val ∧ (vget s.link.lane k).state = .inService) → maskWidth without < fld x.cfg 36 32 → Does (.laneLockLost j) s fun t => reset t b 3) ∧
    (laneBond s j = some b.val → x.phase = .up → l.state = .inService → (∀ k ∈ maskLanes s b x.mask, k = j.val ∨ (vget s.link.lane k).state ≠ .inService) → Does (.laneLockLost j) s fun t => reset t b 7) ∧
    (laneBond s j = none ∨ l.state ≠ .left ∨ s.cyc - l.since < 1000000000 → exec (.readaptTimer j) s = .next s) ∧
    (laneBond s j = some b.val → x.phase = .up → l.state = .left → 1000000000 ≤ s.cyc - l.since → Does (.readaptTimer j) s fun t => (vget t.link.lane j).since = s.cyc ∧ (vget t.link.lane j).state = .left ∧ t.link.bond = s.link.bond ∧
      (maintHas s 4 (laneHandle j) = true ∨ bitAt s.maint.cfg 1 = true → t.maint = s.maint) ∧
      (maintHas s 4 (laneHandle j) = false → bitAt s.maint.cfg 1 = false → ∃ r : MaintReq, t.maint.arrived = s.maint.arrived ++ [r] ∧ r.activity = 4 ∧ r.unit = laneHandle j ∧ r.origin = 1 ∧ r.cmd = none)) ∧
    (∀ e f, maintRunning s 4 (laneHandle j) = none → exec (.laneReadaptDone j e f) s = .next s) ∧
    (∀ e f r, maintRunning s 4 (laneHandle j) = some r → laneBond s j = some b.val → x.phase = .up → l.state = .left → Does (.laneReadaptDone j e f) s fun t =>
      (vget t.link.lane j).errors = e ∧ (vget t.link.lane j).fom = f ∧ (vget t.link.lane j).readapting = false ∧ (vget t.link.lane j).state = .left ∧ t.maint.running = (s.maint.running.filter fun q => q.ticket != r.ticket) ∧
      (e ≤ (if x.rate = 3 then 53 else 0) → (vget t.link.lane j).fomCal = f ∧ ∃ v, (vget t.link.bond b).width = some v ∧ bitAt v.mask (logicalOf s b j) = true ∧ v.lane = some j) ∧
      ((if x.rate = 3 then 53 else 0) < e → (vget t.link.lane j).fomCal = l.fomCal ∧ (vget t.link.bond b).width = x.width) ∧ rest t b)

/-- R450, R471, R473, R479, R481 to R483, R485 to R488, R490, R493, R495 and R496. -/
def Obligations.LinkDelivery : Prop :=
  ∀ (s : State) (b : Fin 8) (j : Fin 144) (blk : Bytes),
    let x := vget s.link.bond b
    let l := vget s.link.lane j
    let only := fun (t : State) => (({ t with link := s.link } : State).hush = s.hush)
    let alone := fun (t : State) => (({ t with link := s.link } : State) = s)
    let rest := fun (t : State) => (∀ k : Fin 8, k ≠ b → (vget t.link.bond k).hush = (vget s.link.bond k).hush)
    let mine := laneBond s j = some b.val
    let reset := fun (t : State) (cause : Nat) => ((vget t.link.bond b).phase ≠ .up ∧ (vget t.link.bond b).cause = cause ∧ (vget t.link.bond b).resets = (x.resets + 1) % 2 ^ 32 ∧ (vget t.link.bond b).unacked = [] ∧ rest t)
    let others := (maskLanes s b x.mask).filter fun k => k != j.val && (vget s.link.lane k).state == .inService
    let served := (maskLanes s b x.mask).filter fun k => (vget s.link.lane k).state == .inService
    let behind := fun (k : Nat) => (numAt blk 4 4 + 2 ^ 32 - (vget s.link.lane k).marker) % 2 ^ 32
    let lost := fun (tag : BitVec 16) => (x.reads.filter fun r => r.tag != tag.toNat)
    let turn := fun (t : Tx) => (x.phase = .up ∧ txWaits x t = false)
    let answered := fun (ty : Nat) (tag : BitVec 16) (t : Tx) (st : Nat) (d : Bytes) (u : State) => (settled s (linkSend b { ttype := ty, cpl := true, vc := 0, status := st, tag := tag.toNat, data := d } (txDone b t u)))
    (x.phase ≠ .up → exec (.alignMarkerSend b) s = .next s ∧ exec (.ackSendDue b) s = .next s ∧ exec (.replayTimeout b) s = .next s ∧ exec (.idleSleep b) s = .next s ∧ exec (.transmitterWake b) s = .next s ∧
      exec (.creditReturnDue b) s = .next s ∧ (∀ f n, exec (.flitReceived b f n) s = .next s) ∧ (∀ a d, exec (.memWr b a d) s = .next s) ∧ (∀ v, exec (.credit b v) s = .next s)) ∧
    (mine → x.phase ≠ .up → exec (.align j blk) s = .next s ∧ exec (.width j blk) s = .next s ∧ exec (.widthAck j blk) s = .next s ∧ exec (.sleep j blk) s = .next s) ∧
    (mine → x.phase = .up → ctlOk 6 blk = true → x.width = none → (∀ k ∈ others, behind k < 2 ∧ ((vget s.link.lane k).marker = numAt blk 4 4 → 10 * (max s.cyc (vget s.link.lane k).markerAt - min s.cyc (vget s.link.lane k).markerAt) ≤ 64)) →
      Does (.align j blk) s fun t => vget t.link.lane j = { l with marker := numAt blk 4 4, markerAt := s.cyc } ∧
      vget t.link.bond b = { x with rxMarker := numAt blk 4 4, rxSleep := .l0, ackAdvance := (vget t.link.bond b).ackAdvance } ∧ alone t) ∧
    (mine → x.phase = .up → ctlOk 6 blk = true → others ≠ [] → (∀ k ∈ others, 2 ≤ behind k) → (others.map fun k => (vget s.link.lane k).marker).Nodup → Does (.align j blk) s fun t => reset t 4) ∧
    (∀ (k : Fin 144), mine → x.phase = .up → ctlOk 6 blk = true → x.width = none → j.val ∈ served → (∀ i ∈ others, (vget s.link.lane i).marker = numAt blk 4 4) →
      skewed (laneMod j (fun l => { l with marker := numAt blk 4 4, markerAt := s.cyc }) s) served = [k.val] → k ≠ j → laneBond s k = some b.val → fld x.cfg 36 32 ≤ maskWidth (setBit x.mask (logicalOf s b k) false) →
      Does (.align j blk) s fun t => (vget t.link.lane k).state = .left ∧ (vget t.link.lane k).departures = ((vget s.link.lane k).departures + 1) % 2 ^ 32 ∧ (vget t.link.bond b).phase = .up ∧ (vget t.link.bond b).mask = x.mask ∧
        (∃ v, (vget t.link.bond b).width = some v ∧ v.mask = setBit x.mask (logicalOf s b k) false ∧ v.acked = false) ∧ rest t ∧ only t) ∧
    (x.phase = .up → x.txSleep = .l0 → x.width = none → Does (.alignMarkerSend b) s fun t => vget t.link.bond b = { x with txMarker := (x.txMarker + 1) % 2 ^ 32, ctlOut := (vget t.link.bond b).ctlOut } ∧ alone t ∧ rest t ∧
      (vget t.link.bond b).ctlOut.map (·.1) = maskLanes s b x.mask ∧ ∀ p ∈ (vget t.link.bond b).ctlOut, ctlOk 6 p.2 = true ∧ numAt p.2 4 4 = x.txMarker % 2 ^ 32 ∧ numAt p.2 9 2 = x.mask.toNat) ∧
    (∀ w, x.phase = .up → x.txSleep = .l0 → x.width = some w → w.acked = true → w.marker ≤ x.txMarker → fld x.cfg 36 32 ≤ maskWidth w.mask → Does (.alignMarkerSend b) s fun t => (vget t.link.bond b).mask = w.mask ∧ (vget t.link.bond b).width = none ∧
      (vget t.link.bond b).phase = .up ∧ (∀ k ∈ maskLanes s b (w.mask &&& ~~~ x.mask), (vget t.link.lane k).state = .inService ∧ (vget t.link.lane k).rate = x.rate) ∧
      (∀ k ∈ maskLanes s b (x.mask &&& ~~~ w.mask), (vget t.link.lane k).state ≠ .inService) ∧ rest t ∧ only t) ∧
    (mine → x.phase = .up → ctlOk 7 blk = true → let got := BitVec.ofNat 16 (numAt blk 4 2) &&& maskOf s b fun _ => true
      (x.width = none → Does (.width j blk) s fun t => (vget t.link.bond b).width = some ⟨got, numAt blk 8 4, true, none⟩ ∧ (vget t.link.bond b).mask = x.mask ∧ t.link.lane = s.link.lane ∧ rest t ∧ alone t) ∧
      (∀ w, x.width = some w → (w.mask ≠ got ∨ w.marker ≠ numAt blk 8 4) → x.rxMarker < max w.marker (numAt blk 8 4) → Does (.width j blk) s fun t =>
        (vget t.link.bond b).width = some ⟨w.mask &&& got, max w.marker (numAt blk 8 4), true, w.lane⟩ ∧ (vget t.link.bond b).mask = x.mask ∧ t.link.lane = s.link.lane ∧ rest t ∧ alone t)) ∧
    (∀ w, mine → x.phase = .up → ctlOk 8 blk = true → x.width = some w → w.mask.toNat = numAt blk 4 2 → w.marker = numAt blk 8 4 → x.rxMarker < w.marker → Does (.widthAck j blk) s fun t =>
      vget t.link.bond b = { x with width := some { w with acked := true } } ∧ t.link.lane = s.link.lane ∧ rest t ∧ alone t) ∧
    (mine → x.phase = .up → ctlOk 9 blk = true → (numAt blk 4 1 = 1 ∨ numAt blk 4 1 = 2) → Does (.sleep j blk) s fun t => vget t.link.bond b = { x with rxSleep := if numAt blk 4 1 = 1 then .ls else .ld } ∧ t.link.lane = s.link.lane ∧ rest t ∧ alone t) ∧
    (x.phase = .up → (bondIdle x = false → exec (.idleSleep b) s = .next s) ∧
      (bondIdle x = true → x.txSleep = .l0 → (fld x.cfg 95 80 = 0 ∨ x.partnerLd = false) → fld x.cfg 79 64 ≠ 0 → fld x.cfg 79 64 * 100 ≤ s.cyc - x.idleSince → Does (.idleSleep b) s fun t => vget t.link.bond b = { x with txSleep := .ls, ctlOut := (vget t.link.bond b).ctlOut } ∧ rest t ∧ alone t) ∧
      (bondIdle x = true → x.txSleep ≠ .ld → x.partnerLd = true → fld x.cfg 95 80 ≠ 0 → fld x.cfg 95 80 * 100000 ≤ s.cyc - x.idleSince → Does (.idleSleep b) s fun t => vget t.link.bond b = { x with txSleep := .ld, ctlOut := (vget t.link.bond b).ctlOut } ∧ rest t ∧ alone t)) ∧
    (x.phase = .up → (x.txSleep = .l0 ∨ bondIdle x = true) → exec (.transmitterWake b) s = .next s) ∧
    (x.phase = .up → x.txSleep ≠ .l0 → bondIdle x = false → x.width = none → Does (.transmitterWake b) s fun t => (vget t.link.bond b).txSleep = .l0 ∧ (vget t.link.bond b).downSince = s.cyc ∧ (vget t.link.bond b).mask = x.mask ∧ rest t ∧ alone t) ∧
    (∀ (f : Bytes) n, x.phase = .up → (f.length ≠ 256 ∨ numAt f 252 4 ≠ (crc32 (f.take 252)).toNat) → Does (.flitReceived b f n) s fun t => (vget t.link.bond b).crcErrs = (x.crcErrs + 1) % 2 ^ 32 ∧ (vget t.link.bond b).codewords = (x.codewords + n) % 2 ^ 32 ∧
      (vget t.link.bond b).nakSent = true ∧ (vget t.link.bond b).rxSeq = x.rxSeq ∧ (vget t.link.bond b).rxq = x.rxq ∧ (vget t.link.bond b).unacked = x.unacked ∧ rest t ∧ alone t) ∧
    (∀ (f : Bytes), x.phase = .up → f.length = 256 → numAt f 252 4 = (crc32 (f.take 252)).toNat → numAt f 2 2 < 4096 → numAt f 0 2 < 4096 → numAt f 0 2 ≠ x.rxSeq.toNat → Does (.flitReceived b f 0) s fun t =>
      (vget t.link.bond b).nakSent = true ∧ (x.nakSent = true → (vget t.link.bond b).ackOut = x.ackOut) ∧ (vget t.link.bond b).rxSeq = x.rxSeq ∧ (vget t.link.bond b).rxq = x.rxq ∧ (vget t.link.bond b).rxBytes = x.rxBytes ∧ rest t ∧ alone t) ∧
    (∀ (f : Bytes), x.phase = .up → f.length = 256 → numAt f 252 4 = (crc32 (f.take 252)).toNat → numAt f 2 2 < 4096 → numAt f 0 2 = x.rxSeq.toNat → Does (.flitReceived b f 0) s fun t => let p := txParse 64 (x.rxBytes ++ bytesAt f 4 248) []
      (vget t.link.bond b).rxSeq = x.rxSeq + 1 ∧ (vget t.link.bond b).rxAny = true ∧ (vget t.link.bond b).nakSent = false ∧ (vget t.link.bond b).rxq = x.rxq ++ p.1 ∧ (vget t.link.bond b).rxBytes = p.2 ∧
      (vget t.link.bond b).ackOwed.1 = x.ackOwed.1 + 1 ∧ (vget t.link.bond b).unacked = x.unacked ∧ rest t ∧ alone t) ∧
    (∀ (f : Bytes) (a : BitVec 12) i, x.phase = .up → f.length = 256 → numAt f 252 4 = (crc32 (f.take 252)).toNat → numAt f 2 2 = 4096 + a.toNat → 4096 ≤ numAt f 0 2 → x.unacked.findIdx? (fun g => g.fseq == a) = some i → Does (.flitReceived b f 0) s fun t =>
      (∃ more, (vget t.link.bond b).unacked = x.unacked.drop (i + 1) ++ more) ∧ (vget t.link.bond b).replayRun = 0 ∧ (vget t.link.bond b).rxSeq = x.rxSeq ∧ (vget t.link.bond b).rxq = x.rxq) ∧
    (x.phase = .up → (x.ackOwed.1 = 0 ∨ (x.ackOwed.1 < 32 ∧ s.cyc - x.ackOwed.2 < 100)) → exec (.ackSendDue b) s = .next s) ∧
    (x.phase = .up → x.txSleep = .l0 → x.ackOwed.1 ≠ 0 → (32 ≤ x.ackOwed.1 ∨ 100 ≤ s.cyc - x.ackOwed.2) → Does (.ackSendDue b) s fun t =>
      vget t.link.bond b = { x with ackOwed := (0, 0), idleSince := s.cyc, ackOut := some (BitVec.ofNat 16 ((x.rxSeq - 1).toNat + 4096)) } ∧ rest t ∧ alone t) ∧
    (x.phase = .up → (x.unacked = [] ∨ x.rxSleep ≠ .l0 ∨ s.cyc - x.ackAdvance < 1000) → exec (.replayTimeout b) s = .next s) ∧
    (x.phase = .up → x.unacked ≠ [] → x.rxSleep = .l0 → 1000 ≤ s.cyc - x.ackAdvance → (x.replayRun < 7 → Does (.replayTimeout b) s fun t =>
        vget t.link.bond b = { x with replays := (x.replays + 1) % 2 ^ 32, replayRun := x.replayRun + 1, ackAdvance := s.cyc } ∧ rest t ∧ alone t) ∧ (7 ≤ x.replayRun → Does (.replayTimeout b) s fun t => reset t 2)) ∧
    (∀ tag a n, let t : Tx := { ttype := 1, vc := 0, tag := BitVec.toNat tag, rlen := n, addr := a }
      (x.phase ≠ .up ∨ txWaits x t = true → exec (.winRd b tag a n) s = .next s) ∧
      (turn t → n = 4 → a % 4 = 0 → a < 0x1000 → exec (.winRd b tag a n) s = .next (answered 1 tag t 0 (le 4 (winValue s .cozor a)) (winRead .cozor a s).2)) ∧
      (turn t → (n ≠ 4 ∨ a % 4 ≠ 0) → exec (.winRd b tag a n) s = .next (answered 1 tag t 2 [] s)) ∧ (turn t → n = 4 → a % 4 = 0 → 0x1000 ≤ a → exec (.winRd b tag a n) s = .next (answered 1 tag t 1 [] s))) ∧
    (∀ tag a (d : Bytes), let t : Tx := { ttype := 2, vc := 0, tag := BitVec.toNat tag, addr := a, data := d }
      (x.phase ≠ .up ∨ txWaits x t = true → exec (.winWr b tag a d) s = .next s) ∧
      (turn t → d.length = 4 → a % 4 = 0 → a < 0x1000 → exec (.registerWrite .cozor (BitVec.ofNat 12 a) (BitVec.ofNat 32 (leNat d))) s = .next (settled s (winWrite .cozor a (BitVec.ofNat 32 (leNat d)) s)) ∧
        exec (.winWr b tag a d) s = .next (answered 2 tag t 0 [] (winWrite .cozor a (BitVec.ofNat 32 (leNat d)) s))) ∧
      (turn t → (d.length ≠ 4 ∨ a % 4 ≠ 0) → exec (.winWr b tag a d) s = .next (answered 2 tag t 2 [] s)) ∧ (turn t → d.length = 4 → a % 4 = 0 → 0x1000 ≤ a → exec (.winWr b tag a d) s = .next (answered 2 tag t 1 [] s))) ∧
    (∀ tag a n, let t : Tx := { ttype := 3, vc := 0, tag := BitVec.toNat tag, rlen := n, addr := a }
      (turn t → isReady s = false → linkDenied s b a = false → exec (.memRd b tag a n) s = .next (answered 3 tag t 5 [] s)) ∧
      (∀ k al p, turn t → isReady s = false → linkDenied s b a = true → regionOf s.grade a = .bank k al p → exec (.memRd b tag a n) s = .next (answered 3 tag t 3 [] (bankDeny k (bondHandle b) false s))) ∧
      (∀ k al p, turn t → isReady s = true → 32 ≤ n → n % 32 = 0 → a % 4096 + n ≤ 4096 → regionOf s.grade a = .bank k al p →
        (bankAns (vget s.banks k) (bondHandle b) = .denied → exec (.memRd b tag a n) s = .next (answered 3 tag t 3 [] (bankDeny k (bondHandle b) false s))) ∧
        (bankAns (vget s.banks k) (bondHandle b) = .notOn → exec (.memRd b tag a n) s = .next (answered 3 tag t 0 (List.replicate n 0) (bankFail k (bondHandle b) s))) ∧
        (bankAns (vget s.banks k) (bondHandle b) = .served → (vget s.banks k).badWords = [] → exec (.memRd b tag a n) s = .next (answered 3 tag t 0 (viewBytes s a n) s)) ∧
        (bankAns (vget s.banks k) (bondHandle b) = .held → Does (.memRd b tag a n) s fun u => (vget u.link.bond b).rxq = (if x.rxq.contains t then x.rxq else t :: x.rxq) ∧ ({ u with link := s.link } : State) = s)) ∧
      (turn t → isReady s = true → (n < 32 ∨ 4096 < n ∨ n % 32 ≠ 0 ∨ 4096 < a % 4096 + n) → exec (.memRd b tag a n) s = .next (answered 3 tag t 2 [] s)) ∧
      (turn t → isReady s = true → 32 ≤ n → n % 32 = 0 → a % 4096 + n ≤ 4096 → regionOf s.grade a = .unmapped → exec (.memRd b tag a n) s = .next (answered 3 tag t 1 [] s)) ∧
      (turn t → isReady s = true → 32 ≤ n → n % 32 = 0 → a % 4096 + n ≤ 4096 → regionOf s.grade a = .store → s.store.badWords = [] →
        exec (.memRd b tag a n) s = .next (answered 3 tag t 0 ((List.range n).map fun i => memGet s.mem (a + i)) { s with store := { s.store with dozing := false, lastAccess := s.cyc } }))) ∧
    (∀ a (d : Bytes), let t : Tx := { ttype := 4, vc := 0, addr := a, data := d }
      (turn t → isReady s = true → Memory.wf s.mem = true → 4 ≤ d.length → d.length ≤ 4096 → d.length % 4 = 0 → a % 4 = 0 → regionOf s.grade a = .store → regionOf s.grade (a + d.length - 1) = .store → Does (.memWr b a d) s fun t' =>
        (∀ n, memGet t'.mem n = if a ≤ n ∧ n < a + d.length then d.getD (n - a) 0 else memGet s.mem n) ∧ (vget t'.link.bond b).rxq = x.rxq.erase t ∧ vget (vget t'.link.bond b).freed 0 = vget x.freed 0 + (16 + d.length + 31) / 32 ∧
        (vget t'.link.bond b).writeErrs = x.writeErrs ∧ rest t' ∧ only t') ∧
      (turn t → (isReady s = true ∧ (d.length < 4 ∨ 4096 < d.length ∨ d.length % 4 ≠ 0 ∨ a % 4 ≠ 0 ∨ regionOf s.grade a = .unmapped ∨ regionOf s.grade a = .context)) → Does (.memWr b a d) s fun t' =>
        (vget t'.link.bond b).writeErrs = (x.writeErrs + 1) % 2 ^ 32 ∧ (vget t'.link.bond b).rxq = x.rxq.erase t ∧ rest t' ∧ only t')) ∧
    (∀ (m : Fin 64) (v : BitVec 32), x.phase = .up → txWaits x { ttype := 5, vc := 0, addr := Fin.val m, data := le 4 (BitVec.toNat v) } = false → exec (.whistleWrite m v) s = .next (settled s (Machine.whistle m v s)) ∧
      exec (.whistle b m v) s = .next (settled s (txDone b { ttype := 5, vc := 0, addr := Fin.val m, data := le 4 (BitVec.toNat v) } (Machine.whistle m v s)))) ∧
    (∀ v : Vector (BitVec 16) 4, x.phase = .up → (∀ q : Fin 4, vget x.txq q = []) → Does (.credit b v) s fun t => (∀ q : Fin 4, vget (vget t.link.bond b).credits q = vget x.credits q + (vget v q).toNat) ∧ (vget t.link.bond b).unacked = x.unacked ∧ rest t ∧ alone t) ∧
    (∀ tag st d, x.reads.find? (fun r => r.tag == BitVec.toNat tag) = none → exec (.memRdCompletion b tag st d) s = .next s ∧ exec (.cplTimeout b tag) s = .next s) ∧
    (∀ tag st d r, x.phase = .up → x.reads.find? (fun r => r.tag == BitVec.toNat tag) = some r → Does (.memRdCompletion b tag st d) s fun t => (vget t.link.bond b).reads = lost tag ∧ rest t ∧
      (r.fetch = none → st = 0 → t.kennel.hostFailed = s.kennel.hostFailed ∧ t.kennel.hostData = s.kennel.hostData ++ (List.range r.len).map fun i => (r.addr + i, d.getD (r.addr % 32 + i) 0)) ∧
      (r.fetch = none → st ≠ 0 → t.kennel.hostData = s.kennel.hostData ∧ t.kennel.hostFailed = r.addr :: s.kennel.hostFailed) ∧
      (∀ k, r.fetch = some k → (vget s.fetch.ch k).outstanding = some tag.toNat → st = 0 → vget t.fetch.ch k = { vget s.fetch.ch k with outstanding := none, staged := some (padTo 64 d), heldSince := none }) ∧
      (∀ k, r.fetch = some k → (vget s.fetch.ch k).outstanding = some tag.toNat → st ≠ 0 → (vget t.fetch.ch k).ch = .halted ∧ (vget t.fetch.ch k).errKind = if st = 4 then 3 else 1)) ∧
    (∀ tag r, x.reads.find? (fun r => r.tag == BitVec.toNat tag) = some r → (s.cyc - r.since < 1000000 → exec (.cplTimeout b tag) s = .next s) ∧
      (1000000 ≤ s.cyc - r.since → Does (.cplTimeout b tag) s fun t => (vget t.link.bond b).reads = lost tag ∧ rest t ∧ (r.fetch = none → t.kennel.hostFailed = r.addr :: s.kennel.hostFailed ∧ t.fetch = s.fetch) ∧
        (∀ k, r.fetch = some k → (vget s.fetch.ch k).outstanding = some tag.toNat → (vget t.fetch.ch k).ch = .halted ∧ (vget t.fetch.ch k).errKind = 4))) ∧
    (x.phase = .up → ((∀ q : Fin 4, vget x.freed q = 0) ∨ (s.cyc - x.freedSince < 100 ∧ vget x.freed 0 < 128)) → exec (.creditReturnDue b) s = .next s) ∧
    (x.phase = .up → x.txSleep = .l0 → (∃ q : Fin 4, vget x.freed q ≠ 0) → (100 ≤ s.cyc - x.freedSince ∨ 128 ≤ vget x.freed 0) → Does (.creditReturnDue b) s fun t => (vget t.link.bond b).freed = Vector.replicate 4 0 ∧ (vget t.link.bond b).rxq = x.rxq ∧ rest t ∧ alone t)

/-- R481 and R484: the reader of the byte stream undoes its writer across any cut between flits. -/
def Obligations.TransactionsReadBack : Prop :=
  ∀ (l : List Tx) (k cut n : Nat),
    (∀ t ∈ l, t.ttype ≠ 0 ∧ t.ttype < 16 ∧ t.vc < 4 ∧ t.status < 16 ∧ t.tag < 2 ^ 16 ∧ t.rlen < 2 ^ 16 ∧ t.addr < 2 ^ 64 ∧ t.data.length < 2 ^ 16 ∧ t.stream = none) →
    let bytes := l.flatMap txBytes ++ List.replicate (8 * k) 0
    bytes.length ≤ 8 * n →
    let p := txParse n (bytes.take cut) []
    let q := txParse n (p.2 ++ bytes.drop cut) []
    p.1 ++ q.1 = l ∧ q.2 = []
end

