-- ==== Sys2Proof/Laws/Memory.lean ====
section
/-! SUPPORT. Memory: reads after writes, and every memory operation keeps the canonical form. -/
set_option Elab.async false
namespace Sys2Proof.Machine
open Sys2Proof

/-- No address of the list lies below a bound. -/
def Memory.above (lo : Nat) (m : List Host.Cell) : Prop := ∀ c ∈ m, lo < c.1

theorem Memory.wf_cons {a : Nat} {b : Byte} {m : List Host.Cell} :
    Memory.wf ((a, b) :: m) = true ↔ b ≠ 0 ∧ Memory.above a m ∧ Memory.wf m = true := by
  induction m generalizing a b with
  | nil => simp [Memory.wf, Memory.above]
  | cons c m ih =>
    obtain ⟨a', b'⟩ := c
    have h := @ih a' b'
    simp only [Memory.wf, Memory.above, Bool.and_eq_true, bne_iff_ne, ne_eq, decide_eq_true_eq, List.mem_cons] at *
    constructor
    · rintro ⟨⟨h1, h2⟩, h3⟩
      refine ⟨h1, ?_, h3⟩
      intro c hc
      rcases hc with rfl | hc
      · exact h2
      · exact Nat.lt_trans h2 ((h.1 h3).2.1 c hc)
    · rintro ⟨h1, h2, h3⟩
      exact ⟨⟨h1, h2 (a', b') (Or.inl rfl)⟩, h3⟩

/-- An address below every listed one reads 0. -/
theorem memGet_above {a : Nat} {m : List Host.Cell} (h : Memory.above a m) : memGet m a = 0 := by
  induction m with
  | nil => rfl
  | cons c m ih =>
    obtain ⟨x, b⟩ := c
    have hx : a < x := h (x, b) List.mem_cons_self
    rw [memGet, if_neg (by omega)]
    exact ih fun c hc => h c (List.mem_cons_of_mem _ hc)

theorem memSet_above {lo a : Nat} {b : Byte} {m : List Host.Cell} (h : Memory.above lo m) (ha : lo < a) : Memory.above lo (memSet m a b) := by
  induction m with
  | nil =>
    unfold memSet
    split
    · exact h
    · intro c hc; simp only [List.mem_singleton] at hc; subst hc; exact ha
  | cons c m ih =>
    obtain ⟨x, y⟩ := c
    have hm : Memory.above lo m := fun c hc => h c (List.mem_cons_of_mem _ hc)
    unfold memSet
    repeat' split
    · exact h
    · intro c hc
      rcases List.mem_cons.1 hc with rfl | hc
      · exact ha
      · exact h c hc
    · exact hm
    · intro c hc
      rcases List.mem_cons.1 hc with rfl | hc
      · exact ha
      · exact hm c hc
    · intro c hc
      rcases List.mem_cons.1 hc with rfl | hc
      · exact h (x, y) List.mem_cons_self
      · exact ih hm c hc

/-- Writing a byte keeps the canonical form. -/
theorem memSet_wf {m : List Host.Cell} (a : Nat) (b : Byte) (h : Memory.wf m = true) : Memory.wf (memSet m a b) = true := by
  induction m with
  | nil =>
    unfold memSet
    split
    · rfl
    · simpa [Memory.wf] using ‹¬b = 0#8›
  | cons c m ih =>
    obtain ⟨x, y⟩ := c
    obtain ⟨hy, hx, hm⟩ := Memory.wf_cons.1 h
    unfold memSet
    split
    · next hlt =>
      split
      · exact h
      · next hb =>
        refine Memory.wf_cons.2 ⟨hb, ?_, h⟩
        intro c hc
        rcases List.mem_cons.1 hc with rfl | hc
        · exact hlt
        · exact Nat.lt_trans hlt (hx c hc)
    · next hlt =>
      split
      · next he =>
        subst he
        split
        · exact hm
        · next hb => exact Memory.wf_cons.2 ⟨hb, hx, hm⟩
      · next hne => exact Memory.wf_cons.2 ⟨hy, memSet_above hx (by omega), ih hm⟩

/-- A byte reads as it was written. -/
theorem memGet_memSet_same {m : List Host.Cell} (a : Nat) (b : Byte) (h : Memory.wf m = true) : memGet (memSet m a b) a = b := by
  induction m with
  | nil =>
    unfold memSet
    split
    · simp_all [memGet]
    · simp [memGet]
  | cons c m ih =>
    obtain ⟨x, y⟩ := c
    obtain ⟨hy, hx, hm⟩ := Memory.wf_cons.1 h
    unfold memSet
    split
    · next hlt =>
      split
      · next hb =>
        subst hb
        rw [memGet, if_neg (by omega)]
        exact memGet_above fun c hc => Nat.lt_trans hlt (hx c hc)
      · simp [memGet]
    · next hlt =>
      split
      · next he =>
        subst he
        split
        · next hb => subst hb; exact memGet_above hx
        · simp [memGet]
      · next hne =>
        rw [memGet, if_neg (by omega)]
        exact ih hm

/-- Every other byte reads as before. -/
theorem memGet_memSet_other {m : List Host.Cell} {a a' : Nat} (b : Byte) (h : a' ≠ a) : memGet (memSet m a b) a' = memGet m a' := by
  induction m with
  | nil =>
    unfold memSet
    split
    · rfl
    · simp [memGet, Ne.symm h]
  | cons c m ih =>
    obtain ⟨x, y⟩ := c
    unfold memSet
    repeat' split
    · rfl
    · rw [memGet, if_neg (Ne.symm h)]
    · next he _ => subst he; rw [memGet, if_neg (Ne.symm h)]
    · next he _ => subst he; simp only [memGet, if_neg (Ne.symm h)]
    · simp only [memGet, ih]

/-- Writing bytes keeps the canonical form. -/
theorem memPut_wf {m : List Host.Cell} (a : Nat) (b : Bytes) (h : Memory.wf m = true) : Memory.wf (memPut m a b) = true := by
  induction b generalizing m a with
  | nil => exact h
  | cons x b ih => exact ih _ (memSet_wf a x h)

/-- A byte outside the bytes written reads as before. -/
theorem memGet_memPut_other {m : List Host.Cell} {a a' : Nat} (b : Bytes) (h : a' < a ∨ a + b.length ≤ a') : memGet (memPut m a b) a' = memGet m a' := by
  induction b generalizing m a with
  | nil => rfl
  | cons x b ih =>
    simp only [List.length_cons] at h
    unfold memPut
    rw [ih (by omega), memGet_memSet_other x (by omega)]

/-- A byte written reads as it was written. -/
theorem memGet_memPut_same {m : List Host.Cell} (a : Nat) (b : Bytes) (hw : Memory.wf m = true) {i : Nat} (h : i < b.length) :
    memGet (memPut m a b) (a + i) = b[i] := by
  induction b generalizing m a i with
  | nil => simp at h
  | cons x b ih =>
    unfold memPut
    cases i with
    | zero =>
      rw [memGet_memPut_other b (by omega)]
      exact memGet_memSet_same a x hw
    | succ i =>
      have := ih (a + 1) (memSet_wf a x hw) (i := i) (by simpa using h)
      rw [show a + (i + 1) = a + 1 + i by omega, this]
      rfl

theorem filter_above {lo : Nat} {m : List Host.Cell} (p : Host.Cell → Bool) (h : Memory.above lo m) : Memory.above lo (m.filter p) :=
  fun c hc => h c (List.mem_filter.1 hc).1

/-- Zeroing a range keeps the canonical form. -/
theorem memZero_wf {m : List Host.Cell} (lo hi : Nat) (h : Memory.wf m = true) : Memory.wf (memZero m lo hi) = true := by
  unfold memZero
  induction m with
  | nil => rfl
  | cons c m ih =>
    obtain ⟨x, y⟩ := c
    obtain ⟨hy, hx, hm⟩ := Memory.wf_cons.1 h
    rw [List.filter_cons]
    split
    · exact Memory.wf_cons.2 ⟨hy, filter_above _ hx, ih hm⟩
    · exact ih hm

/-- What a zeroed range leaves. -/
theorem memGet_memZero (m : List Host.Cell) (lo hi a : Nat) : memGet (memZero m lo hi) a = if lo ≤ a ∧ a < hi then 0 else memGet m a := by
  unfold memZero
  induction m with
  | nil => simp [memGet]
  | cons c m ih =>
    obtain ⟨x, y⟩ := c
    rw [List.filter_cons]
    split
    · next hk =>
      simp only [Bool.not_eq_true', Bool.and_eq_false_iff, decide_eq_false_iff_not] at hk
      unfold memGet
      split
      · next he => subst he; rw [if_neg (by omega)]
      · rw [ih]
    · next hk =>
      simp only [Bool.not_eq_true', Bool.and_eq_false_iff, decide_eq_false_iff_not] at hk
      rw [ih]
      split
      · rfl
      · rw [memGet, if_neg (by omega)]

/-- The canonical form, said of all entries at once. -/
theorem Memory.wf_iff {m : List Host.Cell} : Memory.wf m = true ↔ (∀ c ∈ m, c.2 ≠ 0) ∧ m.Pairwise (fun c d => c.1 < d.1) := by
  induction m with
  | nil => simp [Memory.wf]
  | cons c m ih =>
    obtain ⟨x, y⟩ := c
    rw [Memory.wf_cons, ih, List.pairwise_cons]
    simp only [List.mem_cons, forall_eq_or_imp, Memory.above]
    constructor
    · rintro ⟨h1, h2, h3, h4⟩; exact ⟨⟨h1, h3⟩, h2, h4⟩
    · rintro ⟨⟨h1, h3⟩, h2, h4⟩; exact ⟨h1, h2, h3, h4⟩

theorem span_pairwise (lo hi : Nat) : (span lo hi).Pairwise (· < ·) := by
  unfold span
  exact List.pairwise_map.2 (List.pairwise_lt_range.imp (by intros; omega))

theorem mem_span {lo hi a : Nat} : a ∈ span lo hi ↔ lo ≤ a ∧ a < hi := by
  unfold span
  simp only [List.mem_map, List.mem_range]
  constructor
  · rintro ⟨x, hx, rfl⟩; omega
  · rintro ⟨h1, h2⟩; exact ⟨a - lo, by omega, by omega⟩

/-- Filling a range with a pattern keeps the canonical form. -/
theorem memPattern_wf {m : List Host.Cell} (lo hi : Nat) (w : BitVec 32) (hl : lo ≤ hi) (h : Memory.wf m = true) :
    Memory.wf (memPattern m lo hi w) = true := by
  obtain ⟨h0, hp⟩ := Memory.wf_iff.1 h
  refine Memory.wf_iff.2 ⟨?_, ?_⟩
  · intro c hc
    simp only [memPattern, List.mem_append, List.mem_filter, List.mem_filterMap] at hc
    rcases hc with (⟨hc, _⟩ | ⟨a, _, hc⟩) | ⟨hc, _⟩
    · exact h0 c hc
    · split at hc
      · cases hc
      · next hb => cases hc; exact hb
    · exact h0 c hc
  · unfold memPattern
    rw [List.append_assoc, List.pairwise_append, List.pairwise_append]
    have hkey : ∀ c ∈ (span lo hi).filterMap (fun a => let b := (le 4 w.toNat).getD ((a - lo) % 4) 0; if b = 0 then none else some (a, b)),
        lo ≤ c.1 ∧ c.1 < hi := by
      intro c hc
      obtain ⟨a, ha, hc⟩ := List.mem_filterMap.1 hc
      dsimp only at hc
      split at hc
      · cases hc
      · cases hc; exact mem_span.1 ha
    refine ⟨hp.filter _, ⟨?_, hp.filter _, ?_⟩, ?_⟩
    · rw [List.pairwise_filterMap]
      refine (span_pairwise lo hi).imp ?_
      intro a b hab c hc d hd
      dsimp only at hc hd
      split at hc <;> split at hd <;> simp_all
      subst hc; subst hd; exact hab
    · intro c hc d hd
      have := hkey c hc
      have hd' := (List.mem_filter.1 hd).2
      simp only [decide_eq_true_eq] at hd'
      omega
    · intro c hc d hd
      have hc' := (List.mem_filter.1 hc).2
      simp only [decide_eq_true_eq] at hc'
      rcases List.mem_append.1 hd with hd | hd
      · have := hkey d hd; omega
      · have hd' := (List.mem_filter.1 hd).2
        simp only [decide_eq_true_eq] at hd'
        omega

/-- Bytes read are as many as were asked for. -/
@[simp] theorem memTake_length (m : List Host.Cell) (a n : Nat) : (memTake m a n).length = n := by
  induction n generalizing a with
  | zero => rfl
  | succ n ih => simp [memTake, ih]

/-- Writing device memory keeps the canonical form. -/
theorem rawWrite_wf {s : State} (a : Nat) (b : Bytes) (h : Memory.wf s.mem = true) : Memory.wf (rawWrite a b s).mem = true := memPut_wf a b h

theorem storeWrite_wf {s : State} (a : Nat) (b : Bytes) (h : Memory.wf s.mem = true) : Memory.wf (storeWrite a b s).mem = true := memPut_wf a b h

end Sys2Proof.Machine
end

