-- ==== Sys2Proof/Laws/PerInstr.lean ====
section
/-! SUPPORT. Statements about commands as syntax, one lemma per command. -/
set_option Elab.async false
namespace Sys2Proof.Laws
open Sys2Proof Sys2Proof.Machine

/-- A row of the command catalogue hands its verb arguments its path can carry (R440, R452). -/
def CatalogueArgs.Statement (i : Instr) : Prop := ∀ v c, asVerb i = some (v, c) → i.wf = true → c.wf = true

/-- A command given its selector byte keeps to what its path can carry. -/
theorem withByte_wf (c : Cmd) (i v : Nat) (hi : i < 48) (h : c.wf = true) : (withByte c i v).wf = true := by
  obtain ⟨p, _, _, args⟩ := c
  have hl : ((padTo (max args.length (i + 1)) args).set i (BitVec.ofNat 8 v)).length = max args.length (i + 1) := by
    simp [padTo]
  cases p <;> simp only [Cmd.wf, withByte, decide_eq_true_eq, hl] at h ⊢ <;> omega

theorem CatalogueArgs.vinAuxRise x0 x1 : CatalogueArgs.Statement (.vinAuxRise x0 x1) := nofun
theorem CatalogueArgs.pReset x0 : CatalogueArgs.Statement (.pReset x0) := nofun
theorem CatalogueArgs.mgmtFwVerified : CatalogueArgs.Statement .mgmtFwVerified := nofun
theorem CatalogueArgs.mainRailsUp x0 : CatalogueArgs.Statement (.mainRailsUp x0) := nofun
theorem CatalogueArgs.kennelBoot : CatalogueArgs.Statement .kennelBoot := nofun
theorem CatalogueArgs.storeTrained x0 : CatalogueArgs.Statement (.storeTrained x0) := nofun
theorem CatalogueArgs.convertersCal x0 x1 : CatalogueArgs.Statement (.convertersCal x0 x1) := nofun
theorem CatalogueArgs.bringupReady : CatalogueArgs.Statement .bringupReady := nofun
theorem CatalogueArgs.stageTimeout x0 : CatalogueArgs.Statement (.stageTimeout x0) := nofun
theorem CatalogueArgs.linkImagePoll : CatalogueArgs.Statement .linkImagePoll := nofun
theorem CatalogueArgs.linkImageTimeout : CatalogueArgs.Statement .linkImageTimeout := nofun
theorem CatalogueArgs.devResetBegin : CatalogueArgs.Statement .devResetBegin := nofun
theorem CatalogueArgs.resetNLow : CatalogueArgs.Statement .resetNLow := nofun
theorem CatalogueArgs.resetNRise : CatalogueArgs.Statement .resetNRise := nofun
theorem CatalogueArgs.mainOffElapsed : CatalogueArgs.Statement .mainOffElapsed := nofun
theorem CatalogueArgs.supplySample x0 x1 : CatalogueArgs.Statement (.supplySample x0 x1) := nofun
theorem CatalogueArgs.supplyRecover x0 : CatalogueArgs.Statement (.supplyRecover x0) := nofun
theorem CatalogueArgs.vinMainReturn : CatalogueArgs.Statement .vinMainReturn := nofun
theorem CatalogueArgs.railOut x0 x1 : CatalogueArgs.Statement (.railOut x0 x1) := nofun
theorem CatalogueArgs.railOutRemove x0 : CatalogueArgs.Statement (.railOutRemove x0) := nofun
theorem CatalogueArgs.thermalRead x0 : CatalogueArgs.Statement (.thermalRead x0) := nofun
theorem CatalogueArgs.thermalCooled : CatalogueArgs.Statement .thermalCooled := nofun
theorem CatalogueArgs.kennelReport : CatalogueArgs.Statement .kennelReport := nofun
theorem CatalogueArgs.kennelHang : CatalogueArgs.Statement .kennelHang := nofun
theorem CatalogueArgs.pwrCycleMain (c : Cmd) : CatalogueArgs.Statement (.pwrCycleMain c) := by intro v d h hw; cases h; exact hw
theorem CatalogueArgs.pwrSetStateActive (c : Cmd) : CatalogueArgs.Statement (.pwrSetStateActive c) := by intro v d h hw; cases h; exact withByte_wf c _ _ (by decide) hw
theorem CatalogueArgs.pwrSetStateQuiet (c : Cmd) : CatalogueArgs.Statement (.pwrSetStateQuiet c) := by intro v d h hw; cases h; exact withByte_wf c _ _ (by decide) hw
theorem CatalogueArgs.pwrSetStateStandby (c : Cmd) : CatalogueArgs.Statement (.pwrSetStateStandby c) := by intro v d h hw; cases h; exact withByte_wf c _ _ (by decide) hw
theorem CatalogueArgs.powerTransitionDone : CatalogueArgs.Statement .powerTransitionDone := nofun
theorem CatalogueArgs.pwrConfigure (c : Cmd) : CatalogueArgs.Statement (.pwrConfigure c) := by intro v d h hw; cases h; exact hw
theorem CatalogueArgs.pwrStatus (c : Cmd) : CatalogueArgs.Statement (.pwrStatus c) := by intro v d h hw; cases h; exact hw
theorem CatalogueArgs.mjGo x0 : CatalogueArgs.Statement (.mjGo x0) := nofun
theorem CatalogueArgs.junctionServe : CatalogueArgs.Statement .junctionServe := nofun
theorem CatalogueArgs.devResetWrite x0 x1 : CatalogueArgs.Statement (.devResetWrite x0 x1) := nofun
theorem CatalogueArgs.whistleWrite x0 x1 : CatalogueArgs.Statement (.whistleWrite x0 x1) := nofun
theorem CatalogueArgs.boxDataLastWordRead x0 : CatalogueArgs.Statement (.boxDataLastWordRead x0) := nofun
theorem CatalogueArgs.windowLatchRead x0 x1 : CatalogueArgs.Statement (.windowLatchRead x0 x1) := nofun
theorem CatalogueArgs.registerWrite x0 x1 x2 : CatalogueArgs.Statement (.registerWrite x0 x1 x2) := nofun
theorem CatalogueArgs.smbusWriteWord x0 x1 : CatalogueArgs.Statement (.smbusWriteWord x0 x1) := nofun
theorem CatalogueArgs.smbusBlockRead x0 : CatalogueArgs.Statement (.smbusBlockRead x0) := nofun
theorem CatalogueArgs.smbusBlockWrite x0 x1 : CatalogueArgs.Statement (.smbusBlockWrite x0 x1) := nofun
theorem CatalogueArgs.mailboxTakeCommand : CatalogueArgs.Statement .mailboxTakeCommand := nofun
theorem CatalogueArgs.interimResponseDue x0 x1 : CatalogueArgs.Statement (.interimResponseDue x0 x1) := nofun
theorem CatalogueArgs.unitReinit (c : Cmd) : CatalogueArgs.Statement (.unitReinit c) := by intro v d h hw; cases h; exact hw
theorem CatalogueArgs.unitState (c : Cmd) : CatalogueArgs.Statement (.unitState c) := by intro v d h hw; cases h; exact hw
theorem CatalogueArgs.unitList (c : Cmd) : CatalogueArgs.Statement (.unitList c) := by intro v d h hw; cases h; exact hw
theorem CatalogueArgs.devReset (c : Cmd) : CatalogueArgs.Statement (.devReset c) := by intro v d h hw; cases h; exact hw
theorem CatalogueArgs.devEventRoute (c : Cmd) : CatalogueArgs.Statement (.devEventRoute c) := by intro v d h hw; cases h; exact hw
theorem CatalogueArgs.devConfigure (c : Cmd) : CatalogueArgs.Statement (.devConfigure c) := by intro v d h hw; cases h; exact hw
theorem CatalogueArgs.devStatus (c : Cmd) : CatalogueArgs.Statement (.devStatus c) := by intro v d h hw; cases h; exact hw
theorem CatalogueArgs.packCreate (c : Cmd) : CatalogueArgs.Statement (.packCreate c) := by intro v d h hw; cases h; exact hw
theorem CatalogueArgs.packAdd (c : Cmd) : CatalogueArgs.Statement (.packAdd c) := by intro v d h hw; cases h; exact hw
theorem CatalogueArgs.packRemove (c : Cmd) : CatalogueArgs.Statement (.packRemove c) := by intro v d h hw; cases h; exact hw
theorem CatalogueArgs.packDissolve (c : Cmd) : CatalogueArgs.Statement (.packDissolve c) := by intro v d h hw; cases h; exact hw
theorem CatalogueArgs.packList (c : Cmd) : CatalogueArgs.Statement (.packList c) := by intro v d h hw; cases h; exact hw
theorem CatalogueArgs.packStatus (c : Cmd) : CatalogueArgs.Statement (.packStatus c) := by intro v d h hw; cases h; exact hw
theorem CatalogueArgs.packSelftest (c : Cmd) : CatalogueArgs.Statement (.packSelftest c) := by intro v d h hw; cases h; exact hw
theorem CatalogueArgs.selftestDone x0 x1 x2 : CatalogueArgs.Statement (.selftestDone x0 x1 x2) := nofun
theorem CatalogueArgs.poolSelftestTimer : CatalogueArgs.Statement .poolSelftestTimer := nofun
theorem CatalogueArgs.declareEngineDead x0 : CatalogueArgs.Statement (.declareEngineDead x0) := nofun
theorem CatalogueArgs.promoteSpare x0 : CatalogueArgs.Statement (.promoteSpare x0) := nofun
theorem CatalogueArgs.issueWorkItem x0 : CatalogueArgs.Statement (.issueWorkItem x0) := nofun
theorem CatalogueArgs.workItemComplete x0 x1 : CatalogueArgs.Statement (.workItemComplete x0 x1) := nofun
theorem CatalogueArgs.engineStoreWrite x0 x1 x2 x3 x4 x5 : CatalogueArgs.Statement (.engineStoreWrite x0 x1 x2 x3 x4 x5) := nofun
theorem CatalogueArgs.rateLockUpdate x0 : CatalogueArgs.Statement (.rateLockUpdate x0) := nofun
theorem CatalogueArgs.vFabRaiseDone : CatalogueArgs.Statement .vFabRaiseDone := nofun
theorem CatalogueArgs.inputConfigure (c : Cmd) : CatalogueArgs.Statement (.inputConfigure c) := by intro v d h hw; cases h; exact hw
theorem CatalogueArgs.inputSetAtten (c : Cmd) : CatalogueArgs.Statement (.inputSetAtten c) := by intro v d h hw; cases h; exact hw
theorem CatalogueArgs.inputArrange (c : Cmd) : CatalogueArgs.Statement (.inputArrange c) := by intro v d h hw; cases h; exact hw
theorem CatalogueArgs.inputStatus (c : Cmd) : CatalogueArgs.Statement (.inputStatus c) := by intro v d h hw; cases h; exact hw
theorem CatalogueArgs.attenApply x0 : CatalogueArgs.Statement (.attenApply x0) := nofun
theorem CatalogueArgs.settleSpanEnd x0 : CatalogueArgs.Statement (.settleSpanEnd x0) := nofun
theorem CatalogueArgs.streamSwitch x0 x1 : CatalogueArgs.Statement (.streamSwitch x0 x1) := nofun
theorem CatalogueArgs.ingestBlock x0 x1 x2 : CatalogueArgs.Statement (.ingestBlock x0 x1 x2) := nofun
theorem CatalogueArgs.overloadExit x0 : CatalogueArgs.Statement (.overloadExit x0) := nofun
theorem CatalogueArgs.skidDrain x0 : CatalogueArgs.Statement (.skidDrain x0) := nofun
theorem CatalogueArgs.calConfigure (c : Cmd) : CatalogueArgs.Statement (.calConfigure c) := by intro v d h hw; cases h; exact hw
theorem CatalogueArgs.calForeground (c : Cmd) : CatalogueArgs.Statement (.calForeground c) := by intro v d h hw; cases h; exact hw
theorem CatalogueArgs.calStatus (c : Cmd) : CatalogueArgs.Statement (.calStatus c) := by intro v d h hw; cases h; exact hw
theorem CatalogueArgs.calReadTrims (c : Cmd) : CatalogueArgs.Statement (.calReadTrims c) := by intro v d h hw; cases h; exact hw
theorem CatalogueArgs.calUpdatePeriodEnd x0 x1 : CatalogueArgs.Statement (.calUpdatePeriodEnd x0 x1) := nofun
theorem CatalogueArgs.foregroundStart x0 : CatalogueArgs.Statement (.foregroundStart x0) := nofun
theorem CatalogueArgs.foregroundIteration x0 x1 : CatalogueArgs.Statement (.foregroundIteration x0 x1) := nofun
theorem CatalogueArgs.foregroundEnd x0 : CatalogueArgs.Statement (.foregroundEnd x0) := nofun
theorem CatalogueArgs.ddcConfigure (c : Cmd) : CatalogueArgs.Statement (.ddcConfigure c) := by intro v d h hw; cases h; exact hw
theorem CatalogueArgs.ddcTune (c : Cmd) : CatalogueArgs.Statement (.ddcTune c) := by intro v d h hw; cases h; exact hw
theorem CatalogueArgs.ddcSetThreshold (c : Cmd) : CatalogueArgs.Statement (.ddcSetThreshold c) := by intro v d h hw; cases h; exact hw
theorem CatalogueArgs.ddcSync (c : Cmd) : CatalogueArgs.Statement (.ddcSync c) := by intro v d h hw; cases h; exact hw
theorem CatalogueArgs.ddcEngine (c : Cmd) : CatalogueArgs.Statement (.ddcEngine c) := by intro v d h hw; cases h; exact hw
theorem CatalogueArgs.ddcQuery (c : Cmd) : CatalogueArgs.Statement (.ddcQuery c) := by intro v d h hw; cases h; exact hw
theorem CatalogueArgs.ddcStatus (c : Cmd) : CatalogueArgs.Statement (.ddcStatus c) := by intro v d h hw; cases h; exact hw
theorem CatalogueArgs.ddcRetuneApply x0 : CatalogueArgs.Statement (.ddcRetuneApply x0) := nofun
theorem CatalogueArgs.ddcRestart x0 : CatalogueArgs.Statement (.ddcRestart x0) := nofun
theorem CatalogueArgs.syncReset x0 : CatalogueArgs.Statement (.syncReset x0) := nofun
theorem CatalogueArgs.ddcThreshAverage x0 : CatalogueArgs.Statement (.ddcThreshAverage x0) := nofun
theorem CatalogueArgs.chanCreate (c : Cmd) : CatalogueArgs.Statement (.chanCreate c) := by intro v d h hw; cases h; exact hw
theorem CatalogueArgs.chanBundle (c : Cmd) : CatalogueArgs.Statement (.chanBundle c) := by intro v d h hw; cases h; exact hw
theorem CatalogueArgs.chanUnbundle (c : Cmd) : CatalogueArgs.Statement (.chanUnbundle c) := by intro v d h hw; cases h; exact hw
theorem CatalogueArgs.chanStart (c : Cmd) : CatalogueArgs.Statement (.chanStart c) := by intro v d h hw; cases h; exact hw
theorem CatalogueArgs.chanStop (c : Cmd) : CatalogueArgs.Statement (.chanStop c) := by intro v d h hw; cases h; exact hw
theorem CatalogueArgs.chanDelete (c : Cmd) : CatalogueArgs.Statement (.chanDelete c) := by intro v d h hw; cases h; exact hw
theorem CatalogueArgs.chanStatus (c : Cmd) : CatalogueArgs.Statement (.chanStatus c) := by intro v d h hw; cases h; exact hw
theorem CatalogueArgs.bundleTakeEffect x0 x1 : CatalogueArgs.Statement (.bundleTakeEffect x0 x1) := nofun
theorem CatalogueArgs.chanFrameClose x0 x1 : CatalogueArgs.Statement (.chanFrameClose x0 x1) := nofun
theorem CatalogueArgs.xformCreate (c : Cmd) : CatalogueArgs.Statement (.xformCreate c) := by intro v d h hw; cases h; exact hw
theorem CatalogueArgs.xformLoadWindow (c : Cmd) : CatalogueArgs.Statement (.xformLoadWindow c) := by intro v d h hw; cases h; exact hw
theorem CatalogueArgs.xformStart (c : Cmd) : CatalogueArgs.Statement (.xformStart c) := by intro v d h hw; cases h; exact hw
theorem CatalogueArgs.xformStop (c : Cmd) : CatalogueArgs.Statement (.xformStop c) := by intro v d h hw; cases h; exact hw
theorem CatalogueArgs.xformDelete (c : Cmd) : CatalogueArgs.Statement (.xformDelete c) := by intro v d h hw; cases h; exact hw
theorem CatalogueArgs.xformQuery (c : Cmd) : CatalogueArgs.Statement (.xformQuery c) := by intro v d h hw; cases h; exact hw
theorem CatalogueArgs.xformStatus (c : Cmd) : CatalogueArgs.Statement (.xformStatus c) := by intro v d h hw; cases h; exact hw
theorem CatalogueArgs.stopComplete x0 x1 : CatalogueArgs.Statement (.stopComplete x0 x1) := nofun
theorem CatalogueArgs.trigDefine (c : Cmd) : CatalogueArgs.Statement (.trigDefine c) := by intro v d h hw; cases h; exact hw
theorem CatalogueArgs.trigLoadMask (c : Cmd) : CatalogueArgs.Statement (.trigLoadMask c) := by intro v d h hw; cases h; exact hw
theorem CatalogueArgs.trigArm (c : Cmd) : CatalogueArgs.Statement (.trigArm c) := by intro v d h hw; cases h; exact hw
theorem CatalogueArgs.trigDisarm (c : Cmd) : CatalogueArgs.Statement (.trigDisarm c) := by intro v d h hw; cases h; exact hw
theorem CatalogueArgs.trigForce (c : Cmd) : CatalogueArgs.Statement (.trigForce c) := by intro v d h hw; cases h; exact hw
theorem CatalogueArgs.trigSignal (c : Cmd) : CatalogueArgs.Statement (.trigSignal c) := by intro v d h hw; cases h; exact hw
theorem CatalogueArgs.trigDelete (c : Cmd) : CatalogueArgs.Statement (.trigDelete c) := by intro v d h hw; cases h; exact hw
theorem CatalogueArgs.trigStatus (c : Cmd) : CatalogueArgs.Statement (.trigStatus c) := by intro v d h hw; cases h; exact hw
theorem CatalogueArgs.triggerElement x0 x1 x2 : CatalogueArgs.Statement (.triggerElement x0 x1 x2) := nofun
theorem CatalogueArgs.timerDue x0 x1 x2 : CatalogueArgs.Statement (.timerDue x0 x1 x2) := nofun
theorem CatalogueArgs.seqWindowExpire x0 x1 : CatalogueArgs.Statement (.seqWindowExpire x0 x1) := nofun
theorem CatalogueArgs.holdoffEnd x0 x1 : CatalogueArgs.Statement (.holdoffEnd x0 x1) := nofun
theorem CatalogueArgs.spanComplete x0 x1 : CatalogueArgs.Statement (.spanComplete x0 x1) := nofun
theorem CatalogueArgs.pinCopyComplete x0 x1 : CatalogueArgs.Statement (.pinCopyComplete x0 x1) := nofun
theorem CatalogueArgs.recRingPolicy (c : Cmd) : CatalogueArgs.Statement (.recRingPolicy c) := by intro v d h hw; cases h; exact hw
theorem CatalogueArgs.recRelease (c : Cmd) : CatalogueArgs.Statement (.recRelease c) := by intro v d h hw; cases h; exact hw
theorem CatalogueArgs.recEnvelope (c : Cmd) : CatalogueArgs.Statement (.recEnvelope c) := by intro v d h hw; cases h; exact hw
theorem CatalogueArgs.recEnvStop (c : Cmd) : CatalogueArgs.Statement (.recEnvStop c) := by intro v d h hw; cases h; exact hw
theorem CatalogueArgs.recStatus (c : Cmd) : CatalogueArgs.Statement (.recStatus c) := by intro v d h hw; cases h; exact hw
theorem CatalogueArgs.envFrameClose x0 : CatalogueArgs.Statement (.envFrameClose x0) := nofun
theorem CatalogueArgs.measDefine (c : Cmd) : CatalogueArgs.Statement (.measDefine c) := by intro v d h hw; cases h; exact hw
theorem CatalogueArgs.measRun (c : Cmd) : CatalogueArgs.Statement (.measRun c) := by intro v d h hw; cases h; exact hw
theorem CatalogueArgs.measStatus (c : Cmd) : CatalogueArgs.Statement (.measStatus c) := by intro v d h hw; cases h; exact hw
theorem CatalogueArgs.measComplete x0 : CatalogueArgs.Statement (.measComplete x0) := nofun
theorem CatalogueArgs.densConfigure (c : Cmd) : CatalogueArgs.Statement (.densConfigure c) := by intro v d h hw; cases h; exact hw
theorem CatalogueArgs.densLoadColours (c : Cmd) : CatalogueArgs.Statement (.densLoadColours c) := by intro v d h hw; cases h; exact hw
theorem CatalogueArgs.densStart (c : Cmd) : CatalogueArgs.Statement (.densStart c) := by intro v d h hw; cases h; exact hw
theorem CatalogueArgs.densStop (c : Cmd) : CatalogueArgs.Statement (.densStop c) := by intro v d h hw; cases h; exact hw
theorem CatalogueArgs.densClear (c : Cmd) : CatalogueArgs.Statement (.densClear c) := by intro v d h hw; cases h; exact hw
theorem CatalogueArgs.densStatus (c : Cmd) : CatalogueArgs.Statement (.densStatus c) := by intro v d h hw; cases h; exact hw
theorem CatalogueArgs.densFrameComplete x0 : CatalogueArgs.Statement (.densFrameComplete x0) := nofun
theorem CatalogueArgs.occConfigure (c : Cmd) : CatalogueArgs.Statement (.occConfigure c) := by intro v d h hw; cases h; exact hw
theorem CatalogueArgs.occChannel (c : Cmd) : CatalogueArgs.Statement (.occChannel c) := by intro v d h hw; cases h; exact hw
theorem CatalogueArgs.occStart (c : Cmd) : CatalogueArgs.Statement (.occStart c) := by intro v d h hw; cases h; exact hw
theorem CatalogueArgs.occStop (c : Cmd) : CatalogueArgs.Statement (.occStop c) := by intro v d h hw; cases h; exact hw
theorem CatalogueArgs.occStatus (c : Cmd) : CatalogueArgs.Statement (.occStatus c) := by intro v d h hw; cases h; exact hw
theorem CatalogueArgs.occSlotComplete x0 : CatalogueArgs.Statement (.occSlotComplete x0) := nofun
theorem CatalogueArgs.dispTiming (c : Cmd) : CatalogueArgs.Statement (.dispTiming c) := by intro v d h hw; cases h; exact hw
theorem CatalogueArgs.dispLayer (c : Cmd) : CatalogueArgs.Statement (.dispLayer c) := by intro v d h hw; cases h; exact hw
theorem CatalogueArgs.dispCommit (c : Cmd) : CatalogueArgs.Statement (.dispCommit c) := by intro v d h hw; cases h; exact hw
theorem CatalogueArgs.dispEnable (c : Cmd) : CatalogueArgs.Statement (.dispEnable c) := by intro v d h hw; cases h; exact hw
theorem CatalogueArgs.dispAux (c : Cmd) : CatalogueArgs.Statement (.dispAux c) := by intro v d h hw; cases h; exact hw
theorem CatalogueArgs.dispStatus (c : Cmd) : CatalogueArgs.Statement (.dispStatus c) := by intro v d h hw; cases h; exact hw
theorem CatalogueArgs.auxReplyTimeout : CatalogueArgs.Statement .auxReplyTimeout := nofun
theorem CatalogueArgs.hpdInFall : CatalogueArgs.Statement .hpdInFall := nofun
theorem CatalogueArgs.hpdUnplug : CatalogueArgs.Statement .hpdUnplug := nofun
theorem CatalogueArgs.hpdInRise : CatalogueArgs.Statement .hpdInRise := nofun
theorem CatalogueArgs.dpTrainStep x0 x1 : CatalogueArgs.Statement (.dpTrainStep x0 x1) := nofun
theorem CatalogueArgs.verticalBlank : CatalogueArgs.Statement .verticalBlank := nofun
theorem CatalogueArgs.frameStart : CatalogueArgs.Statement .frameStart := nofun
theorem CatalogueArgs.layerUnderrun x0 x1 : CatalogueArgs.Statement (.layerUnderrun x0 x1) := nofun
theorem CatalogueArgs.storeConfigure (c : Cmd) : CatalogueArgs.Statement (.storeConfigure c) := by intro v d h hw; cases h; exact hw
theorem CatalogueArgs.storeSetRate (c : Cmd) : CatalogueArgs.Statement (.storeSetRate c) := by intro v d h hw; cases h; exact hw
theorem CatalogueArgs.storeRateChangeDone x0 x1 : CatalogueArgs.Statement (.storeRateChangeDone x0 x1) := nofun
theorem CatalogueArgs.storePort (c : Cmd) : CatalogueArgs.Statement (.storePort c) := by intro v d h hw; cases h; exact hw
theorem CatalogueArgs.storeRetrain (c : Cmd) : CatalogueArgs.Statement (.storeRetrain c) := by intro v d h hw; cases h; exact hw
theorem CatalogueArgs.storeRetrainDone x0 x1 : CatalogueArgs.Statement (.storeRetrainDone x0 x1) := nofun
theorem CatalogueArgs.storeStatus (c : Cmd) : CatalogueArgs.Statement (.storeStatus c) := by intro v d h hw; cases h; exact hw
theorem CatalogueArgs.storePortStatus (c : Cmd) : CatalogueArgs.Statement (.storePortStatus c) := by intro v d h hw; cases h; exact hw
theorem CatalogueArgs.storeAccessIssue x0 x1 x2 : CatalogueArgs.Statement (.storeAccessIssue x0 x1 x2) := nofun
theorem CatalogueArgs.perBankRefresh x0 : CatalogueArgs.Statement (.perBankRefresh x0) := nofun
theorem CatalogueArgs.stackTempRead x0 x1 : CatalogueArgs.Statement (.stackTempRead x0 x1) := nofun
theorem CatalogueArgs.retrainPause x0 : CatalogueArgs.Statement (.retrainPause x0) := nofun
theorem CatalogueArgs.scrubRead x0 x1 : CatalogueArgs.Statement (.scrubRead x0 x1) := nofun
theorem CatalogueArgs.storeWake : CatalogueArgs.Statement .storeWake := nofun
theorem CatalogueArgs.storeDoze : CatalogueArgs.Statement .storeDoze := nofun
theorem CatalogueArgs.bankHandover (c : Cmd) : CatalogueArgs.Statement (.bankHandover c) := by intro v d h hw; cases h; exact hw
theorem CatalogueArgs.handoverDrainDone x0 : CatalogueArgs.Statement (.handoverDrainDone x0) := nofun
theorem CatalogueArgs.bankPower (c : Cmd) : CatalogueArgs.Statement (.bankPower c) := by intro v d h hw; cases h; exact hw
theorem CatalogueArgs.bankFill (c : Cmd) : CatalogueArgs.Statement (.bankFill c) := by intro v d h hw; cases h; exact hw
theorem CatalogueArgs.bankFillDone x0 : CatalogueArgs.Statement (.bankFillDone x0) := nofun
theorem CatalogueArgs.bankStatus (c : Cmd) : CatalogueArgs.Statement (.bankStatus c) := by intro v d h hw; cases h; exact hw
theorem CatalogueArgs.bankAccess x0 x1 x2 : CatalogueArgs.Statement (.bankAccess x0 x1 x2) := nofun
theorem CatalogueArgs.fetchStart (c : Cmd) : CatalogueArgs.Statement (.fetchStart c) := by intro v d h hw; cases h; exact hw
theorem CatalogueArgs.fetchConfigure (c : Cmd) : CatalogueArgs.Statement (.fetchConfigure c) := by intro v d h hw; cases h; exact hw
theorem CatalogueArgs.fetchAbort (c : Cmd) : CatalogueArgs.Statement (.fetchAbort c) := by intro v d h hw; cases h; exact hw
theorem CatalogueArgs.fetchClearAbandon (c : Cmd) : CatalogueArgs.Statement (.fetchClearAbandon c) := by intro v d h hw; cases h; exact withByte_wf c _ _ (by decide) hw
theorem CatalogueArgs.fetchClearRetry (c : Cmd) : CatalogueArgs.Statement (.fetchClearRetry c) := by intro v d h hw; cases h; exact withByte_wf c _ _ (by decide) hw
theorem CatalogueArgs.fetchStatus (c : Cmd) : CatalogueArgs.Statement (.fetchStatus c) := by intro v d h hw; cases h; exact hw
theorem CatalogueArgs.fetchBeat : CatalogueArgs.Statement .fetchBeat := nofun
theorem CatalogueArgs.ringCreate (c : Cmd) : CatalogueArgs.Statement (.ringCreate c) := by intro v d h hw; cases h; exact hw
theorem CatalogueArgs.ringDelete (c : Cmd) : CatalogueArgs.Statement (.ringDelete c) := by intro v d h hw; cases h; exact hw
theorem CatalogueArgs.ringModify (c : Cmd) : CatalogueArgs.Statement (.ringModify c) := by intro v d h hw; cases h; exact hw
theorem CatalogueArgs.ringConsume (c : Cmd) : CatalogueArgs.Statement (.ringConsume c) := by intro v d h hw; cases h; exact hw
theorem CatalogueArgs.ringStatus (c : Cmd) : CatalogueArgs.Statement (.ringStatus c) := by intro v d h hw; cases h; exact hw
theorem CatalogueArgs.ringPublish x0 x1 : CatalogueArgs.Statement (.ringPublish x0 x1) := nofun
theorem CatalogueArgs.streamStart (c : Cmd) : CatalogueArgs.Statement (.streamStart c) := by intro v d h hw; cases h; exact hw
theorem CatalogueArgs.streamStop x0 : CatalogueArgs.Statement (.streamStop x0) := nofun
theorem CatalogueArgs.streamStatus (c : Cmd) : CatalogueArgs.Statement (.streamStatus c) := by intro v d h hw; cases h; exact hw
theorem CatalogueArgs.streamSendPacket x0 : CatalogueArgs.Statement (.streamSendPacket x0) := nofun
theorem CatalogueArgs.synthSetRate (c : Cmd) : CatalogueArgs.Statement (.synthSetRate c) := by intro v d h hw; cases h; exact hw
theorem CatalogueArgs.scsRateChangeDone x0 : CatalogueArgs.Statement (.scsRateChangeDone x0) := nofun
theorem CatalogueArgs.synthConfigure (c : Cmd) : CatalogueArgs.Statement (.synthConfigure c) := by intro v d h hw; cases h; exact hw
theorem CatalogueArgs.synthAlign (c : Cmd) : CatalogueArgs.Statement (.synthAlign c) := by intro v d h hw; cases h; exact hw
theorem CatalogueArgs.synthSpread (c : Cmd) : CatalogueArgs.Statement (.synthSpread c) := by intro v d h hw; cases h; exact hw
theorem CatalogueArgs.synthAxsSet (c : Cmd) : CatalogueArgs.Statement (.synthAxsSet c) := by intro v d h hw; cases h; exact hw
theorem CatalogueArgs.synthAxsStore (c : Cmd) : CatalogueArgs.Statement (.synthAxsStore c) := by intro v d h hw; cases h; exact hw
theorem CatalogueArgs.synthAxsHop (c : Cmd) : CatalogueArgs.Statement (.synthAxsHop c) := by intro v d h hw; cases h; exact hw
theorem CatalogueArgs.synthAxsRampLoad (c : Cmd) : CatalogueArgs.Statement (.synthAxsRampLoad c) := by intro v d h hw; cases h; exact hw
theorem CatalogueArgs.synthAxsRampRun (c : Cmd) : CatalogueArgs.Statement (.synthAxsRampRun c) := by intro v d h hw; cases h; exact hw
theorem CatalogueArgs.synthReference (c : Cmd) : CatalogueArgs.Statement (.synthReference c) := by intro v d h hw; cases h; exact hw
theorem CatalogueArgs.synthStatus (c : Cmd) : CatalogueArgs.Statement (.synthStatus c) := by intro v d h hw; cases h; exact hw
theorem CatalogueArgs.axsSearchDone x0 : CatalogueArgs.Statement (.axsSearchDone x0) := nofun
theorem CatalogueArgs.axsHopApply : CatalogueArgs.Statement .axsHopApply := nofun
theorem CatalogueArgs.axsRampStep : CatalogueArgs.Statement .axsRampStep := nofun
theorem CatalogueArgs.axsRetuneApply : CatalogueArgs.Statement .axsRetuneApply := nofun
theorem CatalogueArgs.refinLost : CatalogueArgs.Statement .refinLost := nofun
theorem CatalogueArgs.refinQualified x0 : CatalogueArgs.Statement (.refinQualified x0) := nofun
theorem CatalogueArgs.refinQualifyFail : CatalogueArgs.Statement .refinQualifyFail := nofun
theorem CatalogueArgs.realignDone : CatalogueArgs.Statement .realignDone := nofun
theorem CatalogueArgs.loopLockChange x0 x1 : CatalogueArgs.Statement (.loopLockChange x0 x1) := nofun
theorem CatalogueArgs.loopAcquireRetry x0 : CatalogueArgs.Statement (.loopAcquireRetry x0) := nofun
theorem CatalogueArgs.synthFault x0 : CatalogueArgs.Statement (.synthFault x0) := nofun
theorem CatalogueArgs.scsMarker x0 x1 x2 : CatalogueArgs.Statement (.scsMarker x0 x1 x2) := nofun
theorem CatalogueArgs.syncInEdge x0 : CatalogueArgs.Statement (.syncInEdge x0) := nofun
theorem CatalogueArgs.timeConfigure (c : Cmd) : CatalogueArgs.Statement (.timeConfigure c) := by intro v d h hw; cases h; exact hw
theorem CatalogueArgs.timeSet (c : Cmd) : CatalogueArgs.Statement (.timeSet c) := by intro v d h hw; cases h; exact hw
theorem CatalogueArgs.timeAdjust (c : Cmd) : CatalogueArgs.Statement (.timeAdjust c) := by intro v d h hw; cases h; exact hw
theorem CatalogueArgs.timeRead (c : Cmd) : CatalogueArgs.Statement (.timeRead c) := by intro v d h hw; cases h; exact hw
theorem CatalogueArgs.timeStatus (c : Cmd) : CatalogueArgs.Statement (.timeStatus c) := by intro v d h hw; cases h; exact hw
theorem CatalogueArgs.timeSetTimeout : CatalogueArgs.Statement .timeSetTimeout := nofun
theorem CatalogueArgs.ptpMessage x0 : CatalogueArgs.Statement (.ptpMessage x0) := nofun
theorem CatalogueArgs.ptpDelayReqSend x0 : CatalogueArgs.Statement (.ptpDelayReqSend x0) := nofun
theorem CatalogueArgs.ptpSourceTimeout : CatalogueArgs.Statement .ptpSourceTimeout := nofun
theorem CatalogueArgs.l1SyncChange x0 : CatalogueArgs.Statement (.l1SyncChange x0) := nofun
theorem CatalogueArgs.ppsInEdge x0 x1 : CatalogueArgs.Statement (.ppsInEdge x0 x1) := nofun
theorem CatalogueArgs.ppsInMissing : CatalogueArgs.Statement .ppsInMissing := nofun
theorem CatalogueArgs.ppsOutPulse : CatalogueArgs.Statement .ppsOutPulse := nofun
theorem CatalogueArgs.holdoverExpired : CatalogueArgs.Statement .holdoverExpired := nofun
theorem CatalogueArgs.ethConfigure (c : Cmd) : CatalogueArgs.Statement (.ethConfigure c) := by intro v d h hw; cases h; exact hw
theorem CatalogueArgs.ethVitaCreate (c : Cmd) : CatalogueArgs.Statement (.ethVitaCreate c) := by intro v d h hw; cases h; exact hw
theorem CatalogueArgs.ethVitaDelete (c : Cmd) : CatalogueArgs.Statement (.ethVitaDelete c) := by intro v d h hw; cases h; exact hw
theorem CatalogueArgs.ethStatus (c : Cmd) : CatalogueArgs.Statement (.ethStatus c) := by intro v d h hw; cases h; exact hw
theorem CatalogueArgs.ethFrameReceived x0 x1 : CatalogueArgs.Statement (.ethFrameReceived x0 x1) := nofun
theorem CatalogueArgs.ethLinkChange x0 x1 : CatalogueArgs.Statement (.ethLinkChange x0 x1) := nofun
theorem CatalogueArgs.vitaSend x0 : CatalogueArgs.Statement (.vitaSend x0) := nofun
theorem CatalogueArgs.vitaContext x0 : CatalogueArgs.Statement (.vitaContext x0) := nofun
theorem CatalogueArgs.tdcConfigure (c : Cmd) : CatalogueArgs.Statement (.tdcConfigure c) := by intro v d h hw; cases h; exact hw
theorem CatalogueArgs.tdcArm (c : Cmd) : CatalogueArgs.Statement (.tdcArm c) := by intro v d h hw; cases h; exact hw
theorem CatalogueArgs.tdcDisarm (c : Cmd) : CatalogueArgs.Statement (.tdcDisarm c) := by intro v d h hw; cases h; exact hw
theorem CatalogueArgs.tdcRead (c : Cmd) : CatalogueArgs.Statement (.tdcRead c) := by intro v d h hw; cases h; exact hw
theorem CatalogueArgs.tdcSelfcal (c : Cmd) : CatalogueArgs.Statement (.tdcSelfcal c) := by intro v d h hw; cases h; exact hw
theorem CatalogueArgs.tdcStatus (c : Cmd) : CatalogueArgs.Statement (.tdcStatus c) := by intro v d h hw; cases h; exact hw
theorem CatalogueArgs.tdcArmTime x0 : CatalogueArgs.Statement (.tdcArmTime x0) := nofun
theorem CatalogueArgs.tinEdge x0 x1 x2 x3 : CatalogueArgs.Statement (.tinEdge x0 x1 x2 x3) := nofun
theorem CatalogueArgs.tdcGateEnd x0 : CatalogueArgs.Statement (.tdcGateEnd x0) := nofun
theorem CatalogueArgs.tdcIntervalOverflow x0 : CatalogueArgs.Statement (.tdcIntervalOverflow x0) := nofun
theorem CatalogueArgs.tdcFifoDrain x0 : CatalogueArgs.Statement (.tdcFifoDrain x0) := nofun
theorem CatalogueArgs.tdcAutoCal x0 : CatalogueArgs.Statement (.tdcAutoCal x0) := nofun
theorem CatalogueArgs.tdcSelfcalPairDone x0 x1 : CatalogueArgs.Statement (.tdcSelfcalPairDone x0 x1) := nofun
theorem CatalogueArgs.tdcSelfcalDone : CatalogueArgs.Statement .tdcSelfcalDone := nofun
theorem CatalogueArgs.linkBond (c : Cmd) : CatalogueArgs.Statement (.linkBond c) := by intro v d h hw; cases h; exact hw
theorem CatalogueArgs.linkRetrain (c : Cmd) : CatalogueArgs.Statement (.linkRetrain c) := by intro v d h hw; cases h; exact hw
theorem CatalogueArgs.linkAperture (c : Cmd) : CatalogueArgs.Statement (.linkAperture c) := by intro v d h hw; cases h; exact hw
theorem CatalogueArgs.linkReadapt (c : Cmd) : CatalogueArgs.Statement (.linkReadapt c) := by intro v d h hw; cases h; exact hw
theorem CatalogueArgs.linkStatus (c : Cmd) : CatalogueArgs.Statement (.linkStatus c) := by intro v d h hw; cases h; exact hw
theorem CatalogueArgs.linkLaneStatus (c : Cmd) : CatalogueArgs.Statement (.linkLaneStatus c) := by intro v d h hw; cases h; exact hw
theorem CatalogueArgs.lReset x0 x1 : CatalogueArgs.Statement (.lReset x0 x1) := nofun
theorem CatalogueArgs.cap x0 x1 : CatalogueArgs.Statement (.cap x0 x1) := nofun
theorem CatalogueArgs.capAck x0 x1 : CatalogueArgs.Statement (.capAck x0 x1) := nofun
theorem CatalogueArgs.laneMapTimeout x0 : CatalogueArgs.Statement (.laneMapTimeout x0) := nofun
theorem CatalogueArgs.step x0 : CatalogueArgs.Statement (.step x0) := nofun
theorem CatalogueArgs.stepAck x0 x1 : CatalogueArgs.Statement (.stepAck x0 x1) := nofun
theorem CatalogueArgs.prbsCheckDone x0 x1 : CatalogueArgs.Statement (.prbsCheckDone x0 x1) := nofun
theorem CatalogueArgs.result x0 x1 : CatalogueArgs.Statement (.result x0 x1) := nofun
theorem CatalogueArgs.resultTimeout x0 : CatalogueArgs.Statement (.resultTimeout x0) := nofun
theorem CatalogueArgs.bondUp x0 : CatalogueArgs.Statement (.bondUp x0) := nofun
theorem CatalogueArgs.align x0 x1 : CatalogueArgs.Statement (.align x0 x1) := nofun
theorem CatalogueArgs.alignMarkerSend x0 : CatalogueArgs.Statement (.alignMarkerSend x0) := nofun
theorem CatalogueArgs.width x0 x1 : CatalogueArgs.Statement (.width x0 x1) := nofun
theorem CatalogueArgs.widthAck x0 x1 : CatalogueArgs.Statement (.widthAck x0 x1) := nofun
theorem CatalogueArgs.sleep x0 x1 : CatalogueArgs.Statement (.sleep x0 x1) := nofun
theorem CatalogueArgs.retrain x0 x1 : CatalogueArgs.Statement (.retrain x0 x1) := nofun
theorem CatalogueArgs.flitReceived x0 x1 x2 : CatalogueArgs.Statement (.flitReceived x0 x1 x2) := nofun
theorem CatalogueArgs.ackSendDue x0 : CatalogueArgs.Statement (.ackSendDue x0) := nofun
theorem CatalogueArgs.replayTimeout x0 : CatalogueArgs.Statement (.replayTimeout x0) := nofun
theorem CatalogueArgs.winRd x0 x1 x2 x3 : CatalogueArgs.Statement (.winRd x0 x1 x2 x3) := nofun
theorem CatalogueArgs.winWr x0 x1 x2 x3 : CatalogueArgs.Statement (.winWr x0 x1 x2 x3) := nofun
theorem CatalogueArgs.memRd x0 x1 x2 x3 : CatalogueArgs.Statement (.memRd x0 x1 x2 x3) := nofun
theorem CatalogueArgs.memWr x0 x1 x2 : CatalogueArgs.Statement (.memWr x0 x1 x2) := nofun
theorem CatalogueArgs.whistle x0 x1 x2 : CatalogueArgs.Statement (.whistle x0 x1 x2) := nofun
theorem CatalogueArgs.credit x0 x1 : CatalogueArgs.Statement (.credit x0 x1) := nofun
theorem CatalogueArgs.memRdCompletion x0 x1 x2 x3 : CatalogueArgs.Statement (.memRdCompletion x0 x1 x2 x3) := nofun
theorem CatalogueArgs.cplTimeout x0 x1 : CatalogueArgs.Statement (.cplTimeout x0 x1) := nofun
theorem CatalogueArgs.creditReturnDue x0 : CatalogueArgs.Statement (.creditReturnDue x0) := nofun
theorem CatalogueArgs.fomCheck x0 x1 : CatalogueArgs.Statement (.fomCheck x0 x1) := nofun
theorem CatalogueArgs.readaptTimer x0 : CatalogueArgs.Statement (.readaptTimer x0) := nofun
theorem CatalogueArgs.laneReadaptDone x0 x1 x2 : CatalogueArgs.Statement (.laneReadaptDone x0 x1 x2) := nofun
theorem CatalogueArgs.idleSleep x0 : CatalogueArgs.Statement (.idleSleep x0) := nofun
theorem CatalogueArgs.transmitterWake x0 : CatalogueArgs.Statement (.transmitterWake x0) := nofun
theorem CatalogueArgs.dacConfigure (c : Cmd) : CatalogueArgs.Statement (.dacConfigure c) := by intro v d h hw; cases h; exact hw
theorem CatalogueArgs.dacWrite (c : Cmd) : CatalogueArgs.Statement (.dacWrite c) := by intro v d h hw; cases h; exact hw
theorem CatalogueArgs.dacStrobe (c : Cmd) : CatalogueArgs.Statement (.dacStrobe c) := by intro v d h hw; cases h; exact hw
theorem CatalogueArgs.dacSchedule (c : Cmd) : CatalogueArgs.Statement (.dacSchedule c) := by intro v d h hw; cases h; exact hw
theorem CatalogueArgs.dacSetClear (c : Cmd) : CatalogueArgs.Statement (.dacSetClear c) := by intro v d h hw; cases h; exact hw
theorem CatalogueArgs.dacRelease (c : Cmd) : CatalogueArgs.Statement (.dacRelease c) := by intro v d h hw; cases h; exact hw
theorem CatalogueArgs.dacStatus (c : Cmd) : CatalogueArgs.Statement (.dacStatus c) := by intro v d h hw; cases h; exact hw
theorem CatalogueArgs.loadGFall x0 x1 : CatalogueArgs.Statement (.loadGFall x0 x1) := nofun
theorem CatalogueArgs.dacClrNChange x0 : CatalogueArgs.Statement (.dacClrNChange x0) := nofun
theorem CatalogueArgs.dacUpdateTick : CatalogueArgs.Statement .dacUpdateTick := nofun
theorem CatalogueArgs.leashStep x0 : CatalogueArgs.Statement (.leashStep x0) := nofun
theorem CatalogueArgs.dacClampEnd x0 : CatalogueArgs.Statement (.dacClampEnd x0) := nofun
theorem CatalogueArgs.dacReferenceFault x0 : CatalogueArgs.Statement (.dacReferenceFault x0) := nofun
theorem CatalogueArgs.dacOvercurrent x0 x1 : CatalogueArgs.Statement (.dacOvercurrent x0 x1) := nofun
theorem CatalogueArgs.dacHeadroom x0 x1 : CatalogueArgs.Statement (.dacHeadroom x0 x1) := nofun
theorem CatalogueArgs.dacPowerUp : CatalogueArgs.Statement .dacPowerUp := nofun
theorem CatalogueArgs.hkadcConfigure (c : Cmd) : CatalogueArgs.Statement (.hkadcConfigure c) := by intro v d h hw; cases h; exact hw
theorem CatalogueArgs.hkadcLoadSeq (c : Cmd) : CatalogueArgs.Statement (.hkadcLoadSeq c) := by intro v d h hw; cases h; exact hw
theorem CatalogueArgs.hkadcStart (c : Cmd) : CatalogueArgs.Statement (.hkadcStart c) := by intro v d h hw; cases h; exact hw
theorem CatalogueArgs.hkadcStop (c : Cmd) : CatalogueArgs.Statement (.hkadcStop c) := by intro v d h hw; cases h; exact hw
theorem CatalogueArgs.hkadcRead (c : Cmd) : CatalogueArgs.Statement (.hkadcRead c) := by intro v d h hw; cases h; exact hw
theorem CatalogueArgs.hkadcStatus (c : Cmd) : CatalogueArgs.Statement (.hkadcStatus c) := by intro v d h hw; cases h; exact hw
theorem CatalogueArgs.hkConversion x0 x1 : CatalogueArgs.Statement (.hkConversion x0 x1) := nofun
theorem CatalogueArgs.hkSystemWindow x0 : CatalogueArgs.Statement (.hkSystemWindow x0) := nofun
theorem CatalogueArgs.hkFifoDrain : CatalogueArgs.Statement .hkFifoDrain := nofun
theorem CatalogueArgs.thermConfigure (c : Cmd) : CatalogueArgs.Statement (.thermConfigure c) := by intro v d h hw; cases h; exact hw
theorem CatalogueArgs.thermStart (c : Cmd) : CatalogueArgs.Statement (.thermStart c) := by intro v d h hw; cases h; exact hw
theorem CatalogueArgs.thermStop (c : Cmd) : CatalogueArgs.Statement (.thermStop c) := by intro v d h hw; cases h; exact hw
theorem CatalogueArgs.thermSetpoint (c : Cmd) : CatalogueArgs.Statement (.thermSetpoint c) := by intro v d h hw; cases h; exact hw
theorem CatalogueArgs.thermStatus (c : Cmd) : CatalogueArgs.Statement (.thermStatus c) := by intro v d h hw; cases h; exact hw
theorem CatalogueArgs.thermTick x0 : CatalogueArgs.Statement (.thermTick x0) := nofun
theorem CatalogueArgs.secAttest (c : Cmd) : CatalogueArgs.Statement (.secAttest c) := by intro v d h hw; cases h; exact hw
theorem CatalogueArgs.secCert (c : Cmd) : CatalogueArgs.Statement (.secCert c) := by intro v d h hw; cases h; exact hw
theorem CatalogueArgs.secUpdate (c : Cmd) : CatalogueArgs.Statement (.secUpdate c) := by intro v d h hw; cases h; exact hw
theorem CatalogueArgs.secRollbackCommit (c : Cmd) : CatalogueArgs.Statement (.secRollbackCommit c) := by intro v d h hw; cases h; exact hw
theorem CatalogueArgs.secKeyEnrolOwner x0 : CatalogueArgs.Statement (.secKeyEnrolOwner x0) := nofun
theorem CatalogueArgs.secKeyRevokeVendor x0 : CatalogueArgs.Statement (.secKeyRevokeVendor x0) := nofun
theorem CatalogueArgs.secKeySetOwnerEnforce x0 : CatalogueArgs.Statement (.secKeySetOwnerEnforce x0) := nofun
theorem CatalogueArgs.secKeyRevokeOwner x0 : CatalogueArgs.Statement (.secKeyRevokeOwner x0) := nofun
theorem CatalogueArgs.secDebugChallenge (c : Cmd) : CatalogueArgs.Statement (.secDebugChallenge c) := by intro v d h hw; cases h; exact withByte_wf c _ _ (by decide) hw
theorem CatalogueArgs.secDebugUnlockToken (c : Cmd) : CatalogueArgs.Statement (.secDebugUnlockToken c) := by intro v d h hw; cases h; exact withByte_wf c _ _ (by decide) hw
theorem CatalogueArgs.secDebugRelock (c : Cmd) : CatalogueArgs.Statement (.secDebugRelock c) := by intro v d h hw; cases h; exact withByte_wf c _ _ (by decide) hw
theorem CatalogueArgs.debugChallengeExpire : CatalogueArgs.Statement .debugChallengeExpire := nofun
theorem CatalogueArgs.secStatus (c : Cmd) : CatalogueArgs.Statement (.secStatus c) := by intro v d h hw; cases h; exact hw
theorem CatalogueArgs.boxStatus (c : Cmd) : CatalogueArgs.Statement (.boxStatus c) := by intro v d h hw; cases h; exact hw
theorem CatalogueArgs.boxRead (c : Cmd) : CatalogueArgs.Statement (.boxRead c) := by intro v d h hw; cases h; exact hw
theorem CatalogueArgs.boxExport (c : Cmd) : CatalogueArgs.Statement (.boxExport c) := by intro v d h hw; cases h; exact hw
theorem CatalogueArgs.boxSignPart0 (c : Cmd) : CatalogueArgs.Statement (.boxSignPart0 c) := by intro v d h hw; cases h; exact withByte_wf c _ _ (by decide) hw
theorem CatalogueArgs.boxSignPart1 (c : Cmd) : CatalogueArgs.Statement (.boxSignPart1 c) := by intro v d h hw; cases h; exact withByte_wf c _ _ (by decide) hw
theorem CatalogueArgs.boxNote (c : Cmd) : CatalogueArgs.Statement (.boxNote c) := by intro v d h hw; cases h; exact hw
theorem CatalogueArgs.boxEntryWrite : CatalogueArgs.Statement .boxEntryWrite := nofun
theorem CatalogueArgs.maintConfigure (c : Cmd) : CatalogueArgs.Statement (.maintConfigure c) := by intro v d h hw; cases h; exact hw
theorem CatalogueArgs.maintStatus (c : Cmd) : CatalogueArgs.Statement (.maintStatus c) := by intro v d h hw; cases h; exact hw
theorem CatalogueArgs.maintCancel (c : Cmd) : CatalogueArgs.Statement (.maintCancel c) := by intro v d h hw; cases h; exact hw
theorem CatalogueArgs.maintTick : CatalogueArgs.Statement .maintTick := nofun
theorem CatalogueArgs.maintOverrun x0 : CatalogueArgs.Statement (.maintOverrun x0) := nofun
theorem CatalogueArgs.laneLockLost x0 : CatalogueArgs.Statement (.laneLockLost x0) := nofun
theorem CatalogueArgs.receiverAdapted x0 : CatalogueArgs.Statement (.receiverAdapted x0) := nofun
theorem CatalogueArgs.secUpdateDone : CatalogueArgs.Statement .secUpdateDone := nofun
theorem CatalogueArgs.boxSigningDone : CatalogueArgs.Statement .boxSigningDone := nofun
theorem CatalogueArgs.auxReply x0 : CatalogueArgs.Statement (.auxReply x0) := nofun
theorem CatalogueArgs.fetchBondDownTimeout x0 : CatalogueArgs.Statement (.fetchBondDownTimeout x0) := nofun
theorem CatalogueArgs.hkIntervalFrameClose x0 : CatalogueArgs.Statement (.hkIntervalFrameClose x0) := nofun
theorem CatalogueArgs.synthAlignApply x0 : CatalogueArgs.Statement (.synthAlignApply x0) := nofun

end Sys2Proof.Laws
end

