-- ==== Sys2Proof/Laws/Publish.lean ====
section
/-! SUPPORT. What the delivery of events and answers leaves alone: one lemma per shared operation. -/
set_option Elab.async false
namespace Sys2Proof.Machine
open Sys2Proof

/-! ### Vectors and folds -/

/-- A fold keeps what each step keeps. -/
theorem foldl_keeps {α β γ : Type} (g : β → γ) (f : β → α → β) (h : ∀ b a, g (f b a) = g b) (l : List α) (b : β) :
    g (l.foldl f b) = g b := by
  induction l generalizing b with
  | nil => rfl
  | cons a l ih => simp [ih, h]

/-- A change at one place shows in a view that the change keeps. -/
theorem vmod_map {α β : Type} [Inhabited α] {n : Nat} (g : α → β) (f : α → α) (h : ∀ x, g (f x) = g x) (v : Vector α n) (k : Nat) :
    (vmod v k f).map g = v.map g := by
  unfold vmod
  split
  · ext i hi
    simp only [Vector.getElem_map, Vector.getElem_set]
    split
    · next e => subst e; exact h _
    · rfl
  · rfl

/-! ### Bonds -/

theorem txTake_hush {b b' : BondSt} {t : Tx} (h : txTake b = some (t, b')) : b'.hush = b.hush := by
  unfold txTake at h
  split at h
  · cases h; rfl
  · split at h
    · cases h
    · split at h
      · cases h
      · cases h; rfl

theorem txDrain_hush (n : Nat) (b : BondSt) (acc : Bytes) (ends : List (Tx × Nat)) : (txDrain n b acc ends).1.hush = b.hush := by
  induction n generalizing b acc ends with
  | zero => rfl
  | succ n ih =>
    unfold txDrain
    split
    · rfl
    · split
      · rfl
      · next e => exact (ih _ _ _).trans (txTake_hush e)

theorem bondPump_hush (cyc : Nat) (b : BondSt) : (bondPump cyc b).hush = b.hush := by
  unfold bondPump
  split
  · have h := txDrain_hush (b.txq.toList.map List.length).sum b [] []
    simp only
    split
    · exact h
    · exact h
  · rfl

theorem bondSend_hush (cyc : Nat) (t : Tx) (b : BondSt) : (bondSend cyc t b).hush = b.hush := by
  unfold bondSend
  rw [bondPump_hush]
  rfl

@[simp] theorem linkSend_hushEv (k : Nat) (t : Tx) (s : State) : (linkSend k t s).hushEv = s.hushEv := by
  unfold linkSend State.hushEv
  simp only [vmod_map BondSt.hush _ (bondSend_hush s.cyc t)]

/-! ### Memory and rings -/

@[simp] theorem rawWrite_hushEv (a : Nat) (b : Bytes) (s : State) : (rawWrite a b s).hushEv = s.hushEv := rfl
@[simp] theorem storeWrite_hushEv (a : Nat) (b : Bytes) (s : State) : (storeWrite a b s).hushEv = s.hushEv := rfl
@[simp] theorem storeTouch_hushEv (s : State) : (storeTouch s).hushEv = s.hushEv := rfl
@[simp] theorem ringSet_hushEv (r : RingCtx) (s : State) : (ringSet r s).hushEv = s.hushEv := rfl
@[simp] theorem streamLoses_hushEv (id : Nat) (l : List EntryAt) (s : State) : (streamLoses id l s).hushEv = s.hushEv := rfl
@[simp] theorem vitaLoses_hushEv (id : Nat) (l : List EntryAt) (s : State) : (vitaLoses id l s).hushEv = s.hushEv := rfl
@[simp] theorem summarise_hushEv (n : Nat) (s : State) : (summarise n s).hushEv = s.hushEv := rfl
theorem ev_hushEv (s : State) (e : EventSt) : ({ s with ev := e } : State).hushEv = s.hushEv := rfl

@[simp] theorem hostWrite_hushEv (k vc n off : Nat) (b : Bytes) (s : State) : (hostWrite k vc n off b s).hushEv = s.hushEv := by
  induction n generalizing off b s with
  | zero => rfl
  | succ n ih =>
    unfold hostWrite
    split
    · rfl
    · simp only [ih]
      split <;> simp

@[simp] theorem ringBytesAt_hushEv (r : RingCtx) (o : Nat) (x : Bytes) (s : State) : (ringBytesAt r o x s).hushEv = s.hushEv := by
  unfold ringBytesAt; split <;> simp

@[simp] theorem ringWrite_hushEv (r : RingCtx) (pos : Nat) (b : Bytes) (s : State) : (ringWrite r pos b s).hushEv = s.hushEv := by
  unfold ringWrite; simp

@[simp] theorem ringAppend_hushEv (r : RingCtx) (l : List Ent) (s : State) : (ringAppend r l s).2.hushEv = s.hushEv := by
  induction l generalizing r s with
  | nil => rfl
  | cons e l ih => unfold ringAppend; simp [ih]

@[simp] theorem ringPut_hushEv (w : Bool) (id : Nat) (e : Ent) (s : State) : (ringPut w id e s).1.hushEv = s.hushEv := by
  unfold ringPut
  split
  · rfl
  · next r _ =>
    generalize (if ringPlaceOk s r = true then (r, []) else ringHalt s r) = p0
    obtain ⟨r, ev0⟩ := p0
    dsimp only
    split
    · simp
    · split
      · simp
      · generalize (!decide (r.producer + _ - r.consumer ≤ ringSize r) || !ringReach s r) = full
        split
        · simp
        · generalize (if (full && r.policy == 1 && ringReach s r) = true then ringPass _ r.entries r [] else (r, [])) = p1
          obtain ⟨r1, passed⟩ := p1
          dsimp only
          generalize (if full = true then ringFullNote s r1 else (r1, [])) = p2
          obtain ⟨r2, ev1⟩ := p2
          dsimp only
          split <;> simp

/-! ### Events -/

@[simp] theorem evMod_hushEv (f : EventSt → EventSt) (s : State) : (evMod f s).hushEv = s.hushEv := rfl

@[simp] theorem evPut_hushEv (k : Nat) (x : EventRec) (p : State × List EventRec) : (evPut k x p).1.hushEv = p.1.hushEv := by
  unfold evPut; simp

@[simp] theorem evPutLost_hushEv (k : Nat) (s : State) : (evPutLost k s).1.hushEv = s.hushEv := by
  unfold evPutLost
  dsimp only
  split <;> simp

@[simp] theorem evRingDrop_hushEv (k : Nat) (e : EventRec) (s : State) : (evRingDrop k e s).1.hushEv = s.hushEv := by
  unfold evRingDrop
  split <;> simp

@[simp] theorem evToRing_hushEv (k : Nat) (e : EventRec) (s : State) : (evToRing k e s).1.hushEv = s.hushEv := by
  unfold evToRing
  split <;> simp

@[simp] theorem evToBond_hushEv (k : Nat) (e : EventRec) (s : State) : (evToBond k e s).hushEv = s.hushEv := by
  unfold evToBond
  simp only
  split
  · simp only [linkSend_hushEv, ev_hushEv]
    split <;> simp
  · rfl

@[simp] theorem evFan_hushEv (e : EventRec) (p : State × List EventRec) (k : Nat) : (evFan e p k).1.hushEv = p.1.hushEv := by
  unfold evFan; split <;> simp

@[simp] theorem evDeliver_hushEv (e : EventRec) (s : State) : (evDeliver e s).1.hushEv = s.hushEv := by
  unfold evDeliver
  dsimp only
  rw [foldl_keeps State.hushEv _ (fun s k => by split <;> simp), foldl_keeps (fun p : State × List EventRec => p.1.hushEv) _ (fun p k => by simp)]
  simp

@[simp] theorem evInternal_hushEv (e : EventRec) (s : State) : (evInternal e s).hushEv = s.hushEv := rfl

@[simp] theorem evHold_hushEv (e : EventRec) (s : State) : (evHold e s).hushEv = s.hushEv := by
  unfold evHold
  split
  · rfl
  · split <;> rfl

@[simp] theorem raiseRec_hushEv (e : EventRec) (s : State) : (raiseRec e s).hushEv = s.hushEv := by
  unfold raiseRec; split <;> simp

/-- Raising records touches only what State.hushEv hides. -/
@[simp] theorem emit_hushEv (l : List EventRec) (s : State) : (emit l s).hushEv = s.hushEv := by
  unfold emit
  exact foldl_keeps State.hushEv _ (fun b a => by simp) l s

@[simp] theorem raiseAt_hushEv (t : Time) (src type unit : Nat) (d : Bytes) (s : State) : (raiseAt t src type unit d s).hushEv = s.hushEv := by
  unfold raiseAt; simp

@[simp] theorem raise_hushEv (src type unit : Nat) (d : Bytes) (s : State) : (raise src type unit d s).hushEv = s.hushEv := by
  unfold raise; simp

@[simp] theorem evOut_hushEv (p : State × List EventRec) (e : EventRec) : (evOut p e).1.hushEv = p.1.hushEv := by
  unfold evOut; split <;> simp

@[simp] theorem evRounds_hushEv (n : Nat) (l : List EventRec) (s : State) : (evRounds n l s).hushEv = s.hushEv := by
  induction n generalizing l s with
  | zero => rfl
  | succ n ih =>
    unfold evRounds
    split
    · rfl
    · rw [ih, foldl_keeps State.hushEv _ (fun b a => by simp), foldl_keeps (fun p : State × List EventRec => p.1.hushEv) _ (fun p e => by simp)]

/-- The delivery of a command's records touches only what State.hushEv hides. -/
@[simp] theorem settled_hushEv (s t : State) : (settled s t).hushEv = t.hushEv := by
  unfold settled evFlush
  split <;> simp

/-- A command that raised no record leaves its state as it is. -/
theorem settled_quiet {s t : State} (h : t.ev.raised = s.ev.raised) : settled s t = t := by
  unfold settled; simp [h]

/-- EV_STAGE aside, STAGE is all that changes. -/
@[simp] theorem setStage_hushEv (n : Nat) (s : State) :
    (setStage n s).hushEv = ({ s with boot := { s.boot with stage := BitVec.ofNat 4 n } } : State).hushEv := by
  unfold setStage; simp

/-! ### Answers -/

theorem hush_of_hushEv {s t : State} (h : s.hushEv = t.hushEv) : s.hush = t.hush := by
  unfold State.hush; rw [h]

@[simp] theorem settled_hush (s t : State) : (settled s t).hush = t.hush := hush_of_hushEv (by simp)
@[simp] theorem mbxMod_hush (m : Nat) (f : MailboxSt → MailboxSt) (s : State) : (mbxMod m f s).hush = s.hush := rfl
@[simp] theorem raise_hush (src type unit : Nat) (d : Bytes) (s : State) : (raise src type unit d s).hush = s.hush := hush_of_hushEv (by simp)
@[simp] theorem emit_hush (l : List EventRec) (s : State) : (emit l s).hush = s.hush := hush_of_hushEv (by simp)
@[simp] theorem ringPut_hush (w : Bool) (id : Nat) (e : Ent) (s : State) : (ringPut w id e s).1.hush = s.hush := hush_of_hushEv (by simp)
theorem kennel_hush (s : State) (k : KennelSt) : ({ s with kennel := k } : State).hush = s.hush := rfl

@[simp] theorem bankedMod_hush (p : WinPath) (f : BankedSt → BankedSt) (s : State) : (bankedMod p f s).hush = s.hush := by
  cases p <;> rfl

@[simp] theorem boxPut_hush (e : BoxEntry) (s : State) : (boxPut e s).hush = s.hush := by
  unfold boxPut; split <;> rfl

@[simp] theorem boxNow_hush (o c u : Nat) (d : Bytes) (s : State) : (boxNow o c u d s).hush = s.hush := by
  unfold boxNow boxAt; simp

@[simp] theorem rspPublish_hush (m : Nat) (d : Bytes) (s : State) : (rspPublish m d s).hush = s.hush := by
  unfold rspPublish
  split
  · rfl
  · simp only
    split
    · rfl
    · split <;> simp

@[simp] theorem kennelMod_hush (f : KennelSt → KennelSt) (s : State) : (kennelMod f s).hush = s.hush := rfl

@[simp] theorem replayNote_hush (m op : Nat) (seq : BitVec 32) (u : Handle) (s : State) : (replayNote m op seq u s).hush = s.hush := by
  unfold replayNote
  dsimp only
  split <;> simp

@[simp] theorem bankLoad_hush (p : WinPath) (op : Nat) (c : Cmd) (b : Bool) (m : Option (Fin 64)) (s : State) : (bankLoad p op c b m s).hush = s.hush := by
  unfold bankLoad; simp

@[simp] theorem forwardShow_hush (s : State) : (forwardShow s).hush = s.hush := by
  unfold forwardShow
  split
  · split
    · split <;> simp
    · rfl
  · rfl

@[simp] theorem forwardDone_hush (m : Fin 64) (seq : BitVec 32) (st : Nat) (res : Bytes) (s : State) : (forwardDone m seq st res s).hush = s.hush := by
  unfold forwardDone; split <;> simp

@[simp] theorem mbxClose_hush (m : Fin 64) (seq : BitVec 32) (op : Nat) (a u : Handle) (st : Nat) (res : Bytes) (s : State) :
    (mbxClose m seq op a u st res s).hush = s.hush := rfl

@[simp] theorem reinitEnd_hush (op : Nat) (a : Handle) (seq : BitVec 32) (b st : Nat) (s : State) : (reinitEnd op a seq b st s).hush = s.hush := by
  unfold reinitEnd; split <;> simp

@[simp] theorem finish_hush (path : Path) (seq : BitVec 32) (op : Nat) (a u : Handle) (st : Nat) (res : Bytes) (s : State) :
    (finish path seq op a u st res s).hush = s.hush := by
  unfold finish
  cases path with
  | mailbox m =>
    dsimp only
    unfold finishMbx
    dsimp only
    rw [foldl_keeps State.hush _ (fun b a => by simp)]
    simp
  | junction p => simp

@[simp] theorem forwardLoad_hush (m : Fin 64) (c : Cmd) (op : Nat) (s : State) : (forwardLoad m c op s).hush = s.hush := by
  unfold forwardLoad; split <;> simp

@[simp] theorem begin_hush (c : Cmd) (op n : Nat) (s : State) : (begin_ c op n s).hush = s.hush := by
  unfold begin_; split <;> simp

/-- An answer touches only what State.hush hides. -/
@[simp] theorem complete_hush (c : Cmd) (op st : Nat) (res : Bytes) (s : State) : (complete c op st res s).hush = s.hush := by
  unfold complete
  simp only
  split
  · split
    · rfl
    · split <;> simp
  · split
    · rfl
    · split <;> simp

@[simp] theorem completeO_hush (c : Option Cmd) (op st : Nat) (res : Bytes) (s : State) : (completeO c op st res s).hush = s.hush := by
  cases c <;> simp [completeO]

@[simp] theorem hostPurge_hush (rs : List (Nat × Nat)) (s : State) : (hostPurge rs s).hush = s.hush := by
  unfold hostPurge; split <;> rfl

end Sys2Proof.Machine
end

