-- ==== Sys2Proof/Laws/State.lean ====
section
/-! SUPPORT. What every field of the state reads after a named update, and the laws of vectors and lists changed at one place. -/
set_option Elab.async false
namespace Sys2Proof.Machine
open Sys2Proof

/-- An element changed reads as changed. -/
theorem vget_vmod_same {α : Type} [Inhabited α] {n : Nat} (v : Vector α n) {i : Nat} (f : α → α) (h : i < n) : vget (vmod v i f) i = f (vget v i) := by
  simp [vget, vmod, h]

/-- A change elsewhere leaves an element alone. -/
theorem vget_vmod_ne {α : Type} [Inhabited α] {n : Nat} (v : Vector α n) {i k : Nat} (f : α → α) (h : k ≠ i) : vget (vmod v i f) k = vget v k := by
  unfold vget vmod
  split
  · split
    · exact Vector.getElem_set_ne _ _ (Ne.symm h)
    · rfl
  · rfl

/-- A change outside a vector changes nothing. -/
theorem vmod_out {α : Type} {n : Nat} (v : Vector α n) {i : Nat} (f : α → α) (h : n ≤ i) : vmod v i f = v := by
  simp [vmod, Nat.not_lt.mpr h]

/-- A list changed at some places keeps its length. -/
@[simp] theorem length_lmod {α : Type} (p : α → Bool) (f : α → α) (l : List α) : (lmod p f l).length = l.length := by simp [lmod]

@[simp] theorem dacMod_pending (i : Nat) (f : DacSt → DacSt) (s : State) : (dacMod i f s).pending = s.pending := rfl
@[simp] theorem dacMod_grade (i : Nat) (f : DacSt → DacSt) (s : State) : (dacMod i f s).grade = s.grade := rfl
@[simp] theorem dacMod_cyc (i : Nat) (f : DacSt → DacSt) (s : State) : (dacMod i f s).cyc = s.cyc := rfl
@[simp] theorem dacMod_mem (i : Nat) (f : DacSt → DacSt) (s : State) : (dacMod i f s).mem = s.mem := rfl
@[simp] theorem dacMod_freeNo (i : Nat) (f : DacSt → DacSt) (s : State) : (dacMod i f s).freeNo = s.freeNo := rfl
@[simp] theorem dacMod_boot (i : Nat) (f : DacSt → DacSt) (s : State) : (dacMod i f s).boot = s.boot := rfl
@[simp] theorem dacMod_power (i : Nat) (f : DacSt → DacSt) (s : State) : (dacMod i f s).power = s.power := rfl
@[simp] theorem dacMod_ev (i : Nat) (f : DacSt → DacSt) (s : State) : (dacMod i f s).ev = s.ev := rfl
@[simp] theorem dacMod_kennel (i : Nat) (f : DacSt → DacSt) (s : State) : (dacMod i f s).kennel = s.kennel := rfl
@[simp] theorem dacMod_junction (i : Nat) (f : DacSt → DacSt) (s : State) : (dacMod i f s).junction = s.junction := rfl
@[simp] theorem dacMod_maint (i : Nat) (f : DacSt → DacSt) (s : State) : (dacMod i f s).maint = s.maint := rfl
@[simp] theorem dacMod_hk (i : Nat) (f : DacSt → DacSt) (s : State) : (dacMod i f s).hk = s.hk := rfl
@[simp] theorem dacMod_loops (i : Nat) (f : DacSt → DacSt) (s : State) : (dacMod i f s).loops = s.loops := rfl
@[simp] theorem dacMod_sec (i : Nat) (f : DacSt → DacSt) (s : State) : (dacMod i f s).sec = s.sec := rfl
@[simp] theorem dacMod_box (i : Nat) (f : DacSt → DacSt) (s : State) : (dacMod i f s).box = s.box := rfl
@[simp] theorem dacMod_rings (i : Nat) (f : DacSt → DacSt) (s : State) : (dacMod i f s).rings = s.rings := rfl
@[simp] theorem dacMod_streams (i : Nat) (f : DacSt → DacSt) (s : State) : (dacMod i f s).streams = s.streams := rfl
@[simp] theorem dacMod_banks (i : Nat) (f : DacSt → DacSt) (s : State) : (dacMod i f s).banks = s.banks := rfl
@[simp] theorem dacMod_fetch (i : Nat) (f : DacSt → DacSt) (s : State) : (dacMod i f s).fetch = s.fetch := rfl
@[simp] theorem dacMod_store (i : Nat) (f : DacSt → DacSt) (s : State) : (dacMod i f s).store = s.store := rfl
@[simp] theorem dacMod_synth (i : Nat) (f : DacSt → DacSt) (s : State) : (dacMod i f s).synth = s.synth := rfl
@[simp] theorem dacMod_time (i : Nat) (f : DacSt → DacSt) (s : State) : (dacMod i f s).time = s.time := rfl
@[simp] theorem dacMod_eth (i : Nat) (f : DacSt → DacSt) (s : State) : (dacMod i f s).eth = s.eth := rfl
@[simp] theorem dacMod_vita (i : Nat) (f : DacSt → DacSt) (s : State) : (dacMod i f s).vita = s.vita := rfl
@[simp] theorem dacMod_tdc (i : Nat) (f : DacSt → DacSt) (s : State) : (dacMod i f s).tdc = s.tdc := rfl
@[simp] theorem dacMod_link (i : Nat) (f : DacSt → DacSt) (s : State) : (dacMod i f s).link = s.link := rfl
@[simp] theorem dacMod_inputs (i : Nat) (f : DacSt → DacSt) (s : State) : (dacMod i f s).inputs = s.inputs := rfl
@[simp] theorem dacMod_cals (i : Nat) (f : DacSt → DacSt) (s : State) : (dacMod i f s).cals = s.cals := rfl
@[simp] theorem dacMod_ddcEng (i : Nat) (f : DacSt → DacSt) (s : State) : (dacMod i f s).ddcEng = s.ddcEng := rfl
@[simp] theorem dacMod_ddc (i : Nat) (f : DacSt → DacSt) (s : State) : (dacMod i f s).ddc = s.ddc := rfl
@[simp] theorem dacMod_chans (i : Nat) (f : DacSt → DacSt) (s : State) : (dacMod i f s).chans = s.chans := rfl
@[simp] theorem dacMod_xforms (i : Nat) (f : DacSt → DacSt) (s : State) : (dacMod i f s).xforms = s.xforms := rfl
@[simp] theorem dacMod_te (i : Nat) (f : DacSt → DacSt) (s : State) : (dacMod i f s).te = s.te := rfl
@[simp] theorem dacMod_packs (i : Nat) (f : DacSt → DacSt) (s : State) : (dacMod i f s).packs = s.packs := rfl
@[simp] theorem dacMod_fab (i : Nat) (f : DacSt → DacSt) (s : State) : (dacMod i f s).fab = s.fab := rfl
@[simp] theorem dacMod_events (i : Nat) (f : DacSt → DacSt) (s : State) : (dacMod i f s).events = s.events := rfl
@[simp] theorem dacMod_dens (i : Nat) (f : DacSt → DacSt) (s : State) : (dacMod i f s).dens = s.dens := rfl
@[simp] theorem dacMod_disp (i : Nat) (f : DacSt → DacSt) (s : State) : (dacMod i f s).disp = s.disp := rfl

@[simp] theorem ddcMod_pending (i : Nat) (f : DdcSt → DdcSt) (s : State) : (ddcMod i f s).pending = s.pending := rfl
@[simp] theorem ddcMod_grade (i : Nat) (f : DdcSt → DdcSt) (s : State) : (ddcMod i f s).grade = s.grade := rfl
@[simp] theorem ddcMod_cyc (i : Nat) (f : DdcSt → DdcSt) (s : State) : (ddcMod i f s).cyc = s.cyc := rfl
@[simp] theorem ddcMod_mem (i : Nat) (f : DdcSt → DdcSt) (s : State) : (ddcMod i f s).mem = s.mem := rfl
@[simp] theorem ddcMod_freeNo (i : Nat) (f : DdcSt → DdcSt) (s : State) : (ddcMod i f s).freeNo = s.freeNo := rfl
@[simp] theorem ddcMod_boot (i : Nat) (f : DdcSt → DdcSt) (s : State) : (ddcMod i f s).boot = s.boot := rfl
@[simp] theorem ddcMod_power (i : Nat) (f : DdcSt → DdcSt) (s : State) : (ddcMod i f s).power = s.power := rfl
@[simp] theorem ddcMod_ev (i : Nat) (f : DdcSt → DdcSt) (s : State) : (ddcMod i f s).ev = s.ev := rfl
@[simp] theorem ddcMod_kennel (i : Nat) (f : DdcSt → DdcSt) (s : State) : (ddcMod i f s).kennel = s.kennel := rfl
@[simp] theorem ddcMod_junction (i : Nat) (f : DdcSt → DdcSt) (s : State) : (ddcMod i f s).junction = s.junction := rfl
@[simp] theorem ddcMod_maint (i : Nat) (f : DdcSt → DdcSt) (s : State) : (ddcMod i f s).maint = s.maint := rfl
@[simp] theorem ddcMod_dacs (i : Nat) (f : DdcSt → DdcSt) (s : State) : (ddcMod i f s).dacs = s.dacs := rfl
@[simp] theorem ddcMod_hk (i : Nat) (f : DdcSt → DdcSt) (s : State) : (ddcMod i f s).hk = s.hk := rfl
@[simp] theorem ddcMod_loops (i : Nat) (f : DdcSt → DdcSt) (s : State) : (ddcMod i f s).loops = s.loops := rfl
@[simp] theorem ddcMod_sec (i : Nat) (f : DdcSt → DdcSt) (s : State) : (ddcMod i f s).sec = s.sec := rfl
@[simp] theorem ddcMod_box (i : Nat) (f : DdcSt → DdcSt) (s : State) : (ddcMod i f s).box = s.box := rfl
@[simp] theorem ddcMod_rings (i : Nat) (f : DdcSt → DdcSt) (s : State) : (ddcMod i f s).rings = s.rings := rfl
@[simp] theorem ddcMod_streams (i : Nat) (f : DdcSt → DdcSt) (s : State) : (ddcMod i f s).streams = s.streams := rfl
@[simp] theorem ddcMod_banks (i : Nat) (f : DdcSt → DdcSt) (s : State) : (ddcMod i f s).banks = s.banks := rfl
@[simp] theorem ddcMod_fetch (i : Nat) (f : DdcSt → DdcSt) (s : State) : (ddcMod i f s).fetch = s.fetch := rfl
@[simp] theorem ddcMod_store (i : Nat) (f : DdcSt → DdcSt) (s : State) : (ddcMod i f s).store = s.store := rfl
@[simp] theorem ddcMod_synth (i : Nat) (f : DdcSt → DdcSt) (s : State) : (ddcMod i f s).synth = s.synth := rfl
@[simp] theorem ddcMod_time (i : Nat) (f : DdcSt → DdcSt) (s : State) : (ddcMod i f s).time = s.time := rfl
@[simp] theorem ddcMod_eth (i : Nat) (f : DdcSt → DdcSt) (s : State) : (ddcMod i f s).eth = s.eth := rfl
@[simp] theorem ddcMod_vita (i : Nat) (f : DdcSt → DdcSt) (s : State) : (ddcMod i f s).vita = s.vita := rfl
@[simp] theorem ddcMod_tdc (i : Nat) (f : DdcSt → DdcSt) (s : State) : (ddcMod i f s).tdc = s.tdc := rfl
@[simp] theorem ddcMod_link (i : Nat) (f : DdcSt → DdcSt) (s : State) : (ddcMod i f s).link = s.link := rfl
@[simp] theorem ddcMod_inputs (i : Nat) (f : DdcSt → DdcSt) (s : State) : (ddcMod i f s).inputs = s.inputs := rfl
@[simp] theorem ddcMod_cals (i : Nat) (f : DdcSt → DdcSt) (s : State) : (ddcMod i f s).cals = s.cals := rfl
@[simp] theorem ddcMod_ddcEng (i : Nat) (f : DdcSt → DdcSt) (s : State) : (ddcMod i f s).ddcEng = s.ddcEng := rfl
@[simp] theorem ddcMod_ddc (i : Nat) (f : DdcSt → DdcSt) (s : State) : (ddcMod i f s).ddc = vmod s.ddc i f := rfl
@[simp] theorem ddcMod_chans (i : Nat) (f : DdcSt → DdcSt) (s : State) : (ddcMod i f s).chans = s.chans := rfl
@[simp] theorem ddcMod_xforms (i : Nat) (f : DdcSt → DdcSt) (s : State) : (ddcMod i f s).xforms = s.xforms := rfl
@[simp] theorem ddcMod_te (i : Nat) (f : DdcSt → DdcSt) (s : State) : (ddcMod i f s).te = s.te := rfl
@[simp] theorem ddcMod_packs (i : Nat) (f : DdcSt → DdcSt) (s : State) : (ddcMod i f s).packs = s.packs := rfl
@[simp] theorem ddcMod_fab (i : Nat) (f : DdcSt → DdcSt) (s : State) : (ddcMod i f s).fab = s.fab := rfl
@[simp] theorem ddcMod_events (i : Nat) (f : DdcSt → DdcSt) (s : State) : (ddcMod i f s).events = s.events := rfl
@[simp] theorem ddcMod_dens (i : Nat) (f : DdcSt → DdcSt) (s : State) : (ddcMod i f s).dens = s.dens := rfl
@[simp] theorem ddcMod_disp (i : Nat) (f : DdcSt → DdcSt) (s : State) : (ddcMod i f s).disp = s.disp := rfl

@[simp] theorem densMod_pending (i : Nat) (f : DensSt → DensSt) (s : State) : (densMod i f s).pending = s.pending := rfl
@[simp] theorem densMod_grade (i : Nat) (f : DensSt → DensSt) (s : State) : (densMod i f s).grade = s.grade := rfl
@[simp] theorem densMod_cyc (i : Nat) (f : DensSt → DensSt) (s : State) : (densMod i f s).cyc = s.cyc := rfl
@[simp] theorem densMod_mem (i : Nat) (f : DensSt → DensSt) (s : State) : (densMod i f s).mem = s.mem := rfl
@[simp] theorem densMod_freeNo (i : Nat) (f : DensSt → DensSt) (s : State) : (densMod i f s).freeNo = s.freeNo := rfl
@[simp] theorem densMod_boot (i : Nat) (f : DensSt → DensSt) (s : State) : (densMod i f s).boot = s.boot := rfl
@[simp] theorem densMod_power (i : Nat) (f : DensSt → DensSt) (s : State) : (densMod i f s).power = s.power := rfl
@[simp] theorem densMod_ev (i : Nat) (f : DensSt → DensSt) (s : State) : (densMod i f s).ev = s.ev := rfl
@[simp] theorem densMod_kennel (i : Nat) (f : DensSt → DensSt) (s : State) : (densMod i f s).kennel = s.kennel := rfl
@[simp] theorem densMod_junction (i : Nat) (f : DensSt → DensSt) (s : State) : (densMod i f s).junction = s.junction := rfl
@[simp] theorem densMod_maint (i : Nat) (f : DensSt → DensSt) (s : State) : (densMod i f s).maint = s.maint := rfl
@[simp] theorem densMod_dacs (i : Nat) (f : DensSt → DensSt) (s : State) : (densMod i f s).dacs = s.dacs := rfl
@[simp] theorem densMod_hk (i : Nat) (f : DensSt → DensSt) (s : State) : (densMod i f s).hk = s.hk := rfl
@[simp] theorem densMod_loops (i : Nat) (f : DensSt → DensSt) (s : State) : (densMod i f s).loops = s.loops := rfl
@[simp] theorem densMod_sec (i : Nat) (f : DensSt → DensSt) (s : State) : (densMod i f s).sec = s.sec := rfl
@[simp] theorem densMod_box (i : Nat) (f : DensSt → DensSt) (s : State) : (densMod i f s).box = s.box := rfl
@[simp] theorem densMod_rings (i : Nat) (f : DensSt → DensSt) (s : State) : (densMod i f s).rings = s.rings := rfl
@[simp] theorem densMod_streams (i : Nat) (f : DensSt → DensSt) (s : State) : (densMod i f s).streams = s.streams := rfl
@[simp] theorem densMod_banks (i : Nat) (f : DensSt → DensSt) (s : State) : (densMod i f s).banks = s.banks := rfl
@[simp] theorem densMod_fetch (i : Nat) (f : DensSt → DensSt) (s : State) : (densMod i f s).fetch = s.fetch := rfl
@[simp] theorem densMod_store (i : Nat) (f : DensSt → DensSt) (s : State) : (densMod i f s).store = s.store := rfl
@[simp] theorem densMod_synth (i : Nat) (f : DensSt → DensSt) (s : State) : (densMod i f s).synth = s.synth := rfl
@[simp] theorem densMod_time (i : Nat) (f : DensSt → DensSt) (s : State) : (densMod i f s).time = s.time := rfl
@[simp] theorem densMod_eth (i : Nat) (f : DensSt → DensSt) (s : State) : (densMod i f s).eth = s.eth := rfl
@[simp] theorem densMod_vita (i : Nat) (f : DensSt → DensSt) (s : State) : (densMod i f s).vita = s.vita := rfl
@[simp] theorem densMod_tdc (i : Nat) (f : DensSt → DensSt) (s : State) : (densMod i f s).tdc = s.tdc := rfl
@[simp] theorem densMod_link (i : Nat) (f : DensSt → DensSt) (s : State) : (densMod i f s).link = s.link := rfl
@[simp] theorem densMod_inputs (i : Nat) (f : DensSt → DensSt) (s : State) : (densMod i f s).inputs = s.inputs := rfl
@[simp] theorem densMod_cals (i : Nat) (f : DensSt → DensSt) (s : State) : (densMod i f s).cals = s.cals := rfl
@[simp] theorem densMod_ddcEng (i : Nat) (f : DensSt → DensSt) (s : State) : (densMod i f s).ddcEng = s.ddcEng := rfl
@[simp] theorem densMod_ddc (i : Nat) (f : DensSt → DensSt) (s : State) : (densMod i f s).ddc = s.ddc := rfl
@[simp] theorem densMod_chans (i : Nat) (f : DensSt → DensSt) (s : State) : (densMod i f s).chans = s.chans := rfl
@[simp] theorem densMod_xforms (i : Nat) (f : DensSt → DensSt) (s : State) : (densMod i f s).xforms = s.xforms := rfl
@[simp] theorem densMod_te (i : Nat) (f : DensSt → DensSt) (s : State) : (densMod i f s).te = s.te := rfl
@[simp] theorem densMod_packs (i : Nat) (f : DensSt → DensSt) (s : State) : (densMod i f s).packs = s.packs := rfl
@[simp] theorem densMod_fab (i : Nat) (f : DensSt → DensSt) (s : State) : (densMod i f s).fab = s.fab := rfl
@[simp] theorem densMod_events (i : Nat) (f : DensSt → DensSt) (s : State) : (densMod i f s).events = s.events := rfl
@[simp] theorem densMod_dens (i : Nat) (f : DensSt → DensSt) (s : State) : (densMod i f s).dens = vmod s.dens i f := rfl
@[simp] theorem densMod_disp (i : Nat) (f : DensSt → DensSt) (s : State) : (densMod i f s).disp = s.disp := rfl

@[simp] theorem dispMod_pending (f : DispSt → DispSt) (s : State) : (dispMod f s).pending = s.pending := rfl
@[simp] theorem dispMod_grade (f : DispSt → DispSt) (s : State) : (dispMod f s).grade = s.grade := rfl
@[simp] theorem dispMod_cyc (f : DispSt → DispSt) (s : State) : (dispMod f s).cyc = s.cyc := rfl
@[simp] theorem dispMod_mem (f : DispSt → DispSt) (s : State) : (dispMod f s).mem = s.mem := rfl
@[simp] theorem dispMod_freeNo (f : DispSt → DispSt) (s : State) : (dispMod f s).freeNo = s.freeNo := rfl
@[simp] theorem dispMod_boot (f : DispSt → DispSt) (s : State) : (dispMod f s).boot = s.boot := rfl
@[simp] theorem dispMod_power (f : DispSt → DispSt) (s : State) : (dispMod f s).power = s.power := rfl
@[simp] theorem dispMod_ev (f : DispSt → DispSt) (s : State) : (dispMod f s).ev = s.ev := rfl
@[simp] theorem dispMod_kennel (f : DispSt → DispSt) (s : State) : (dispMod f s).kennel = s.kennel := rfl
@[simp] theorem dispMod_junction (f : DispSt → DispSt) (s : State) : (dispMod f s).junction = s.junction := rfl
@[simp] theorem dispMod_maint (f : DispSt → DispSt) (s : State) : (dispMod f s).maint = s.maint := rfl
@[simp] theorem dispMod_dacs (f : DispSt → DispSt) (s : State) : (dispMod f s).dacs = s.dacs := rfl
@[simp] theorem dispMod_hk (f : DispSt → DispSt) (s : State) : (dispMod f s).hk = s.hk := rfl
@[simp] theorem dispMod_loops (f : DispSt → DispSt) (s : State) : (dispMod f s).loops = s.loops := rfl
@[simp] theorem dispMod_sec (f : DispSt → DispSt) (s : State) : (dispMod f s).sec = s.sec := rfl
@[simp] theorem dispMod_box (f : DispSt → DispSt) (s : State) : (dispMod f s).box = s.box := rfl
@[simp] theorem dispMod_rings (f : DispSt → DispSt) (s : State) : (dispMod f s).rings = s.rings := rfl
@[simp] theorem dispMod_streams (f : DispSt → DispSt) (s : State) : (dispMod f s).streams = s.streams := rfl
@[simp] theorem dispMod_banks (f : DispSt → DispSt) (s : State) : (dispMod f s).banks = s.banks := rfl
@[simp] theorem dispMod_fetch (f : DispSt → DispSt) (s : State) : (dispMod f s).fetch = s.fetch := rfl
@[simp] theorem dispMod_store (f : DispSt → DispSt) (s : State) : (dispMod f s).store = s.store := rfl
@[simp] theorem dispMod_synth (f : DispSt → DispSt) (s : State) : (dispMod f s).synth = s.synth := rfl
@[simp] theorem dispMod_time (f : DispSt → DispSt) (s : State) : (dispMod f s).time = s.time := rfl
@[simp] theorem dispMod_eth (f : DispSt → DispSt) (s : State) : (dispMod f s).eth = s.eth := rfl
@[simp] theorem dispMod_vita (f : DispSt → DispSt) (s : State) : (dispMod f s).vita = s.vita := rfl
@[simp] theorem dispMod_tdc (f : DispSt → DispSt) (s : State) : (dispMod f s).tdc = s.tdc := rfl
@[simp] theorem dispMod_link (f : DispSt → DispSt) (s : State) : (dispMod f s).link = s.link := rfl
@[simp] theorem dispMod_inputs (f : DispSt → DispSt) (s : State) : (dispMod f s).inputs = s.inputs := rfl
@[simp] theorem dispMod_cals (f : DispSt → DispSt) (s : State) : (dispMod f s).cals = s.cals := rfl
@[simp] theorem dispMod_ddcEng (f : DispSt → DispSt) (s : State) : (dispMod f s).ddcEng = s.ddcEng := rfl
@[simp] theorem dispMod_ddc (f : DispSt → DispSt) (s : State) : (dispMod f s).ddc = s.ddc := rfl
@[simp] theorem dispMod_chans (f : DispSt → DispSt) (s : State) : (dispMod f s).chans = s.chans := rfl
@[simp] theorem dispMod_xforms (f : DispSt → DispSt) (s : State) : (dispMod f s).xforms = s.xforms := rfl
@[simp] theorem dispMod_te (f : DispSt → DispSt) (s : State) : (dispMod f s).te = s.te := rfl
@[simp] theorem dispMod_packs (f : DispSt → DispSt) (s : State) : (dispMod f s).packs = s.packs := rfl
@[simp] theorem dispMod_fab (f : DispSt → DispSt) (s : State) : (dispMod f s).fab = s.fab := rfl
@[simp] theorem dispMod_events (f : DispSt → DispSt) (s : State) : (dispMod f s).events = s.events := rfl
@[simp] theorem dispMod_dens (f : DispSt → DispSt) (s : State) : (dispMod f s).dens = s.dens := rfl
@[simp] theorem dispMod_disp (f : DispSt → DispSt) (s : State) : (dispMod f s).disp = f s.disp := rfl

@[simp] theorem ethMod_pending (i : Nat) (f : EthSt → EthSt) (s : State) : (ethMod i f s).pending = s.pending := rfl
@[simp] theorem ethMod_grade (i : Nat) (f : EthSt → EthSt) (s : State) : (ethMod i f s).grade = s.grade := rfl
@[simp] theorem ethMod_cyc (i : Nat) (f : EthSt → EthSt) (s : State) : (ethMod i f s).cyc = s.cyc := rfl
@[simp] theorem ethMod_mem (i : Nat) (f : EthSt → EthSt) (s : State) : (ethMod i f s).mem = s.mem := rfl
@[simp] theorem ethMod_freeNo (i : Nat) (f : EthSt → EthSt) (s : State) : (ethMod i f s).freeNo = s.freeNo := rfl
@[simp] theorem ethMod_boot (i : Nat) (f : EthSt → EthSt) (s : State) : (ethMod i f s).boot = s.boot := rfl
@[simp] theorem ethMod_power (i : Nat) (f : EthSt → EthSt) (s : State) : (ethMod i f s).power = s.power := rfl
@[simp] theorem ethMod_ev (i : Nat) (f : EthSt → EthSt) (s : State) : (ethMod i f s).ev = s.ev := rfl
@[simp] theorem ethMod_kennel (i : Nat) (f : EthSt → EthSt) (s : State) : (ethMod i f s).kennel = s.kennel := rfl
@[simp] theorem ethMod_junction (i : Nat) (f : EthSt → EthSt) (s : State) : (ethMod i f s).junction = s.junction := rfl
@[simp] theorem ethMod_maint (i : Nat) (f : EthSt → EthSt) (s : State) : (ethMod i f s).maint = s.maint := rfl
@[simp] theorem ethMod_dacs (i : Nat) (f : EthSt → EthSt) (s : State) : (ethMod i f s).dacs = s.dacs := rfl
@[simp] theorem ethMod_hk (i : Nat) (f : EthSt → EthSt) (s : State) : (ethMod i f s).hk = s.hk := rfl
@[simp] theorem ethMod_loops (i : Nat) (f : EthSt → EthSt) (s : State) : (ethMod i f s).loops = s.loops := rfl
@[simp] theorem ethMod_sec (i : Nat) (f : EthSt → EthSt) (s : State) : (ethMod i f s).sec = s.sec := rfl
@[simp] theorem ethMod_box (i : Nat) (f : EthSt → EthSt) (s : State) : (ethMod i f s).box = s.box := rfl
@[simp] theorem ethMod_rings (i : Nat) (f : EthSt → EthSt) (s : State) : (ethMod i f s).rings = s.rings := rfl
@[simp] theorem ethMod_streams (i : Nat) (f : EthSt → EthSt) (s : State) : (ethMod i f s).streams = s.streams := rfl
@[simp] theorem ethMod_banks (i : Nat) (f : EthSt → EthSt) (s : State) : (ethMod i f s).banks = s.banks := rfl
@[simp] theorem ethMod_fetch (i : Nat) (f : EthSt → EthSt) (s : State) : (ethMod i f s).fetch = s.fetch := rfl
@[simp] theorem ethMod_store (i : Nat) (f : EthSt → EthSt) (s : State) : (ethMod i f s).store = s.store := rfl
@[simp] theorem ethMod_synth (i : Nat) (f : EthSt → EthSt) (s : State) : (ethMod i f s).synth = s.synth := rfl
@[simp] theorem ethMod_time (i : Nat) (f : EthSt → EthSt) (s : State) : (ethMod i f s).time = s.time := rfl
@[simp] theorem ethMod_eth (i : Nat) (f : EthSt → EthSt) (s : State) : (ethMod i f s).eth = vmod s.eth i f := rfl
@[simp] theorem ethMod_vita (i : Nat) (f : EthSt → EthSt) (s : State) : (ethMod i f s).vita = s.vita := rfl
@[simp] theorem ethMod_tdc (i : Nat) (f : EthSt → EthSt) (s : State) : (ethMod i f s).tdc = s.tdc := rfl
@[simp] theorem ethMod_link (i : Nat) (f : EthSt → EthSt) (s : State) : (ethMod i f s).link = s.link := rfl
@[simp] theorem ethMod_inputs (i : Nat) (f : EthSt → EthSt) (s : State) : (ethMod i f s).inputs = s.inputs := rfl
@[simp] theorem ethMod_cals (i : Nat) (f : EthSt → EthSt) (s : State) : (ethMod i f s).cals = s.cals := rfl
@[simp] theorem ethMod_ddcEng (i : Nat) (f : EthSt → EthSt) (s : State) : (ethMod i f s).ddcEng = s.ddcEng := rfl
@[simp] theorem ethMod_ddc (i : Nat) (f : EthSt → EthSt) (s : State) : (ethMod i f s).ddc = s.ddc := rfl
@[simp] theorem ethMod_chans (i : Nat) (f : EthSt → EthSt) (s : State) : (ethMod i f s).chans = s.chans := rfl
@[simp] theorem ethMod_xforms (i : Nat) (f : EthSt → EthSt) (s : State) : (ethMod i f s).xforms = s.xforms := rfl
@[simp] theorem ethMod_te (i : Nat) (f : EthSt → EthSt) (s : State) : (ethMod i f s).te = s.te := rfl
@[simp] theorem ethMod_packs (i : Nat) (f : EthSt → EthSt) (s : State) : (ethMod i f s).packs = s.packs := rfl
@[simp] theorem ethMod_fab (i : Nat) (f : EthSt → EthSt) (s : State) : (ethMod i f s).fab = s.fab := rfl
@[simp] theorem ethMod_events (i : Nat) (f : EthSt → EthSt) (s : State) : (ethMod i f s).events = s.events := rfl
@[simp] theorem ethMod_dens (i : Nat) (f : EthSt → EthSt) (s : State) : (ethMod i f s).dens = s.dens := rfl
@[simp] theorem ethMod_disp (i : Nat) (f : EthSt → EthSt) (s : State) : (ethMod i f s).disp = s.disp := rfl

@[simp] theorem vitaMod_pending (i : Nat) (f : VitaSt → VitaSt) (s : State) : (vitaMod i f s).pending = s.pending := rfl
@[simp] theorem vitaMod_grade (i : Nat) (f : VitaSt → VitaSt) (s : State) : (vitaMod i f s).grade = s.grade := rfl
@[simp] theorem vitaMod_cyc (i : Nat) (f : VitaSt → VitaSt) (s : State) : (vitaMod i f s).cyc = s.cyc := rfl
@[simp] theorem vitaMod_mem (i : Nat) (f : VitaSt → VitaSt) (s : State) : (vitaMod i f s).mem = s.mem := rfl
@[simp] theorem vitaMod_freeNo (i : Nat) (f : VitaSt → VitaSt) (s : State) : (vitaMod i f s).freeNo = s.freeNo := rfl
@[simp] theorem vitaMod_boot (i : Nat) (f : VitaSt → VitaSt) (s : State) : (vitaMod i f s).boot = s.boot := rfl
@[simp] theorem vitaMod_power (i : Nat) (f : VitaSt → VitaSt) (s : State) : (vitaMod i f s).power = s.power := rfl
@[simp] theorem vitaMod_ev (i : Nat) (f : VitaSt → VitaSt) (s : State) : (vitaMod i f s).ev = s.ev := rfl
@[simp] theorem vitaMod_kennel (i : Nat) (f : VitaSt → VitaSt) (s : State) : (vitaMod i f s).kennel = s.kennel := rfl
@[simp] theorem vitaMod_junction (i : Nat) (f : VitaSt → VitaSt) (s : State) : (vitaMod i f s).junction = s.junction := rfl
@[simp] theorem vitaMod_maint (i : Nat) (f : VitaSt → VitaSt) (s : State) : (vitaMod i f s).maint = s.maint := rfl
@[simp] theorem vitaMod_dacs (i : Nat) (f : VitaSt → VitaSt) (s : State) : (vitaMod i f s).dacs = s.dacs := rfl
@[simp] theorem vitaMod_hk (i : Nat) (f : VitaSt → VitaSt) (s : State) : (vitaMod i f s).hk = s.hk := rfl
@[simp] theorem vitaMod_loops (i : Nat) (f : VitaSt → VitaSt) (s : State) : (vitaMod i f s).loops = s.loops := rfl
@[simp] theorem vitaMod_sec (i : Nat) (f : VitaSt → VitaSt) (s : State) : (vitaMod i f s).sec = s.sec := rfl
@[simp] theorem vitaMod_box (i : Nat) (f : VitaSt → VitaSt) (s : State) : (vitaMod i f s).box = s.box := rfl
@[simp] theorem vitaMod_rings (i : Nat) (f : VitaSt → VitaSt) (s : State) : (vitaMod i f s).rings = s.rings := rfl
@[simp] theorem vitaMod_streams (i : Nat) (f : VitaSt → VitaSt) (s : State) : (vitaMod i f s).streams = s.streams := rfl
@[simp] theorem vitaMod_banks (i : Nat) (f : VitaSt → VitaSt) (s : State) : (vitaMod i f s).banks = s.banks := rfl
@[simp] theorem vitaMod_fetch (i : Nat) (f : VitaSt → VitaSt) (s : State) : (vitaMod i f s).fetch = s.fetch := rfl
@[simp] theorem vitaMod_store (i : Nat) (f : VitaSt → VitaSt) (s : State) : (vitaMod i f s).store = s.store := rfl
@[simp] theorem vitaMod_synth (i : Nat) (f : VitaSt → VitaSt) (s : State) : (vitaMod i f s).synth = s.synth := rfl
@[simp] theorem vitaMod_time (i : Nat) (f : VitaSt → VitaSt) (s : State) : (vitaMod i f s).time = s.time := rfl
@[simp] theorem vitaMod_eth (i : Nat) (f : VitaSt → VitaSt) (s : State) : (vitaMod i f s).eth = s.eth := rfl
@[simp] theorem vitaMod_tdc (i : Nat) (f : VitaSt → VitaSt) (s : State) : (vitaMod i f s).tdc = s.tdc := rfl
@[simp] theorem vitaMod_link (i : Nat) (f : VitaSt → VitaSt) (s : State) : (vitaMod i f s).link = s.link := rfl
@[simp] theorem vitaMod_inputs (i : Nat) (f : VitaSt → VitaSt) (s : State) : (vitaMod i f s).inputs = s.inputs := rfl
@[simp] theorem vitaMod_cals (i : Nat) (f : VitaSt → VitaSt) (s : State) : (vitaMod i f s).cals = s.cals := rfl
@[simp] theorem vitaMod_ddcEng (i : Nat) (f : VitaSt → VitaSt) (s : State) : (vitaMod i f s).ddcEng = s.ddcEng := rfl
@[simp] theorem vitaMod_ddc (i : Nat) (f : VitaSt → VitaSt) (s : State) : (vitaMod i f s).ddc = s.ddc := rfl
@[simp] theorem vitaMod_chans (i : Nat) (f : VitaSt → VitaSt) (s : State) : (vitaMod i f s).chans = s.chans := rfl
@[simp] theorem vitaMod_xforms (i : Nat) (f : VitaSt → VitaSt) (s : State) : (vitaMod i f s).xforms = s.xforms := rfl
@[simp] theorem vitaMod_te (i : Nat) (f : VitaSt → VitaSt) (s : State) : (vitaMod i f s).te = s.te := rfl
@[simp] theorem vitaMod_packs (i : Nat) (f : VitaSt → VitaSt) (s : State) : (vitaMod i f s).packs = s.packs := rfl
@[simp] theorem vitaMod_fab (i : Nat) (f : VitaSt → VitaSt) (s : State) : (vitaMod i f s).fab = s.fab := rfl
@[simp] theorem vitaMod_events (i : Nat) (f : VitaSt → VitaSt) (s : State) : (vitaMod i f s).events = s.events := rfl
@[simp] theorem vitaMod_dens (i : Nat) (f : VitaSt → VitaSt) (s : State) : (vitaMod i f s).dens = s.dens := rfl
@[simp] theorem vitaMod_disp (i : Nat) (f : VitaSt → VitaSt) (s : State) : (vitaMod i f s).disp = s.disp := rfl

@[simp] theorem engMod_pending (i : Nat) (f : EvEng → EvEng) (s : State) : (engMod i f s).pending = s.pending := rfl
@[simp] theorem engMod_grade (i : Nat) (f : EvEng → EvEng) (s : State) : (engMod i f s).grade = s.grade := rfl
@[simp] theorem engMod_cyc (i : Nat) (f : EvEng → EvEng) (s : State) : (engMod i f s).cyc = s.cyc := rfl
@[simp] theorem engMod_mem (i : Nat) (f : EvEng → EvEng) (s : State) : (engMod i f s).mem = s.mem := rfl
@[simp] theorem engMod_freeNo (i : Nat) (f : EvEng → EvEng) (s : State) : (engMod i f s).freeNo = s.freeNo := rfl
@[simp] theorem engMod_boot (i : Nat) (f : EvEng → EvEng) (s : State) : (engMod i f s).boot = s.boot := rfl
@[simp] theorem engMod_power (i : Nat) (f : EvEng → EvEng) (s : State) : (engMod i f s).power = s.power := rfl
@[simp] theorem engMod_ev (i : Nat) (f : EvEng → EvEng) (s : State) : (engMod i f s).ev = s.ev := rfl
@[simp] theorem engMod_kennel (i : Nat) (f : EvEng → EvEng) (s : State) : (engMod i f s).kennel = s.kennel := rfl
@[simp] theorem engMod_junction (i : Nat) (f : EvEng → EvEng) (s : State) : (engMod i f s).junction = s.junction := rfl
@[simp] theorem engMod_maint (i : Nat) (f : EvEng → EvEng) (s : State) : (engMod i f s).maint = s.maint := rfl
@[simp] theorem engMod_dacs (i : Nat) (f : EvEng → EvEng) (s : State) : (engMod i f s).dacs = s.dacs := rfl
@[simp] theorem engMod_hk (i : Nat) (f : EvEng → EvEng) (s : State) : (engMod i f s).hk = s.hk := rfl
@[simp] theorem engMod_loops (i : Nat) (f : EvEng → EvEng) (s : State) : (engMod i f s).loops = s.loops := rfl
@[simp] theorem engMod_sec (i : Nat) (f : EvEng → EvEng) (s : State) : (engMod i f s).sec = s.sec := rfl
@[simp] theorem engMod_box (i : Nat) (f : EvEng → EvEng) (s : State) : (engMod i f s).box = s.box := rfl
@[simp] theorem engMod_rings (i : Nat) (f : EvEng → EvEng) (s : State) : (engMod i f s).rings = s.rings := rfl
@[simp] theorem engMod_streams (i : Nat) (f : EvEng → EvEng) (s : State) : (engMod i f s).streams = s.streams := rfl
@[simp] theorem engMod_banks (i : Nat) (f : EvEng → EvEng) (s : State) : (engMod i f s).banks = s.banks := rfl
@[simp] theorem engMod_fetch (i : Nat) (f : EvEng → EvEng) (s : State) : (engMod i f s).fetch = s.fetch := rfl
@[simp] theorem engMod_store (i : Nat) (f : EvEng → EvEng) (s : State) : (engMod i f s).store = s.store := rfl
@[simp] theorem engMod_synth (i : Nat) (f : EvEng → EvEng) (s : State) : (engMod i f s).synth = s.synth := rfl
@[simp] theorem engMod_time (i : Nat) (f : EvEng → EvEng) (s : State) : (engMod i f s).time = s.time := rfl
@[simp] theorem engMod_eth (i : Nat) (f : EvEng → EvEng) (s : State) : (engMod i f s).eth = s.eth := rfl
@[simp] theorem engMod_vita (i : Nat) (f : EvEng → EvEng) (s : State) : (engMod i f s).vita = s.vita := rfl
@[simp] theorem engMod_tdc (i : Nat) (f : EvEng → EvEng) (s : State) : (engMod i f s).tdc = s.tdc := rfl
@[simp] theorem engMod_link (i : Nat) (f : EvEng → EvEng) (s : State) : (engMod i f s).link = s.link := rfl
@[simp] theorem engMod_inputs (i : Nat) (f : EvEng → EvEng) (s : State) : (engMod i f s).inputs = s.inputs := rfl
@[simp] theorem engMod_cals (i : Nat) (f : EvEng → EvEng) (s : State) : (engMod i f s).cals = s.cals := rfl
@[simp] theorem engMod_ddcEng (i : Nat) (f : EvEng → EvEng) (s : State) : (engMod i f s).ddcEng = s.ddcEng := rfl
@[simp] theorem engMod_ddc (i : Nat) (f : EvEng → EvEng) (s : State) : (engMod i f s).ddc = s.ddc := rfl
@[simp] theorem engMod_chans (i : Nat) (f : EvEng → EvEng) (s : State) : (engMod i f s).chans = s.chans := rfl
@[simp] theorem engMod_xforms (i : Nat) (f : EvEng → EvEng) (s : State) : (engMod i f s).xforms = s.xforms := rfl
@[simp] theorem engMod_te (i : Nat) (f : EvEng → EvEng) (s : State) : (engMod i f s).te = s.te := rfl
@[simp] theorem engMod_packs (i : Nat) (f : EvEng → EvEng) (s : State) : (engMod i f s).packs = s.packs := rfl
@[simp] theorem engMod_fab (i : Nat) (f : EvEng → EvEng) (s : State) : (engMod i f s).fab = s.fab := rfl
@[simp] theorem engMod_dens (i : Nat) (f : EvEng → EvEng) (s : State) : (engMod i f s).dens = s.dens := rfl
@[simp] theorem engMod_disp (i : Nat) (f : EvEng → EvEng) (s : State) : (engMod i f s).disp = s.disp := rfl

@[simp] theorem trigMod_pending (e i : Nat) (f : TrigSt → TrigSt) (s : State) : (trigMod e i f s).pending = s.pending := rfl
@[simp] theorem trigMod_grade (e i : Nat) (f : TrigSt → TrigSt) (s : State) : (trigMod e i f s).grade = s.grade := rfl
@[simp] theorem trigMod_cyc (e i : Nat) (f : TrigSt → TrigSt) (s : State) : (trigMod e i f s).cyc = s.cyc := rfl
@[simp] theorem trigMod_mem (e i : Nat) (f : TrigSt → TrigSt) (s : State) : (trigMod e i f s).mem = s.mem := rfl
@[simp] theorem trigMod_freeNo (e i : Nat) (f : TrigSt → TrigSt) (s : State) : (trigMod e i f s).freeNo = s.freeNo := rfl
@[simp] theorem trigMod_boot (e i : Nat) (f : TrigSt → TrigSt) (s : State) : (trigMod e i f s).boot = s.boot := rfl
@[simp] theorem trigMod_power (e i : Nat) (f : TrigSt → TrigSt) (s : State) : (trigMod e i f s).power = s.power := rfl
@[simp] theorem trigMod_ev (e i : Nat) (f : TrigSt → TrigSt) (s : State) : (trigMod e i f s).ev = s.ev := rfl
@[simp] theorem trigMod_kennel (e i : Nat) (f : TrigSt → TrigSt) (s : State) : (trigMod e i f s).kennel = s.kennel := rfl
@[simp] theorem trigMod_junction (e i : Nat) (f : TrigSt → TrigSt) (s : State) : (trigMod e i f s).junction = s.junction := rfl
@[simp] theorem trigMod_maint (e i : Nat) (f : TrigSt → TrigSt) (s : State) : (trigMod e i f s).maint = s.maint := rfl
@[simp] theorem trigMod_dacs (e i : Nat) (f : TrigSt → TrigSt) (s : State) : (trigMod e i f s).dacs = s.dacs := rfl
@[simp] theorem trigMod_hk (e i : Nat) (f : TrigSt → TrigSt) (s : State) : (trigMod e i f s).hk = s.hk := rfl
@[simp] theorem trigMod_loops (e i : Nat) (f : TrigSt → TrigSt) (s : State) : (trigMod e i f s).loops = s.loops := rfl
@[simp] theorem trigMod_sec (e i : Nat) (f : TrigSt → TrigSt) (s : State) : (trigMod e i f s).sec = s.sec := rfl
@[simp] theorem trigMod_box (e i : Nat) (f : TrigSt → TrigSt) (s : State) : (trigMod e i f s).box = s.box := rfl
@[simp] theorem trigMod_rings (e i : Nat) (f : TrigSt → TrigSt) (s : State) : (trigMod e i f s).rings = s.rings := rfl
@[simp] theorem trigMod_streams (e i : Nat) (f : TrigSt → TrigSt) (s : State) : (trigMod e i f s).streams = s.streams := rfl
@[simp] theorem trigMod_banks (e i : Nat) (f : TrigSt → TrigSt) (s : State) : (trigMod e i f s).banks = s.banks := rfl
@[simp] theorem trigMod_fetch (e i : Nat) (f : TrigSt → TrigSt) (s : State) : (trigMod e i f s).fetch = s.fetch := rfl
@[simp] theorem trigMod_store (e i : Nat) (f : TrigSt → TrigSt) (s : State) : (trigMod e i f s).store = s.store := rfl
@[simp] theorem trigMod_synth (e i : Nat) (f : TrigSt → TrigSt) (s : State) : (trigMod e i f s).synth = s.synth := rfl
@[simp] theorem trigMod_time (e i : Nat) (f : TrigSt → TrigSt) (s : State) : (trigMod e i f s).time = s.time := rfl
@[simp] theorem trigMod_eth (e i : Nat) (f : TrigSt → TrigSt) (s : State) : (trigMod e i f s).eth = s.eth := rfl
@[simp] theorem trigMod_vita (e i : Nat) (f : TrigSt → TrigSt) (s : State) : (trigMod e i f s).vita = s.vita := rfl
@[simp] theorem trigMod_tdc (e i : Nat) (f : TrigSt → TrigSt) (s : State) : (trigMod e i f s).tdc = s.tdc := rfl
@[simp] theorem trigMod_link (e i : Nat) (f : TrigSt → TrigSt) (s : State) : (trigMod e i f s).link = s.link := rfl
@[simp] theorem trigMod_inputs (e i : Nat) (f : TrigSt → TrigSt) (s : State) : (trigMod e i f s).inputs = s.inputs := rfl
@[simp] theorem trigMod_cals (e i : Nat) (f : TrigSt → TrigSt) (s : State) : (trigMod e i f s).cals = s.cals := rfl
@[simp] theorem trigMod_ddcEng (e i : Nat) (f : TrigSt → TrigSt) (s : State) : (trigMod e i f s).ddcEng = s.ddcEng := rfl
@[simp] theorem trigMod_ddc (e i : Nat) (f : TrigSt → TrigSt) (s : State) : (trigMod e i f s).ddc = s.ddc := rfl
@[simp] theorem trigMod_chans (e i : Nat) (f : TrigSt → TrigSt) (s : State) : (trigMod e i f s).chans = s.chans := rfl
@[simp] theorem trigMod_xforms (e i : Nat) (f : TrigSt → TrigSt) (s : State) : (trigMod e i f s).xforms = s.xforms := rfl
@[simp] theorem trigMod_te (e i : Nat) (f : TrigSt → TrigSt) (s : State) : (trigMod e i f s).te = s.te := rfl
@[simp] theorem trigMod_packs (e i : Nat) (f : TrigSt → TrigSt) (s : State) : (trigMod e i f s).packs = s.packs := rfl
@[simp] theorem trigMod_fab (e i : Nat) (f : TrigSt → TrigSt) (s : State) : (trigMod e i f s).fab = s.fab := rfl
@[simp] theorem trigMod_dens (e i : Nat) (f : TrigSt → TrigSt) (s : State) : (trigMod e i f s).dens = s.dens := rfl
@[simp] theorem trigMod_disp (e i : Nat) (f : TrigSt → TrigSt) (s : State) : (trigMod e i f s).disp = s.disp := rfl

@[simp] theorem envMod_pending (i : Nat) (f : EnvSt → EnvSt) (s : State) : (envMod i f s).pending = s.pending := rfl
@[simp] theorem envMod_grade (i : Nat) (f : EnvSt → EnvSt) (s : State) : (envMod i f s).grade = s.grade := rfl
@[simp] theorem envMod_cyc (i : Nat) (f : EnvSt → EnvSt) (s : State) : (envMod i f s).cyc = s.cyc := rfl
@[simp] theorem envMod_mem (i : Nat) (f : EnvSt → EnvSt) (s : State) : (envMod i f s).mem = s.mem := rfl
@[simp] theorem envMod_freeNo (i : Nat) (f : EnvSt → EnvSt) (s : State) : (envMod i f s).freeNo = s.freeNo := rfl
@[simp] theorem envMod_boot (i : Nat) (f : EnvSt → EnvSt) (s : State) : (envMod i f s).boot = s.boot := rfl
@[simp] theorem envMod_power (i : Nat) (f : EnvSt → EnvSt) (s : State) : (envMod i f s).power = s.power := rfl
@[simp] theorem envMod_ev (i : Nat) (f : EnvSt → EnvSt) (s : State) : (envMod i f s).ev = s.ev := rfl
@[simp] theorem envMod_kennel (i : Nat) (f : EnvSt → EnvSt) (s : State) : (envMod i f s).kennel = s.kennel := rfl
@[simp] theorem envMod_junction (i : Nat) (f : EnvSt → EnvSt) (s : State) : (envMod i f s).junction = s.junction := rfl
@[simp] theorem envMod_maint (i : Nat) (f : EnvSt → EnvSt) (s : State) : (envMod i f s).maint = s.maint := rfl
@[simp] theorem envMod_dacs (i : Nat) (f : EnvSt → EnvSt) (s : State) : (envMod i f s).dacs = s.dacs := rfl
@[simp] theorem envMod_hk (i : Nat) (f : EnvSt → EnvSt) (s : State) : (envMod i f s).hk = s.hk := rfl
@[simp] theorem envMod_loops (i : Nat) (f : EnvSt → EnvSt) (s : State) : (envMod i f s).loops = s.loops := rfl
@[simp] theorem envMod_sec (i : Nat) (f : EnvSt → EnvSt) (s : State) : (envMod i f s).sec = s.sec := rfl
@[simp] theorem envMod_box (i : Nat) (f : EnvSt → EnvSt) (s : State) : (envMod i f s).box = s.box := rfl
@[simp] theorem envMod_rings (i : Nat) (f : EnvSt → EnvSt) (s : State) : (envMod i f s).rings = s.rings := rfl
@[simp] theorem envMod_streams (i : Nat) (f : EnvSt → EnvSt) (s : State) : (envMod i f s).streams = s.streams := rfl
@[simp] theorem envMod_banks (i : Nat) (f : EnvSt → EnvSt) (s : State) : (envMod i f s).banks = s.banks := rfl
@[simp] theorem envMod_fetch (i : Nat) (f : EnvSt → EnvSt) (s : State) : (envMod i f s).fetch = s.fetch := rfl
@[simp] theorem envMod_store (i : Nat) (f : EnvSt → EnvSt) (s : State) : (envMod i f s).store = s.store := rfl
@[simp] theorem envMod_synth (i : Nat) (f : EnvSt → EnvSt) (s : State) : (envMod i f s).synth = s.synth := rfl
@[simp] theorem envMod_time (i : Nat) (f : EnvSt → EnvSt) (s : State) : (envMod i f s).time = s.time := rfl
@[simp] theorem envMod_eth (i : Nat) (f : EnvSt → EnvSt) (s : State) : (envMod i f s).eth = s.eth := rfl
@[simp] theorem envMod_vita (i : Nat) (f : EnvSt → EnvSt) (s : State) : (envMod i f s).vita = s.vita := rfl
@[simp] theorem envMod_tdc (i : Nat) (f : EnvSt → EnvSt) (s : State) : (envMod i f s).tdc = s.tdc := rfl
@[simp] theorem envMod_link (i : Nat) (f : EnvSt → EnvSt) (s : State) : (envMod i f s).link = s.link := rfl
@[simp] theorem envMod_inputs (i : Nat) (f : EnvSt → EnvSt) (s : State) : (envMod i f s).inputs = s.inputs := rfl
@[simp] theorem envMod_cals (i : Nat) (f : EnvSt → EnvSt) (s : State) : (envMod i f s).cals = s.cals := rfl
@[simp] theorem envMod_ddcEng (i : Nat) (f : EnvSt → EnvSt) (s : State) : (envMod i f s).ddcEng = s.ddcEng := rfl
@[simp] theorem envMod_ddc (i : Nat) (f : EnvSt → EnvSt) (s : State) : (envMod i f s).ddc = s.ddc := rfl
@[simp] theorem envMod_chans (i : Nat) (f : EnvSt → EnvSt) (s : State) : (envMod i f s).chans = s.chans := rfl
@[simp] theorem envMod_xforms (i : Nat) (f : EnvSt → EnvSt) (s : State) : (envMod i f s).xforms = s.xforms := rfl
@[simp] theorem envMod_te (i : Nat) (f : EnvSt → EnvSt) (s : State) : (envMod i f s).te = s.te := rfl
@[simp] theorem envMod_packs (i : Nat) (f : EnvSt → EnvSt) (s : State) : (envMod i f s).packs = s.packs := rfl
@[simp] theorem envMod_fab (i : Nat) (f : EnvSt → EnvSt) (s : State) : (envMod i f s).fab = s.fab := rfl
@[simp] theorem envMod_dens (i : Nat) (f : EnvSt → EnvSt) (s : State) : (envMod i f s).dens = s.dens := rfl
@[simp] theorem envMod_disp (i : Nat) (f : EnvSt → EnvSt) (s : State) : (envMod i f s).disp = s.disp := rfl

@[simp] theorem pinSet_pending (p : PinSt) (s : State) : (pinSet p s).pending = s.pending := rfl
@[simp] theorem pinSet_grade (p : PinSt) (s : State) : (pinSet p s).grade = s.grade := rfl
@[simp] theorem pinSet_cyc (p : PinSt) (s : State) : (pinSet p s).cyc = s.cyc := rfl
@[simp] theorem pinSet_mem (p : PinSt) (s : State) : (pinSet p s).mem = s.mem := rfl
@[simp] theorem pinSet_freeNo (p : PinSt) (s : State) : (pinSet p s).freeNo = s.freeNo := rfl
@[simp] theorem pinSet_boot (p : PinSt) (s : State) : (pinSet p s).boot = s.boot := rfl
@[simp] theorem pinSet_power (p : PinSt) (s : State) : (pinSet p s).power = s.power := rfl
@[simp] theorem pinSet_ev (p : PinSt) (s : State) : (pinSet p s).ev = s.ev := rfl
@[simp] theorem pinSet_kennel (p : PinSt) (s : State) : (pinSet p s).kennel = s.kennel := rfl
@[simp] theorem pinSet_junction (p : PinSt) (s : State) : (pinSet p s).junction = s.junction := rfl
@[simp] theorem pinSet_maint (p : PinSt) (s : State) : (pinSet p s).maint = s.maint := rfl
@[simp] theorem pinSet_dacs (p : PinSt) (s : State) : (pinSet p s).dacs = s.dacs := rfl
@[simp] theorem pinSet_hk (p : PinSt) (s : State) : (pinSet p s).hk = s.hk := rfl
@[simp] theorem pinSet_loops (p : PinSt) (s : State) : (pinSet p s).loops = s.loops := rfl
@[simp] theorem pinSet_sec (p : PinSt) (s : State) : (pinSet p s).sec = s.sec := rfl
@[simp] theorem pinSet_box (p : PinSt) (s : State) : (pinSet p s).box = s.box := rfl
@[simp] theorem pinSet_rings (p : PinSt) (s : State) : (pinSet p s).rings = s.rings := rfl
@[simp] theorem pinSet_streams (p : PinSt) (s : State) : (pinSet p s).streams = s.streams := rfl
@[simp] theorem pinSet_banks (p : PinSt) (s : State) : (pinSet p s).banks = s.banks := rfl
@[simp] theorem pinSet_fetch (p : PinSt) (s : State) : (pinSet p s).fetch = s.fetch := rfl
@[simp] theorem pinSet_store (p : PinSt) (s : State) : (pinSet p s).store = s.store := rfl
@[simp] theorem pinSet_synth (p : PinSt) (s : State) : (pinSet p s).synth = s.synth := rfl
@[simp] theorem pinSet_time (p : PinSt) (s : State) : (pinSet p s).time = s.time := rfl
@[simp] theorem pinSet_eth (p : PinSt) (s : State) : (pinSet p s).eth = s.eth := rfl
@[simp] theorem pinSet_vita (p : PinSt) (s : State) : (pinSet p s).vita = s.vita := rfl
@[simp] theorem pinSet_tdc (p : PinSt) (s : State) : (pinSet p s).tdc = s.tdc := rfl
@[simp] theorem pinSet_link (p : PinSt) (s : State) : (pinSet p s).link = s.link := rfl
@[simp] theorem pinSet_inputs (p : PinSt) (s : State) : (pinSet p s).inputs = s.inputs := rfl
@[simp] theorem pinSet_cals (p : PinSt) (s : State) : (pinSet p s).cals = s.cals := rfl
@[simp] theorem pinSet_ddcEng (p : PinSt) (s : State) : (pinSet p s).ddcEng = s.ddcEng := rfl
@[simp] theorem pinSet_ddc (p : PinSt) (s : State) : (pinSet p s).ddc = s.ddc := rfl
@[simp] theorem pinSet_chans (p : PinSt) (s : State) : (pinSet p s).chans = s.chans := rfl
@[simp] theorem pinSet_xforms (p : PinSt) (s : State) : (pinSet p s).xforms = s.xforms := rfl
@[simp] theorem pinSet_te (p : PinSt) (s : State) : (pinSet p s).te = s.te := rfl
@[simp] theorem pinSet_packs (p : PinSt) (s : State) : (pinSet p s).packs = s.packs := rfl
@[simp] theorem pinSet_fab (p : PinSt) (s : State) : (pinSet p s).fab = s.fab := rfl
@[simp] theorem pinSet_dens (p : PinSt) (s : State) : (pinSet p s).dens = s.dens := rfl
@[simp] theorem pinSet_disp (p : PinSt) (s : State) : (pinSet p s).disp = s.disp := rfl

@[simp] theorem fetchMod_pending (i : Nat) (f : FetchCh → FetchCh) (s : State) : (fetchMod i f s).pending = s.pending := rfl
@[simp] theorem fetchMod_grade (i : Nat) (f : FetchCh → FetchCh) (s : State) : (fetchMod i f s).grade = s.grade := rfl
@[simp] theorem fetchMod_cyc (i : Nat) (f : FetchCh → FetchCh) (s : State) : (fetchMod i f s).cyc = s.cyc := rfl
@[simp] theorem fetchMod_mem (i : Nat) (f : FetchCh → FetchCh) (s : State) : (fetchMod i f s).mem = s.mem := rfl
@[simp] theorem fetchMod_freeNo (i : Nat) (f : FetchCh → FetchCh) (s : State) : (fetchMod i f s).freeNo = s.freeNo := rfl
@[simp] theorem fetchMod_boot (i : Nat) (f : FetchCh → FetchCh) (s : State) : (fetchMod i f s).boot = s.boot := rfl
@[simp] theorem fetchMod_power (i : Nat) (f : FetchCh → FetchCh) (s : State) : (fetchMod i f s).power = s.power := rfl
@[simp] theorem fetchMod_ev (i : Nat) (f : FetchCh → FetchCh) (s : State) : (fetchMod i f s).ev = s.ev := rfl
@[simp] theorem fetchMod_kennel (i : Nat) (f : FetchCh → FetchCh) (s : State) : (fetchMod i f s).kennel = s.kennel := rfl
@[simp] theorem fetchMod_junction (i : Nat) (f : FetchCh → FetchCh) (s : State) : (fetchMod i f s).junction = s.junction := rfl
@[simp] theorem fetchMod_maint (i : Nat) (f : FetchCh → FetchCh) (s : State) : (fetchMod i f s).maint = s.maint := rfl
@[simp] theorem fetchMod_dacs (i : Nat) (f : FetchCh → FetchCh) (s : State) : (fetchMod i f s).dacs = s.dacs := rfl
@[simp] theorem fetchMod_hk (i : Nat) (f : FetchCh → FetchCh) (s : State) : (fetchMod i f s).hk = s.hk := rfl
@[simp] theorem fetchMod_loops (i : Nat) (f : FetchCh → FetchCh) (s : State) : (fetchMod i f s).loops = s.loops := rfl
@[simp] theorem fetchMod_sec (i : Nat) (f : FetchCh → FetchCh) (s : State) : (fetchMod i f s).sec = s.sec := rfl
@[simp] theorem fetchMod_box (i : Nat) (f : FetchCh → FetchCh) (s : State) : (fetchMod i f s).box = s.box := rfl
@[simp] theorem fetchMod_rings (i : Nat) (f : FetchCh → FetchCh) (s : State) : (fetchMod i f s).rings = s.rings := rfl
@[simp] theorem fetchMod_streams (i : Nat) (f : FetchCh → FetchCh) (s : State) : (fetchMod i f s).streams = s.streams := rfl
@[simp] theorem fetchMod_banks (i : Nat) (f : FetchCh → FetchCh) (s : State) : (fetchMod i f s).banks = s.banks := rfl
@[simp] theorem fetchMod_store (i : Nat) (f : FetchCh → FetchCh) (s : State) : (fetchMod i f s).store = s.store := rfl
@[simp] theorem fetchMod_synth (i : Nat) (f : FetchCh → FetchCh) (s : State) : (fetchMod i f s).synth = s.synth := rfl
@[simp] theorem fetchMod_time (i : Nat) (f : FetchCh → FetchCh) (s : State) : (fetchMod i f s).time = s.time := rfl
@[simp] theorem fetchMod_eth (i : Nat) (f : FetchCh → FetchCh) (s : State) : (fetchMod i f s).eth = s.eth := rfl
@[simp] theorem fetchMod_vita (i : Nat) (f : FetchCh → FetchCh) (s : State) : (fetchMod i f s).vita = s.vita := rfl
@[simp] theorem fetchMod_tdc (i : Nat) (f : FetchCh → FetchCh) (s : State) : (fetchMod i f s).tdc = s.tdc := rfl
@[simp] theorem fetchMod_link (i : Nat) (f : FetchCh → FetchCh) (s : State) : (fetchMod i f s).link = s.link := rfl
@[simp] theorem fetchMod_inputs (i : Nat) (f : FetchCh → FetchCh) (s : State) : (fetchMod i f s).inputs = s.inputs := rfl
@[simp] theorem fetchMod_cals (i : Nat) (f : FetchCh → FetchCh) (s : State) : (fetchMod i f s).cals = s.cals := rfl
@[simp] theorem fetchMod_ddcEng (i : Nat) (f : FetchCh → FetchCh) (s : State) : (fetchMod i f s).ddcEng = s.ddcEng := rfl
@[simp] theorem fetchMod_ddc (i : Nat) (f : FetchCh → FetchCh) (s : State) : (fetchMod i f s).ddc = s.ddc := rfl
@[simp] theorem fetchMod_chans (i : Nat) (f : FetchCh → FetchCh) (s : State) : (fetchMod i f s).chans = s.chans := rfl
@[simp] theorem fetchMod_xforms (i : Nat) (f : FetchCh → FetchCh) (s : State) : (fetchMod i f s).xforms = s.xforms := rfl
@[simp] theorem fetchMod_te (i : Nat) (f : FetchCh → FetchCh) (s : State) : (fetchMod i f s).te = s.te := rfl
@[simp] theorem fetchMod_packs (i : Nat) (f : FetchCh → FetchCh) (s : State) : (fetchMod i f s).packs = s.packs := rfl
@[simp] theorem fetchMod_fab (i : Nat) (f : FetchCh → FetchCh) (s : State) : (fetchMod i f s).fab = s.fab := rfl
@[simp] theorem fetchMod_events (i : Nat) (f : FetchCh → FetchCh) (s : State) : (fetchMod i f s).events = s.events := rfl
@[simp] theorem fetchMod_dens (i : Nat) (f : FetchCh → FetchCh) (s : State) : (fetchMod i f s).dens = s.dens := rfl
@[simp] theorem fetchMod_disp (i : Nat) (f : FetchCh → FetchCh) (s : State) : (fetchMod i f s).disp = s.disp := rfl

@[simp] theorem hkMod_pending (f : HkSt → HkSt) (s : State) : (hkMod f s).pending = s.pending := rfl
@[simp] theorem hkMod_grade (f : HkSt → HkSt) (s : State) : (hkMod f s).grade = s.grade := rfl
@[simp] theorem hkMod_cyc (f : HkSt → HkSt) (s : State) : (hkMod f s).cyc = s.cyc := rfl
@[simp] theorem hkMod_mem (f : HkSt → HkSt) (s : State) : (hkMod f s).mem = s.mem := rfl
@[simp] theorem hkMod_freeNo (f : HkSt → HkSt) (s : State) : (hkMod f s).freeNo = s.freeNo := rfl
@[simp] theorem hkMod_boot (f : HkSt → HkSt) (s : State) : (hkMod f s).boot = s.boot := rfl
@[simp] theorem hkMod_power (f : HkSt → HkSt) (s : State) : (hkMod f s).power = s.power := rfl
@[simp] theorem hkMod_ev (f : HkSt → HkSt) (s : State) : (hkMod f s).ev = s.ev := rfl
@[simp] theorem hkMod_kennel (f : HkSt → HkSt) (s : State) : (hkMod f s).kennel = s.kennel := rfl
@[simp] theorem hkMod_junction (f : HkSt → HkSt) (s : State) : (hkMod f s).junction = s.junction := rfl
@[simp] theorem hkMod_maint (f : HkSt → HkSt) (s : State) : (hkMod f s).maint = s.maint := rfl
@[simp] theorem hkMod_dacs (f : HkSt → HkSt) (s : State) : (hkMod f s).dacs = s.dacs := rfl
@[simp] theorem hkMod_hk (f : HkSt → HkSt) (s : State) : (hkMod f s).hk = f s.hk := rfl
@[simp] theorem hkMod_loops (f : HkSt → HkSt) (s : State) : (hkMod f s).loops = s.loops := rfl
@[simp] theorem hkMod_sec (f : HkSt → HkSt) (s : State) : (hkMod f s).sec = s.sec := rfl
@[simp] theorem hkMod_box (f : HkSt → HkSt) (s : State) : (hkMod f s).box = s.box := rfl
@[simp] theorem hkMod_rings (f : HkSt → HkSt) (s : State) : (hkMod f s).rings = s.rings := rfl
@[simp] theorem hkMod_streams (f : HkSt → HkSt) (s : State) : (hkMod f s).streams = s.streams := rfl
@[simp] theorem hkMod_banks (f : HkSt → HkSt) (s : State) : (hkMod f s).banks = s.banks := rfl
@[simp] theorem hkMod_fetch (f : HkSt → HkSt) (s : State) : (hkMod f s).fetch = s.fetch := rfl
@[simp] theorem hkMod_store (f : HkSt → HkSt) (s : State) : (hkMod f s).store = s.store := rfl
@[simp] theorem hkMod_synth (f : HkSt → HkSt) (s : State) : (hkMod f s).synth = s.synth := rfl
@[simp] theorem hkMod_time (f : HkSt → HkSt) (s : State) : (hkMod f s).time = s.time := rfl
@[simp] theorem hkMod_eth (f : HkSt → HkSt) (s : State) : (hkMod f s).eth = s.eth := rfl
@[simp] theorem hkMod_vita (f : HkSt → HkSt) (s : State) : (hkMod f s).vita = s.vita := rfl
@[simp] theorem hkMod_tdc (f : HkSt → HkSt) (s : State) : (hkMod f s).tdc = s.tdc := rfl
@[simp] theorem hkMod_link (f : HkSt → HkSt) (s : State) : (hkMod f s).link = s.link := rfl
@[simp] theorem hkMod_inputs (f : HkSt → HkSt) (s : State) : (hkMod f s).inputs = s.inputs := rfl
@[simp] theorem hkMod_cals (f : HkSt → HkSt) (s : State) : (hkMod f s).cals = s.cals := rfl
@[simp] theorem hkMod_ddcEng (f : HkSt → HkSt) (s : State) : (hkMod f s).ddcEng = s.ddcEng := rfl
@[simp] theorem hkMod_ddc (f : HkSt → HkSt) (s : State) : (hkMod f s).ddc = s.ddc := rfl
@[simp] theorem hkMod_chans (f : HkSt → HkSt) (s : State) : (hkMod f s).chans = s.chans := rfl
@[simp] theorem hkMod_xforms (f : HkSt → HkSt) (s : State) : (hkMod f s).xforms = s.xforms := rfl
@[simp] theorem hkMod_te (f : HkSt → HkSt) (s : State) : (hkMod f s).te = s.te := rfl
@[simp] theorem hkMod_packs (f : HkSt → HkSt) (s : State) : (hkMod f s).packs = s.packs := rfl
@[simp] theorem hkMod_fab (f : HkSt → HkSt) (s : State) : (hkMod f s).fab = s.fab := rfl
@[simp] theorem hkMod_events (f : HkSt → HkSt) (s : State) : (hkMod f s).events = s.events := rfl
@[simp] theorem hkMod_dens (f : HkSt → HkSt) (s : State) : (hkMod f s).dens = s.dens := rfl
@[simp] theorem hkMod_disp (f : HkSt → HkSt) (s : State) : (hkMod f s).disp = s.disp := rfl

@[simp] theorem inMod_pending (i : Nat) (f : InSt → InSt) (s : State) : (inMod i f s).pending = s.pending := rfl
@[simp] theorem inMod_grade (i : Nat) (f : InSt → InSt) (s : State) : (inMod i f s).grade = s.grade := rfl
@[simp] theorem inMod_cyc (i : Nat) (f : InSt → InSt) (s : State) : (inMod i f s).cyc = s.cyc := rfl
@[simp] theorem inMod_mem (i : Nat) (f : InSt → InSt) (s : State) : (inMod i f s).mem = s.mem := rfl
@[simp] theorem inMod_freeNo (i : Nat) (f : InSt → InSt) (s : State) : (inMod i f s).freeNo = s.freeNo := rfl
@[simp] theorem inMod_boot (i : Nat) (f : InSt → InSt) (s : State) : (inMod i f s).boot = s.boot := rfl
@[simp] theorem inMod_power (i : Nat) (f : InSt → InSt) (s : State) : (inMod i f s).power = s.power := rfl
@[simp] theorem inMod_ev (i : Nat) (f : InSt → InSt) (s : State) : (inMod i f s).ev = s.ev := rfl
@[simp] theorem inMod_kennel (i : Nat) (f : InSt → InSt) (s : State) : (inMod i f s).kennel = s.kennel := rfl
@[simp] theorem inMod_junction (i : Nat) (f : InSt → InSt) (s : State) : (inMod i f s).junction = s.junction := rfl
@[simp] theorem inMod_maint (i : Nat) (f : InSt → InSt) (s : State) : (inMod i f s).maint = s.maint := rfl
@[simp] theorem inMod_dacs (i : Nat) (f : InSt → InSt) (s : State) : (inMod i f s).dacs = s.dacs := rfl
@[simp] theorem inMod_hk (i : Nat) (f : InSt → InSt) (s : State) : (inMod i f s).hk = s.hk := rfl
@[simp] theorem inMod_loops (i : Nat) (f : InSt → InSt) (s : State) : (inMod i f s).loops = s.loops := rfl
@[simp] theorem inMod_sec (i : Nat) (f : InSt → InSt) (s : State) : (inMod i f s).sec = s.sec := rfl
@[simp] theorem inMod_box (i : Nat) (f : InSt → InSt) (s : State) : (inMod i f s).box = s.box := rfl
@[simp] theorem inMod_rings (i : Nat) (f : InSt → InSt) (s : State) : (inMod i f s).rings = s.rings := rfl
@[simp] theorem inMod_streams (i : Nat) (f : InSt → InSt) (s : State) : (inMod i f s).streams = s.streams := rfl
@[simp] theorem inMod_banks (i : Nat) (f : InSt → InSt) (s : State) : (inMod i f s).banks = s.banks := rfl
@[simp] theorem inMod_fetch (i : Nat) (f : InSt → InSt) (s : State) : (inMod i f s).fetch = s.fetch := rfl
@[simp] theorem inMod_store (i : Nat) (f : InSt → InSt) (s : State) : (inMod i f s).store = s.store := rfl
@[simp] theorem inMod_synth (i : Nat) (f : InSt → InSt) (s : State) : (inMod i f s).synth = s.synth := rfl
@[simp] theorem inMod_time (i : Nat) (f : InSt → InSt) (s : State) : (inMod i f s).time = s.time := rfl
@[simp] theorem inMod_eth (i : Nat) (f : InSt → InSt) (s : State) : (inMod i f s).eth = s.eth := rfl
@[simp] theorem inMod_vita (i : Nat) (f : InSt → InSt) (s : State) : (inMod i f s).vita = s.vita := rfl
@[simp] theorem inMod_tdc (i : Nat) (f : InSt → InSt) (s : State) : (inMod i f s).tdc = s.tdc := rfl
@[simp] theorem inMod_link (i : Nat) (f : InSt → InSt) (s : State) : (inMod i f s).link = s.link := rfl
@[simp] theorem inMod_inputs (i : Nat) (f : InSt → InSt) (s : State) : (inMod i f s).inputs = vmod s.inputs i f := rfl
@[simp] theorem inMod_cals (i : Nat) (f : InSt → InSt) (s : State) : (inMod i f s).cals = s.cals := rfl
@[simp] theorem inMod_ddcEng (i : Nat) (f : InSt → InSt) (s : State) : (inMod i f s).ddcEng = s.ddcEng := rfl
@[simp] theorem inMod_ddc (i : Nat) (f : InSt → InSt) (s : State) : (inMod i f s).ddc = s.ddc := rfl
@[simp] theorem inMod_chans (i : Nat) (f : InSt → InSt) (s : State) : (inMod i f s).chans = s.chans := rfl
@[simp] theorem inMod_xforms (i : Nat) (f : InSt → InSt) (s : State) : (inMod i f s).xforms = s.xforms := rfl
@[simp] theorem inMod_te (i : Nat) (f : InSt → InSt) (s : State) : (inMod i f s).te = s.te := rfl
@[simp] theorem inMod_packs (i : Nat) (f : InSt → InSt) (s : State) : (inMod i f s).packs = s.packs := rfl
@[simp] theorem inMod_fab (i : Nat) (f : InSt → InSt) (s : State) : (inMod i f s).fab = s.fab := rfl
@[simp] theorem inMod_events (i : Nat) (f : InSt → InSt) (s : State) : (inMod i f s).events = s.events := rfl
@[simp] theorem inMod_dens (i : Nat) (f : InSt → InSt) (s : State) : (inMod i f s).dens = s.dens := rfl
@[simp] theorem inMod_disp (i : Nat) (f : InSt → InSt) (s : State) : (inMod i f s).disp = s.disp := rfl

@[simp] theorem calMod_pending (i : Nat) (f : CalSt → CalSt) (s : State) : (calMod i f s).pending = s.pending := rfl
@[simp] theorem calMod_grade (i : Nat) (f : CalSt → CalSt) (s : State) : (calMod i f s).grade = s.grade := rfl
@[simp] theorem calMod_cyc (i : Nat) (f : CalSt → CalSt) (s : State) : (calMod i f s).cyc = s.cyc := rfl
@[simp] theorem calMod_mem (i : Nat) (f : CalSt → CalSt) (s : State) : (calMod i f s).mem = s.mem := rfl
@[simp] theorem calMod_freeNo (i : Nat) (f : CalSt → CalSt) (s : State) : (calMod i f s).freeNo = s.freeNo := rfl
@[simp] theorem calMod_boot (i : Nat) (f : CalSt → CalSt) (s : State) : (calMod i f s).boot = s.boot := rfl
@[simp] theorem calMod_power (i : Nat) (f : CalSt → CalSt) (s : State) : (calMod i f s).power = s.power := rfl
@[simp] theorem calMod_ev (i : Nat) (f : CalSt → CalSt) (s : State) : (calMod i f s).ev = s.ev := rfl
@[simp] theorem calMod_kennel (i : Nat) (f : CalSt → CalSt) (s : State) : (calMod i f s).kennel = s.kennel := rfl
@[simp] theorem calMod_junction (i : Nat) (f : CalSt → CalSt) (s : State) : (calMod i f s).junction = s.junction := rfl
@[simp] theorem calMod_maint (i : Nat) (f : CalSt → CalSt) (s : State) : (calMod i f s).maint = s.maint := rfl
@[simp] theorem calMod_dacs (i : Nat) (f : CalSt → CalSt) (s : State) : (calMod i f s).dacs = s.dacs := rfl
@[simp] theorem calMod_hk (i : Nat) (f : CalSt → CalSt) (s : State) : (calMod i f s).hk = s.hk := rfl
@[simp] theorem calMod_loops (i : Nat) (f : CalSt → CalSt) (s : State) : (calMod i f s).loops = s.loops := rfl
@[simp] theorem calMod_sec (i : Nat) (f : CalSt → CalSt) (s : State) : (calMod i f s).sec = s.sec := rfl
@[simp] theorem calMod_box (i : Nat) (f : CalSt → CalSt) (s : State) : (calMod i f s).box = s.box := rfl
@[simp] theorem calMod_rings (i : Nat) (f : CalSt → CalSt) (s : State) : (calMod i f s).rings = s.rings := rfl
@[simp] theorem calMod_streams (i : Nat) (f : CalSt → CalSt) (s : State) : (calMod i f s).streams = s.streams := rfl
@[simp] theorem calMod_banks (i : Nat) (f : CalSt → CalSt) (s : State) : (calMod i f s).banks = s.banks := rfl
@[simp] theorem calMod_fetch (i : Nat) (f : CalSt → CalSt) (s : State) : (calMod i f s).fetch = s.fetch := rfl
@[simp] theorem calMod_store (i : Nat) (f : CalSt → CalSt) (s : State) : (calMod i f s).store = s.store := rfl
@[simp] theorem calMod_synth (i : Nat) (f : CalSt → CalSt) (s : State) : (calMod i f s).synth = s.synth := rfl
@[simp] theorem calMod_time (i : Nat) (f : CalSt → CalSt) (s : State) : (calMod i f s).time = s.time := rfl
@[simp] theorem calMod_eth (i : Nat) (f : CalSt → CalSt) (s : State) : (calMod i f s).eth = s.eth := rfl
@[simp] theorem calMod_vita (i : Nat) (f : CalSt → CalSt) (s : State) : (calMod i f s).vita = s.vita := rfl
@[simp] theorem calMod_tdc (i : Nat) (f : CalSt → CalSt) (s : State) : (calMod i f s).tdc = s.tdc := rfl
@[simp] theorem calMod_link (i : Nat) (f : CalSt → CalSt) (s : State) : (calMod i f s).link = s.link := rfl
@[simp] theorem calMod_inputs (i : Nat) (f : CalSt → CalSt) (s : State) : (calMod i f s).inputs = s.inputs := rfl
@[simp] theorem calMod_cals (i : Nat) (f : CalSt → CalSt) (s : State) : (calMod i f s).cals = vmod s.cals i f := rfl
@[simp] theorem calMod_ddcEng (i : Nat) (f : CalSt → CalSt) (s : State) : (calMod i f s).ddcEng = s.ddcEng := rfl
@[simp] theorem calMod_ddc (i : Nat) (f : CalSt → CalSt) (s : State) : (calMod i f s).ddc = s.ddc := rfl
@[simp] theorem calMod_chans (i : Nat) (f : CalSt → CalSt) (s : State) : (calMod i f s).chans = s.chans := rfl
@[simp] theorem calMod_xforms (i : Nat) (f : CalSt → CalSt) (s : State) : (calMod i f s).xforms = s.xforms := rfl
@[simp] theorem calMod_te (i : Nat) (f : CalSt → CalSt) (s : State) : (calMod i f s).te = s.te := rfl
@[simp] theorem calMod_packs (i : Nat) (f : CalSt → CalSt) (s : State) : (calMod i f s).packs = s.packs := rfl
@[simp] theorem calMod_fab (i : Nat) (f : CalSt → CalSt) (s : State) : (calMod i f s).fab = s.fab := rfl
@[simp] theorem calMod_events (i : Nat) (f : CalSt → CalSt) (s : State) : (calMod i f s).events = s.events := rfl
@[simp] theorem calMod_dens (i : Nat) (f : CalSt → CalSt) (s : State) : (calMod i f s).dens = s.dens := rfl
@[simp] theorem calMod_disp (i : Nat) (f : CalSt → CalSt) (s : State) : (calMod i f s).disp = s.disp := rfl

@[simp] theorem skidMod_pending (i : Nat) (f : SkidSt → SkidSt) (s : State) : (skidMod i f s).pending = s.pending := rfl
@[simp] theorem skidMod_grade (i : Nat) (f : SkidSt → SkidSt) (s : State) : (skidMod i f s).grade = s.grade := rfl
@[simp] theorem skidMod_cyc (i : Nat) (f : SkidSt → SkidSt) (s : State) : (skidMod i f s).cyc = s.cyc := rfl
@[simp] theorem skidMod_mem (i : Nat) (f : SkidSt → SkidSt) (s : State) : (skidMod i f s).mem = s.mem := rfl
@[simp] theorem skidMod_freeNo (i : Nat) (f : SkidSt → SkidSt) (s : State) : (skidMod i f s).freeNo = s.freeNo := rfl
@[simp] theorem skidMod_boot (i : Nat) (f : SkidSt → SkidSt) (s : State) : (skidMod i f s).boot = s.boot := rfl
@[simp] theorem skidMod_power (i : Nat) (f : SkidSt → SkidSt) (s : State) : (skidMod i f s).power = s.power := rfl
@[simp] theorem skidMod_ev (i : Nat) (f : SkidSt → SkidSt) (s : State) : (skidMod i f s).ev = s.ev := rfl
@[simp] theorem skidMod_kennel (i : Nat) (f : SkidSt → SkidSt) (s : State) : (skidMod i f s).kennel = s.kennel := rfl
@[simp] theorem skidMod_junction (i : Nat) (f : SkidSt → SkidSt) (s : State) : (skidMod i f s).junction = s.junction := rfl
@[simp] theorem skidMod_maint (i : Nat) (f : SkidSt → SkidSt) (s : State) : (skidMod i f s).maint = s.maint := rfl
@[simp] theorem skidMod_dacs (i : Nat) (f : SkidSt → SkidSt) (s : State) : (skidMod i f s).dacs = s.dacs := rfl
@[simp] theorem skidMod_hk (i : Nat) (f : SkidSt → SkidSt) (s : State) : (skidMod i f s).hk = s.hk := rfl
@[simp] theorem skidMod_loops (i : Nat) (f : SkidSt → SkidSt) (s : State) : (skidMod i f s).loops = s.loops := rfl
@[simp] theorem skidMod_sec (i : Nat) (f : SkidSt → SkidSt) (s : State) : (skidMod i f s).sec = s.sec := rfl
@[simp] theorem skidMod_box (i : Nat) (f : SkidSt → SkidSt) (s : State) : (skidMod i f s).box = s.box := rfl
@[simp] theorem skidMod_rings (i : Nat) (f : SkidSt → SkidSt) (s : State) : (skidMod i f s).rings = s.rings := rfl
@[simp] theorem skidMod_streams (i : Nat) (f : SkidSt → SkidSt) (s : State) : (skidMod i f s).streams = s.streams := rfl
@[simp] theorem skidMod_banks (i : Nat) (f : SkidSt → SkidSt) (s : State) : (skidMod i f s).banks = s.banks := rfl
@[simp] theorem skidMod_fetch (i : Nat) (f : SkidSt → SkidSt) (s : State) : (skidMod i f s).fetch = s.fetch := rfl
@[simp] theorem skidMod_synth (i : Nat) (f : SkidSt → SkidSt) (s : State) : (skidMod i f s).synth = s.synth := rfl
@[simp] theorem skidMod_time (i : Nat) (f : SkidSt → SkidSt) (s : State) : (skidMod i f s).time = s.time := rfl
@[simp] theorem skidMod_eth (i : Nat) (f : SkidSt → SkidSt) (s : State) : (skidMod i f s).eth = s.eth := rfl
@[simp] theorem skidMod_vita (i : Nat) (f : SkidSt → SkidSt) (s : State) : (skidMod i f s).vita = s.vita := rfl
@[simp] theorem skidMod_tdc (i : Nat) (f : SkidSt → SkidSt) (s : State) : (skidMod i f s).tdc = s.tdc := rfl
@[simp] theorem skidMod_link (i : Nat) (f : SkidSt → SkidSt) (s : State) : (skidMod i f s).link = s.link := rfl
@[simp] theorem skidMod_inputs (i : Nat) (f : SkidSt → SkidSt) (s : State) : (skidMod i f s).inputs = s.inputs := rfl
@[simp] theorem skidMod_cals (i : Nat) (f : SkidSt → SkidSt) (s : State) : (skidMod i f s).cals = s.cals := rfl
@[simp] theorem skidMod_ddcEng (i : Nat) (f : SkidSt → SkidSt) (s : State) : (skidMod i f s).ddcEng = s.ddcEng := rfl
@[simp] theorem skidMod_ddc (i : Nat) (f : SkidSt → SkidSt) (s : State) : (skidMod i f s).ddc = s.ddc := rfl
@[simp] theorem skidMod_chans (i : Nat) (f : SkidSt → SkidSt) (s : State) : (skidMod i f s).chans = s.chans := rfl
@[simp] theorem skidMod_xforms (i : Nat) (f : SkidSt → SkidSt) (s : State) : (skidMod i f s).xforms = s.xforms := rfl
@[simp] theorem skidMod_te (i : Nat) (f : SkidSt → SkidSt) (s : State) : (skidMod i f s).te = s.te := rfl
@[simp] theorem skidMod_packs (i : Nat) (f : SkidSt → SkidSt) (s : State) : (skidMod i f s).packs = s.packs := rfl
@[simp] theorem skidMod_fab (i : Nat) (f : SkidSt → SkidSt) (s : State) : (skidMod i f s).fab = s.fab := rfl
@[simp] theorem skidMod_events (i : Nat) (f : SkidSt → SkidSt) (s : State) : (skidMod i f s).events = s.events := rfl
@[simp] theorem skidMod_dens (i : Nat) (f : SkidSt → SkidSt) (s : State) : (skidMod i f s).dens = s.dens := rfl
@[simp] theorem skidMod_disp (i : Nat) (f : SkidSt → SkidSt) (s : State) : (skidMod i f s).disp = s.disp := rfl

@[simp] theorem bondMod_pending (i : Nat) (f : BondSt → BondSt) (s : State) : (bondMod i f s).pending = s.pending := rfl
@[simp] theorem bondMod_grade (i : Nat) (f : BondSt → BondSt) (s : State) : (bondMod i f s).grade = s.grade := rfl
@[simp] theorem bondMod_cyc (i : Nat) (f : BondSt → BondSt) (s : State) : (bondMod i f s).cyc = s.cyc := rfl
@[simp] theorem bondMod_mem (i : Nat) (f : BondSt → BondSt) (s : State) : (bondMod i f s).mem = s.mem := rfl
@[simp] theorem bondMod_freeNo (i : Nat) (f : BondSt → BondSt) (s : State) : (bondMod i f s).freeNo = s.freeNo := rfl
@[simp] theorem bondMod_boot (i : Nat) (f : BondSt → BondSt) (s : State) : (bondMod i f s).boot = s.boot := rfl
@[simp] theorem bondMod_power (i : Nat) (f : BondSt → BondSt) (s : State) : (bondMod i f s).power = s.power := rfl
@[simp] theorem bondMod_ev (i : Nat) (f : BondSt → BondSt) (s : State) : (bondMod i f s).ev = s.ev := rfl
@[simp] theorem bondMod_kennel (i : Nat) (f : BondSt → BondSt) (s : State) : (bondMod i f s).kennel = s.kennel := rfl
@[simp] theorem bondMod_junction (i : Nat) (f : BondSt → BondSt) (s : State) : (bondMod i f s).junction = s.junction := rfl
@[simp] theorem bondMod_maint (i : Nat) (f : BondSt → BondSt) (s : State) : (bondMod i f s).maint = s.maint := rfl
@[simp] theorem bondMod_dacs (i : Nat) (f : BondSt → BondSt) (s : State) : (bondMod i f s).dacs = s.dacs := rfl
@[simp] theorem bondMod_hk (i : Nat) (f : BondSt → BondSt) (s : State) : (bondMod i f s).hk = s.hk := rfl
@[simp] theorem bondMod_loops (i : Nat) (f : BondSt → BondSt) (s : State) : (bondMod i f s).loops = s.loops := rfl
@[simp] theorem bondMod_sec (i : Nat) (f : BondSt → BondSt) (s : State) : (bondMod i f s).sec = s.sec := rfl
@[simp] theorem bondMod_box (i : Nat) (f : BondSt → BondSt) (s : State) : (bondMod i f s).box = s.box := rfl
@[simp] theorem bondMod_rings (i : Nat) (f : BondSt → BondSt) (s : State) : (bondMod i f s).rings = s.rings := rfl
@[simp] theorem bondMod_streams (i : Nat) (f : BondSt → BondSt) (s : State) : (bondMod i f s).streams = s.streams := rfl
@[simp] theorem bondMod_banks (i : Nat) (f : BondSt → BondSt) (s : State) : (bondMod i f s).banks = s.banks := rfl
@[simp] theorem bondMod_fetch (i : Nat) (f : BondSt → BondSt) (s : State) : (bondMod i f s).fetch = s.fetch := rfl
@[simp] theorem bondMod_store (i : Nat) (f : BondSt → BondSt) (s : State) : (bondMod i f s).store = s.store := rfl
@[simp] theorem bondMod_synth (i : Nat) (f : BondSt → BondSt) (s : State) : (bondMod i f s).synth = s.synth := rfl
@[simp] theorem bondMod_time (i : Nat) (f : BondSt → BondSt) (s : State) : (bondMod i f s).time = s.time := rfl
@[simp] theorem bondMod_eth (i : Nat) (f : BondSt → BondSt) (s : State) : (bondMod i f s).eth = s.eth := rfl
@[simp] theorem bondMod_vita (i : Nat) (f : BondSt → BondSt) (s : State) : (bondMod i f s).vita = s.vita := rfl
@[simp] theorem bondMod_tdc (i : Nat) (f : BondSt → BondSt) (s : State) : (bondMod i f s).tdc = s.tdc := rfl
@[simp] theorem bondMod_inputs (i : Nat) (f : BondSt → BondSt) (s : State) : (bondMod i f s).inputs = s.inputs := rfl
@[simp] theorem bondMod_cals (i : Nat) (f : BondSt → BondSt) (s : State) : (bondMod i f s).cals = s.cals := rfl
@[simp] theorem bondMod_ddcEng (i : Nat) (f : BondSt → BondSt) (s : State) : (bondMod i f s).ddcEng = s.ddcEng := rfl
@[simp] theorem bondMod_ddc (i : Nat) (f : BondSt → BondSt) (s : State) : (bondMod i f s).ddc = s.ddc := rfl
@[simp] theorem bondMod_chans (i : Nat) (f : BondSt → BondSt) (s : State) : (bondMod i f s).chans = s.chans := rfl
@[simp] theorem bondMod_xforms (i : Nat) (f : BondSt → BondSt) (s : State) : (bondMod i f s).xforms = s.xforms := rfl
@[simp] theorem bondMod_te (i : Nat) (f : BondSt → BondSt) (s : State) : (bondMod i f s).te = s.te := rfl
@[simp] theorem bondMod_packs (i : Nat) (f : BondSt → BondSt) (s : State) : (bondMod i f s).packs = s.packs := rfl
@[simp] theorem bondMod_fab (i : Nat) (f : BondSt → BondSt) (s : State) : (bondMod i f s).fab = s.fab := rfl
@[simp] theorem bondMod_events (i : Nat) (f : BondSt → BondSt) (s : State) : (bondMod i f s).events = s.events := rfl
@[simp] theorem bondMod_dens (i : Nat) (f : BondSt → BondSt) (s : State) : (bondMod i f s).dens = s.dens := rfl
@[simp] theorem bondMod_disp (i : Nat) (f : BondSt → BondSt) (s : State) : (bondMod i f s).disp = s.disp := rfl

@[simp] theorem laneMod_pending (i : Nat) (f : LaneSt → LaneSt) (s : State) : (laneMod i f s).pending = s.pending := rfl
@[simp] theorem laneMod_grade (i : Nat) (f : LaneSt → LaneSt) (s : State) : (laneMod i f s).grade = s.grade := rfl
@[simp] theorem laneMod_cyc (i : Nat) (f : LaneSt → LaneSt) (s : State) : (laneMod i f s).cyc = s.cyc := rfl
@[simp] theorem laneMod_mem (i : Nat) (f : LaneSt → LaneSt) (s : State) : (laneMod i f s).mem = s.mem := rfl
@[simp] theorem laneMod_freeNo (i : Nat) (f : LaneSt → LaneSt) (s : State) : (laneMod i f s).freeNo = s.freeNo := rfl
@[simp] theorem laneMod_boot (i : Nat) (f : LaneSt → LaneSt) (s : State) : (laneMod i f s).boot = s.boot := rfl
@[simp] theorem laneMod_power (i : Nat) (f : LaneSt → LaneSt) (s : State) : (laneMod i f s).power = s.power := rfl
@[simp] theorem laneMod_ev (i : Nat) (f : LaneSt → LaneSt) (s : State) : (laneMod i f s).ev = s.ev := rfl
@[simp] theorem laneMod_kennel (i : Nat) (f : LaneSt → LaneSt) (s : State) : (laneMod i f s).kennel = s.kennel := rfl
@[simp] theorem laneMod_junction (i : Nat) (f : LaneSt → LaneSt) (s : State) : (laneMod i f s).junction = s.junction := rfl
@[simp] theorem laneMod_maint (i : Nat) (f : LaneSt → LaneSt) (s : State) : (laneMod i f s).maint = s.maint := rfl
@[simp] theorem laneMod_dacs (i : Nat) (f : LaneSt → LaneSt) (s : State) : (laneMod i f s).dacs = s.dacs := rfl
@[simp] theorem laneMod_hk (i : Nat) (f : LaneSt → LaneSt) (s : State) : (laneMod i f s).hk = s.hk := rfl
@[simp] theorem laneMod_loops (i : Nat) (f : LaneSt → LaneSt) (s : State) : (laneMod i f s).loops = s.loops := rfl
@[simp] theorem laneMod_sec (i : Nat) (f : LaneSt → LaneSt) (s : State) : (laneMod i f s).sec = s.sec := rfl
@[simp] theorem laneMod_box (i : Nat) (f : LaneSt → LaneSt) (s : State) : (laneMod i f s).box = s.box := rfl
@[simp] theorem laneMod_rings (i : Nat) (f : LaneSt → LaneSt) (s : State) : (laneMod i f s).rings = s.rings := rfl
@[simp] theorem laneMod_streams (i : Nat) (f : LaneSt → LaneSt) (s : State) : (laneMod i f s).streams = s.streams := rfl
@[simp] theorem laneMod_banks (i : Nat) (f : LaneSt → LaneSt) (s : State) : (laneMod i f s).banks = s.banks := rfl
@[simp] theorem laneMod_fetch (i : Nat) (f : LaneSt → LaneSt) (s : State) : (laneMod i f s).fetch = s.fetch := rfl
@[simp] theorem laneMod_store (i : Nat) (f : LaneSt → LaneSt) (s : State) : (laneMod i f s).store = s.store := rfl
@[simp] theorem laneMod_synth (i : Nat) (f : LaneSt → LaneSt) (s : State) : (laneMod i f s).synth = s.synth := rfl
@[simp] theorem laneMod_time (i : Nat) (f : LaneSt → LaneSt) (s : State) : (laneMod i f s).time = s.time := rfl
@[simp] theorem laneMod_eth (i : Nat) (f : LaneSt → LaneSt) (s : State) : (laneMod i f s).eth = s.eth := rfl
@[simp] theorem laneMod_vita (i : Nat) (f : LaneSt → LaneSt) (s : State) : (laneMod i f s).vita = s.vita := rfl
@[simp] theorem laneMod_tdc (i : Nat) (f : LaneSt → LaneSt) (s : State) : (laneMod i f s).tdc = s.tdc := rfl
@[simp] theorem laneMod_inputs (i : Nat) (f : LaneSt → LaneSt) (s : State) : (laneMod i f s).inputs = s.inputs := rfl
@[simp] theorem laneMod_cals (i : Nat) (f : LaneSt → LaneSt) (s : State) : (laneMod i f s).cals = s.cals := rfl
@[simp] theorem laneMod_ddcEng (i : Nat) (f : LaneSt → LaneSt) (s : State) : (laneMod i f s).ddcEng = s.ddcEng := rfl
@[simp] theorem laneMod_ddc (i : Nat) (f : LaneSt → LaneSt) (s : State) : (laneMod i f s).ddc = s.ddc := rfl
@[simp] theorem laneMod_chans (i : Nat) (f : LaneSt → LaneSt) (s : State) : (laneMod i f s).chans = s.chans := rfl
@[simp] theorem laneMod_xforms (i : Nat) (f : LaneSt → LaneSt) (s : State) : (laneMod i f s).xforms = s.xforms := rfl
@[simp] theorem laneMod_te (i : Nat) (f : LaneSt → LaneSt) (s : State) : (laneMod i f s).te = s.te := rfl
@[simp] theorem laneMod_packs (i : Nat) (f : LaneSt → LaneSt) (s : State) : (laneMod i f s).packs = s.packs := rfl
@[simp] theorem laneMod_fab (i : Nat) (f : LaneSt → LaneSt) (s : State) : (laneMod i f s).fab = s.fab := rfl
@[simp] theorem laneMod_events (i : Nat) (f : LaneSt → LaneSt) (s : State) : (laneMod i f s).events = s.events := rfl
@[simp] theorem laneMod_dens (i : Nat) (f : LaneSt → LaneSt) (s : State) : (laneMod i f s).dens = s.dens := rfl
@[simp] theorem laneMod_disp (i : Nat) (f : LaneSt → LaneSt) (s : State) : (laneMod i f s).disp = s.disp := rfl

@[simp] theorem mbxMod_pending (i : Nat) (f : MailboxSt → MailboxSt) (s : State) : (mbxMod i f s).pending = s.pending := rfl
@[simp] theorem mbxMod_grade (i : Nat) (f : MailboxSt → MailboxSt) (s : State) : (mbxMod i f s).grade = s.grade := rfl
@[simp] theorem mbxMod_cyc (i : Nat) (f : MailboxSt → MailboxSt) (s : State) : (mbxMod i f s).cyc = s.cyc := rfl
@[simp] theorem mbxMod_mem (i : Nat) (f : MailboxSt → MailboxSt) (s : State) : (mbxMod i f s).mem = s.mem := rfl
@[simp] theorem mbxMod_freeNo (i : Nat) (f : MailboxSt → MailboxSt) (s : State) : (mbxMod i f s).freeNo = s.freeNo := rfl
@[simp] theorem mbxMod_boot (i : Nat) (f : MailboxSt → MailboxSt) (s : State) : (mbxMod i f s).boot = s.boot := rfl
@[simp] theorem mbxMod_power (i : Nat) (f : MailboxSt → MailboxSt) (s : State) : (mbxMod i f s).power = s.power := rfl
@[simp] theorem mbxMod_ev (i : Nat) (f : MailboxSt → MailboxSt) (s : State) : (mbxMod i f s).ev = s.ev := rfl
@[simp] theorem mbxMod_junction (i : Nat) (f : MailboxSt → MailboxSt) (s : State) : (mbxMod i f s).junction = s.junction := rfl
@[simp] theorem mbxMod_maint (i : Nat) (f : MailboxSt → MailboxSt) (s : State) : (mbxMod i f s).maint = s.maint := rfl
@[simp] theorem mbxMod_dacs (i : Nat) (f : MailboxSt → MailboxSt) (s : State) : (mbxMod i f s).dacs = s.dacs := rfl
@[simp] theorem mbxMod_hk (i : Nat) (f : MailboxSt → MailboxSt) (s : State) : (mbxMod i f s).hk = s.hk := rfl
@[simp] theorem mbxMod_loops (i : Nat) (f : MailboxSt → MailboxSt) (s : State) : (mbxMod i f s).loops = s.loops := rfl
@[simp] theorem mbxMod_sec (i : Nat) (f : MailboxSt → MailboxSt) (s : State) : (mbxMod i f s).sec = s.sec := rfl
@[simp] theorem mbxMod_box (i : Nat) (f : MailboxSt → MailboxSt) (s : State) : (mbxMod i f s).box = s.box := rfl
@[simp] theorem mbxMod_rings (i : Nat) (f : MailboxSt → MailboxSt) (s : State) : (mbxMod i f s).rings = s.rings := rfl
@[simp] theorem mbxMod_streams (i : Nat) (f : MailboxSt → MailboxSt) (s : State) : (mbxMod i f s).streams = s.streams := rfl
@[simp] theorem mbxMod_banks (i : Nat) (f : MailboxSt → MailboxSt) (s : State) : (mbxMod i f s).banks = s.banks := rfl
@[simp] theorem mbxMod_fetch (i : Nat) (f : MailboxSt → MailboxSt) (s : State) : (mbxMod i f s).fetch = s.fetch := rfl
@[simp] theorem mbxMod_store (i : Nat) (f : MailboxSt → MailboxSt) (s : State) : (mbxMod i f s).store = s.store := rfl
@[simp] theorem mbxMod_synth (i : Nat) (f : MailboxSt → MailboxSt) (s : State) : (mbxMod i f s).synth = s.synth := rfl
@[simp] theorem mbxMod_time (i : Nat) (f : MailboxSt → MailboxSt) (s : State) : (mbxMod i f s).time = s.time := rfl
@[simp] theorem mbxMod_eth (i : Nat) (f : MailboxSt → MailboxSt) (s : State) : (mbxMod i f s).eth = s.eth := rfl
@[simp] theorem mbxMod_vita (i : Nat) (f : MailboxSt → MailboxSt) (s : State) : (mbxMod i f s).vita = s.vita := rfl
@[simp] theorem mbxMod_tdc (i : Nat) (f : MailboxSt → MailboxSt) (s : State) : (mbxMod i f s).tdc = s.tdc := rfl
@[simp] theorem mbxMod_link (i : Nat) (f : MailboxSt → MailboxSt) (s : State) : (mbxMod i f s).link = s.link := rfl
@[simp] theorem mbxMod_inputs (i : Nat) (f : MailboxSt → MailboxSt) (s : State) : (mbxMod i f s).inputs = s.inputs := rfl
@[simp] theorem mbxMod_cals (i : Nat) (f : MailboxSt → MailboxSt) (s : State) : (mbxMod i f s).cals = s.cals := rfl
@[simp] theorem mbxMod_ddcEng (i : Nat) (f : MailboxSt → MailboxSt) (s : State) : (mbxMod i f s).ddcEng = s.ddcEng := rfl
@[simp] theorem mbxMod_ddc (i : Nat) (f : MailboxSt → MailboxSt) (s : State) : (mbxMod i f s).ddc = s.ddc := rfl
@[simp] theorem mbxMod_chans (i : Nat) (f : MailboxSt → MailboxSt) (s : State) : (mbxMod i f s).chans = s.chans := rfl
@[simp] theorem mbxMod_xforms (i : Nat) (f : MailboxSt → MailboxSt) (s : State) : (mbxMod i f s).xforms = s.xforms := rfl
@[simp] theorem mbxMod_te (i : Nat) (f : MailboxSt → MailboxSt) (s : State) : (mbxMod i f s).te = s.te := rfl
@[simp] theorem mbxMod_packs (i : Nat) (f : MailboxSt → MailboxSt) (s : State) : (mbxMod i f s).packs = s.packs := rfl
@[simp] theorem mbxMod_fab (i : Nat) (f : MailboxSt → MailboxSt) (s : State) : (mbxMod i f s).fab = s.fab := rfl
@[simp] theorem mbxMod_events (i : Nat) (f : MailboxSt → MailboxSt) (s : State) : (mbxMod i f s).events = s.events := rfl
@[simp] theorem mbxMod_dens (i : Nat) (f : MailboxSt → MailboxSt) (s : State) : (mbxMod i f s).dens = s.dens := rfl
@[simp] theorem mbxMod_disp (i : Nat) (f : MailboxSt → MailboxSt) (s : State) : (mbxMod i f s).disp = s.disp := rfl

@[simp] theorem kennelMod_pending (f : KennelSt → KennelSt) (s : State) : (kennelMod f s).pending = s.pending := rfl
@[simp] theorem kennelMod_grade (f : KennelSt → KennelSt) (s : State) : (kennelMod f s).grade = s.grade := rfl
@[simp] theorem kennelMod_cyc (f : KennelSt → KennelSt) (s : State) : (kennelMod f s).cyc = s.cyc := rfl
@[simp] theorem kennelMod_mem (f : KennelSt → KennelSt) (s : State) : (kennelMod f s).mem = s.mem := rfl
@[simp] theorem kennelMod_freeNo (f : KennelSt → KennelSt) (s : State) : (kennelMod f s).freeNo = s.freeNo := rfl
@[simp] theorem kennelMod_boot (f : KennelSt → KennelSt) (s : State) : (kennelMod f s).boot = s.boot := rfl
@[simp] theorem kennelMod_power (f : KennelSt → KennelSt) (s : State) : (kennelMod f s).power = s.power := rfl
@[simp] theorem kennelMod_ev (f : KennelSt → KennelSt) (s : State) : (kennelMod f s).ev = s.ev := rfl
@[simp] theorem kennelMod_kennel (f : KennelSt → KennelSt) (s : State) : (kennelMod f s).kennel = f s.kennel := rfl
@[simp] theorem kennelMod_junction (f : KennelSt → KennelSt) (s : State) : (kennelMod f s).junction = s.junction := rfl
@[simp] theorem kennelMod_maint (f : KennelSt → KennelSt) (s : State) : (kennelMod f s).maint = s.maint := rfl
@[simp] theorem kennelMod_dacs (f : KennelSt → KennelSt) (s : State) : (kennelMod f s).dacs = s.dacs := rfl
@[simp] theorem kennelMod_hk (f : KennelSt → KennelSt) (s : State) : (kennelMod f s).hk = s.hk := rfl
@[simp] theorem kennelMod_loops (f : KennelSt → KennelSt) (s : State) : (kennelMod f s).loops = s.loops := rfl
@[simp] theorem kennelMod_sec (f : KennelSt → KennelSt) (s : State) : (kennelMod f s).sec = s.sec := rfl
@[simp] theorem kennelMod_box (f : KennelSt → KennelSt) (s : State) : (kennelMod f s).box = s.box := rfl
@[simp] theorem kennelMod_rings (f : KennelSt → KennelSt) (s : State) : (kennelMod f s).rings = s.rings := rfl
@[simp] theorem kennelMod_streams (f : KennelSt → KennelSt) (s : State) : (kennelMod f s).streams = s.streams := rfl
@[simp] theorem kennelMod_banks (f : KennelSt → KennelSt) (s : State) : (kennelMod f s).banks = s.banks := rfl
@[simp] theorem kennelMod_fetch (f : KennelSt → KennelSt) (s : State) : (kennelMod f s).fetch = s.fetch := rfl
@[simp] theorem kennelMod_store (f : KennelSt → KennelSt) (s : State) : (kennelMod f s).store = s.store := rfl
@[simp] theorem kennelMod_synth (f : KennelSt → KennelSt) (s : State) : (kennelMod f s).synth = s.synth := rfl
@[simp] theorem kennelMod_time (f : KennelSt → KennelSt) (s : State) : (kennelMod f s).time = s.time := rfl
@[simp] theorem kennelMod_eth (f : KennelSt → KennelSt) (s : State) : (kennelMod f s).eth = s.eth := rfl
@[simp] theorem kennelMod_vita (f : KennelSt → KennelSt) (s : State) : (kennelMod f s).vita = s.vita := rfl
@[simp] theorem kennelMod_tdc (f : KennelSt → KennelSt) (s : State) : (kennelMod f s).tdc = s.tdc := rfl
@[simp] theorem kennelMod_link (f : KennelSt → KennelSt) (s : State) : (kennelMod f s).link = s.link := rfl
@[simp] theorem kennelMod_inputs (f : KennelSt → KennelSt) (s : State) : (kennelMod f s).inputs = s.inputs := rfl
@[simp] theorem kennelMod_cals (f : KennelSt → KennelSt) (s : State) : (kennelMod f s).cals = s.cals := rfl
@[simp] theorem kennelMod_ddcEng (f : KennelSt → KennelSt) (s : State) : (kennelMod f s).ddcEng = s.ddcEng := rfl
@[simp] theorem kennelMod_ddc (f : KennelSt → KennelSt) (s : State) : (kennelMod f s).ddc = s.ddc := rfl
@[simp] theorem kennelMod_chans (f : KennelSt → KennelSt) (s : State) : (kennelMod f s).chans = s.chans := rfl
@[simp] theorem kennelMod_xforms (f : KennelSt → KennelSt) (s : State) : (kennelMod f s).xforms = s.xforms := rfl
@[simp] theorem kennelMod_te (f : KennelSt → KennelSt) (s : State) : (kennelMod f s).te = s.te := rfl
@[simp] theorem kennelMod_packs (f : KennelSt → KennelSt) (s : State) : (kennelMod f s).packs = s.packs := rfl
@[simp] theorem kennelMod_fab (f : KennelSt → KennelSt) (s : State) : (kennelMod f s).fab = s.fab := rfl
@[simp] theorem kennelMod_events (f : KennelSt → KennelSt) (s : State) : (kennelMod f s).events = s.events := rfl
@[simp] theorem kennelMod_dens (f : KennelSt → KennelSt) (s : State) : (kennelMod f s).dens = s.dens := rfl
@[simp] theorem kennelMod_disp (f : KennelSt → KennelSt) (s : State) : (kennelMod f s).disp = s.disp := rfl

@[simp] theorem ringSet_pending (r : RingCtx) (s : State) : (ringSet r s).pending = s.pending := rfl
@[simp] theorem ringSet_grade (r : RingCtx) (s : State) : (ringSet r s).grade = s.grade := rfl
@[simp] theorem ringSet_cyc (r : RingCtx) (s : State) : (ringSet r s).cyc = s.cyc := rfl
@[simp] theorem ringSet_mem (r : RingCtx) (s : State) : (ringSet r s).mem = s.mem := rfl
@[simp] theorem ringSet_freeNo (r : RingCtx) (s : State) : (ringSet r s).freeNo = s.freeNo := rfl
@[simp] theorem ringSet_boot (r : RingCtx) (s : State) : (ringSet r s).boot = s.boot := rfl
@[simp] theorem ringSet_power (r : RingCtx) (s : State) : (ringSet r s).power = s.power := rfl
@[simp] theorem ringSet_ev (r : RingCtx) (s : State) : (ringSet r s).ev = s.ev := rfl
@[simp] theorem ringSet_kennel (r : RingCtx) (s : State) : (ringSet r s).kennel = s.kennel := rfl
@[simp] theorem ringSet_junction (r : RingCtx) (s : State) : (ringSet r s).junction = s.junction := rfl
@[simp] theorem ringSet_maint (r : RingCtx) (s : State) : (ringSet r s).maint = s.maint := rfl
@[simp] theorem ringSet_dacs (r : RingCtx) (s : State) : (ringSet r s).dacs = s.dacs := rfl
@[simp] theorem ringSet_hk (r : RingCtx) (s : State) : (ringSet r s).hk = s.hk := rfl
@[simp] theorem ringSet_loops (r : RingCtx) (s : State) : (ringSet r s).loops = s.loops := rfl
@[simp] theorem ringSet_sec (r : RingCtx) (s : State) : (ringSet r s).sec = s.sec := rfl
@[simp] theorem ringSet_box (r : RingCtx) (s : State) : (ringSet r s).box = s.box := rfl
@[simp] theorem ringSet_streams (r : RingCtx) (s : State) : (ringSet r s).streams = s.streams := rfl
@[simp] theorem ringSet_banks (r : RingCtx) (s : State) : (ringSet r s).banks = s.banks := rfl
@[simp] theorem ringSet_fetch (r : RingCtx) (s : State) : (ringSet r s).fetch = s.fetch := rfl
@[simp] theorem ringSet_store (r : RingCtx) (s : State) : (ringSet r s).store = s.store := rfl
@[simp] theorem ringSet_synth (r : RingCtx) (s : State) : (ringSet r s).synth = s.synth := rfl
@[simp] theorem ringSet_time (r : RingCtx) (s : State) : (ringSet r s).time = s.time := rfl
@[simp] theorem ringSet_eth (r : RingCtx) (s : State) : (ringSet r s).eth = s.eth := rfl
@[simp] theorem ringSet_vita (r : RingCtx) (s : State) : (ringSet r s).vita = s.vita := rfl
@[simp] theorem ringSet_tdc (r : RingCtx) (s : State) : (ringSet r s).tdc = s.tdc := rfl
@[simp] theorem ringSet_link (r : RingCtx) (s : State) : (ringSet r s).link = s.link := rfl
@[simp] theorem ringSet_inputs (r : RingCtx) (s : State) : (ringSet r s).inputs = s.inputs := rfl
@[simp] theorem ringSet_cals (r : RingCtx) (s : State) : (ringSet r s).cals = s.cals := rfl
@[simp] theorem ringSet_ddcEng (r : RingCtx) (s : State) : (ringSet r s).ddcEng = s.ddcEng := rfl
@[simp] theorem ringSet_ddc (r : RingCtx) (s : State) : (ringSet r s).ddc = s.ddc := rfl
@[simp] theorem ringSet_chans (r : RingCtx) (s : State) : (ringSet r s).chans = s.chans := rfl
@[simp] theorem ringSet_xforms (r : RingCtx) (s : State) : (ringSet r s).xforms = s.xforms := rfl
@[simp] theorem ringSet_te (r : RingCtx) (s : State) : (ringSet r s).te = s.te := rfl
@[simp] theorem ringSet_packs (r : RingCtx) (s : State) : (ringSet r s).packs = s.packs := rfl
@[simp] theorem ringSet_fab (r : RingCtx) (s : State) : (ringSet r s).fab = s.fab := rfl
@[simp] theorem ringSet_events (r : RingCtx) (s : State) : (ringSet r s).events = s.events := rfl
@[simp] theorem ringSet_dens (r : RingCtx) (s : State) : (ringSet r s).dens = s.dens := rfl
@[simp] theorem ringSet_disp (r : RingCtx) (s : State) : (ringSet r s).disp = s.disp := rfl

@[simp] theorem evMod_pending (f : EventSt → EventSt) (s : State) : (evMod f s).pending = s.pending := rfl
@[simp] theorem evMod_grade (f : EventSt → EventSt) (s : State) : (evMod f s).grade = s.grade := rfl
@[simp] theorem evMod_cyc (f : EventSt → EventSt) (s : State) : (evMod f s).cyc = s.cyc := rfl
@[simp] theorem evMod_mem (f : EventSt → EventSt) (s : State) : (evMod f s).mem = s.mem := rfl
@[simp] theorem evMod_freeNo (f : EventSt → EventSt) (s : State) : (evMod f s).freeNo = s.freeNo := rfl
@[simp] theorem evMod_boot (f : EventSt → EventSt) (s : State) : (evMod f s).boot = s.boot := rfl
@[simp] theorem evMod_power (f : EventSt → EventSt) (s : State) : (evMod f s).power = s.power := rfl
@[simp] theorem evMod_ev (f : EventSt → EventSt) (s : State) : (evMod f s).ev = f s.ev := rfl
@[simp] theorem evMod_kennel (f : EventSt → EventSt) (s : State) : (evMod f s).kennel = s.kennel := rfl
@[simp] theorem evMod_junction (f : EventSt → EventSt) (s : State) : (evMod f s).junction = s.junction := rfl
@[simp] theorem evMod_maint (f : EventSt → EventSt) (s : State) : (evMod f s).maint = s.maint := rfl
@[simp] theorem evMod_dacs (f : EventSt → EventSt) (s : State) : (evMod f s).dacs = s.dacs := rfl
@[simp] theorem evMod_hk (f : EventSt → EventSt) (s : State) : (evMod f s).hk = s.hk := rfl
@[simp] theorem evMod_loops (f : EventSt → EventSt) (s : State) : (evMod f s).loops = s.loops := rfl
@[simp] theorem evMod_sec (f : EventSt → EventSt) (s : State) : (evMod f s).sec = s.sec := rfl
@[simp] theorem evMod_box (f : EventSt → EventSt) (s : State) : (evMod f s).box = s.box := rfl
@[simp] theorem evMod_rings (f : EventSt → EventSt) (s : State) : (evMod f s).rings = s.rings := rfl
@[simp] theorem evMod_streams (f : EventSt → EventSt) (s : State) : (evMod f s).streams = s.streams := rfl
@[simp] theorem evMod_banks (f : EventSt → EventSt) (s : State) : (evMod f s).banks = s.banks := rfl
@[simp] theorem evMod_fetch (f : EventSt → EventSt) (s : State) : (evMod f s).fetch = s.fetch := rfl
@[simp] theorem evMod_store (f : EventSt → EventSt) (s : State) : (evMod f s).store = s.store := rfl
@[simp] theorem evMod_synth (f : EventSt → EventSt) (s : State) : (evMod f s).synth = s.synth := rfl
@[simp] theorem evMod_time (f : EventSt → EventSt) (s : State) : (evMod f s).time = s.time := rfl
@[simp] theorem evMod_eth (f : EventSt → EventSt) (s : State) : (evMod f s).eth = s.eth := rfl
@[simp] theorem evMod_vita (f : EventSt → EventSt) (s : State) : (evMod f s).vita = s.vita := rfl
@[simp] theorem evMod_tdc (f : EventSt → EventSt) (s : State) : (evMod f s).tdc = s.tdc := rfl
@[simp] theorem evMod_link (f : EventSt → EventSt) (s : State) : (evMod f s).link = s.link := rfl
@[simp] theorem evMod_inputs (f : EventSt → EventSt) (s : State) : (evMod f s).inputs = s.inputs := rfl
@[simp] theorem evMod_cals (f : EventSt → EventSt) (s : State) : (evMod f s).cals = s.cals := rfl
@[simp] theorem evMod_ddcEng (f : EventSt → EventSt) (s : State) : (evMod f s).ddcEng = s.ddcEng := rfl
@[simp] theorem evMod_ddc (f : EventSt → EventSt) (s : State) : (evMod f s).ddc = s.ddc := rfl
@[simp] theorem evMod_chans (f : EventSt → EventSt) (s : State) : (evMod f s).chans = s.chans := rfl
@[simp] theorem evMod_xforms (f : EventSt → EventSt) (s : State) : (evMod f s).xforms = s.xforms := rfl
@[simp] theorem evMod_te (f : EventSt → EventSt) (s : State) : (evMod f s).te = s.te := rfl
@[simp] theorem evMod_packs (f : EventSt → EventSt) (s : State) : (evMod f s).packs = s.packs := rfl
@[simp] theorem evMod_fab (f : EventSt → EventSt) (s : State) : (evMod f s).fab = s.fab := rfl
@[simp] theorem evMod_events (f : EventSt → EventSt) (s : State) : (evMod f s).events = s.events := rfl
@[simp] theorem evMod_dens (f : EventSt → EventSt) (s : State) : (evMod f s).dens = s.dens := rfl
@[simp] theorem evMod_disp (f : EventSt → EventSt) (s : State) : (evMod f s).disp = s.disp := rfl

@[simp] theorem bankMod_pending (i : Nat) (f : BankSt → BankSt) (s : State) : (bankMod i f s).pending = s.pending := rfl
@[simp] theorem bankMod_grade (i : Nat) (f : BankSt → BankSt) (s : State) : (bankMod i f s).grade = s.grade := rfl
@[simp] theorem bankMod_cyc (i : Nat) (f : BankSt → BankSt) (s : State) : (bankMod i f s).cyc = s.cyc := rfl
@[simp] theorem bankMod_mem (i : Nat) (f : BankSt → BankSt) (s : State) : (bankMod i f s).mem = s.mem := rfl
@[simp] theorem bankMod_freeNo (i : Nat) (f : BankSt → BankSt) (s : State) : (bankMod i f s).freeNo = s.freeNo := rfl
@[simp] theorem bankMod_boot (i : Nat) (f : BankSt → BankSt) (s : State) : (bankMod i f s).boot = s.boot := rfl
@[simp] theorem bankMod_power (i : Nat) (f : BankSt → BankSt) (s : State) : (bankMod i f s).power = s.power := rfl
@[simp] theorem bankMod_ev (i : Nat) (f : BankSt → BankSt) (s : State) : (bankMod i f s).ev = s.ev := rfl
@[simp] theorem bankMod_kennel (i : Nat) (f : BankSt → BankSt) (s : State) : (bankMod i f s).kennel = s.kennel := rfl
@[simp] theorem bankMod_junction (i : Nat) (f : BankSt → BankSt) (s : State) : (bankMod i f s).junction = s.junction := rfl
@[simp] theorem bankMod_maint (i : Nat) (f : BankSt → BankSt) (s : State) : (bankMod i f s).maint = s.maint := rfl
@[simp] theorem bankMod_dacs (i : Nat) (f : BankSt → BankSt) (s : State) : (bankMod i f s).dacs = s.dacs := rfl
@[simp] theorem bankMod_hk (i : Nat) (f : BankSt → BankSt) (s : State) : (bankMod i f s).hk = s.hk := rfl
@[simp] theorem bankMod_loops (i : Nat) (f : BankSt → BankSt) (s : State) : (bankMod i f s).loops = s.loops := rfl
@[simp] theorem bankMod_sec (i : Nat) (f : BankSt → BankSt) (s : State) : (bankMod i f s).sec = s.sec := rfl
@[simp] theorem bankMod_box (i : Nat) (f : BankSt → BankSt) (s : State) : (bankMod i f s).box = s.box := rfl
@[simp] theorem bankMod_rings (i : Nat) (f : BankSt → BankSt) (s : State) : (bankMod i f s).rings = s.rings := rfl
@[simp] theorem bankMod_streams (i : Nat) (f : BankSt → BankSt) (s : State) : (bankMod i f s).streams = s.streams := rfl
@[simp] theorem bankMod_banks (i : Nat) (f : BankSt → BankSt) (s : State) : (bankMod i f s).banks = vmod s.banks i f := rfl
@[simp] theorem bankMod_fetch (i : Nat) (f : BankSt → BankSt) (s : State) : (bankMod i f s).fetch = s.fetch := rfl
@[simp] theorem bankMod_store (i : Nat) (f : BankSt → BankSt) (s : State) : (bankMod i f s).store = s.store := rfl
@[simp] theorem bankMod_synth (i : Nat) (f : BankSt → BankSt) (s : State) : (bankMod i f s).synth = s.synth := rfl
@[simp] theorem bankMod_time (i : Nat) (f : BankSt → BankSt) (s : State) : (bankMod i f s).time = s.time := rfl
@[simp] theorem bankMod_eth (i : Nat) (f : BankSt → BankSt) (s : State) : (bankMod i f s).eth = s.eth := rfl
@[simp] theorem bankMod_vita (i : Nat) (f : BankSt → BankSt) (s : State) : (bankMod i f s).vita = s.vita := rfl
@[simp] theorem bankMod_tdc (i : Nat) (f : BankSt → BankSt) (s : State) : (bankMod i f s).tdc = s.tdc := rfl
@[simp] theorem bankMod_link (i : Nat) (f : BankSt → BankSt) (s : State) : (bankMod i f s).link = s.link := rfl
@[simp] theorem bankMod_inputs (i : Nat) (f : BankSt → BankSt) (s : State) : (bankMod i f s).inputs = s.inputs := rfl
@[simp] theorem bankMod_cals (i : Nat) (f : BankSt → BankSt) (s : State) : (bankMod i f s).cals = s.cals := rfl
@[simp] theorem bankMod_ddcEng (i : Nat) (f : BankSt → BankSt) (s : State) : (bankMod i f s).ddcEng = s.ddcEng := rfl
@[simp] theorem bankMod_ddc (i : Nat) (f : BankSt → BankSt) (s : State) : (bankMod i f s).ddc = s.ddc := rfl
@[simp] theorem bankMod_chans (i : Nat) (f : BankSt → BankSt) (s : State) : (bankMod i f s).chans = s.chans := rfl
@[simp] theorem bankMod_xforms (i : Nat) (f : BankSt → BankSt) (s : State) : (bankMod i f s).xforms = s.xforms := rfl
@[simp] theorem bankMod_te (i : Nat) (f : BankSt → BankSt) (s : State) : (bankMod i f s).te = s.te := rfl
@[simp] theorem bankMod_packs (i : Nat) (f : BankSt → BankSt) (s : State) : (bankMod i f s).packs = s.packs := rfl
@[simp] theorem bankMod_fab (i : Nat) (f : BankSt → BankSt) (s : State) : (bankMod i f s).fab = s.fab := rfl
@[simp] theorem bankMod_events (i : Nat) (f : BankSt → BankSt) (s : State) : (bankMod i f s).events = s.events := rfl
@[simp] theorem bankMod_dens (i : Nat) (f : BankSt → BankSt) (s : State) : (bankMod i f s).dens = s.dens := rfl
@[simp] theorem bankMod_disp (i : Nat) (f : BankSt → BankSt) (s : State) : (bankMod i f s).disp = s.disp := rfl

@[simp] theorem packMod_pending (h : Handle) (f : PackSt → PackSt) (s : State) : (packMod h f s).pending = s.pending := rfl
@[simp] theorem packMod_grade (h : Handle) (f : PackSt → PackSt) (s : State) : (packMod h f s).grade = s.grade := rfl
@[simp] theorem packMod_cyc (h : Handle) (f : PackSt → PackSt) (s : State) : (packMod h f s).cyc = s.cyc := rfl
@[simp] theorem packMod_mem (h : Handle) (f : PackSt → PackSt) (s : State) : (packMod h f s).mem = s.mem := rfl
@[simp] theorem packMod_freeNo (h : Handle) (f : PackSt → PackSt) (s : State) : (packMod h f s).freeNo = s.freeNo := rfl
@[simp] theorem packMod_boot (h : Handle) (f : PackSt → PackSt) (s : State) : (packMod h f s).boot = s.boot := rfl
@[simp] theorem packMod_power (h : Handle) (f : PackSt → PackSt) (s : State) : (packMod h f s).power = s.power := rfl
@[simp] theorem packMod_ev (h : Handle) (f : PackSt → PackSt) (s : State) : (packMod h f s).ev = s.ev := rfl
@[simp] theorem packMod_kennel (h : Handle) (f : PackSt → PackSt) (s : State) : (packMod h f s).kennel = s.kennel := rfl
@[simp] theorem packMod_junction (h : Handle) (f : PackSt → PackSt) (s : State) : (packMod h f s).junction = s.junction := rfl
@[simp] theorem packMod_maint (h : Handle) (f : PackSt → PackSt) (s : State) : (packMod h f s).maint = s.maint := rfl
@[simp] theorem packMod_dacs (h : Handle) (f : PackSt → PackSt) (s : State) : (packMod h f s).dacs = s.dacs := rfl
@[simp] theorem packMod_hk (h : Handle) (f : PackSt → PackSt) (s : State) : (packMod h f s).hk = s.hk := rfl
@[simp] theorem packMod_loops (h : Handle) (f : PackSt → PackSt) (s : State) : (packMod h f s).loops = s.loops := rfl
@[simp] theorem packMod_sec (h : Handle) (f : PackSt → PackSt) (s : State) : (packMod h f s).sec = s.sec := rfl
@[simp] theorem packMod_box (h : Handle) (f : PackSt → PackSt) (s : State) : (packMod h f s).box = s.box := rfl
@[simp] theorem packMod_rings (h : Handle) (f : PackSt → PackSt) (s : State) : (packMod h f s).rings = s.rings := rfl
@[simp] theorem packMod_streams (h : Handle) (f : PackSt → PackSt) (s : State) : (packMod h f s).streams = s.streams := rfl
@[simp] theorem packMod_banks (h : Handle) (f : PackSt → PackSt) (s : State) : (packMod h f s).banks = s.banks := rfl
@[simp] theorem packMod_fetch (h : Handle) (f : PackSt → PackSt) (s : State) : (packMod h f s).fetch = s.fetch := rfl
@[simp] theorem packMod_store (h : Handle) (f : PackSt → PackSt) (s : State) : (packMod h f s).store = s.store := rfl
@[simp] theorem packMod_synth (h : Handle) (f : PackSt → PackSt) (s : State) : (packMod h f s).synth = s.synth := rfl
@[simp] theorem packMod_time (h : Handle) (f : PackSt → PackSt) (s : State) : (packMod h f s).time = s.time := rfl
@[simp] theorem packMod_eth (h : Handle) (f : PackSt → PackSt) (s : State) : (packMod h f s).eth = s.eth := rfl
@[simp] theorem packMod_vita (h : Handle) (f : PackSt → PackSt) (s : State) : (packMod h f s).vita = s.vita := rfl
@[simp] theorem packMod_tdc (h : Handle) (f : PackSt → PackSt) (s : State) : (packMod h f s).tdc = s.tdc := rfl
@[simp] theorem packMod_link (h : Handle) (f : PackSt → PackSt) (s : State) : (packMod h f s).link = s.link := rfl
@[simp] theorem packMod_inputs (h : Handle) (f : PackSt → PackSt) (s : State) : (packMod h f s).inputs = s.inputs := rfl
@[simp] theorem packMod_cals (h : Handle) (f : PackSt → PackSt) (s : State) : (packMod h f s).cals = s.cals := rfl
@[simp] theorem packMod_ddcEng (h : Handle) (f : PackSt → PackSt) (s : State) : (packMod h f s).ddcEng = s.ddcEng := rfl
@[simp] theorem packMod_ddc (h : Handle) (f : PackSt → PackSt) (s : State) : (packMod h f s).ddc = s.ddc := rfl
@[simp] theorem packMod_chans (h : Handle) (f : PackSt → PackSt) (s : State) : (packMod h f s).chans = s.chans := rfl
@[simp] theorem packMod_xforms (h : Handle) (f : PackSt → PackSt) (s : State) : (packMod h f s).xforms = s.xforms := rfl
@[simp] theorem packMod_te (h : Handle) (f : PackSt → PackSt) (s : State) : (packMod h f s).te = s.te := rfl
@[simp] theorem packMod_fab (h : Handle) (f : PackSt → PackSt) (s : State) : (packMod h f s).fab = s.fab := rfl
@[simp] theorem packMod_events (h : Handle) (f : PackSt → PackSt) (s : State) : (packMod h f s).events = s.events := rfl
@[simp] theorem packMod_dens (h : Handle) (f : PackSt → PackSt) (s : State) : (packMod h f s).dens = s.dens := rfl
@[simp] theorem packMod_disp (h : Handle) (f : PackSt → PackSt) (s : State) : (packMod h f s).disp = s.disp := rfl

@[simp] theorem teMod_pending (i : Nat) (f : TeSt → TeSt) (s : State) : (teMod i f s).pending = s.pending := rfl
@[simp] theorem teMod_grade (i : Nat) (f : TeSt → TeSt) (s : State) : (teMod i f s).grade = s.grade := rfl
@[simp] theorem teMod_cyc (i : Nat) (f : TeSt → TeSt) (s : State) : (teMod i f s).cyc = s.cyc := rfl
@[simp] theorem teMod_mem (i : Nat) (f : TeSt → TeSt) (s : State) : (teMod i f s).mem = s.mem := rfl
@[simp] theorem teMod_freeNo (i : Nat) (f : TeSt → TeSt) (s : State) : (teMod i f s).freeNo = s.freeNo := rfl
@[simp] theorem teMod_boot (i : Nat) (f : TeSt → TeSt) (s : State) : (teMod i f s).boot = s.boot := rfl
@[simp] theorem teMod_power (i : Nat) (f : TeSt → TeSt) (s : State) : (teMod i f s).power = s.power := rfl
@[simp] theorem teMod_ev (i : Nat) (f : TeSt → TeSt) (s : State) : (teMod i f s).ev = s.ev := rfl
@[simp] theorem teMod_kennel (i : Nat) (f : TeSt → TeSt) (s : State) : (teMod i f s).kennel = s.kennel := rfl
@[simp] theorem teMod_junction (i : Nat) (f : TeSt → TeSt) (s : State) : (teMod i f s).junction = s.junction := rfl
@[simp] theorem teMod_maint (i : Nat) (f : TeSt → TeSt) (s : State) : (teMod i f s).maint = s.maint := rfl
@[simp] theorem teMod_dacs (i : Nat) (f : TeSt → TeSt) (s : State) : (teMod i f s).dacs = s.dacs := rfl
@[simp] theorem teMod_hk (i : Nat) (f : TeSt → TeSt) (s : State) : (teMod i f s).hk = s.hk := rfl
@[simp] theorem teMod_loops (i : Nat) (f : TeSt → TeSt) (s : State) : (teMod i f s).loops = s.loops := rfl
@[simp] theorem teMod_sec (i : Nat) (f : TeSt → TeSt) (s : State) : (teMod i f s).sec = s.sec := rfl
@[simp] theorem teMod_box (i : Nat) (f : TeSt → TeSt) (s : State) : (teMod i f s).box = s.box := rfl
@[simp] theorem teMod_rings (i : Nat) (f : TeSt → TeSt) (s : State) : (teMod i f s).rings = s.rings := rfl
@[simp] theorem teMod_streams (i : Nat) (f : TeSt → TeSt) (s : State) : (teMod i f s).streams = s.streams := rfl
@[simp] theorem teMod_banks (i : Nat) (f : TeSt → TeSt) (s : State) : (teMod i f s).banks = s.banks := rfl
@[simp] theorem teMod_fetch (i : Nat) (f : TeSt → TeSt) (s : State) : (teMod i f s).fetch = s.fetch := rfl
@[simp] theorem teMod_store (i : Nat) (f : TeSt → TeSt) (s : State) : (teMod i f s).store = s.store := rfl
@[simp] theorem teMod_synth (i : Nat) (f : TeSt → TeSt) (s : State) : (teMod i f s).synth = s.synth := rfl
@[simp] theorem teMod_time (i : Nat) (f : TeSt → TeSt) (s : State) : (teMod i f s).time = s.time := rfl
@[simp] theorem teMod_eth (i : Nat) (f : TeSt → TeSt) (s : State) : (teMod i f s).eth = s.eth := rfl
@[simp] theorem teMod_vita (i : Nat) (f : TeSt → TeSt) (s : State) : (teMod i f s).vita = s.vita := rfl
@[simp] theorem teMod_tdc (i : Nat) (f : TeSt → TeSt) (s : State) : (teMod i f s).tdc = s.tdc := rfl
@[simp] theorem teMod_link (i : Nat) (f : TeSt → TeSt) (s : State) : (teMod i f s).link = s.link := rfl
@[simp] theorem teMod_inputs (i : Nat) (f : TeSt → TeSt) (s : State) : (teMod i f s).inputs = s.inputs := rfl
@[simp] theorem teMod_cals (i : Nat) (f : TeSt → TeSt) (s : State) : (teMod i f s).cals = s.cals := rfl
@[simp] theorem teMod_ddcEng (i : Nat) (f : TeSt → TeSt) (s : State) : (teMod i f s).ddcEng = s.ddcEng := rfl
@[simp] theorem teMod_ddc (i : Nat) (f : TeSt → TeSt) (s : State) : (teMod i f s).ddc = s.ddc := rfl
@[simp] theorem teMod_chans (i : Nat) (f : TeSt → TeSt) (s : State) : (teMod i f s).chans = s.chans := rfl
@[simp] theorem teMod_xforms (i : Nat) (f : TeSt → TeSt) (s : State) : (teMod i f s).xforms = s.xforms := rfl
@[simp] theorem teMod_te (i : Nat) (f : TeSt → TeSt) (s : State) : (teMod i f s).te = vmod s.te i f := rfl
@[simp] theorem teMod_packs (i : Nat) (f : TeSt → TeSt) (s : State) : (teMod i f s).packs = s.packs := rfl
@[simp] theorem teMod_fab (i : Nat) (f : TeSt → TeSt) (s : State) : (teMod i f s).fab = s.fab := rfl
@[simp] theorem teMod_events (i : Nat) (f : TeSt → TeSt) (s : State) : (teMod i f s).events = s.events := rfl
@[simp] theorem teMod_dens (i : Nat) (f : TeSt → TeSt) (s : State) : (teMod i f s).dens = s.dens := rfl
@[simp] theorem teMod_disp (i : Nat) (f : TeSt → TeSt) (s : State) : (teMod i f s).disp = s.disp := rfl

@[simp] theorem bootMod_pending (f : BootState → BootState) (s : State) : (bootMod f s).pending = s.pending := rfl
@[simp] theorem bootMod_grade (f : BootState → BootState) (s : State) : (bootMod f s).grade = s.grade := rfl
@[simp] theorem bootMod_cyc (f : BootState → BootState) (s : State) : (bootMod f s).cyc = s.cyc := rfl
@[simp] theorem bootMod_mem (f : BootState → BootState) (s : State) : (bootMod f s).mem = s.mem := rfl
@[simp] theorem bootMod_freeNo (f : BootState → BootState) (s : State) : (bootMod f s).freeNo = s.freeNo := rfl
@[simp] theorem bootMod_boot (f : BootState → BootState) (s : State) : (bootMod f s).boot = f s.boot := rfl
@[simp] theorem bootMod_power (f : BootState → BootState) (s : State) : (bootMod f s).power = s.power := rfl
@[simp] theorem bootMod_ev (f : BootState → BootState) (s : State) : (bootMod f s).ev = s.ev := rfl
@[simp] theorem bootMod_kennel (f : BootState → BootState) (s : State) : (bootMod f s).kennel = s.kennel := rfl
@[simp] theorem bootMod_junction (f : BootState → BootState) (s : State) : (bootMod f s).junction = s.junction := rfl
@[simp] theorem bootMod_maint (f : BootState → BootState) (s : State) : (bootMod f s).maint = s.maint := rfl
@[simp] theorem bootMod_dacs (f : BootState → BootState) (s : State) : (bootMod f s).dacs = s.dacs := rfl
@[simp] theorem bootMod_hk (f : BootState → BootState) (s : State) : (bootMod f s).hk = s.hk := rfl
@[simp] theorem bootMod_loops (f : BootState → BootState) (s : State) : (bootMod f s).loops = s.loops := rfl
@[simp] theorem bootMod_sec (f : BootState → BootState) (s : State) : (bootMod f s).sec = s.sec := rfl
@[simp] theorem bootMod_box (f : BootState → BootState) (s : State) : (bootMod f s).box = s.box := rfl
@[simp] theorem bootMod_rings (f : BootState → BootState) (s : State) : (bootMod f s).rings = s.rings := rfl
@[simp] theorem bootMod_streams (f : BootState → BootState) (s : State) : (bootMod f s).streams = s.streams := rfl
@[simp] theorem bootMod_banks (f : BootState → BootState) (s : State) : (bootMod f s).banks = s.banks := rfl
@[simp] theorem bootMod_fetch (f : BootState → BootState) (s : State) : (bootMod f s).fetch = s.fetch := rfl
@[simp] theorem bootMod_store (f : BootState → BootState) (s : State) : (bootMod f s).store = s.store := rfl
@[simp] theorem bootMod_synth (f : BootState → BootState) (s : State) : (bootMod f s).synth = s.synth := rfl
@[simp] theorem bootMod_time (f : BootState → BootState) (s : State) : (bootMod f s).time = s.time := rfl
@[simp] theorem bootMod_eth (f : BootState → BootState) (s : State) : (bootMod f s).eth = s.eth := rfl
@[simp] theorem bootMod_vita (f : BootState → BootState) (s : State) : (bootMod f s).vita = s.vita := rfl
@[simp] theorem bootMod_tdc (f : BootState → BootState) (s : State) : (bootMod f s).tdc = s.tdc := rfl
@[simp] theorem bootMod_link (f : BootState → BootState) (s : State) : (bootMod f s).link = s.link := rfl
@[simp] theorem bootMod_inputs (f : BootState → BootState) (s : State) : (bootMod f s).inputs = s.inputs := rfl
@[simp] theorem bootMod_cals (f : BootState → BootState) (s : State) : (bootMod f s).cals = s.cals := rfl
@[simp] theorem bootMod_ddcEng (f : BootState → BootState) (s : State) : (bootMod f s).ddcEng = s.ddcEng := rfl
@[simp] theorem bootMod_ddc (f : BootState → BootState) (s : State) : (bootMod f s).ddc = s.ddc := rfl
@[simp] theorem bootMod_chans (f : BootState → BootState) (s : State) : (bootMod f s).chans = s.chans := rfl
@[simp] theorem bootMod_xforms (f : BootState → BootState) (s : State) : (bootMod f s).xforms = s.xforms := rfl
@[simp] theorem bootMod_te (f : BootState → BootState) (s : State) : (bootMod f s).te = s.te := rfl
@[simp] theorem bootMod_packs (f : BootState → BootState) (s : State) : (bootMod f s).packs = s.packs := rfl
@[simp] theorem bootMod_fab (f : BootState → BootState) (s : State) : (bootMod f s).fab = s.fab := rfl
@[simp] theorem bootMod_events (f : BootState → BootState) (s : State) : (bootMod f s).events = s.events := rfl
@[simp] theorem bootMod_dens (f : BootState → BootState) (s : State) : (bootMod f s).dens = s.dens := rfl
@[simp] theorem bootMod_disp (f : BootState → BootState) (s : State) : (bootMod f s).disp = s.disp := rfl

@[simp] theorem powerMod_pending (f : PowerSt → PowerSt) (s : State) : (powerMod f s).pending = s.pending := rfl
@[simp] theorem powerMod_grade (f : PowerSt → PowerSt) (s : State) : (powerMod f s).grade = s.grade := rfl
@[simp] theorem powerMod_cyc (f : PowerSt → PowerSt) (s : State) : (powerMod f s).cyc = s.cyc := rfl
@[simp] theorem powerMod_mem (f : PowerSt → PowerSt) (s : State) : (powerMod f s).mem = s.mem := rfl
@[simp] theorem powerMod_freeNo (f : PowerSt → PowerSt) (s : State) : (powerMod f s).freeNo = s.freeNo := rfl
@[simp] theorem powerMod_boot (f : PowerSt → PowerSt) (s : State) : (powerMod f s).boot = s.boot := rfl
@[simp] theorem powerMod_power (f : PowerSt → PowerSt) (s : State) : (powerMod f s).power = f s.power := rfl
@[simp] theorem powerMod_ev (f : PowerSt → PowerSt) (s : State) : (powerMod f s).ev = s.ev := rfl
@[simp] theorem powerMod_kennel (f : PowerSt → PowerSt) (s : State) : (powerMod f s).kennel = s.kennel := rfl
@[simp] theorem powerMod_junction (f : PowerSt → PowerSt) (s : State) : (powerMod f s).junction = s.junction := rfl
@[simp] theorem powerMod_maint (f : PowerSt → PowerSt) (s : State) : (powerMod f s).maint = s.maint := rfl
@[simp] theorem powerMod_dacs (f : PowerSt → PowerSt) (s : State) : (powerMod f s).dacs = s.dacs := rfl
@[simp] theorem powerMod_hk (f : PowerSt → PowerSt) (s : State) : (powerMod f s).hk = s.hk := rfl
@[simp] theorem powerMod_loops (f : PowerSt → PowerSt) (s : State) : (powerMod f s).loops = s.loops := rfl
@[simp] theorem powerMod_sec (f : PowerSt → PowerSt) (s : State) : (powerMod f s).sec = s.sec := rfl
@[simp] theorem powerMod_box (f : PowerSt → PowerSt) (s : State) : (powerMod f s).box = s.box := rfl
@[simp] theorem powerMod_rings (f : PowerSt → PowerSt) (s : State) : (powerMod f s).rings = s.rings := rfl
@[simp] theorem powerMod_streams (f : PowerSt → PowerSt) (s : State) : (powerMod f s).streams = s.streams := rfl
@[simp] theorem powerMod_banks (f : PowerSt → PowerSt) (s : State) : (powerMod f s).banks = s.banks := rfl
@[simp] theorem powerMod_fetch (f : PowerSt → PowerSt) (s : State) : (powerMod f s).fetch = s.fetch := rfl
@[simp] theorem powerMod_store (f : PowerSt → PowerSt) (s : State) : (powerMod f s).store = s.store := rfl
@[simp] theorem powerMod_synth (f : PowerSt → PowerSt) (s : State) : (powerMod f s).synth = s.synth := rfl
@[simp] theorem powerMod_time (f : PowerSt → PowerSt) (s : State) : (powerMod f s).time = s.time := rfl
@[simp] theorem powerMod_eth (f : PowerSt → PowerSt) (s : State) : (powerMod f s).eth = s.eth := rfl
@[simp] theorem powerMod_vita (f : PowerSt → PowerSt) (s : State) : (powerMod f s).vita = s.vita := rfl
@[simp] theorem powerMod_tdc (f : PowerSt → PowerSt) (s : State) : (powerMod f s).tdc = s.tdc := rfl
@[simp] theorem powerMod_link (f : PowerSt → PowerSt) (s : State) : (powerMod f s).link = s.link := rfl
@[simp] theorem powerMod_inputs (f : PowerSt → PowerSt) (s : State) : (powerMod f s).inputs = s.inputs := rfl
@[simp] theorem powerMod_cals (f : PowerSt → PowerSt) (s : State) : (powerMod f s).cals = s.cals := rfl
@[simp] theorem powerMod_ddcEng (f : PowerSt → PowerSt) (s : State) : (powerMod f s).ddcEng = s.ddcEng := rfl
@[simp] theorem powerMod_ddc (f : PowerSt → PowerSt) (s : State) : (powerMod f s).ddc = s.ddc := rfl
@[simp] theorem powerMod_chans (f : PowerSt → PowerSt) (s : State) : (powerMod f s).chans = s.chans := rfl
@[simp] theorem powerMod_xforms (f : PowerSt → PowerSt) (s : State) : (powerMod f s).xforms = s.xforms := rfl
@[simp] theorem powerMod_te (f : PowerSt → PowerSt) (s : State) : (powerMod f s).te = s.te := rfl
@[simp] theorem powerMod_packs (f : PowerSt → PowerSt) (s : State) : (powerMod f s).packs = s.packs := rfl
@[simp] theorem powerMod_fab (f : PowerSt → PowerSt) (s : State) : (powerMod f s).fab = s.fab := rfl
@[simp] theorem powerMod_events (f : PowerSt → PowerSt) (s : State) : (powerMod f s).events = s.events := rfl
@[simp] theorem powerMod_dens (f : PowerSt → PowerSt) (s : State) : (powerMod f s).dens = s.dens := rfl
@[simp] theorem powerMod_disp (f : PowerSt → PowerSt) (s : State) : (powerMod f s).disp = s.disp := rfl

@[simp] theorem streamMod_pending (i : Nat) (f : StreamSt → StreamSt) (s : State) : (streamMod i f s).pending = s.pending := rfl
@[simp] theorem streamMod_grade (i : Nat) (f : StreamSt → StreamSt) (s : State) : (streamMod i f s).grade = s.grade := rfl
@[simp] theorem streamMod_cyc (i : Nat) (f : StreamSt → StreamSt) (s : State) : (streamMod i f s).cyc = s.cyc := rfl
@[simp] theorem streamMod_mem (i : Nat) (f : StreamSt → StreamSt) (s : State) : (streamMod i f s).mem = s.mem := rfl
@[simp] theorem streamMod_freeNo (i : Nat) (f : StreamSt → StreamSt) (s : State) : (streamMod i f s).freeNo = s.freeNo := rfl
@[simp] theorem streamMod_boot (i : Nat) (f : StreamSt → StreamSt) (s : State) : (streamMod i f s).boot = s.boot := rfl
@[simp] theorem streamMod_power (i : Nat) (f : StreamSt → StreamSt) (s : State) : (streamMod i f s).power = s.power := rfl
@[simp] theorem streamMod_ev (i : Nat) (f : StreamSt → StreamSt) (s : State) : (streamMod i f s).ev = s.ev := rfl
@[simp] theorem streamMod_kennel (i : Nat) (f : StreamSt → StreamSt) (s : State) : (streamMod i f s).kennel = s.kennel := rfl
@[simp] theorem streamMod_junction (i : Nat) (f : StreamSt → StreamSt) (s : State) : (streamMod i f s).junction = s.junction := rfl
@[simp] theorem streamMod_maint (i : Nat) (f : StreamSt → StreamSt) (s : State) : (streamMod i f s).maint = s.maint := rfl
@[simp] theorem streamMod_dacs (i : Nat) (f : StreamSt → StreamSt) (s : State) : (streamMod i f s).dacs = s.dacs := rfl
@[simp] theorem streamMod_hk (i : Nat) (f : StreamSt → StreamSt) (s : State) : (streamMod i f s).hk = s.hk := rfl
@[simp] theorem streamMod_loops (i : Nat) (f : StreamSt → StreamSt) (s : State) : (streamMod i f s).loops = s.loops := rfl
@[simp] theorem streamMod_sec (i : Nat) (f : StreamSt → StreamSt) (s : State) : (streamMod i f s).sec = s.sec := rfl
@[simp] theorem streamMod_box (i : Nat) (f : StreamSt → StreamSt) (s : State) : (streamMod i f s).box = s.box := rfl
@[simp] theorem streamMod_rings (i : Nat) (f : StreamSt → StreamSt) (s : State) : (streamMod i f s).rings = s.rings := rfl
@[simp] theorem streamMod_banks (i : Nat) (f : StreamSt → StreamSt) (s : State) : (streamMod i f s).banks = s.banks := rfl
@[simp] theorem streamMod_fetch (i : Nat) (f : StreamSt → StreamSt) (s : State) : (streamMod i f s).fetch = s.fetch := rfl
@[simp] theorem streamMod_store (i : Nat) (f : StreamSt → StreamSt) (s : State) : (streamMod i f s).store = s.store := rfl
@[simp] theorem streamMod_synth (i : Nat) (f : StreamSt → StreamSt) (s : State) : (streamMod i f s).synth = s.synth := rfl
@[simp] theorem streamMod_time (i : Nat) (f : StreamSt → StreamSt) (s : State) : (streamMod i f s).time = s.time := rfl
@[simp] theorem streamMod_eth (i : Nat) (f : StreamSt → StreamSt) (s : State) : (streamMod i f s).eth = s.eth := rfl
@[simp] theorem streamMod_vita (i : Nat) (f : StreamSt → StreamSt) (s : State) : (streamMod i f s).vita = s.vita := rfl
@[simp] theorem streamMod_tdc (i : Nat) (f : StreamSt → StreamSt) (s : State) : (streamMod i f s).tdc = s.tdc := rfl
@[simp] theorem streamMod_link (i : Nat) (f : StreamSt → StreamSt) (s : State) : (streamMod i f s).link = s.link := rfl
@[simp] theorem streamMod_inputs (i : Nat) (f : StreamSt → StreamSt) (s : State) : (streamMod i f s).inputs = s.inputs := rfl
@[simp] theorem streamMod_cals (i : Nat) (f : StreamSt → StreamSt) (s : State) : (streamMod i f s).cals = s.cals := rfl
@[simp] theorem streamMod_ddcEng (i : Nat) (f : StreamSt → StreamSt) (s : State) : (streamMod i f s).ddcEng = s.ddcEng := rfl
@[simp] theorem streamMod_ddc (i : Nat) (f : StreamSt → StreamSt) (s : State) : (streamMod i f s).ddc = s.ddc := rfl
@[simp] theorem streamMod_chans (i : Nat) (f : StreamSt → StreamSt) (s : State) : (streamMod i f s).chans = s.chans := rfl
@[simp] theorem streamMod_xforms (i : Nat) (f : StreamSt → StreamSt) (s : State) : (streamMod i f s).xforms = s.xforms := rfl
@[simp] theorem streamMod_te (i : Nat) (f : StreamSt → StreamSt) (s : State) : (streamMod i f s).te = s.te := rfl
@[simp] theorem streamMod_packs (i : Nat) (f : StreamSt → StreamSt) (s : State) : (streamMod i f s).packs = s.packs := rfl
@[simp] theorem streamMod_fab (i : Nat) (f : StreamSt → StreamSt) (s : State) : (streamMod i f s).fab = s.fab := rfl
@[simp] theorem streamMod_events (i : Nat) (f : StreamSt → StreamSt) (s : State) : (streamMod i f s).events = s.events := rfl
@[simp] theorem streamMod_dens (i : Nat) (f : StreamSt → StreamSt) (s : State) : (streamMod i f s).dens = s.dens := rfl
@[simp] theorem streamMod_disp (i : Nat) (f : StreamSt → StreamSt) (s : State) : (streamMod i f s).disp = s.disp := rfl

@[simp] theorem secMod_pending (f : SecSt → SecSt) (s : State) : (secMod f s).pending = s.pending := rfl
@[simp] theorem secMod_grade (f : SecSt → SecSt) (s : State) : (secMod f s).grade = s.grade := rfl
@[simp] theorem secMod_cyc (f : SecSt → SecSt) (s : State) : (secMod f s).cyc = s.cyc := rfl
@[simp] theorem secMod_mem (f : SecSt → SecSt) (s : State) : (secMod f s).mem = s.mem := rfl
@[simp] theorem secMod_freeNo (f : SecSt → SecSt) (s : State) : (secMod f s).freeNo = s.freeNo := rfl
@[simp] theorem secMod_boot (f : SecSt → SecSt) (s : State) : (secMod f s).boot = s.boot := rfl
@[simp] theorem secMod_power (f : SecSt → SecSt) (s : State) : (secMod f s).power = s.power := rfl
@[simp] theorem secMod_ev (f : SecSt → SecSt) (s : State) : (secMod f s).ev = s.ev := rfl
@[simp] theorem secMod_kennel (f : SecSt → SecSt) (s : State) : (secMod f s).kennel = s.kennel := rfl
@[simp] theorem secMod_junction (f : SecSt → SecSt) (s : State) : (secMod f s).junction = s.junction := rfl
@[simp] theorem secMod_maint (f : SecSt → SecSt) (s : State) : (secMod f s).maint = s.maint := rfl
@[simp] theorem secMod_dacs (f : SecSt → SecSt) (s : State) : (secMod f s).dacs = s.dacs := rfl
@[simp] theorem secMod_hk (f : SecSt → SecSt) (s : State) : (secMod f s).hk = s.hk := rfl
@[simp] theorem secMod_loops (f : SecSt → SecSt) (s : State) : (secMod f s).loops = s.loops := rfl
@[simp] theorem secMod_sec (f : SecSt → SecSt) (s : State) : (secMod f s).sec = f s.sec := rfl
@[simp] theorem secMod_box (f : SecSt → SecSt) (s : State) : (secMod f s).box = s.box := rfl
@[simp] theorem secMod_rings (f : SecSt → SecSt) (s : State) : (secMod f s).rings = s.rings := rfl
@[simp] theorem secMod_streams (f : SecSt → SecSt) (s : State) : (secMod f s).streams = s.streams := rfl
@[simp] theorem secMod_banks (f : SecSt → SecSt) (s : State) : (secMod f s).banks = s.banks := rfl
@[simp] theorem secMod_fetch (f : SecSt → SecSt) (s : State) : (secMod f s).fetch = s.fetch := rfl
@[simp] theorem secMod_store (f : SecSt → SecSt) (s : State) : (secMod f s).store = s.store := rfl
@[simp] theorem secMod_synth (f : SecSt → SecSt) (s : State) : (secMod f s).synth = s.synth := rfl
@[simp] theorem secMod_time (f : SecSt → SecSt) (s : State) : (secMod f s).time = s.time := rfl
@[simp] theorem secMod_eth (f : SecSt → SecSt) (s : State) : (secMod f s).eth = s.eth := rfl
@[simp] theorem secMod_vita (f : SecSt → SecSt) (s : State) : (secMod f s).vita = s.vita := rfl
@[simp] theorem secMod_tdc (f : SecSt → SecSt) (s : State) : (secMod f s).tdc = s.tdc := rfl
@[simp] theorem secMod_link (f : SecSt → SecSt) (s : State) : (secMod f s).link = s.link := rfl
@[simp] theorem secMod_inputs (f : SecSt → SecSt) (s : State) : (secMod f s).inputs = s.inputs := rfl
@[simp] theorem secMod_cals (f : SecSt → SecSt) (s : State) : (secMod f s).cals = s.cals := rfl
@[simp] theorem secMod_ddcEng (f : SecSt → SecSt) (s : State) : (secMod f s).ddcEng = s.ddcEng := rfl
@[simp] theorem secMod_ddc (f : SecSt → SecSt) (s : State) : (secMod f s).ddc = s.ddc := rfl
@[simp] theorem secMod_chans (f : SecSt → SecSt) (s : State) : (secMod f s).chans = s.chans := rfl
@[simp] theorem secMod_xforms (f : SecSt → SecSt) (s : State) : (secMod f s).xforms = s.xforms := rfl
@[simp] theorem secMod_te (f : SecSt → SecSt) (s : State) : (secMod f s).te = s.te := rfl
@[simp] theorem secMod_packs (f : SecSt → SecSt) (s : State) : (secMod f s).packs = s.packs := rfl
@[simp] theorem secMod_fab (f : SecSt → SecSt) (s : State) : (secMod f s).fab = s.fab := rfl
@[simp] theorem secMod_events (f : SecSt → SecSt) (s : State) : (secMod f s).events = s.events := rfl
@[simp] theorem secMod_dens (f : SecSt → SecSt) (s : State) : (secMod f s).dens = s.dens := rfl
@[simp] theorem secMod_disp (f : SecSt → SecSt) (s : State) : (secMod f s).disp = s.disp := rfl

@[simp] theorem boxMod_pending (f : BoxSt → BoxSt) (s : State) : (boxMod f s).pending = s.pending := rfl
@[simp] theorem boxMod_grade (f : BoxSt → BoxSt) (s : State) : (boxMod f s).grade = s.grade := rfl
@[simp] theorem boxMod_cyc (f : BoxSt → BoxSt) (s : State) : (boxMod f s).cyc = s.cyc := rfl
@[simp] theorem boxMod_mem (f : BoxSt → BoxSt) (s : State) : (boxMod f s).mem = s.mem := rfl
@[simp] theorem boxMod_freeNo (f : BoxSt → BoxSt) (s : State) : (boxMod f s).freeNo = s.freeNo := rfl
@[simp] theorem boxMod_boot (f : BoxSt → BoxSt) (s : State) : (boxMod f s).boot = s.boot := rfl
@[simp] theorem boxMod_power (f : BoxSt → BoxSt) (s : State) : (boxMod f s).power = s.power := rfl
@[simp] theorem boxMod_ev (f : BoxSt → BoxSt) (s : State) : (boxMod f s).ev = s.ev := rfl
@[simp] theorem boxMod_kennel (f : BoxSt → BoxSt) (s : State) : (boxMod f s).kennel = s.kennel := rfl
@[simp] theorem boxMod_junction (f : BoxSt → BoxSt) (s : State) : (boxMod f s).junction = s.junction := rfl
@[simp] theorem boxMod_maint (f : BoxSt → BoxSt) (s : State) : (boxMod f s).maint = s.maint := rfl
@[simp] theorem boxMod_dacs (f : BoxSt → BoxSt) (s : State) : (boxMod f s).dacs = s.dacs := rfl
@[simp] theorem boxMod_hk (f : BoxSt → BoxSt) (s : State) : (boxMod f s).hk = s.hk := rfl
@[simp] theorem boxMod_loops (f : BoxSt → BoxSt) (s : State) : (boxMod f s).loops = s.loops := rfl
@[simp] theorem boxMod_sec (f : BoxSt → BoxSt) (s : State) : (boxMod f s).sec = s.sec := rfl
@[simp] theorem boxMod_box (f : BoxSt → BoxSt) (s : State) : (boxMod f s).box = f s.box := rfl
@[simp] theorem boxMod_rings (f : BoxSt → BoxSt) (s : State) : (boxMod f s).rings = s.rings := rfl
@[simp] theorem boxMod_streams (f : BoxSt → BoxSt) (s : State) : (boxMod f s).streams = s.streams := rfl
@[simp] theorem boxMod_banks (f : BoxSt → BoxSt) (s : State) : (boxMod f s).banks = s.banks := rfl
@[simp] theorem boxMod_fetch (f : BoxSt → BoxSt) (s : State) : (boxMod f s).fetch = s.fetch := rfl
@[simp] theorem boxMod_store (f : BoxSt → BoxSt) (s : State) : (boxMod f s).store = s.store := rfl
@[simp] theorem boxMod_synth (f : BoxSt → BoxSt) (s : State) : (boxMod f s).synth = s.synth := rfl
@[simp] theorem boxMod_time (f : BoxSt → BoxSt) (s : State) : (boxMod f s).time = s.time := rfl
@[simp] theorem boxMod_eth (f : BoxSt → BoxSt) (s : State) : (boxMod f s).eth = s.eth := rfl
@[simp] theorem boxMod_vita (f : BoxSt → BoxSt) (s : State) : (boxMod f s).vita = s.vita := rfl
@[simp] theorem boxMod_tdc (f : BoxSt → BoxSt) (s : State) : (boxMod f s).tdc = s.tdc := rfl
@[simp] theorem boxMod_link (f : BoxSt → BoxSt) (s : State) : (boxMod f s).link = s.link := rfl
@[simp] theorem boxMod_inputs (f : BoxSt → BoxSt) (s : State) : (boxMod f s).inputs = s.inputs := rfl
@[simp] theorem boxMod_cals (f : BoxSt → BoxSt) (s : State) : (boxMod f s).cals = s.cals := rfl
@[simp] theorem boxMod_ddcEng (f : BoxSt → BoxSt) (s : State) : (boxMod f s).ddcEng = s.ddcEng := rfl
@[simp] theorem boxMod_ddc (f : BoxSt → BoxSt) (s : State) : (boxMod f s).ddc = s.ddc := rfl
@[simp] theorem boxMod_chans (f : BoxSt → BoxSt) (s : State) : (boxMod f s).chans = s.chans := rfl
@[simp] theorem boxMod_xforms (f : BoxSt → BoxSt) (s : State) : (boxMod f s).xforms = s.xforms := rfl
@[simp] theorem boxMod_te (f : BoxSt → BoxSt) (s : State) : (boxMod f s).te = s.te := rfl
@[simp] theorem boxMod_packs (f : BoxSt → BoxSt) (s : State) : (boxMod f s).packs = s.packs := rfl
@[simp] theorem boxMod_fab (f : BoxSt → BoxSt) (s : State) : (boxMod f s).fab = s.fab := rfl
@[simp] theorem boxMod_events (f : BoxSt → BoxSt) (s : State) : (boxMod f s).events = s.events := rfl
@[simp] theorem boxMod_dens (f : BoxSt → BoxSt) (s : State) : (boxMod f s).dens = s.dens := rfl
@[simp] theorem boxMod_disp (f : BoxSt → BoxSt) (s : State) : (boxMod f s).disp = s.disp := rfl

@[simp] theorem schMod_pending (i : Nat) (f : StoreCh → StoreCh) (s : State) : (schMod i f s).pending = s.pending := rfl
@[simp] theorem schMod_grade (i : Nat) (f : StoreCh → StoreCh) (s : State) : (schMod i f s).grade = s.grade := rfl
@[simp] theorem schMod_cyc (i : Nat) (f : StoreCh → StoreCh) (s : State) : (schMod i f s).cyc = s.cyc := rfl
@[simp] theorem schMod_mem (i : Nat) (f : StoreCh → StoreCh) (s : State) : (schMod i f s).mem = s.mem := rfl
@[simp] theorem schMod_freeNo (i : Nat) (f : StoreCh → StoreCh) (s : State) : (schMod i f s).freeNo = s.freeNo := rfl
@[simp] theorem schMod_boot (i : Nat) (f : StoreCh → StoreCh) (s : State) : (schMod i f s).boot = s.boot := rfl
@[simp] theorem schMod_power (i : Nat) (f : StoreCh → StoreCh) (s : State) : (schMod i f s).power = s.power := rfl
@[simp] theorem schMod_ev (i : Nat) (f : StoreCh → StoreCh) (s : State) : (schMod i f s).ev = s.ev := rfl
@[simp] theorem schMod_kennel (i : Nat) (f : StoreCh → StoreCh) (s : State) : (schMod i f s).kennel = s.kennel := rfl
@[simp] theorem schMod_junction (i : Nat) (f : StoreCh → StoreCh) (s : State) : (schMod i f s).junction = s.junction := rfl
@[simp] theorem schMod_maint (i : Nat) (f : StoreCh → StoreCh) (s : State) : (schMod i f s).maint = s.maint := rfl
@[simp] theorem schMod_dacs (i : Nat) (f : StoreCh → StoreCh) (s : State) : (schMod i f s).dacs = s.dacs := rfl
@[simp] theorem schMod_hk (i : Nat) (f : StoreCh → StoreCh) (s : State) : (schMod i f s).hk = s.hk := rfl
@[simp] theorem schMod_loops (i : Nat) (f : StoreCh → StoreCh) (s : State) : (schMod i f s).loops = s.loops := rfl
@[simp] theorem schMod_sec (i : Nat) (f : StoreCh → StoreCh) (s : State) : (schMod i f s).sec = s.sec := rfl
@[simp] theorem schMod_box (i : Nat) (f : StoreCh → StoreCh) (s : State) : (schMod i f s).box = s.box := rfl
@[simp] theorem schMod_rings (i : Nat) (f : StoreCh → StoreCh) (s : State) : (schMod i f s).rings = s.rings := rfl
@[simp] theorem schMod_streams (i : Nat) (f : StoreCh → StoreCh) (s : State) : (schMod i f s).streams = s.streams := rfl
@[simp] theorem schMod_banks (i : Nat) (f : StoreCh → StoreCh) (s : State) : (schMod i f s).banks = s.banks := rfl
@[simp] theorem schMod_fetch (i : Nat) (f : StoreCh → StoreCh) (s : State) : (schMod i f s).fetch = s.fetch := rfl
@[simp] theorem schMod_synth (i : Nat) (f : StoreCh → StoreCh) (s : State) : (schMod i f s).synth = s.synth := rfl
@[simp] theorem schMod_time (i : Nat) (f : StoreCh → StoreCh) (s : State) : (schMod i f s).time = s.time := rfl
@[simp] theorem schMod_eth (i : Nat) (f : StoreCh → StoreCh) (s : State) : (schMod i f s).eth = s.eth := rfl
@[simp] theorem schMod_vita (i : Nat) (f : StoreCh → StoreCh) (s : State) : (schMod i f s).vita = s.vita := rfl
@[simp] theorem schMod_tdc (i : Nat) (f : StoreCh → StoreCh) (s : State) : (schMod i f s).tdc = s.tdc := rfl
@[simp] theorem schMod_link (i : Nat) (f : StoreCh → StoreCh) (s : State) : (schMod i f s).link = s.link := rfl
@[simp] theorem schMod_inputs (i : Nat) (f : StoreCh → StoreCh) (s : State) : (schMod i f s).inputs = s.inputs := rfl
@[simp] theorem schMod_cals (i : Nat) (f : StoreCh → StoreCh) (s : State) : (schMod i f s).cals = s.cals := rfl
@[simp] theorem schMod_ddcEng (i : Nat) (f : StoreCh → StoreCh) (s : State) : (schMod i f s).ddcEng = s.ddcEng := rfl
@[simp] theorem schMod_ddc (i : Nat) (f : StoreCh → StoreCh) (s : State) : (schMod i f s).ddc = s.ddc := rfl
@[simp] theorem schMod_chans (i : Nat) (f : StoreCh → StoreCh) (s : State) : (schMod i f s).chans = s.chans := rfl
@[simp] theorem schMod_xforms (i : Nat) (f : StoreCh → StoreCh) (s : State) : (schMod i f s).xforms = s.xforms := rfl
@[simp] theorem schMod_te (i : Nat) (f : StoreCh → StoreCh) (s : State) : (schMod i f s).te = s.te := rfl
@[simp] theorem schMod_packs (i : Nat) (f : StoreCh → StoreCh) (s : State) : (schMod i f s).packs = s.packs := rfl
@[simp] theorem schMod_fab (i : Nat) (f : StoreCh → StoreCh) (s : State) : (schMod i f s).fab = s.fab := rfl
@[simp] theorem schMod_events (i : Nat) (f : StoreCh → StoreCh) (s : State) : (schMod i f s).events = s.events := rfl
@[simp] theorem schMod_dens (i : Nat) (f : StoreCh → StoreCh) (s : State) : (schMod i f s).dens = s.dens := rfl
@[simp] theorem schMod_disp (i : Nat) (f : StoreCh → StoreCh) (s : State) : (schMod i f s).disp = s.disp := rfl

@[simp] theorem stackMod_pending (i : Nat) (f : StackSt → StackSt) (s : State) : (stackMod i f s).pending = s.pending := rfl
@[simp] theorem stackMod_grade (i : Nat) (f : StackSt → StackSt) (s : State) : (stackMod i f s).grade = s.grade := rfl
@[simp] theorem stackMod_cyc (i : Nat) (f : StackSt → StackSt) (s : State) : (stackMod i f s).cyc = s.cyc := rfl
@[simp] theorem stackMod_mem (i : Nat) (f : StackSt → StackSt) (s : State) : (stackMod i f s).mem = s.mem := rfl
@[simp] theorem stackMod_freeNo (i : Nat) (f : StackSt → StackSt) (s : State) : (stackMod i f s).freeNo = s.freeNo := rfl
@[simp] theorem stackMod_boot (i : Nat) (f : StackSt → StackSt) (s : State) : (stackMod i f s).boot = s.boot := rfl
@[simp] theorem stackMod_power (i : Nat) (f : StackSt → StackSt) (s : State) : (stackMod i f s).power = s.power := rfl
@[simp] theorem stackMod_ev (i : Nat) (f : StackSt → StackSt) (s : State) : (stackMod i f s).ev = s.ev := rfl
@[simp] theorem stackMod_kennel (i : Nat) (f : StackSt → StackSt) (s : State) : (stackMod i f s).kennel = s.kennel := rfl
@[simp] theorem stackMod_junction (i : Nat) (f : StackSt → StackSt) (s : State) : (stackMod i f s).junction = s.junction := rfl
@[simp] theorem stackMod_maint (i : Nat) (f : StackSt → StackSt) (s : State) : (stackMod i f s).maint = s.maint := rfl
@[simp] theorem stackMod_dacs (i : Nat) (f : StackSt → StackSt) (s : State) : (stackMod i f s).dacs = s.dacs := rfl
@[simp] theorem stackMod_hk (i : Nat) (f : StackSt → StackSt) (s : State) : (stackMod i f s).hk = s.hk := rfl
@[simp] theorem stackMod_loops (i : Nat) (f : StackSt → StackSt) (s : State) : (stackMod i f s).loops = s.loops := rfl
@[simp] theorem stackMod_sec (i : Nat) (f : StackSt → StackSt) (s : State) : (stackMod i f s).sec = s.sec := rfl
@[simp] theorem stackMod_box (i : Nat) (f : StackSt → StackSt) (s : State) : (stackMod i f s).box = s.box := rfl
@[simp] theorem stackMod_rings (i : Nat) (f : StackSt → StackSt) (s : State) : (stackMod i f s).rings = s.rings := rfl
@[simp] theorem stackMod_streams (i : Nat) (f : StackSt → StackSt) (s : State) : (stackMod i f s).streams = s.streams := rfl
@[simp] theorem stackMod_banks (i : Nat) (f : StackSt → StackSt) (s : State) : (stackMod i f s).banks = s.banks := rfl
@[simp] theorem stackMod_fetch (i : Nat) (f : StackSt → StackSt) (s : State) : (stackMod i f s).fetch = s.fetch := rfl
@[simp] theorem stackMod_synth (i : Nat) (f : StackSt → StackSt) (s : State) : (stackMod i f s).synth = s.synth := rfl
@[simp] theorem stackMod_time (i : Nat) (f : StackSt → StackSt) (s : State) : (stackMod i f s).time = s.time := rfl
@[simp] theorem stackMod_eth (i : Nat) (f : StackSt → StackSt) (s : State) : (stackMod i f s).eth = s.eth := rfl
@[simp] theorem stackMod_vita (i : Nat) (f : StackSt → StackSt) (s : State) : (stackMod i f s).vita = s.vita := rfl
@[simp] theorem stackMod_tdc (i : Nat) (f : StackSt → StackSt) (s : State) : (stackMod i f s).tdc = s.tdc := rfl
@[simp] theorem stackMod_link (i : Nat) (f : StackSt → StackSt) (s : State) : (stackMod i f s).link = s.link := rfl
@[simp] theorem stackMod_inputs (i : Nat) (f : StackSt → StackSt) (s : State) : (stackMod i f s).inputs = s.inputs := rfl
@[simp] theorem stackMod_cals (i : Nat) (f : StackSt → StackSt) (s : State) : (stackMod i f s).cals = s.cals := rfl
@[simp] theorem stackMod_ddcEng (i : Nat) (f : StackSt → StackSt) (s : State) : (stackMod i f s).ddcEng = s.ddcEng := rfl
@[simp] theorem stackMod_ddc (i : Nat) (f : StackSt → StackSt) (s : State) : (stackMod i f s).ddc = s.ddc := rfl
@[simp] theorem stackMod_chans (i : Nat) (f : StackSt → StackSt) (s : State) : (stackMod i f s).chans = s.chans := rfl
@[simp] theorem stackMod_xforms (i : Nat) (f : StackSt → StackSt) (s : State) : (stackMod i f s).xforms = s.xforms := rfl
@[simp] theorem stackMod_te (i : Nat) (f : StackSt → StackSt) (s : State) : (stackMod i f s).te = s.te := rfl
@[simp] theorem stackMod_packs (i : Nat) (f : StackSt → StackSt) (s : State) : (stackMod i f s).packs = s.packs := rfl
@[simp] theorem stackMod_fab (i : Nat) (f : StackSt → StackSt) (s : State) : (stackMod i f s).fab = s.fab := rfl
@[simp] theorem stackMod_events (i : Nat) (f : StackSt → StackSt) (s : State) : (stackMod i f s).events = s.events := rfl
@[simp] theorem stackMod_dens (i : Nat) (f : StackSt → StackSt) (s : State) : (stackMod i f s).dens = s.dens := rfl
@[simp] theorem stackMod_disp (i : Nat) (f : StackSt → StackSt) (s : State) : (stackMod i f s).disp = s.disp := rfl

@[simp] theorem loopMod_pending (i : Nat) (f : SynthSt → SynthSt) (s : State) : (loopMod i f s).pending = s.pending := rfl
@[simp] theorem loopMod_grade (i : Nat) (f : SynthSt → SynthSt) (s : State) : (loopMod i f s).grade = s.grade := rfl
@[simp] theorem loopMod_cyc (i : Nat) (f : SynthSt → SynthSt) (s : State) : (loopMod i f s).cyc = s.cyc := rfl
@[simp] theorem loopMod_mem (i : Nat) (f : SynthSt → SynthSt) (s : State) : (loopMod i f s).mem = s.mem := rfl
@[simp] theorem loopMod_freeNo (i : Nat) (f : SynthSt → SynthSt) (s : State) : (loopMod i f s).freeNo = s.freeNo := rfl
@[simp] theorem loopMod_boot (i : Nat) (f : SynthSt → SynthSt) (s : State) : (loopMod i f s).boot = s.boot := rfl
@[simp] theorem loopMod_power (i : Nat) (f : SynthSt → SynthSt) (s : State) : (loopMod i f s).power = s.power := rfl
@[simp] theorem loopMod_ev (i : Nat) (f : SynthSt → SynthSt) (s : State) : (loopMod i f s).ev = s.ev := rfl
@[simp] theorem loopMod_kennel (i : Nat) (f : SynthSt → SynthSt) (s : State) : (loopMod i f s).kennel = s.kennel := rfl
@[simp] theorem loopMod_junction (i : Nat) (f : SynthSt → SynthSt) (s : State) : (loopMod i f s).junction = s.junction := rfl
@[simp] theorem loopMod_maint (i : Nat) (f : SynthSt → SynthSt) (s : State) : (loopMod i f s).maint = s.maint := rfl
@[simp] theorem loopMod_dacs (i : Nat) (f : SynthSt → SynthSt) (s : State) : (loopMod i f s).dacs = s.dacs := rfl
@[simp] theorem loopMod_hk (i : Nat) (f : SynthSt → SynthSt) (s : State) : (loopMod i f s).hk = s.hk := rfl
@[simp] theorem loopMod_loops (i : Nat) (f : SynthSt → SynthSt) (s : State) : (loopMod i f s).loops = s.loops := rfl
@[simp] theorem loopMod_sec (i : Nat) (f : SynthSt → SynthSt) (s : State) : (loopMod i f s).sec = s.sec := rfl
@[simp] theorem loopMod_box (i : Nat) (f : SynthSt → SynthSt) (s : State) : (loopMod i f s).box = s.box := rfl
@[simp] theorem loopMod_rings (i : Nat) (f : SynthSt → SynthSt) (s : State) : (loopMod i f s).rings = s.rings := rfl
@[simp] theorem loopMod_streams (i : Nat) (f : SynthSt → SynthSt) (s : State) : (loopMod i f s).streams = s.streams := rfl
@[simp] theorem loopMod_banks (i : Nat) (f : SynthSt → SynthSt) (s : State) : (loopMod i f s).banks = s.banks := rfl
@[simp] theorem loopMod_fetch (i : Nat) (f : SynthSt → SynthSt) (s : State) : (loopMod i f s).fetch = s.fetch := rfl
@[simp] theorem loopMod_store (i : Nat) (f : SynthSt → SynthSt) (s : State) : (loopMod i f s).store = s.store := rfl
@[simp] theorem loopMod_time (i : Nat) (f : SynthSt → SynthSt) (s : State) : (loopMod i f s).time = s.time := rfl
@[simp] theorem loopMod_eth (i : Nat) (f : SynthSt → SynthSt) (s : State) : (loopMod i f s).eth = s.eth := rfl
@[simp] theorem loopMod_vita (i : Nat) (f : SynthSt → SynthSt) (s : State) : (loopMod i f s).vita = s.vita := rfl
@[simp] theorem loopMod_tdc (i : Nat) (f : SynthSt → SynthSt) (s : State) : (loopMod i f s).tdc = s.tdc := rfl
@[simp] theorem loopMod_link (i : Nat) (f : SynthSt → SynthSt) (s : State) : (loopMod i f s).link = s.link := rfl
@[simp] theorem loopMod_inputs (i : Nat) (f : SynthSt → SynthSt) (s : State) : (loopMod i f s).inputs = s.inputs := rfl
@[simp] theorem loopMod_cals (i : Nat) (f : SynthSt → SynthSt) (s : State) : (loopMod i f s).cals = s.cals := rfl
@[simp] theorem loopMod_ddcEng (i : Nat) (f : SynthSt → SynthSt) (s : State) : (loopMod i f s).ddcEng = s.ddcEng := rfl
@[simp] theorem loopMod_ddc (i : Nat) (f : SynthSt → SynthSt) (s : State) : (loopMod i f s).ddc = s.ddc := rfl
@[simp] theorem loopMod_chans (i : Nat) (f : SynthSt → SynthSt) (s : State) : (loopMod i f s).chans = s.chans := rfl
@[simp] theorem loopMod_xforms (i : Nat) (f : SynthSt → SynthSt) (s : State) : (loopMod i f s).xforms = s.xforms := rfl
@[simp] theorem loopMod_te (i : Nat) (f : SynthSt → SynthSt) (s : State) : (loopMod i f s).te = s.te := rfl
@[simp] theorem loopMod_packs (i : Nat) (f : SynthSt → SynthSt) (s : State) : (loopMod i f s).packs = s.packs := rfl
@[simp] theorem loopMod_fab (i : Nat) (f : SynthSt → SynthSt) (s : State) : (loopMod i f s).fab = s.fab := rfl
@[simp] theorem loopMod_events (i : Nat) (f : SynthSt → SynthSt) (s : State) : (loopMod i f s).events = s.events := rfl
@[simp] theorem loopMod_dens (i : Nat) (f : SynthSt → SynthSt) (s : State) : (loopMod i f s).dens = s.dens := rfl
@[simp] theorem loopMod_disp (i : Nat) (f : SynthSt → SynthSt) (s : State) : (loopMod i f s).disp = s.disp := rfl

@[simp] theorem refMod_pending (f : RefSt → RefSt) (s : State) : (refMod f s).pending = s.pending := rfl
@[simp] theorem refMod_grade (f : RefSt → RefSt) (s : State) : (refMod f s).grade = s.grade := rfl
@[simp] theorem refMod_cyc (f : RefSt → RefSt) (s : State) : (refMod f s).cyc = s.cyc := rfl
@[simp] theorem refMod_mem (f : RefSt → RefSt) (s : State) : (refMod f s).mem = s.mem := rfl
@[simp] theorem refMod_freeNo (f : RefSt → RefSt) (s : State) : (refMod f s).freeNo = s.freeNo := rfl
@[simp] theorem refMod_boot (f : RefSt → RefSt) (s : State) : (refMod f s).boot = s.boot := rfl
@[simp] theorem refMod_power (f : RefSt → RefSt) (s : State) : (refMod f s).power = s.power := rfl
@[simp] theorem refMod_ev (f : RefSt → RefSt) (s : State) : (refMod f s).ev = s.ev := rfl
@[simp] theorem refMod_kennel (f : RefSt → RefSt) (s : State) : (refMod f s).kennel = s.kennel := rfl
@[simp] theorem refMod_junction (f : RefSt → RefSt) (s : State) : (refMod f s).junction = s.junction := rfl
@[simp] theorem refMod_maint (f : RefSt → RefSt) (s : State) : (refMod f s).maint = s.maint := rfl
@[simp] theorem refMod_dacs (f : RefSt → RefSt) (s : State) : (refMod f s).dacs = s.dacs := rfl
@[simp] theorem refMod_hk (f : RefSt → RefSt) (s : State) : (refMod f s).hk = s.hk := rfl
@[simp] theorem refMod_loops (f : RefSt → RefSt) (s : State) : (refMod f s).loops = s.loops := rfl
@[simp] theorem refMod_sec (f : RefSt → RefSt) (s : State) : (refMod f s).sec = s.sec := rfl
@[simp] theorem refMod_box (f : RefSt → RefSt) (s : State) : (refMod f s).box = s.box := rfl
@[simp] theorem refMod_rings (f : RefSt → RefSt) (s : State) : (refMod f s).rings = s.rings := rfl
@[simp] theorem refMod_streams (f : RefSt → RefSt) (s : State) : (refMod f s).streams = s.streams := rfl
@[simp] theorem refMod_banks (f : RefSt → RefSt) (s : State) : (refMod f s).banks = s.banks := rfl
@[simp] theorem refMod_fetch (f : RefSt → RefSt) (s : State) : (refMod f s).fetch = s.fetch := rfl
@[simp] theorem refMod_store (f : RefSt → RefSt) (s : State) : (refMod f s).store = s.store := rfl
@[simp] theorem refMod_time (f : RefSt → RefSt) (s : State) : (refMod f s).time = s.time := rfl
@[simp] theorem refMod_eth (f : RefSt → RefSt) (s : State) : (refMod f s).eth = s.eth := rfl
@[simp] theorem refMod_vita (f : RefSt → RefSt) (s : State) : (refMod f s).vita = s.vita := rfl
@[simp] theorem refMod_tdc (f : RefSt → RefSt) (s : State) : (refMod f s).tdc = s.tdc := rfl
@[simp] theorem refMod_link (f : RefSt → RefSt) (s : State) : (refMod f s).link = s.link := rfl
@[simp] theorem refMod_inputs (f : RefSt → RefSt) (s : State) : (refMod f s).inputs = s.inputs := rfl
@[simp] theorem refMod_cals (f : RefSt → RefSt) (s : State) : (refMod f s).cals = s.cals := rfl
@[simp] theorem refMod_ddcEng (f : RefSt → RefSt) (s : State) : (refMod f s).ddcEng = s.ddcEng := rfl
@[simp] theorem refMod_ddc (f : RefSt → RefSt) (s : State) : (refMod f s).ddc = s.ddc := rfl
@[simp] theorem refMod_chans (f : RefSt → RefSt) (s : State) : (refMod f s).chans = s.chans := rfl
@[simp] theorem refMod_xforms (f : RefSt → RefSt) (s : State) : (refMod f s).xforms = s.xforms := rfl
@[simp] theorem refMod_te (f : RefSt → RefSt) (s : State) : (refMod f s).te = s.te := rfl
@[simp] theorem refMod_packs (f : RefSt → RefSt) (s : State) : (refMod f s).packs = s.packs := rfl
@[simp] theorem refMod_fab (f : RefSt → RefSt) (s : State) : (refMod f s).fab = s.fab := rfl
@[simp] theorem refMod_events (f : RefSt → RefSt) (s : State) : (refMod f s).events = s.events := rfl
@[simp] theorem refMod_dens (f : RefSt → RefSt) (s : State) : (refMod f s).dens = s.dens := rfl
@[simp] theorem refMod_disp (f : RefSt → RefSt) (s : State) : (refMod f s).disp = s.disp := rfl

@[simp] theorem axsMod_pending (f : AxsSt → AxsSt) (s : State) : (axsMod f s).pending = s.pending := rfl
@[simp] theorem axsMod_grade (f : AxsSt → AxsSt) (s : State) : (axsMod f s).grade = s.grade := rfl
@[simp] theorem axsMod_cyc (f : AxsSt → AxsSt) (s : State) : (axsMod f s).cyc = s.cyc := rfl
@[simp] theorem axsMod_mem (f : AxsSt → AxsSt) (s : State) : (axsMod f s).mem = s.mem := rfl
@[simp] theorem axsMod_freeNo (f : AxsSt → AxsSt) (s : State) : (axsMod f s).freeNo = s.freeNo := rfl
@[simp] theorem axsMod_boot (f : AxsSt → AxsSt) (s : State) : (axsMod f s).boot = s.boot := rfl
@[simp] theorem axsMod_power (f : AxsSt → AxsSt) (s : State) : (axsMod f s).power = s.power := rfl
@[simp] theorem axsMod_ev (f : AxsSt → AxsSt) (s : State) : (axsMod f s).ev = s.ev := rfl
@[simp] theorem axsMod_kennel (f : AxsSt → AxsSt) (s : State) : (axsMod f s).kennel = s.kennel := rfl
@[simp] theorem axsMod_junction (f : AxsSt → AxsSt) (s : State) : (axsMod f s).junction = s.junction := rfl
@[simp] theorem axsMod_maint (f : AxsSt → AxsSt) (s : State) : (axsMod f s).maint = s.maint := rfl
@[simp] theorem axsMod_dacs (f : AxsSt → AxsSt) (s : State) : (axsMod f s).dacs = s.dacs := rfl
@[simp] theorem axsMod_hk (f : AxsSt → AxsSt) (s : State) : (axsMod f s).hk = s.hk := rfl
@[simp] theorem axsMod_loops (f : AxsSt → AxsSt) (s : State) : (axsMod f s).loops = s.loops := rfl
@[simp] theorem axsMod_sec (f : AxsSt → AxsSt) (s : State) : (axsMod f s).sec = s.sec := rfl
@[simp] theorem axsMod_box (f : AxsSt → AxsSt) (s : State) : (axsMod f s).box = s.box := rfl
@[simp] theorem axsMod_rings (f : AxsSt → AxsSt) (s : State) : (axsMod f s).rings = s.rings := rfl
@[simp] theorem axsMod_streams (f : AxsSt → AxsSt) (s : State) : (axsMod f s).streams = s.streams := rfl
@[simp] theorem axsMod_banks (f : AxsSt → AxsSt) (s : State) : (axsMod f s).banks = s.banks := rfl
@[simp] theorem axsMod_fetch (f : AxsSt → AxsSt) (s : State) : (axsMod f s).fetch = s.fetch := rfl
@[simp] theorem axsMod_store (f : AxsSt → AxsSt) (s : State) : (axsMod f s).store = s.store := rfl
@[simp] theorem axsMod_time (f : AxsSt → AxsSt) (s : State) : (axsMod f s).time = s.time := rfl
@[simp] theorem axsMod_eth (f : AxsSt → AxsSt) (s : State) : (axsMod f s).eth = s.eth := rfl
@[simp] theorem axsMod_vita (f : AxsSt → AxsSt) (s : State) : (axsMod f s).vita = s.vita := rfl
@[simp] theorem axsMod_tdc (f : AxsSt → AxsSt) (s : State) : (axsMod f s).tdc = s.tdc := rfl
@[simp] theorem axsMod_link (f : AxsSt → AxsSt) (s : State) : (axsMod f s).link = s.link := rfl
@[simp] theorem axsMod_inputs (f : AxsSt → AxsSt) (s : State) : (axsMod f s).inputs = s.inputs := rfl
@[simp] theorem axsMod_cals (f : AxsSt → AxsSt) (s : State) : (axsMod f s).cals = s.cals := rfl
@[simp] theorem axsMod_ddcEng (f : AxsSt → AxsSt) (s : State) : (axsMod f s).ddcEng = s.ddcEng := rfl
@[simp] theorem axsMod_ddc (f : AxsSt → AxsSt) (s : State) : (axsMod f s).ddc = s.ddc := rfl
@[simp] theorem axsMod_chans (f : AxsSt → AxsSt) (s : State) : (axsMod f s).chans = s.chans := rfl
@[simp] theorem axsMod_xforms (f : AxsSt → AxsSt) (s : State) : (axsMod f s).xforms = s.xforms := rfl
@[simp] theorem axsMod_te (f : AxsSt → AxsSt) (s : State) : (axsMod f s).te = s.te := rfl
@[simp] theorem axsMod_packs (f : AxsSt → AxsSt) (s : State) : (axsMod f s).packs = s.packs := rfl
@[simp] theorem axsMod_fab (f : AxsSt → AxsSt) (s : State) : (axsMod f s).fab = s.fab := rfl
@[simp] theorem axsMod_events (f : AxsSt → AxsSt) (s : State) : (axsMod f s).events = s.events := rfl
@[simp] theorem axsMod_dens (f : AxsSt → AxsSt) (s : State) : (axsMod f s).dens = s.dens := rfl
@[simp] theorem axsMod_disp (f : AxsSt → AxsSt) (s : State) : (axsMod f s).disp = s.disp := rfl

@[simp] theorem tdcMod_pending (i : Nat) (f : TdcSt → TdcSt) (s : State) : (tdcMod i f s).pending = s.pending := rfl
@[simp] theorem tdcMod_grade (i : Nat) (f : TdcSt → TdcSt) (s : State) : (tdcMod i f s).grade = s.grade := rfl
@[simp] theorem tdcMod_cyc (i : Nat) (f : TdcSt → TdcSt) (s : State) : (tdcMod i f s).cyc = s.cyc := rfl
@[simp] theorem tdcMod_mem (i : Nat) (f : TdcSt → TdcSt) (s : State) : (tdcMod i f s).mem = s.mem := rfl
@[simp] theorem tdcMod_freeNo (i : Nat) (f : TdcSt → TdcSt) (s : State) : (tdcMod i f s).freeNo = s.freeNo := rfl
@[simp] theorem tdcMod_boot (i : Nat) (f : TdcSt → TdcSt) (s : State) : (tdcMod i f s).boot = s.boot := rfl
@[simp] theorem tdcMod_power (i : Nat) (f : TdcSt → TdcSt) (s : State) : (tdcMod i f s).power = s.power := rfl
@[simp] theorem tdcMod_ev (i : Nat) (f : TdcSt → TdcSt) (s : State) : (tdcMod i f s).ev = s.ev := rfl
@[simp] theorem tdcMod_kennel (i : Nat) (f : TdcSt → TdcSt) (s : State) : (tdcMod i f s).kennel = s.kennel := rfl
@[simp] theorem tdcMod_junction (i : Nat) (f : TdcSt → TdcSt) (s : State) : (tdcMod i f s).junction = s.junction := rfl
@[simp] theorem tdcMod_maint (i : Nat) (f : TdcSt → TdcSt) (s : State) : (tdcMod i f s).maint = s.maint := rfl
@[simp] theorem tdcMod_dacs (i : Nat) (f : TdcSt → TdcSt) (s : State) : (tdcMod i f s).dacs = s.dacs := rfl
@[simp] theorem tdcMod_hk (i : Nat) (f : TdcSt → TdcSt) (s : State) : (tdcMod i f s).hk = s.hk := rfl
@[simp] theorem tdcMod_loops (i : Nat) (f : TdcSt → TdcSt) (s : State) : (tdcMod i f s).loops = s.loops := rfl
@[simp] theorem tdcMod_sec (i : Nat) (f : TdcSt → TdcSt) (s : State) : (tdcMod i f s).sec = s.sec := rfl
@[simp] theorem tdcMod_box (i : Nat) (f : TdcSt → TdcSt) (s : State) : (tdcMod i f s).box = s.box := rfl
@[simp] theorem tdcMod_rings (i : Nat) (f : TdcSt → TdcSt) (s : State) : (tdcMod i f s).rings = s.rings := rfl
@[simp] theorem tdcMod_streams (i : Nat) (f : TdcSt → TdcSt) (s : State) : (tdcMod i f s).streams = s.streams := rfl
@[simp] theorem tdcMod_banks (i : Nat) (f : TdcSt → TdcSt) (s : State) : (tdcMod i f s).banks = s.banks := rfl
@[simp] theorem tdcMod_fetch (i : Nat) (f : TdcSt → TdcSt) (s : State) : (tdcMod i f s).fetch = s.fetch := rfl
@[simp] theorem tdcMod_store (i : Nat) (f : TdcSt → TdcSt) (s : State) : (tdcMod i f s).store = s.store := rfl
@[simp] theorem tdcMod_synth (i : Nat) (f : TdcSt → TdcSt) (s : State) : (tdcMod i f s).synth = s.synth := rfl
@[simp] theorem tdcMod_time (i : Nat) (f : TdcSt → TdcSt) (s : State) : (tdcMod i f s).time = s.time := rfl
@[simp] theorem tdcMod_eth (i : Nat) (f : TdcSt → TdcSt) (s : State) : (tdcMod i f s).eth = s.eth := rfl
@[simp] theorem tdcMod_vita (i : Nat) (f : TdcSt → TdcSt) (s : State) : (tdcMod i f s).vita = s.vita := rfl
@[simp] theorem tdcMod_link (i : Nat) (f : TdcSt → TdcSt) (s : State) : (tdcMod i f s).link = s.link := rfl
@[simp] theorem tdcMod_inputs (i : Nat) (f : TdcSt → TdcSt) (s : State) : (tdcMod i f s).inputs = s.inputs := rfl
@[simp] theorem tdcMod_cals (i : Nat) (f : TdcSt → TdcSt) (s : State) : (tdcMod i f s).cals = s.cals := rfl
@[simp] theorem tdcMod_ddcEng (i : Nat) (f : TdcSt → TdcSt) (s : State) : (tdcMod i f s).ddcEng = s.ddcEng := rfl
@[simp] theorem tdcMod_ddc (i : Nat) (f : TdcSt → TdcSt) (s : State) : (tdcMod i f s).ddc = s.ddc := rfl
@[simp] theorem tdcMod_chans (i : Nat) (f : TdcSt → TdcSt) (s : State) : (tdcMod i f s).chans = s.chans := rfl
@[simp] theorem tdcMod_xforms (i : Nat) (f : TdcSt → TdcSt) (s : State) : (tdcMod i f s).xforms = s.xforms := rfl
@[simp] theorem tdcMod_te (i : Nat) (f : TdcSt → TdcSt) (s : State) : (tdcMod i f s).te = s.te := rfl
@[simp] theorem tdcMod_packs (i : Nat) (f : TdcSt → TdcSt) (s : State) : (tdcMod i f s).packs = s.packs := rfl
@[simp] theorem tdcMod_fab (i : Nat) (f : TdcSt → TdcSt) (s : State) : (tdcMod i f s).fab = s.fab := rfl
@[simp] theorem tdcMod_events (i : Nat) (f : TdcSt → TdcSt) (s : State) : (tdcMod i f s).events = s.events := rfl
@[simp] theorem tdcMod_dens (i : Nat) (f : TdcSt → TdcSt) (s : State) : (tdcMod i f s).dens = s.dens := rfl
@[simp] theorem tdcMod_disp (i : Nat) (f : TdcSt → TdcSt) (s : State) : (tdcMod i f s).disp = s.disp := rfl

@[simp] theorem tinMod_pending (i : Nat) (f : TdcIn → TdcIn) (s : State) : (tinMod i f s).pending = s.pending := rfl
@[simp] theorem tinMod_grade (i : Nat) (f : TdcIn → TdcIn) (s : State) : (tinMod i f s).grade = s.grade := rfl
@[simp] theorem tinMod_cyc (i : Nat) (f : TdcIn → TdcIn) (s : State) : (tinMod i f s).cyc = s.cyc := rfl
@[simp] theorem tinMod_mem (i : Nat) (f : TdcIn → TdcIn) (s : State) : (tinMod i f s).mem = s.mem := rfl
@[simp] theorem tinMod_freeNo (i : Nat) (f : TdcIn → TdcIn) (s : State) : (tinMod i f s).freeNo = s.freeNo := rfl
@[simp] theorem tinMod_boot (i : Nat) (f : TdcIn → TdcIn) (s : State) : (tinMod i f s).boot = s.boot := rfl
@[simp] theorem tinMod_power (i : Nat) (f : TdcIn → TdcIn) (s : State) : (tinMod i f s).power = s.power := rfl
@[simp] theorem tinMod_ev (i : Nat) (f : TdcIn → TdcIn) (s : State) : (tinMod i f s).ev = s.ev := rfl
@[simp] theorem tinMod_kennel (i : Nat) (f : TdcIn → TdcIn) (s : State) : (tinMod i f s).kennel = s.kennel := rfl
@[simp] theorem tinMod_junction (i : Nat) (f : TdcIn → TdcIn) (s : State) : (tinMod i f s).junction = s.junction := rfl
@[simp] theorem tinMod_maint (i : Nat) (f : TdcIn → TdcIn) (s : State) : (tinMod i f s).maint = s.maint := rfl
@[simp] theorem tinMod_dacs (i : Nat) (f : TdcIn → TdcIn) (s : State) : (tinMod i f s).dacs = s.dacs := rfl
@[simp] theorem tinMod_hk (i : Nat) (f : TdcIn → TdcIn) (s : State) : (tinMod i f s).hk = s.hk := rfl
@[simp] theorem tinMod_loops (i : Nat) (f : TdcIn → TdcIn) (s : State) : (tinMod i f s).loops = s.loops := rfl
@[simp] theorem tinMod_sec (i : Nat) (f : TdcIn → TdcIn) (s : State) : (tinMod i f s).sec = s.sec := rfl
@[simp] theorem tinMod_box (i : Nat) (f : TdcIn → TdcIn) (s : State) : (tinMod i f s).box = s.box := rfl
@[simp] theorem tinMod_rings (i : Nat) (f : TdcIn → TdcIn) (s : State) : (tinMod i f s).rings = s.rings := rfl
@[simp] theorem tinMod_streams (i : Nat) (f : TdcIn → TdcIn) (s : State) : (tinMod i f s).streams = s.streams := rfl
@[simp] theorem tinMod_banks (i : Nat) (f : TdcIn → TdcIn) (s : State) : (tinMod i f s).banks = s.banks := rfl
@[simp] theorem tinMod_fetch (i : Nat) (f : TdcIn → TdcIn) (s : State) : (tinMod i f s).fetch = s.fetch := rfl
@[simp] theorem tinMod_store (i : Nat) (f : TdcIn → TdcIn) (s : State) : (tinMod i f s).store = s.store := rfl
@[simp] theorem tinMod_synth (i : Nat) (f : TdcIn → TdcIn) (s : State) : (tinMod i f s).synth = s.synth := rfl
@[simp] theorem tinMod_time (i : Nat) (f : TdcIn → TdcIn) (s : State) : (tinMod i f s).time = s.time := rfl
@[simp] theorem tinMod_eth (i : Nat) (f : TdcIn → TdcIn) (s : State) : (tinMod i f s).eth = s.eth := rfl
@[simp] theorem tinMod_vita (i : Nat) (f : TdcIn → TdcIn) (s : State) : (tinMod i f s).vita = s.vita := rfl
@[simp] theorem tinMod_link (i : Nat) (f : TdcIn → TdcIn) (s : State) : (tinMod i f s).link = s.link := rfl
@[simp] theorem tinMod_inputs (i : Nat) (f : TdcIn → TdcIn) (s : State) : (tinMod i f s).inputs = s.inputs := rfl
@[simp] theorem tinMod_cals (i : Nat) (f : TdcIn → TdcIn) (s : State) : (tinMod i f s).cals = s.cals := rfl
@[simp] theorem tinMod_ddcEng (i : Nat) (f : TdcIn → TdcIn) (s : State) : (tinMod i f s).ddcEng = s.ddcEng := rfl
@[simp] theorem tinMod_ddc (i : Nat) (f : TdcIn → TdcIn) (s : State) : (tinMod i f s).ddc = s.ddc := rfl
@[simp] theorem tinMod_chans (i : Nat) (f : TdcIn → TdcIn) (s : State) : (tinMod i f s).chans = s.chans := rfl
@[simp] theorem tinMod_xforms (i : Nat) (f : TdcIn → TdcIn) (s : State) : (tinMod i f s).xforms = s.xforms := rfl
@[simp] theorem tinMod_te (i : Nat) (f : TdcIn → TdcIn) (s : State) : (tinMod i f s).te = s.te := rfl
@[simp] theorem tinMod_packs (i : Nat) (f : TdcIn → TdcIn) (s : State) : (tinMod i f s).packs = s.packs := rfl
@[simp] theorem tinMod_fab (i : Nat) (f : TdcIn → TdcIn) (s : State) : (tinMod i f s).fab = s.fab := rfl
@[simp] theorem tinMod_events (i : Nat) (f : TdcIn → TdcIn) (s : State) : (tinMod i f s).events = s.events := rfl
@[simp] theorem tinMod_dens (i : Nat) (f : TdcIn → TdcIn) (s : State) : (tinMod i f s).dens = s.dens := rfl
@[simp] theorem tinMod_disp (i : Nat) (f : TdcIn → TdcIn) (s : State) : (tinMod i f s).disp = s.disp := rfl

@[simp] theorem timeMod_pending (f : TimeSt → TimeSt) (s : State) : (timeMod f s).pending = s.pending := rfl
@[simp] theorem timeMod_grade (f : TimeSt → TimeSt) (s : State) : (timeMod f s).grade = s.grade := rfl
@[simp] theorem timeMod_cyc (f : TimeSt → TimeSt) (s : State) : (timeMod f s).cyc = s.cyc := rfl
@[simp] theorem timeMod_mem (f : TimeSt → TimeSt) (s : State) : (timeMod f s).mem = s.mem := rfl
@[simp] theorem timeMod_freeNo (f : TimeSt → TimeSt) (s : State) : (timeMod f s).freeNo = s.freeNo := rfl
@[simp] theorem timeMod_boot (f : TimeSt → TimeSt) (s : State) : (timeMod f s).boot = s.boot := rfl
@[simp] theorem timeMod_power (f : TimeSt → TimeSt) (s : State) : (timeMod f s).power = s.power := rfl
@[simp] theorem timeMod_ev (f : TimeSt → TimeSt) (s : State) : (timeMod f s).ev = s.ev := rfl
@[simp] theorem timeMod_kennel (f : TimeSt → TimeSt) (s : State) : (timeMod f s).kennel = s.kennel := rfl
@[simp] theorem timeMod_junction (f : TimeSt → TimeSt) (s : State) : (timeMod f s).junction = s.junction := rfl
@[simp] theorem timeMod_maint (f : TimeSt → TimeSt) (s : State) : (timeMod f s).maint = s.maint := rfl
@[simp] theorem timeMod_dacs (f : TimeSt → TimeSt) (s : State) : (timeMod f s).dacs = s.dacs := rfl
@[simp] theorem timeMod_hk (f : TimeSt → TimeSt) (s : State) : (timeMod f s).hk = s.hk := rfl
@[simp] theorem timeMod_loops (f : TimeSt → TimeSt) (s : State) : (timeMod f s).loops = s.loops := rfl
@[simp] theorem timeMod_sec (f : TimeSt → TimeSt) (s : State) : (timeMod f s).sec = s.sec := rfl
@[simp] theorem timeMod_box (f : TimeSt → TimeSt) (s : State) : (timeMod f s).box = s.box := rfl
@[simp] theorem timeMod_rings (f : TimeSt → TimeSt) (s : State) : (timeMod f s).rings = s.rings := rfl
@[simp] theorem timeMod_streams (f : TimeSt → TimeSt) (s : State) : (timeMod f s).streams = s.streams := rfl
@[simp] theorem timeMod_banks (f : TimeSt → TimeSt) (s : State) : (timeMod f s).banks = s.banks := rfl
@[simp] theorem timeMod_fetch (f : TimeSt → TimeSt) (s : State) : (timeMod f s).fetch = s.fetch := rfl
@[simp] theorem timeMod_store (f : TimeSt → TimeSt) (s : State) : (timeMod f s).store = s.store := rfl
@[simp] theorem timeMod_synth (f : TimeSt → TimeSt) (s : State) : (timeMod f s).synth = s.synth := rfl
@[simp] theorem timeMod_time (f : TimeSt → TimeSt) (s : State) : (timeMod f s).time = f s.time := rfl
@[simp] theorem timeMod_eth (f : TimeSt → TimeSt) (s : State) : (timeMod f s).eth = s.eth := rfl
@[simp] theorem timeMod_vita (f : TimeSt → TimeSt) (s : State) : (timeMod f s).vita = s.vita := rfl
@[simp] theorem timeMod_tdc (f : TimeSt → TimeSt) (s : State) : (timeMod f s).tdc = s.tdc := rfl
@[simp] theorem timeMod_link (f : TimeSt → TimeSt) (s : State) : (timeMod f s).link = s.link := rfl
@[simp] theorem timeMod_inputs (f : TimeSt → TimeSt) (s : State) : (timeMod f s).inputs = s.inputs := rfl
@[simp] theorem timeMod_cals (f : TimeSt → TimeSt) (s : State) : (timeMod f s).cals = s.cals := rfl
@[simp] theorem timeMod_ddcEng (f : TimeSt → TimeSt) (s : State) : (timeMod f s).ddcEng = s.ddcEng := rfl
@[simp] theorem timeMod_ddc (f : TimeSt → TimeSt) (s : State) : (timeMod f s).ddc = s.ddc := rfl
@[simp] theorem timeMod_chans (f : TimeSt → TimeSt) (s : State) : (timeMod f s).chans = s.chans := rfl
@[simp] theorem timeMod_xforms (f : TimeSt → TimeSt) (s : State) : (timeMod f s).xforms = s.xforms := rfl
@[simp] theorem timeMod_te (f : TimeSt → TimeSt) (s : State) : (timeMod f s).te = s.te := rfl
@[simp] theorem timeMod_packs (f : TimeSt → TimeSt) (s : State) : (timeMod f s).packs = s.packs := rfl
@[simp] theorem timeMod_fab (f : TimeSt → TimeSt) (s : State) : (timeMod f s).fab = s.fab := rfl
@[simp] theorem timeMod_events (f : TimeSt → TimeSt) (s : State) : (timeMod f s).events = s.events := rfl
@[simp] theorem timeMod_dens (f : TimeSt → TimeSt) (s : State) : (timeMod f s).dens = s.dens := rfl
@[simp] theorem timeMod_disp (f : TimeSt → TimeSt) (s : State) : (timeMod f s).disp = s.disp := rfl

@[simp] theorem ptpMod_pending (f : PtpSt → PtpSt) (s : State) : (ptpMod f s).pending = s.pending := rfl
@[simp] theorem ptpMod_grade (f : PtpSt → PtpSt) (s : State) : (ptpMod f s).grade = s.grade := rfl
@[simp] theorem ptpMod_cyc (f : PtpSt → PtpSt) (s : State) : (ptpMod f s).cyc = s.cyc := rfl
@[simp] theorem ptpMod_mem (f : PtpSt → PtpSt) (s : State) : (ptpMod f s).mem = s.mem := rfl
@[simp] theorem ptpMod_freeNo (f : PtpSt → PtpSt) (s : State) : (ptpMod f s).freeNo = s.freeNo := rfl
@[simp] theorem ptpMod_boot (f : PtpSt → PtpSt) (s : State) : (ptpMod f s).boot = s.boot := rfl
@[simp] theorem ptpMod_power (f : PtpSt → PtpSt) (s : State) : (ptpMod f s).power = s.power := rfl
@[simp] theorem ptpMod_ev (f : PtpSt → PtpSt) (s : State) : (ptpMod f s).ev = s.ev := rfl
@[simp] theorem ptpMod_kennel (f : PtpSt → PtpSt) (s : State) : (ptpMod f s).kennel = s.kennel := rfl
@[simp] theorem ptpMod_junction (f : PtpSt → PtpSt) (s : State) : (ptpMod f s).junction = s.junction := rfl
@[simp] theorem ptpMod_maint (f : PtpSt → PtpSt) (s : State) : (ptpMod f s).maint = s.maint := rfl
@[simp] theorem ptpMod_dacs (f : PtpSt → PtpSt) (s : State) : (ptpMod f s).dacs = s.dacs := rfl
@[simp] theorem ptpMod_hk (f : PtpSt → PtpSt) (s : State) : (ptpMod f s).hk = s.hk := rfl
@[simp] theorem ptpMod_loops (f : PtpSt → PtpSt) (s : State) : (ptpMod f s).loops = s.loops := rfl
@[simp] theorem ptpMod_sec (f : PtpSt → PtpSt) (s : State) : (ptpMod f s).sec = s.sec := rfl
@[simp] theorem ptpMod_box (f : PtpSt → PtpSt) (s : State) : (ptpMod f s).box = s.box := rfl
@[simp] theorem ptpMod_rings (f : PtpSt → PtpSt) (s : State) : (ptpMod f s).rings = s.rings := rfl
@[simp] theorem ptpMod_streams (f : PtpSt → PtpSt) (s : State) : (ptpMod f s).streams = s.streams := rfl
@[simp] theorem ptpMod_banks (f : PtpSt → PtpSt) (s : State) : (ptpMod f s).banks = s.banks := rfl
@[simp] theorem ptpMod_fetch (f : PtpSt → PtpSt) (s : State) : (ptpMod f s).fetch = s.fetch := rfl
@[simp] theorem ptpMod_store (f : PtpSt → PtpSt) (s : State) : (ptpMod f s).store = s.store := rfl
@[simp] theorem ptpMod_synth (f : PtpSt → PtpSt) (s : State) : (ptpMod f s).synth = s.synth := rfl
@[simp] theorem ptpMod_eth (f : PtpSt → PtpSt) (s : State) : (ptpMod f s).eth = s.eth := rfl
@[simp] theorem ptpMod_vita (f : PtpSt → PtpSt) (s : State) : (ptpMod f s).vita = s.vita := rfl
@[simp] theorem ptpMod_tdc (f : PtpSt → PtpSt) (s : State) : (ptpMod f s).tdc = s.tdc := rfl
@[simp] theorem ptpMod_link (f : PtpSt → PtpSt) (s : State) : (ptpMod f s).link = s.link := rfl
@[simp] theorem ptpMod_inputs (f : PtpSt → PtpSt) (s : State) : (ptpMod f s).inputs = s.inputs := rfl
@[simp] theorem ptpMod_cals (f : PtpSt → PtpSt) (s : State) : (ptpMod f s).cals = s.cals := rfl
@[simp] theorem ptpMod_ddcEng (f : PtpSt → PtpSt) (s : State) : (ptpMod f s).ddcEng = s.ddcEng := rfl
@[simp] theorem ptpMod_ddc (f : PtpSt → PtpSt) (s : State) : (ptpMod f s).ddc = s.ddc := rfl
@[simp] theorem ptpMod_chans (f : PtpSt → PtpSt) (s : State) : (ptpMod f s).chans = s.chans := rfl
@[simp] theorem ptpMod_xforms (f : PtpSt → PtpSt) (s : State) : (ptpMod f s).xforms = s.xforms := rfl
@[simp] theorem ptpMod_te (f : PtpSt → PtpSt) (s : State) : (ptpMod f s).te = s.te := rfl
@[simp] theorem ptpMod_packs (f : PtpSt → PtpSt) (s : State) : (ptpMod f s).packs = s.packs := rfl
@[simp] theorem ptpMod_fab (f : PtpSt → PtpSt) (s : State) : (ptpMod f s).fab = s.fab := rfl
@[simp] theorem ptpMod_events (f : PtpSt → PtpSt) (s : State) : (ptpMod f s).events = s.events := rfl
@[simp] theorem ptpMod_dens (f : PtpSt → PtpSt) (s : State) : (ptpMod f s).dens = s.dens := rfl
@[simp] theorem ptpMod_disp (f : PtpSt → PtpSt) (s : State) : (ptpMod f s).disp = s.disp := rfl

@[simp] theorem xMod_pending (i : Nat) (f : XformSt → XformSt) (s : State) : (xMod i f s).pending = s.pending := rfl
@[simp] theorem xMod_grade (i : Nat) (f : XformSt → XformSt) (s : State) : (xMod i f s).grade = s.grade := rfl
@[simp] theorem xMod_cyc (i : Nat) (f : XformSt → XformSt) (s : State) : (xMod i f s).cyc = s.cyc := rfl
@[simp] theorem xMod_mem (i : Nat) (f : XformSt → XformSt) (s : State) : (xMod i f s).mem = s.mem := rfl
@[simp] theorem xMod_freeNo (i : Nat) (f : XformSt → XformSt) (s : State) : (xMod i f s).freeNo = s.freeNo := rfl
@[simp] theorem xMod_boot (i : Nat) (f : XformSt → XformSt) (s : State) : (xMod i f s).boot = s.boot := rfl
@[simp] theorem xMod_power (i : Nat) (f : XformSt → XformSt) (s : State) : (xMod i f s).power = s.power := rfl
@[simp] theorem xMod_ev (i : Nat) (f : XformSt → XformSt) (s : State) : (xMod i f s).ev = s.ev := rfl
@[simp] theorem xMod_kennel (i : Nat) (f : XformSt → XformSt) (s : State) : (xMod i f s).kennel = s.kennel := rfl
@[simp] theorem xMod_junction (i : Nat) (f : XformSt → XformSt) (s : State) : (xMod i f s).junction = s.junction := rfl
@[simp] theorem xMod_maint (i : Nat) (f : XformSt → XformSt) (s : State) : (xMod i f s).maint = s.maint := rfl
@[simp] theorem xMod_dacs (i : Nat) (f : XformSt → XformSt) (s : State) : (xMod i f s).dacs = s.dacs := rfl
@[simp] theorem xMod_hk (i : Nat) (f : XformSt → XformSt) (s : State) : (xMod i f s).hk = s.hk := rfl
@[simp] theorem xMod_loops (i : Nat) (f : XformSt → XformSt) (s : State) : (xMod i f s).loops = s.loops := rfl
@[simp] theorem xMod_sec (i : Nat) (f : XformSt → XformSt) (s : State) : (xMod i f s).sec = s.sec := rfl
@[simp] theorem xMod_box (i : Nat) (f : XformSt → XformSt) (s : State) : (xMod i f s).box = s.box := rfl
@[simp] theorem xMod_rings (i : Nat) (f : XformSt → XformSt) (s : State) : (xMod i f s).rings = s.rings := rfl
@[simp] theorem xMod_streams (i : Nat) (f : XformSt → XformSt) (s : State) : (xMod i f s).streams = s.streams := rfl
@[simp] theorem xMod_banks (i : Nat) (f : XformSt → XformSt) (s : State) : (xMod i f s).banks = s.banks := rfl
@[simp] theorem xMod_fetch (i : Nat) (f : XformSt → XformSt) (s : State) : (xMod i f s).fetch = s.fetch := rfl
@[simp] theorem xMod_store (i : Nat) (f : XformSt → XformSt) (s : State) : (xMod i f s).store = s.store := rfl
@[simp] theorem xMod_synth (i : Nat) (f : XformSt → XformSt) (s : State) : (xMod i f s).synth = s.synth := rfl
@[simp] theorem xMod_time (i : Nat) (f : XformSt → XformSt) (s : State) : (xMod i f s).time = s.time := rfl
@[simp] theorem xMod_eth (i : Nat) (f : XformSt → XformSt) (s : State) : (xMod i f s).eth = s.eth := rfl
@[simp] theorem xMod_vita (i : Nat) (f : XformSt → XformSt) (s : State) : (xMod i f s).vita = s.vita := rfl
@[simp] theorem xMod_tdc (i : Nat) (f : XformSt → XformSt) (s : State) : (xMod i f s).tdc = s.tdc := rfl
@[simp] theorem xMod_link (i : Nat) (f : XformSt → XformSt) (s : State) : (xMod i f s).link = s.link := rfl
@[simp] theorem xMod_inputs (i : Nat) (f : XformSt → XformSt) (s : State) : (xMod i f s).inputs = s.inputs := rfl
@[simp] theorem xMod_cals (i : Nat) (f : XformSt → XformSt) (s : State) : (xMod i f s).cals = s.cals := rfl
@[simp] theorem xMod_ddcEng (i : Nat) (f : XformSt → XformSt) (s : State) : (xMod i f s).ddcEng = s.ddcEng := rfl
@[simp] theorem xMod_ddc (i : Nat) (f : XformSt → XformSt) (s : State) : (xMod i f s).ddc = s.ddc := rfl
@[simp] theorem xMod_chans (i : Nat) (f : XformSt → XformSt) (s : State) : (xMod i f s).chans = s.chans := rfl
@[simp] theorem xMod_te (i : Nat) (f : XformSt → XformSt) (s : State) : (xMod i f s).te = s.te := rfl
@[simp] theorem xMod_packs (i : Nat) (f : XformSt → XformSt) (s : State) : (xMod i f s).packs = s.packs := rfl
@[simp] theorem xMod_fab (i : Nat) (f : XformSt → XformSt) (s : State) : (xMod i f s).fab = s.fab := rfl
@[simp] theorem xMod_events (i : Nat) (f : XformSt → XformSt) (s : State) : (xMod i f s).events = s.events := rfl
@[simp] theorem xMod_dens (i : Nat) (f : XformSt → XformSt) (s : State) : (xMod i f s).dens = s.dens := rfl
@[simp] theorem xMod_disp (i : Nat) (f : XformSt → XformSt) (s : State) : (xMod i f s).disp = s.disp := rfl

@[simp] theorem cMod_pending (i : Nat) (f : ChanSt → ChanSt) (s : State) : (cMod i f s).pending = s.pending := rfl
@[simp] theorem cMod_grade (i : Nat) (f : ChanSt → ChanSt) (s : State) : (cMod i f s).grade = s.grade := rfl
@[simp] theorem cMod_cyc (i : Nat) (f : ChanSt → ChanSt) (s : State) : (cMod i f s).cyc = s.cyc := rfl
@[simp] theorem cMod_mem (i : Nat) (f : ChanSt → ChanSt) (s : State) : (cMod i f s).mem = s.mem := rfl
@[simp] theorem cMod_freeNo (i : Nat) (f : ChanSt → ChanSt) (s : State) : (cMod i f s).freeNo = s.freeNo := rfl
@[simp] theorem cMod_boot (i : Nat) (f : ChanSt → ChanSt) (s : State) : (cMod i f s).boot = s.boot := rfl
@[simp] theorem cMod_power (i : Nat) (f : ChanSt → ChanSt) (s : State) : (cMod i f s).power = s.power := rfl
@[simp] theorem cMod_ev (i : Nat) (f : ChanSt → ChanSt) (s : State) : (cMod i f s).ev = s.ev := rfl
@[simp] theorem cMod_kennel (i : Nat) (f : ChanSt → ChanSt) (s : State) : (cMod i f s).kennel = s.kennel := rfl
@[simp] theorem cMod_junction (i : Nat) (f : ChanSt → ChanSt) (s : State) : (cMod i f s).junction = s.junction := rfl
@[simp] theorem cMod_maint (i : Nat) (f : ChanSt → ChanSt) (s : State) : (cMod i f s).maint = s.maint := rfl
@[simp] theorem cMod_dacs (i : Nat) (f : ChanSt → ChanSt) (s : State) : (cMod i f s).dacs = s.dacs := rfl
@[simp] theorem cMod_hk (i : Nat) (f : ChanSt → ChanSt) (s : State) : (cMod i f s).hk = s.hk := rfl
@[simp] theorem cMod_loops (i : Nat) (f : ChanSt → ChanSt) (s : State) : (cMod i f s).loops = s.loops := rfl
@[simp] theorem cMod_sec (i : Nat) (f : ChanSt → ChanSt) (s : State) : (cMod i f s).sec = s.sec := rfl
@[simp] theorem cMod_box (i : Nat) (f : ChanSt → ChanSt) (s : State) : (cMod i f s).box = s.box := rfl
@[simp] theorem cMod_rings (i : Nat) (f : ChanSt → ChanSt) (s : State) : (cMod i f s).rings = s.rings := rfl
@[simp] theorem cMod_streams (i : Nat) (f : ChanSt → ChanSt) (s : State) : (cMod i f s).streams = s.streams := rfl
@[simp] theorem cMod_banks (i : Nat) (f : ChanSt → ChanSt) (s : State) : (cMod i f s).banks = s.banks := rfl
@[simp] theorem cMod_fetch (i : Nat) (f : ChanSt → ChanSt) (s : State) : (cMod i f s).fetch = s.fetch := rfl
@[simp] theorem cMod_store (i : Nat) (f : ChanSt → ChanSt) (s : State) : (cMod i f s).store = s.store := rfl
@[simp] theorem cMod_synth (i : Nat) (f : ChanSt → ChanSt) (s : State) : (cMod i f s).synth = s.synth := rfl
@[simp] theorem cMod_time (i : Nat) (f : ChanSt → ChanSt) (s : State) : (cMod i f s).time = s.time := rfl
@[simp] theorem cMod_eth (i : Nat) (f : ChanSt → ChanSt) (s : State) : (cMod i f s).eth = s.eth := rfl
@[simp] theorem cMod_vita (i : Nat) (f : ChanSt → ChanSt) (s : State) : (cMod i f s).vita = s.vita := rfl
@[simp] theorem cMod_tdc (i : Nat) (f : ChanSt → ChanSt) (s : State) : (cMod i f s).tdc = s.tdc := rfl
@[simp] theorem cMod_link (i : Nat) (f : ChanSt → ChanSt) (s : State) : (cMod i f s).link = s.link := rfl
@[simp] theorem cMod_inputs (i : Nat) (f : ChanSt → ChanSt) (s : State) : (cMod i f s).inputs = s.inputs := rfl
@[simp] theorem cMod_cals (i : Nat) (f : ChanSt → ChanSt) (s : State) : (cMod i f s).cals = s.cals := rfl
@[simp] theorem cMod_ddcEng (i : Nat) (f : ChanSt → ChanSt) (s : State) : (cMod i f s).ddcEng = s.ddcEng := rfl
@[simp] theorem cMod_ddc (i : Nat) (f : ChanSt → ChanSt) (s : State) : (cMod i f s).ddc = s.ddc := rfl
@[simp] theorem cMod_xforms (i : Nat) (f : ChanSt → ChanSt) (s : State) : (cMod i f s).xforms = s.xforms := rfl
@[simp] theorem cMod_te (i : Nat) (f : ChanSt → ChanSt) (s : State) : (cMod i f s).te = s.te := rfl
@[simp] theorem cMod_packs (i : Nat) (f : ChanSt → ChanSt) (s : State) : (cMod i f s).packs = s.packs := rfl
@[simp] theorem cMod_fab (i : Nat) (f : ChanSt → ChanSt) (s : State) : (cMod i f s).fab = s.fab := rfl
@[simp] theorem cMod_events (i : Nat) (f : ChanSt → ChanSt) (s : State) : (cMod i f s).events = s.events := rfl
@[simp] theorem cMod_dens (i : Nat) (f : ChanSt → ChanSt) (s : State) : (cMod i f s).dens = s.dens := rfl
@[simp] theorem cMod_disp (i : Nat) (f : ChanSt → ChanSt) (s : State) : (cMod i f s).disp = s.disp := rfl

end Sys2Proof.Machine
end

