-- ==== Sys2Proof/Laws/Verb.lean ====
section
/-! SUPPORT. What an accepted or refused verb does, said once. -/
set_option Elab.async false
namespace Sys2Proof.Machine
open Sys2Proof

/-- What acceptance says, one clause at a time. -/
theorem Accepts.parts {v : Verb} {c : Cmd} {s : State} (h : Accepts v c s) :
    cmdOpen s c.path = true ∧ pathRefusal s v.op c.path = none ∧ awaitsHost s v.op c = false ∧ mustHold s v.op c = false ∧ mustForward s v.op c = false ∧
    (v.whole = true ∨ (expand s c.unit = [c.unit] ∧ isA s .pack c.unit = false)) ∧
    (unitOf s c.unit).isSome = true ∧ v.fits s c.unit = true ∧ worstCond (v.checks c s) = (0, []) := by
  simpa [Accepts, and_assoc] using h

/-- An accepted command addresses its one unit. -/
theorem verbUnits_accepts {v : Verb} {c : Cmd} {s : State} (h : Accepts v c s) : verbUnits v c s = [c.unit] := by
  obtain ⟨_, _, _, _, _, hu, hi, _, _⟩ := h.parts
  unfold verbUnits
  rcases hu with hu | ⟨he, hk⟩
  · simp [hu]
  · cases hu : unitOf s c.unit <;> simp_all

/-- A request that the junction can act on does not wait for another (R29). -/
theorem junctionWaits_open {c : Cmd} {s : State} (h : cmdOpen s c.path = true) : junctionWaits s c = none := by
  unfold junctionWaits
  cases hc : c.path with
  | mailbox m => rfl
  | junction p => simp_all [cmdOpen]

/-- Nothing stands against an accepted command. -/
theorem judge_accepts {v : Verb} {c : Cmd} {s : State} (h : Accepts v c s) : judge v c s c.unit = ((0, []), c.unit) := by
  obtain ⟨_, _, _, _, _, _, hi, hfit, hw⟩ := h.parts
  unfold judge
  simp [hi, hfit, hw]

/-- A verb on one unit acts and replies. -/
theorem actOn_eq (v : Verb) (c : Cmd) (s : State) : actOn v c s c.unit = reply c v.op (v.act c s) := by
  unfold actOn reply
  rcases v.act c s with ⟨s', _ | ⟨st, res⟩⟩ <;> rfl

/-- An accepted verb acts on its unit and answers. -/
theorem runVerb_accepts {v : Verb} {c : Cmd} {s : State} (h : Accepts v c s) :
    runVerb v c s = hostPurge (srcRanges s v.op c) (reply c v.op (v.act c (begun v c s))) := by
  have h1 := verbUnits_accepts h
  have h2 := judge_accepts h
  obtain ⟨ho, hp, hh, hm, hf, _⟩ := h.parts
  have hj := junctionWaits_open ho
  unfold runVerb runVerbHeld runVerbNow
  simp [ho, hp, hh, hm, hf, hj, h1, h2, worstFound, actOn_eq, begun]

/-- An accepted verb that answers OK at once, from what its act gives. -/
theorem answers_of {i : Instr} {v : Verb} {c : Cmd} {s : State} {res : Bytes} {f : State → State} (h : Accepts v c s)
    (hi : exec i s = settle s (runVerb v c s)) (ha : v.act c (begun v c s) = okWith (f (begun v c s)) res) : Answers i v c s res f := by
  unfold Answers
  rw [hi, runVerb_accepts h, ha]
  rfl

/-- An accepted verb whose answer waits. -/
theorem waits_of {i : Instr} {v : Verb} {c : Cmd} {s : State} {f : State → State} (h : Accepts v c s)
    (hi : exec i s = settle s (runVerb v c s)) (ha : v.act c (begun v c s) = later (f (begun v c s))) : Waits i v c s f := by
  unfold Waits
  rw [hi, runVerb_accepts h, ha]
  rfl

/-- What an accepted verb does, from its act. -/
theorem does_of {i : Instr} {v : Verb} {c : Cmd} {s : State} {P : State → Prop} (h : Accepts v c s)
    (hi : exec i s = settle s (runVerb v c s)) (hp : P (settled s (hostPurge (srcRanges s v.op c) (reply c v.op (v.act c (begun v c s)))))) : Does i s P :=
  ⟨_, hi.trans (congrArg (settle s) (runVerb_accepts h)), hp⟩

end Sys2Proof.Machine
end

