-- ==== Sys2Proof/Tests/Slice0.lean ====
section
/-! SUPPORT. Tests: ill-formed commands, commands on small states, and states that meet the hypotheses of the statements. -/
namespace Sys2Proof.Tests
open Sys2Proof Sys2Proof.Machine

-- Checked one after another: the kernel checks of many theorems at once each hold a thread and its stack.
set_option Elab.async false

/-! ### Small states -/

/-- A device in a stage of bring-up. -/
def atStage (n : Nat) : State := { State.reset with boot := { stage := BitVec.ofNat 4 n } }

/-- A READY device with its main rails up. -/
def upState : State := { State.reset with boot := { stage := 7, mainOn := true } }

/-- Bond B0 is UP. -/
def linkUp (s : State) : State := { s with link := { s.link with bond := s.link.bond.set 0 { (vget s.link.bond 0) with phase := .up } } }

/-- A READY device with a store rate change running. -/
def busyUp : State := { upState with maint := { running := [⟨1, 1, 0x0800, 0, 3, 0, false, none, 0, 0⟩] } }

/-- A command over SMBus. -/
def smb (unit : Handle) (args : Bytes) : Cmd := { path := .junction .smbus, seq := 7, unit := unit, args := args }

/-- A command from mailbox 0. -/
def mb (unit : Handle) (args : Bytes) : Cmd := { path := .mailbox 0, seq := 7, unit := unit, args := args }

/-- Mailbox 0's command ring with n descriptors published and none taken. -/
def cmdRing (n : Nat) : RingCtx := { id := 0, base := mbxBase .g880x, log2 := 12, type := 1, owner := 0xFFFF, policy := 0, producer := 64 * n }

/-- Mailbox 0's response ring with n responses published and none consumed. -/
def rspRing (n : Nat) : RingCtx := { id := 0x40, base := mbxBase .g880x + 0x40000, log2 := 12, type := 2, owner := 0x0010, policy := 0, producer := 64 * n }

/-- A READY device with the two rings of mailbox 0. -/
def ringed (n k : Nat) : State := { upState with rings := [cmdRing n, rspRing k] }

/-- One descriptor waits in mailbox 0. -/
def withDesc (b : Bytes) : State := rawWrite (mbxBase .g880x) b (ringed 1 0)


/-- Pack P0 with inputs IN0 and IN7 in it. -/
def packed : State := { upState with packs := [{ handle := 0x8000, slots := [{ member := some 0x0100 }, { member := some 0x0107 }] }] }

/-- The capture ring of IN0, empty. -/
def capRing : RingCtx := { id := 0x100, base := 0x100000000, log2 := 20, type := 4, owner := 0x0100, policy := 1 }

/-- A READY device with the capture ring of IN0. -/
def sampleRinged : State := { upState with rings := [capRing] }

/-- Trigger 3 of engine 0 is defined. -/
def trigged : State := { upState with events := { upState.events with eng := vmod upState.events.eng 0 fun e => { e with
  trig := vmod e.trig 3 fun g => { g with defn := some (List.replicate 256 0) } } } }

/-- Channeliser 1 and analysis 1 exist on pack 0x8000. -/
def worked : State := { packed with
  chans := [{ id := 1, pack := 0x8000, ring := 0x100, log2N := 10, ovs := false, fmt8 := false, taps := 8, shift := 0 }]
  xforms := [{ id := 1, pack := 0x8000, cfg := 0 }] }

/-- A stream of ring 0x100 on bond B0. -/
def streamed : State := { sampleRinged with streams := [{ ring := 0x100, bond := 0, vc := 0, maxPayload := 1024, sendPos := 0 }] }

/-- Every verb of a list is accepted. -/
def accepted (l : List (Verb × Cmd × State)) : Bool := l.all fun x => decide (Accepts x.1 x.2.1 x.2.2)

/-- A signed image of 64 zero bytes: its type, which is also one more than its vendor key, its version, the key's point, and the signature,
whose r and s are both the hash of what is signed. The key is the point for which they verify. -/
def testImage (type ver qx qy z : Nat) : Bytes :=
  le 4 0x4F494D47 ++ le 1 type ++ [0] ++ le 1 (type - 1) ++ [0xFF] ++ le 4 ver ++ le 4 64 ++
  be 48 0xc516aa8d3b457c636c6826937099c0d23a13f2c3701a388b3c8fe4bc2073281b0c4462610369884c4ababa8e97b6debe ++
  keyBytes (qx, qy) ++ List.replicate 97 0 ++ be 48 z ++ be 48 z ++ List.replicate 222 0

/-- The three images of a slot. -/
def testImages : List Bytes :=
  [testImage 1 0 0x554e6b809d0310705330c94acb254a2053a991dc13af15b3c23985aee9151f3bc50ff808fd3edfdaf8d60ceb5b33d98e
     0x43f22bc62a0882cfd261014e92fddd8964dc24b42e2bd72076860ae12066f10b8d4daf754f41da7ffc467a692449af46
     0x4ca760ca264511bd8cae4b8c5a4f339dc422183d6cc38f29c67f60173be9b0cf840fe1522239b8966df6b580a8f37b33,
   testImage 2 1 0x2b2d9f9a413745772ab98afe5e5516c6fd5017acf5f1569f82ab3e3adf7a376f6b435a953716ecfb0006beb4dec2d237
     0x2253813a92ee4c787b818b1d1f75962ca0748e9c7542b602cf04be59a557e22b5b4ea74b65257ae79d7a9cc28699268a
     0x55847dcc0d3dba9290a179f89d1123030d1358efe1cac2a7c99b47b8bebfe738674bf08a946c8c70f5a784974f2364d1,
   testImage 3 15 0x6c06b510ec6d39ba2c25f20e9dd7d5bd1161fe48c3958182e61cca5cbf1359c7f29d931390a8c87835bcae8aebb1cce4
     0x72acab2bb79a3900f0a1efcff0348ce940f406ea2934836b219f7ce927d7f5650382e6616bd2faef34410a351a1be8ab
     0x6985cd5049e9f89aa9d81eeb892eca3f3a1b25c1b62ba267f241926938cf72e96da3fee2ab3e71230d752ae95a1653e5]

/-- A slot image of images i and on, whose header names them. -/
def testSlot (l : List Bytes) (i : Nat) : Bytes :=
  let h := le 4 0x4F534C54 ++ le 4 1 ++ List.replicate (8 * i) 0 ++ (List.range l.length).flatMap (fun k => le 4 (64 + 576 * k) ++ le 4 576) ++
    List.replicate (52 - 8 * i - 8 * l.length) 0
  h ++ le 4 (crc32 h).toNat ++ l.flatten

/-- The boot flash with it in slot 0, as the bytes that are not zero. -/
def testFlash (l : List Bytes) (i : Nat) : List Host.Cell := ((testSlot l i).zipIdx.map fun (b, a) => (a, b)).filter fun x => x.2 != 0

/-- A device whose boot flash holds n images of slot 0 from image i on, with the hashes of their keys in OTP. -/
def signed (i n : Nat) (s : State) : State :=
  { s with sec := { s.sec with
      flash := testFlash ((testImages.drop i).take n) i
      otp := { s.sec.otp with vendorHash := testImages.map fun m => sha384 (bytesAt m 64 97) } } }

/-! ### States that meet the hypotheses of the statements -/

/-- StepServesFront. -/
theorem wit_queue : ({ State.reset with pending := [.boxEntryWrite, .kennelReport] } : State).pending = .boxEntryWrite :: [.kennelReport] ∧
    State.reset.pending = [] := ⟨rfl, rfl⟩

/-- AdjustmentIsSlewedOut: an adjustment that takes more than one cycle. -/
theorem wit_adjust : let s : State := { State.reset with time := { counter := 2 ^ 80, adjust := 2 ^ 40 } }
    s.pending = [] ∧ s.time.increment + ppm (tMaxSlew s) ≤ nominalInc + ppm 500 ∧ nominalInc + ppm (tMaxSlew s) ≤ s.time.increment + ppm 500 ∧ ppm (tMaxSlew s) < s.time.adjust.natAbs := by decide +kernel

/-- ReservedEnablesStay: the last reserved source, and an absent one of the OMT7-480. -/
theorem wit_reserved : (inRuns reservedSources 255 || inRuns (absentSources .g880x) 255) = true ∧
    (inRuns reservedSources 0x14 || inRuns (absentSources .g480) 0x14) = true ∧ bitAt State.reset.ev.enable 255 = false := by decide +kernel

/-- MemoryOperations. -/
theorem wit_memory : Memory.wf [(3, 1), (7, 255)] = true ∧ 3 ≤ 5 := by decide

/-- BringUpSteps, one state for each clause that an ordinary state meets. -/
theorem wit_bringup : (stage State.reset = 0 ∧ 1580 < 1581) ∧
    (let s := atStage 1; stage s = 1 ∧ s.boot.linkMgmt = false ∧ s.boot.slotsTried = [] ∧ (slotOrder s).head? = some 0 ∧
      slotReason s 0 1 ≠ 0 ∧ slotReason s 1 1 ≠ 0) ∧
    step3Due { atStage 2 with power := { vinMain := { aboveSince := some 0 } }, cyc := 1000000 } = true ∧
    (let s := atStage 3; stage s = 3 ∧ s.boot.reentry3 = false ∧ s.boot.linkBoot = false ∧ s.boot.linkMgmt = false) ∧
    stage (atStage 4) = 4 ∧ stage (atStage 5) = 5 ∧ stage (atStage 6) = 6 ∧ fgLeft (atStage 6) = false := by decide +kernel

theorem wit_bringup_firmware : (slotOrder (signed 0 1 (atStage 1))).head? = some 0 ∧ slotReason (signed 0 1 (atStage 1)) 0 1 = 0 := by decide +kernel

theorem wit_bringup_images : (let s := signed 1 2 (atStage 3); stage s = 3 ∧ s.boot.reentry3 = false ∧ s.boot.linkBoot = false ∧ s.boot.linkMgmt = false ∧
      s.boot.bootSlot = 0) ∧
    slotReason (signed 1 2 (atStage 3)) 0 2 = 0 ∧ slotReason (signed 1 2 (atStage 3)) 0 3 = 0 := by decide +kernel

/-- A device that waits for a link image. -/
def linkBooting : State := { atStage 3 with cyc := 10 * secC, boot := { stage := 3, linkBoot := true } }

/-- The header of a link image set. -/
def linkHead : Bytes := let h := le 4 0x4F4D5437 ++ List.replicate 56 0; h ++ le 4 (crc32 h).toNat

/-- BringUpFailures. -/
theorem wit_bringup_fails : (let s : State := { atStage 4 with cyc := 200 * msC + 1 }; stepBound s = some (0, 200) ∧ 0 + 200 * msC < s.cyc) ∧
    (let s : State := { atStage 2 with power := { vinMain := { aboveSince := some 0 } }, cyc := 1000000, boot := { stage := 2 } }
     step3Due s = true ∧ s.boot.mainOn = false) ∧ stage (atStage 4) = 4 ∧
    (let s := linkBooting; stage s = 3 ∧ s.boot.reentry3 = false ∧ s.boot.linkBoot = true ∧ s.boot.linkTaken = false ∧ s.boot.linkMgmt = false ∧
     10 * secC ≤ since s s.boot.linkWaitStart ∧ numAt (linkHeader s) 0 4 ≠ 0x4F4D5437) ∧
    (let s := rawWrite 0 linkHead linkBooting; numAt (linkHeader s) 0 4 = 0x4F4D5437 ∧
     numAt (linkHeader s) 60 4 = (crc32 ((linkHeader s).take 60)).toNat ∧ s.boot.linkTaken = false) := by decide +kernel

/-- Resets. -/
theorem wit_resets : (let s : State := { upState with boot := { upState.boot with pendingReset := some { origin := 1, mailbox := 0, seq := 0, due := 0 } } }
     s.boot.pendingReset = some { origin := 1, mailbox := 0, seq := 0, due := 0 } ∧ 0 ≤ s.cyc ∧ s.boot.mainOn = true ∧ s.power.tripped = false ∧ rateHoldsD s = false) ∧
    (let s := linkUp upState; pathOpen s (.junction .cozor) = true ∧ s.boot.mainOn = true ∧ s.boot.pendingReset = none ∧ s.power.tripped = false ∧ s.boot.resetNLow = false) ∧
    ({ upState.boot with resetNLow := true } : BootState).resetNLow = true ∧
    (let s : State := { atStage 8 with cyc := 1000000, boot := { stage := 8, mHeld := true } }; s.boot.mHeld = true ∧ s.boot.offFor ≤ since s s.boot.railsOffAt) ∧
    1549 < 1550 ∧ upState.power.vinAux.dip = none ∧
    ({ upState with power := { vinAux := { dip := some ⟨0, 1600⟩ } } } : State).power.vinAux.dip.isSome = true := by
  decide +kernel

/-- SuppliesAndRails, at the edges of the ranges. -/
theorem wit_supplies : (stage upState ≠ 0 ∧ 10600 ≤ 10600 ∧ 1650 ≤ 1650 ∧ upState.power.vinMain.dip = none ∧ upState.power.vinAux.dip = none) ∧
    (let s : State := { upState with power := { vinMain := { belowWarn := 1, mv := 10500 } } }
     stage s ≠ 0 ∧ 10599 < 10600 ∧ 9800 ≤ 10599 ∧ s.boot.mainOn = true ∧ s.power.vinMain.dip = none ∧ s.power.vinAux.dip = none ∧ s.power.vinMain.belowWarn = 1) ∧
    (let s : State := { upState with power := { vinMain := { belowReset := 5 } } }; stage s ≠ 0 ∧ 9799 < 9800 ∧ s.boot.mainOn = true ∧ s.power.vinMain.belowReset = 5) ∧
    (let s : State := { upState with power := { vinAux := { belowReset := 5 } } }; stage s ≠ 0 ∧ 1549 < 1550 ∧ s.power.vinAux.belowReset = 5) ∧
    (let s : State := { upState with cyc := 100 * msC, boot := { upState.boot with vinMainLow := true }, power := { vinMain := { dip := some ⟨0, 10000⟩, aboveSince := some 0 } } }
     (supplyOf .main s).dip = some ⟨0, 10000⟩ ∧ (supplyOf .main s).aboveSince = some 0 ∧ msC ≤ since s 0 ∧ s.boot.vinMainLow = true ∧ 100 * msC ≤ since s 0) ∧
    (railThere upState 9 = true ∧ bitAt upState.power.railOut 9 = false ∧ railIn upState.fab.vfab 9 0 = false) ∧
    (let s : State := { upState with cyc := 90 * usC, power := { railOut := 1 } }; railThere s 0 = true ∧ bitAt s.power.railOut 0 = true ∧
     90 * usC ≤ since s (vget s.power.railOutAt 0)) := by decide +kernel

/-- Temperature. -/
theorem wit_temperature : (stage upState ≠ 0 ∧ upState.power.thermalWarn = false ∧ (hottest (Vector.replicate 8 849)).1 < 10 * (fld upState.power.cfg 7 0 : Nat) ∧
      (hottest (Vector.replicate 8 849)).1 < 850) ∧
    (10 * ((fld upState.power.cfg 7 0 : Nat) : Int) ≤ (hottest (Vector.replicate 8 950)).1 ∧ (hottest (Vector.replicate 8 950)).1 < 1100) ∧
    (let s : State := { upState with power := { tripReadings := 1 } }; stage s ≠ 0 ∧ 1100 ≤ (hottest (Vector.replicate 8 1100)).1 ∧ 1 ≤ s.power.tripReadings ∧ s.power.tripped = false) ∧
    (let s : State := { upState with cyc := 10 * secC, power := { tripped := true, coolSince := some 0 } }
     s.power.tripped = true ∧ s.power.cooled = false ∧ s.power.coolSince = some 0 ∧ 10 * secC ≤ since s 0 ∧ bitAt s.power.cfg 8 = false) ∧
    (upState.boot.mainOn = true ∧ 3 < nStacks upState.grade ∧ upState.power.tripped = false) := by decide +kernel

/-- WatchdogAndPowerStates. -/
theorem wit_power : (isReady upState = true ∧ upState.boot.pendingReset = none) ∧
    (let s : State := { upState with cyc := secC }; isReady s = true ∧ secC ≤ since s s.boot.lastReport ∧ s.boot.pendingReset = none ∧
     (s.boot.hangResets.filter fun c => since s c < 3600 * secC).length < 3) ∧
    (let s : State := { upState with cyc := secC, boot := { upState.boot with hangResets := [1, 2, 3] } }; isReady s = true ∧
     secC ≤ since s s.boot.lastReport ∧ s.boot.pendingReset = none ∧ 3 ≤ (s.boot.hangResets.filter fun c => since s c < 3600 * secC).length) ∧
    (let s : State := { upState with power := { state := .quiet, transition := some (.quiet, []) } }
     s.power.transition = some (.quiet, []) ∧ s.power.state = .quiet ∧ quietRate s = false) ∧
    Accepts vPwrConfigure (smb 0x1000 [70, 0, 0, 0]) upState ∧ Accepts vPwrCycleMain (smb 0x1000 [10, 0, 0, 0]) upState ∧
    (Accepts vPwrSetState (withByte (smb 0x1000 [0]) 0 0) upState ∧ Accepts vPwrSetState (withByte (smb 0x1000 [0]) 0 1) busyUp ∧
     Accepts vPwrSetState (withByte (smb 0x1000 [0]) 0 2) upState) ∧
    (upState.power.transition = none ∧ upState.power.state = .active ∧ busyUp.power.transition = none ∧ busyUp.power.state = .active ∧ quietHeld busyUp = true) ∧
    ({ upState.power with transition := some (.standby, []) } : PowerSt).transition = some (.standby, []) := by
  decide +kernel

/-- WindowWrites: over the Cozor path of a READY device. -/
theorem wit_window : (let s := linkUp upState; winOpen s .cozor 0x024 = true ∧ winOpen s .cozor 0x05C = true ∧ winOpen s .cozor 0x07C = true ∧
      winOpen s .cozor 0x17C = true ∧ winOpen s .cozor 0x200 = true ∧ winOpen s .cozor 0x208 = true ∧ winOpen s .cozor 0x20C = true ∧
      winOpen s .cozor 0x23C = true ∧ winOpen s .cozor 0x240 = true ∧ winOpen s .cozor 0x300 = true ∧ winOpen s .cozor 0x400 = true ∧
      pathOpen s (.junction .cozor) = true ∧ (bankOf s .cozor).busy = false) ∧
    (let s := bankedMod .cozor (fun b => { b with busy := true }) (linkUp upState); winOpen s .cozor 0x23C = true ∧ (bankOf s .cozor).busy = true) ∧
    winOpen upState .smbus 0x060 = false := by decide +kernel

/-- WindowReads. -/
theorem wit_window_reads : (wideOf (0x040 : BitVec 12).toNat = some (0x040, 8) ∧ winOpen (linkUp upState) .cozor 0x040 = true ∧ winOpen (linkUp upState) .cozor 0x05C = true ∧
      winOpen upState .smbus 0x37C = true) ∧ stage upState ≠ 0 ∧
    smbusSpan upState 32 = true ∧ smbusSpan upState 4 = true ∧ smbusSpan upState 36 = false ∧ smbusSpan { upState with junction := { smbusPtr := 0xFFC } } 4 = true := by
  decide +kernel

/-- JunctionServes: a request of the side port that repeats the last, one of an opcode that the junction does not take, and one too long. -/
theorem wit_junction : stage upState ≠ 0 ∧ (bankNext upState = none ∧ upState.kennel.forwards = []) ∧
    (let s := bankedMod .smbus (fun b => { b with busy := true, opcode := 0x1A04, last := some ⟨0, 0x1A04, 0, 0, 0, []⟩ }) upState
     stage s ≠ 0 ∧ bankNext s = some .smbus ∧ (bankOf s .smbus).last = some ⟨0, 0x1A04, 0, 0, 0, []⟩ ∧ (bankOf s .smbus).seq = 0 ∧ (bankOf s .smbus).unit = 0 ∧
     (s.junction.cozor.serving || s.junction.smbus.serving || s.junction.kennel.serving) = false) ∧
    (let s := bankedMod .cozor (fun b => { b with busy := true, opcode := 0x1F02 }) upState
     bankNext s = some .cozor ∧ s.junction.smbus.busy = false ∧ (bankOf s .cozor).last = none ∧ junctionOp (bankOf s .cozor).opcode.toNat = false) ∧
    (let s := bankedMod .smbus (fun b => { b with busy := true, opcode := 0x1A04, len := 49 }) upState
     bankNext s = some .smbus ∧ (bankOf s .smbus).last = none ∧ 48 < (bankOf s .smbus).len.toNat) ∧
    (let s := bankedMod .kennel (fun b => { b with busy := true }) upState
     s.junction.smbus.busy = false ∧ s.junction.cozor.busy = false ∧ s.junction.kennel.busy = true ∧ s.junction.kennel.serving = false) ∧
    (bankedMod .cozor (fun b => { b with serving := true }) upState).junction.cozor.serving = true := by decide +kernel

/-- WhistleWrites: room for one descriptor, and none. -/
theorem wit_whistle : isReady (ringed 63 1) = true ∧ ringOf (ringed 63 1) 0 = some (cmdRing 63) ∧ ringOf (ringed 63 1) 0x40 = some (rspRing 1) ∧
    1 ≤ 64 - occupancy (cmdRing 63) / 64 ∧ 64 - occupancy (cmdRing 64) / 64 < 1 ∧ 1 ≤ occupancy (rspRing 1) / 64 ∧ (vget (ringed 63 1).kennel.mbx 0).held = [] := by
  decide +kernel

/-- MailboxTakes: an unparsable descriptor, one that the replay record holds, and a new one. -/
theorem wit_take : (∀ m : Fin 64, (vget (withDesc [0, 0, 4]).kennel.mbx m).fenced = [] ∧ headMissing (withDesc [0, 0, 4]) m = []) ∧
    (let s := withDesc [0, 0, 4]; isReady s = true ∧ canTake s s.kennel.turn = true ∧ headBad s s.kennel.turn = false ∧ (headOf s 0).any descBad = true) ∧
    (let s := withDesc [4, 0x1F]; (headOf s 0).any (fun d => !descBad d && (descArgs s d).isSome && !descExt d) = true ∧
     (vget s.kennel.mbx 0).replay.find? (·.seq == 0) = none ∧ (vget s.kennel.mbx 0).inProgress = [] ∧ (vget s.kennel.mbx 0).held = []) ∧
    (let s := mbxMod 0 (fun x => { x with replay := [⟨0, 0x1F04, 0, 0, 0, []⟩] }) (withDesc [4, 0x1F])
     canTake s s.kennel.turn = true ∧ (vget s.kennel.mbx 0).replay.find? (·.seq == 0) = some ⟨0, 0x1F04, 0, 0, 0, []⟩) := by decide +kernel

/-- InterimResponses. -/
theorem wit_interim : let s : State := mbxMod 0 (fun x => { x with inProgress := [⟨7, 0x0F03, 0x0900, 0, false, false, 1, (0, 0), 0, 1, 0⟩] }) { ringed 0 62 with cyc := 50 * msC }
    isReady s = true ∧ fld s.kennel.devCfg 15 0 * msC / 2 ≤ since s 0 ∧ s.maint.queue = [] ∧ (vget s.kennel.mbx 0).held = [] ∧ Memory.wf s.mem = true ∧
    ringOf s 0x40 = some (rspRing 62) := by decide +kernel

/-- MailboxResponse: the last slot but one of the ring. -/
theorem wit_response : let s := ringed 0 62
    Accepts vDevConfigure (mb 0x0000 [10, 0]) s ∧ Memory.wf s.mem = true ∧ ringOf s 0x40 = some (rspRing 62) ∧
    ((rspRing 62).log2 = 12 ∧ (rspRing 62).type = 2 ∧ (rspRing 62).policy = 0 ∧ (rspRing 62).watermark = 0 ∧ (rspRing 62).overSince = 0 ∧ (rspRing 62).stopped = false) ∧
    (rspRing 62).producer % 64 = 0 ∧ occupancy (rspRing 62) + 128 ≤ 4096 ∧ regionOf s.grade (rspRing 62).base = .store ∧
    (vget s.kennel.mbx 0).held = [] ∧ (vget s.kennel.mbx 0).inProgress = [] := by decide +kernel

/-- ArbiterGrants: a request queued behind a running one that it shares with, and a group of two. -/
theorem wit_arbiter : let s := busyUp
    s.maint.lastTick ≠ some (nowUs s) ∧ s.maint.reinits = [] ∧ s.power.transition = none ∧ s.maint.running.Pairwise (fun a b => shares a b = false) ∧
    s.maint.running ≠ [] := by
  refine ⟨by decide, rfl, rfl, ?_, ?_⟩ <;> decide +kernel

/-- DeviceAndMaintenanceVerbs. -/
theorem wit_device : Accepts vDevConfigure (mb 0 [0x10, 0x27]) upState ∧ Accepts vDevEventRoute (mb 0 [5, 255, 0, 0, 1, 0, 0, 0]) upState ∧ Accepts vDevReset (mb 0 [0]) upState ∧
    Accepts vUnitReinit (mb 0x091F []) upState ∧ unitOf upState 0x091F = some (.bank, 31) ∧ upState.kennel.faulted.contains 0x091F = false ∧ upState.boot.pendingReset = none ∧ Accepts vUnitState (mb 0x0107 []) upState ∧
    Accepts vMaintConfigure (mb 0x1000 [3, 0, 0, 0]) upState ∧ Accepts vMaintStatus (mb 0x1000 (le 6 0x100000)) busyUp ∧
    Accepts vMaintCancel (mb 0x1000 [9, 0]) { upState with maint := { queue := [⟨9, 1, 0x0800, 0, 3, 0, true, none, 0, 0⟩] } } ∧
    (let r : MaintReq := ⟨1, 1, 0x0800, 0, 3, 0, false, none, 0, 0⟩
     let s : State := { busyUp with cyc := 22001 }; s.maint.running.find? (·.ticket == r.ticket) = some r ∧ r.activity ≠ 3 ∧ 2 * maintBound r.activity * usC < since s r.since) ∧
    (let s : State := { upState with cyc := 600 * secC, sec := { challenge := some ([], 0) } }; s.sec.challenge = some ([], 0) ∧ 600 * secC ≤ since s 0) := by decide +kernel

/-- VerbsAct: on one unit, and through a pack of two. -/
theorem wit_verbs_act : Accepts vInputStatus (mb 0x0101 [0]) upState ∧
    Served vInputStatus (mb 0x8000 [0]) packed ∧ vInputStatus.whole = false ∧ (packOf packed 0x8000).isSome ∧ vInputStatus.pack = false ∧ expand packed 0x8000 = [0x0100, 0x0107] ∧
    isA packed .pack 0x8000 = true ∧ ((expand packed 0x8000).all fun u => (unitOf packed u).isSome && vInputStatus.fits packed u && (vInputStatus.checks (mb u [0]) packed).isEmpty) = true := by
  decide +kernel
theorem wit_verbs_row : asVerb (.inputStatus (mb 0x8000 [0])) = some (vInputStatus, mb 0x8000 [0]) := rfl

/-- VerbsRefuse: a handle of another kind, and a count beyond the log. -/
theorem wit_verbs_refuse : let s := upState
    asVerb (.devConfigure (mb 0 [9, 0])) = some (vDevConfigure, mb 0 [9, 0]) ∧ Served vDevConfigure (mb 0 [9, 0]) s ∧ packOf s 0x0000 = none ∧
    ((unitOf s 0x0100).isSome && vDevConfigure.fits s 0x0100) = false ∧ ((unitOf s 0x0000).isSome && vDevConfigure.fits s 0x0000) = true ∧
    (∃ x ∈ vDevConfigure.checks (mb 0 [9, 0]) s, x.1 = true ∧ 0 < x.2.1) := by
  refine ⟨rfl, ?_⟩; decide +kernel

/-- StatusRecords: every one is accepted, with CLEAR 0. -/
theorem wit_status : accepted [(vDevStatus, mb 0x0000 [0], upState),
    (vPackStatus, mb 0x8000 [0], packed),
    (vInputStatus, mb 0x0107 [0], upState),
    (vCalStatus, mb 0x0117 [0], upState),
    (vDdcStatus, mb 0x037F [0], upState),
    (vDispStatus, mb 0x0700 [0], upState),
    (vStoreStatus, mb 0x0804 [0], upState),
    (vBankStatus, mb 0x091F [0], upState),
    (vFetchStatus, mb 0x0A20 [0], upState),
    (vTimeStatus, mb 0x0D00 [0], upState),
    (vEthStatus, mb 0x0E0F [0], upState),
    (vTdcStatus, mb 0x0D13 [0], upState),
    (vLinkStatus, mb 0x0F07 [0], upState),
    (vDacStatus, mb 0x101B [0], upState),
    (vHkStatus, mb 0x1020 [0], upState),
    (vLinkLaneStatus, mb 0x0F9F [0], upState),
    (vThermStatus, mb 0x1037 [0], upState),
    (vSecStatus, mb 0x1100 [0], upState),
    (vXformStatus, mb 0x8000 [1, 0], worked)] = true := by decide +kernel
/-- StatusRecords with CLEAR. -/
theorem wit_clears : accepted [(vDevStatus, mb 0 [1], upState), (vDispStatus, mb 0x0700 [1], upState), (vFetchStatus, mb 0x0A01 [1], upState), (vEthStatus, mb 0x0E00 [1], upState),
    (vLinkStatus, mb 0x0F00 [1], upState), (vDacStatus, mb 0x1010 [1], upState), (vHkStatus, mb 0x1020 [1], upState), (vCalStatus, mb 0x0110 [1], upState),
    (vDdcStatus, mb 0x0300 [1], upState), (vPackStatus, mb 0x8000 [1], packed), (vInputStatus, mb 0x0107 [1], upState), (vBankStatus, mb 0x091F [1], upState),
    (vStoreStatus, mb 0x0800 [1], upState), (vTimeStatus, mb 0x0D00 [1], upState), (vTdcStatus, mb 0x0D13 [1], upState), (vPwrStatus, mb 0x1000 [1], upState), (vPwrStatus, mb 0x1000 [0], upState)] = true ∧ argBit (mb 0 [1]) 0 0 = true := by decide +kernel

/-- ReadsAnswer. -/
theorem wit_reads : accepted [(vTimeRead, mb 0x0D00 [], upState), (vMeasStatus, mb 0x0500 [], upState), (vRecStatus, mb 0x0B00 [0, 1, 0, 0], sampleRinged), (vTrigStatus, mb 0x0500 [3, 0], trigged),
    (vChanStatus, mb 0x8000 [1, 0], worked), (vBoxStatus, mb 0x1101 [], { upState with box := { nextSeq := 5 } }), (vRingStatus, mb 0x0B00 [0, 1, 0, 0], sampleRinged), (vStreamStatus, mb 0x0F00 [0, 1, 0, 0], streamed)] = true ∧
    (ringOf sampleRinged 0x100).isSome ∧ (streamArg (mb 0x0F00 [0, 1, 0, 0]) streamed).isSome ∧
    (worked.chans.find? fun x => x.id == 1 && x.pack == 0x8000).isSome := by decide +kernel

/-- PackVerbs: lists go to bank 0. -/
theorem wit_packs : accepted [(vPackCreate, mb 0x0000 [], packed), (vPackAdd, mb 0x8000 [1, 1, 0xFF, 0xFF], packed), (vPackRemove, mb 0x8000 [1, 0], packed),
    (vPackDissolve, mb 0x8008 [], { packed with packs := [{ handle := 0x8008, slots := [] }] }), (vPackList, mb 0x8000 [0, 0, 0, 0, 0, 0], packed),
    (vPackSelftest, mb 0x0447 [], { packed with packs := [{ handle := 0x80FF, slots := [{ member := some 0x0447 }] }] }),
    (vUnitList, mb 0x0000 [0, 0, 0xFF, 0xFF, 0, 0, 0, 0, 0, 0], packed)] = true ∧ (packOf packed 0x8000).isSome := by decide +kernel

/-- Engine 71 holds slot 0 of P0, with an item out for 10 µs; it left a slot of P1 before. -/
def engined : State := { packed with
  cyc := 1000, packs := [{ handle := 0x8000, slots := [{ member := some 0x0447, epoch := 3 }] }]
  te := vmod packed.te 71 fun t => { t with items := [⟨.xform, 1, 0, false⟩], selftest := some none, left := some (0x8001, 0) } }
/-- EngineRows. -/
theorem wit_engine : (parentOf engined 0x0447 = some (0x8000, 0) ∧ (vget engined.te 71).items ≠ [] ∧ 10 * usC ≤ since engined (vget engined.te 71).handshake) ∧
    (vget engined.te 0).items = [] ∧
    (epochHolds engined (engineHandle 71) 0x8000 0 3 = true ∧ epochHolds engined (engineHandle 87) 0x050F 0 0 = true ∧
     regionOf engined.grade 0x100000000 = .store ∧ Memory.wf engined.mem = true) ∧
    (epochHolds engined (engineHandle 72) 0x0500 0 1 = false ∧ 72 ≤ 72) ∧
    (epochHolds engined (engineHandle 0) 0x8000 0 3 = false ∧ (vget engined.te 0).left = none) ∧
    (let s : State := { engined with te := vmod engined.te 71 fun t => { t with quarantine := true } }
     epochHolds s (engineHandle 71) 0x8001 0 1 = false ∧ (vget s.te 71).quarantine = true) ∧
    (epochHolds engined (engineHandle 71) 0x8001 0 1 = false ∧ 71 < 72 ∧ (vget engined.te 71).left.isSome = true ∧ (vget engined.te 71).quarantine = false) ∧
    (vget engined.te 71).selftest = some none := by decide +kernel

/-- A capture ring of IN0 that holds one block, and a running analysis of 64 points over it on P0 with engine 71. -/
def working : State := { engined with
  rings := [{ capRing with producer := 1088, entries := [⟨0, 1088, 1, 0, 0⟩] }]
  te := packed.te
  xforms := [{ id := 1, pack := 0x8000, cfg := BitVec.ofNat 256 (0x100 + (6 <<< 24) + (1 <<< 64)), running := true, origin := some 0 }] }
/-- WorkRows: nothing is due before the item. -/
theorem wit_work_quiet : (worksOf working 0x8000).foldl (fun s w => pump w.kind w.id s) working = working ∧ (worksOf working 0x8000).foldl workBegin working = working ∧
    (worksOf working 0x8000).foldl workGap working = working ∧ (worksOf working 0x8000).foldl (workLag 0x8000) working = working := ⟨rfl, rfl, rfl, rfl⟩
/-- WorkRows: an item is ready and goes to engine 71; an item that completes ahead of item 0; the pool timer with one spare. -/
theorem wit_work : (let s := working; s.power.state = .active ∧ packReady s 0x8000 = some ⟨.xform, 1, 0, false⟩ ∧
      s.packs.all (fun q => q.slots.all (·.promote.isNone)) = true ∧ packEngine s 0x8000 = some 71) ∧
    (let s : State := { working with te := vmod packed.te 71 fun t => { t with items := [⟨.xform, 1, 0, false⟩, ⟨.xform, 1, 1, false⟩] } }
     (vget s.te 71).items[1]? = some ⟨.xform, 1, 1, false⟩ ∧ (s.xforms.find? fun x => x.id == 1).any (fun x => x.running && decide (x.publish < 1) && x.skips.isEmpty && x.completed.isEmpty &&
       decide (x.publish / xM x.cfg ≤ x.formed)) = true ∧ s.packs.all (fun p => p.reinits.isEmpty) = true) ∧
    (let s : State := { packed with cyc := 10 * secC, packs := [{ handle := 0x80FF, slots := [{}, { member := some 0x0447 }] }] }
     10 * secC ≤ since s s.fab.poolTest.1 ∧ isReady s = true ∧ isIdle s 0x80FF = true ∧ (packOf s 0x80FF).isSome ∧ idx 0x0447 < 72) := by decide +kernel

/-- IN0 converts into its capture ring of 1 MB, a SPECTRAL and a bundle ring of P0 stand beside, and engine 71 is in P0. -/
def sourced : State := { working with
  rings := [{ capRing with log2 := 30 }, { id := 0x101, base := 0x180000000, log2 := 20, type := 6, owner := 0x8000, policy := 1 },
    { id := 0x102, base := 0x190000000, log2 := 20, type := 7, owner := 0x8000, policy := 1 }]
  inputs := vmod packed.inputs 0 fun x => { x with cfg := 0x1000C1, running := true } }
/-- An analysis of ring 0x100 into ring 0x101 with 64 bins. -/
def xRec : BitVec 256 := BitVec.ofNat 256 (0x100 + (6 <<< 24) + (1 <<< 64) + (0x101 <<< 96))
/-- The same state with definition 1 stopped, and with channeliser 1, stopped or running. -/
def sourcedIdle : State := { sourced with xforms := [{ id := 1, pack := 0x8000, cfg := xRec }] }
def sourcedChan (run : Bool) : State := { sourcedIdle with
  chans := [{ id := 1, pack := 0x8000, ring := 0x100, log2N := 4, ovs := false, fmt8 := false, taps := 8, shift := 0, running := run, bundles := [{ first := 0, count := 4, ring := 0x102 }] }] }
/-- A user window of 64 entries, of which only the first is not 0, at the bottom of bank 0. -/
def windowed : State := rawWrite 0 [1] sourcedIdle
/-- AnalysisVerbs. -/
theorem wit_analysis : accepted [(vXformCreate, mb 0x8000 (le 32 xRec.toNat), sourcedIdle), (vXformLoadWindow, mb 0x8000 [1, 0, 0, 0, 0, 0, 0, 0, 0, 0], windowed),
    (vXformStart, mb 0x8000 ([1, 0, 0, 0] ++ le 12 0), sourcedIdle), (vXformStop, mb 0x8000 [1, 0], sourced), (vXformDelete, mb 0x8000 [1, 0], sourcedIdle),
    (vXformQuery, mb 0x8000 (le 32 xRec.toNat), sourcedIdle), (vChanCreate, mb 0x8000 [0, 1, 0, 0, 4, 0, 8, 0], sourcedIdle),
    (vChanBundle, mb 0x8000 ([1, 0, 0, 0] ++ le 4 8 ++ le 4 4 ++ le 4 0x102), sourcedChan true), (vChanUnbundle, mb 0x8000 [1, 0, 0, 0, 0, 0, 0, 0], sourcedChan false),
    (vChanUnbundle, mb 0x8000 [1, 0, 0, 0, 0, 0, 0, 0], sourcedChan true), (vChanStart, mb 0x8000 ([1, 0, 0, 0] ++ le 12 0), sourcedChan false), (vChanStop, mb 0x8000 [1, 0], sourcedChan true),
    (vChanDelete, mb 0x8000 [1, 0], sourcedChan false)] = true ∧ (xArg (mb 0x8000 [1, 0]) windowed).isSome ∧
    (kennelRead (begun vXformLoadWindow (mb 0x8000 [1, 0, 0, 0, 0, 0, 0, 0, 0, 0]) windowed) 0 256).isSome ∧
    (cArg (mb 0x8000 [1, 0]) (sourcedChan true)).any (·.running) = true ∧ (cArg (mb 0x8000 [1, 0]) (sourcedChan false)).any (!·.running) = true := by decide +kernel

/-- FabricRows: at the top of the range, with no reporter, and with a start that waits. -/
theorem wit_fabric : (let s : State := { upState with fab := { vfab := 8500 } }; s.power.state = .active ∧ 6000 ≤ s.fab.vfab ∧ s.fab.vfab ≤ 8500 ∧ reporters s = []) ∧
    ({ upState with power := { upState.power with state := .quiet } } : State).power.state ≠ .active ∧
    (let s : State := { upState with fab := { waits := [⟨mb 0x8000 [1, 0], 0x0703, 7000⟩] } }; s.fab.waits = ⟨mb 0x8000 [1, 0], 0x0703, 7000⟩ :: [] ∧ s.power.state = .active) ∧ upState.fab.waits = [] := by decide +kernel

/-- WorkEnds: an analysis with nothing left, the housekeeping converter, and a bundle. -/
def ending : State := { sourcedIdle with xforms := [{ id := 1, pack := 0x8000, cfg := xRec, running := true, stopping := some (mb 0x8000 [1, 0]) }] }
theorem wit_ends_pump : pump .xform 1 ending = ending := rfl
theorem wit_ends : (let s := ending; isA s .pack 0x8000 = true ∧ (s.xforms.find? fun x => x.id == 1).any (fun x => x.pack == 0x8000 && x.running && x.stopping.isSome && x.gaps.isEmpty &&
      workEmpty s .xform 1 x.next x.publish x.redo && decide (x.publish / xM x.cfg ≤ x.formed)) = true ∧ s.chans = []) ∧
    (let s : State := { upState with hk := { stopping := [mb 0x1020 []], running := true, modA := { began := 1 }, modB := { began := 1 } } }; isA s .hk 0x1020 = true ∧ s.hk.stopping = [mb 0x1020 []] ∧ hkStopped s = true) ∧
    (let bs : List Bundle := [{ first := 0, count := 4, ring := 0x102, addAt := some 0 }, { first := 4, count := 4, ring := 0x102, steps := [(0, [], false, 0, 0, 0)] }]
     let s : State := { upState with cyc := msC, chans := [{ id := 1, pack := 0x8000, ring := 0x100, log2N := 4, ovs := false, fmt8 := false, taps := 8, shift := 0, bundles := bs }] }
     ringOf s 0x100 = none ∧ ringOf s 0x102 = none ∧ (s.chans.find? fun c => c.id == 1).any (fun c => (c.bundles.find? fun b => b.first == 0).any (fun b => b.addAt == some 0 && b.steps.isEmpty) && (c.bundles.find? fun b => b.first == 4).any (fun b => !b.steps.isEmpty && b.since == 0)) = true ∧
     (0 : Nat) ≤ now s ∧ msC ≤ since s 0) := by decide +kernel

/-- IN0 converts. -/
def running0 : State := { upState with inputs := vmod upState.inputs 0 fun x => { x with cfg := 0xC1, running := true } }
/-- InputVerbs: disabled and enabled inputs; the same attenuation and another; both arrangements. -/
theorem wit_inputs : accepted [(vInputConfigure, mb 0x0100 (le 4 0xC0 ++ le 4 0x3E807F0), running0), (vInputConfigure, mb 0x0100 (le 4 0x1000C1 ++ le 4 0x3E807F0), { running0 with rings := [capRing] }), (vInputSetAtten, mb 0x0100 ([12, 0, 0, 0] ++ le 12 0), running0),
    (vInputSetAtten, mb 0x0100 ([3, 0, 0, 0] ++ le 12 0), running0), (vInputSetAtten, mb 0x0107 ([3, 0, 0, 0] ++ le 12 0), running0),
    (vInputArrange, mb 0x0100 [0], running0), (vInputArrange, mb 0x0100 [1], running0)] = true ∧ (vget running0.inputs 0).atten = 12 ∧
    bitAt (vget running0.inputs 0).cfg 3 = false ∧ (vget running0.inputs 0).running = true ∧ (vget running0.inputs 7).running = false := by decide +kernel
/-- InputVerbs, the rows: due and not due, running and not, and a span that the blocks have passed. -/
theorem wit_atten : (let s := inMod 0 (fun x => { x with attenReq := some (3, 0) }) running0; (vget s.inputs 0).running = true ∧ sampleAt s 0 0 < (vget s.inputs 0).conv + 1024) ∧
    (let s := inMod 0 (fun x => { x with attenReq := some (3, 2 ^ 60) }) running0; (vget s.inputs 0).conv + 1024 ≤ sampleAt s 0 (2 ^ 60)) ∧
    (vget (inMod 7 (fun x => { x with attenReq := some (3, 0) }) running0).inputs 7).running = false ∧
    ((vget running0.inputs 0).attenReq = none ∧ (vget running0.inputs 0).attenSpan = none ∧ (vget running0.inputs 0).arrangeSpan = none ∧ (vget running0.inputs 0).rateSpan = none) ∧
    (let s := inMod 0 (fun x => { x with attenSpan := some (3, 128), conv := 512 }) running0; selEnd s 0 128 (wideFirst (128 - 128) + 96) = some 128 ∧ 128 ≤ (vget s.inputs 0).conv) ∧
    (let s := inMod 0 (fun x => { x with attenSpan := some (3, 128), conv := 0 }) running0; (selEnd s 0 128 (wideFirst (128 - 128) + 96)).all (fun m => decide ((vget s.inputs 0).conv < m)) = true) := by decide +kernel

/-- StreamRows: an input that converts, with room and with none; a switch; an overload at its end; a buffered block without and with a ring. -/
theorem wit_streams : (let s := running0; (vget s.inputs 0).running = true ∧ (vget s.inputs 1).running = false ∧ (vget s.inputs 0).gap = none ∧ (vget s.store.skid 0).overflow = none ∧
      skidBytes (vget s.store.skid 0) + 1088 ≤ skidSize s 0 ∧ (vget s.inputs 0).inOvl = false ∧ (vget s.store.skid 0).blocks = []) ∧
    (let s := inMod 0 (fun x => { x with switch := some ⟨4, false, 0⟩ }) running0; s.power.state = .active ∧ pairedOut s 0 = false ∧ (vget s.inputs 0).ending = none ∧ bitAt (vget s.inputs 0).cfg 0 = true ∧ (vget s.inputs 0).switch = some ⟨4, false, 0⟩) ∧
    (let s : State := { inMod 0 (fun x => { x with inOvl := true }) running0 with time := { counter := 2 ^ 80 } }; pairedOut s 0 = false ∧
      ovlExitTime (inMod 0 (fun x => { x with running := false }) s) 0 ≤ now s) ∧
    pairedOut (inMod 1 (fun x => { x with cfg := 0xC9 }) running0) 1 = true ∧ (vget (inMod 0 (fun x => { x with ending := some 4 }) running0).inputs 0).ending.isSome = true ∧
    portsHeld { running0 with store := { running0.store with dozing := true } } = true ∧
    (let s : State := { inMod 0 (fun x => { x with cfg := 0x1000C1 }) running0 with
       rings := [capRing], store := { running0.store with skid := vmod running0.store.skid 0 fun k => { k with blocks := [List.replicate 1088 0] } } }
     portsHeld s = false ∧ storeStalled s = false ∧ ringOf s (captureRing s 0) = some capRing ∧ capRing.overSince = 0 ∧ Memory.wf s.mem = true ∧ capRing.stopped = false ∧ capRing.gapPending = false ∧ 
     occupancy capRing + 1088 < ringSize capRing ∧ capRing.watermark = 0 ∧ regionOf s.grade capRing.base = .store ∧ s.events.pins = [] ∧ ringOf s (captureRing s 1) = none) := by decide +kernel
/-- StreamRows: a skid buffer with no room for a block. -/
theorem wit_skid : skidSize running0 0 < skidBytes { blocks := List.replicate 964 (List.replicate 1088 0) } + 1088 ∧
    ({ blocks := List.replicate 964 (List.replicate 1088 0) } : SkidSt).overflow = none := by
  refine ⟨?_, rfl⟩
  have h : skidSize running0 0 = 1048576 := by decide +kernel
  have g : ∀ n m : Nat, skidBytes { blocks := List.replicate n (List.replicate m 0) } = n * m := by intro n m; simp [skidBytes]
  rw [h, g]
  decide

/-- The calibrator of IN0 in a state, a period after its last, with a request that runs. -/
def calAt (st : CalState) (run : Nat) (acc : CalAcc) : State :=
  { calMod 0 (fun c => { c with state := st, tainted := false, run := run, acc := acc }) running0 with
    cyc := 1000000, time := { counter := 2 ^ 80 }, maint := { running := [⟨1, 3, 0x0110, 0, 0, 0, false, none, 0, 0⟩] } }
/-- The sums of a strong broad signal; those of silence have no sample. -/
def strong : CalAcc := { slices := [{ n := 1000, sum := 0, sq := 1000000000 }], taken := 1000, bands := List.replicate 64 1 }
/-- Errors of every slice: small and not. -/
def errsOf (e : Int) : List SliceErr := List.replicate 64 ⟨e, 0, 0, 0⟩
/-- A calibrator in a foreground run. -/
def fgAt (iter : Nat) (done : Option Nat) : State :=
  calMod 0 (fun c => { c with fg := some ⟨none, false, false, iter, done, true, (0, 0), false, none⟩ }) (calAt .foreground 0 {})
/-- CalibrationRows, the periods. -/
theorem wit_cal_periods : (let due := fun (s : State) => calDue (vget s.cals 0) (calBoundary (vget s.cals 0) (now s)) (now s)
      due (calAt .paused 0 {}) && due (calAt .foreground 0 {}) && due (calAt .frozen 0 {}) && due (calAt .tracking 0 {}) && due (calAt .tracking 0 strong) &&
      due (calAt .holding 0 strong) && due (calAt .holding 3 strong)) = true ∧
    (let s := calAt .tracking 0 {}; let c := vget s.cals 0; !calDue c 0 (now s) && !calDue c (calBoundary c (now s) + 1) (now s) &&
      !calDue c (calBoundary c (now s) + fld c.cfg 31 16 * 65536000) (now s)) = true ∧
    (vget (calAt .paused 0 {}).cals 0).state = .paused ∧ (vget (calAt .frozen 0 {}).cals 0).state = .frozen ∧
    (let s := calAt .tracking 0 {}; calSufficient (vget s.cals 0) (calStats s 0) = false) ∧ (let s := calAt .tracking 0 strong; calSufficient (vget s.cals 0) (calStats s 0) = true) ∧
    (let s := calAt .holding 0 strong; (vget s.cals 0).run + 1 < fld (vget s.cals 0).cfg 15 8) ∧
    (let s := calAt .holding 3 strong; calSufficient (vget s.cals 0) (calStats s 0) = true ∧ fld (vget s.cals 0).cfg 15 8 ≤ (vget s.cals 0).run + 1) := by decide +kernel
/-- CalibrationRows, the verbs and foreground runs. -/
theorem wit_cal : accepted [(vCalConfigure, mb 0x0110 (le 4 0x3E80401 ++ le 4 0x10D8), running0), (vCalForeground, mb 0x0110 [0], running0),
      (vCalReadTrims, mb 0x0110 [0, 0, 0, 0, 0, 0], running0)] = true ∧ argN (mb 0x0110 (le 4 0x3E80401)) 0 1 % 4 = 1 ∧ (vget running0.inputs 0).running = true ∧
    (maintRunning (calAt .holding 0 {}) 3 0x0110).isSome ∧ (maintRunning running0 3 0x0110).isNone ∧ (vget (calAt .holding 0 {}).cals 0).fg = none ∧
    ((vget (fgAt 0 none).cals 0).fg.any (fun f => f.doneAt.isNone && !f.second && !f.both && decide (f.iter + 1 < 64)) = true ∧ (vget (fgAt 0 none).cals 0).trims.length = 64 ∧
      (errsOf 0).length = 64 ∧ errsSmall (errsOf 0) = true ∧ (errsOf 200).length = 64 ∧ errsSmall (errsOf 200) = false) ∧
    (vget (fgAt 1 (some 0)).cals 0).fg.any (fun f => f.doneAt.isSome && fgResettled (fgAt 1 (some 0)) 0 f) = true ∧
    (vget (fgAt 0 none).cals 0).fg.any (fun f => !fgResettled (fgAt 0 none) 0 f) = true ∧ (maintRunning (fgAt 0 none) 3 0x0110).isSome := by decide +kernel

/-- A record that is disabled, and one that is enabled into ring 0x103. -/
def ddcRec (on : Bool) : BitVec 288 := BitVec.ofNat 288 (b2n on + 4 + (6 <<< 5) + (0x103 <<< 32) + (1 <<< 96) + (1000000000 <<< 128))
/-- IN0 converts, and channel 0 owns ring 0x103. -/
def ddcd : State := { inMod 0 (fun x => { x with cfg := 0x1000C1 }) running0 with rings := [capRing, { id := 0x103, base := 0x180000000, log2 := 20, type := 5, owner := 0x0300, policy := 1 }] }
/-- DdcVerbs. -/
theorem wit_ddc : accepted [(vDdcConfigure, mb 0x0300 (le 36 (ddcRec false).toNat), ddcd), (vDdcConfigure, mb 0x0300 (le 36 (ddcRec true).toNat), ddcd), (vDdcTune, mb 0x0300 (le 28 1), ddcd),
    (vDdcSetThreshold, mb 0x037F (le 8 (2 ^ 32 + 0xA000)), ddcd), (vDdcSync, mb 0x0207 [0], ddcd), (vDdcEngine, mb 0x0207 [0, 0, 0, 0], ddcd), (vDdcQuery, mb 0x0300 (le 36 (ddcRec true).toNat), ddcd)] = true ∧
    bitAt (ddcArg (mb 0x0300 (le 36 (ddcRec false).toNat)) ddcd) 0 = false ∧ bitAt (ddcArg (mb 0x0300 (le 36 (ddcRec true).toNat)) ddcd) 0 = true ∧ bitAt (vget ddcd.ddc 0).cfg 0 = false := by decide +kernel

/-- The capture ring of IN0 holds a block. -/
def ddcFed : State := { ddcd with rings := { capRing with producer := 1088, entries := [⟨0, 1088, 1, 0, 0⟩] } :: ddcd.rings.drop 1 }
/-- A channel that waits for its first restart, at a sample. -/
def ddcWaits (n : Nat) (s : State) : State := ddcMod 0 (fun x => { x with restart := some ⟨false, n, false, 0⟩, cfgNext := some (ddcRec true) }) s
/-- Engine 7 with a reset armed for now, and its first channel about to run. -/
def syncDue : State := { ddcMod 112 (fun x => { x with cfgNext := some (ddcRec true) }) ddcd with ddcEng := vmod ddcd.ddcEng 7 fun x => { x with sync := some (2, 0) } }
/-- DdcRows. -/
theorem wit_ddc_rows : (vget (ddcMod 127 (fun x => { x with retune := some ⟨5, some 7, true, 0⟩ }) ddcd).ddc 127).retune = some ⟨5, some 7, true, 0⟩ ∧
    (vget ddcd.ddc 5).retune = none ∧ (vget ddcd.ddc 5).restart = none ∧ bitAt (vget ddcd.ddc 5).cfg 0 = false ∧ (vget ddcd.ddc 5).averages = [] ∧
    (let x := vget (ddcWaits 256 ddcFed).ddc 0; x.restart = some ⟨false, 256, false, 0⟩ ∧ bitAt x.cfg 0 = false ∧ ddcSource 0 (x.cfgNext.getD x.cfg) = 0 ∧
      ((ringOf ddcFed 0x100).bind fun r => (srcBlocks (ddcWaits 256 ddcFed) r (lastGapPos (ddcWaits 256 ddcFed) r)).find? fun b => decide (256 < b.first + 256)) = none) ∧
    (let s := ddcWaits 255 ddcFed; (vget s.ddc 0).cfgNext = some (ddcRec true) ∧ captureRing s (ddcSource 0 (ddcRec true)) = 0x100 ∧
      ((ringOf s 0x100).bind fun r => (srcBlocks s r (lastGapPos s r)).find? fun b => decide (255 < b.first + 256)).isSome ∧ runComing s 0 = false) ∧
    syncInstant 6 ddcd = none ∧ syncInstant 7 syncDue = some 0 ∧ bitAt ((vget syncDue.ddc 112).cfgNext.getD (vget syncDue.ddc 112).cfg) 0 = true ∧
    bitAt ((vget syncDue.ddc 127).cfgNext.getD (vget syncDue.ddc 127).cfg) 0 = false ∧
    (vget (ddcMod 1 (fun x => { x with averages := [(0, none)] }) ddcd).ddc 1).averages = [(0, none)] ∧
    (vget (ddcMod 1 (fun x => { x with averages := [(0, some 5)] }) ddcd).ddc 1).averages = [(0, some 5)] := by decide +kernel

/-- A definition of trigger 3: a command condition of duration 1, F1 true in odd states, with an event. -/
def cmdTrig : Bytes := padTo 256 ([3, 0] ++ le 2 0xAAAA ++ le 2 0 ++ [1, 0xFF] ++ List.replicate 56 0 ++ [8, 0, 0, 0] ++ le 4 0 ++ le 4 1)
/-- Trigger 3 of engine 0 is defined so, disarmed or armed. -/
def cmdTrigged (armed : Bool) : State := trigMod 0 3 (fun _ => { defn := some cmdTrig, armed := armed }) upState
/-- A mask of two breakpoints, at 0 and 256, at the bottom of bank 0. -/
def masked : State := rawWrite 9 [1] (cmdTrigged true)
/-- TriggerVerbs. -/
theorem wit_triggers : accepted [(vTrigDefine, mb 0x0500 cmdTrig, upState), (vTrigLoadMask, mb 0x0500 [31, 0, 2, 0, 0, 0, 0, 0, 0, 0], masked), (vTrigArm, mb 0x0500 [3], cmdTrigged false),
    (vTrigDisarm, mb 0x0500 [3], cmdTrigged true), (vTrigForce, mb 0x0500 ([3, 0, 0, 0] ++ le 12 0), cmdTrigged false), (vTrigSignal, mb 0x0500 ([3, 0, 0, 0] ++ le 12 0), cmdTrigged true),
    (vTrigForce, mb 0x0500 ([3, 0, 0, 0] ++ le 12 1000), cmdTrigged false), (vTrigDelete, mb 0x0500 [3], cmdTrigged false)] = true ∧
    now upState < (argT (mb 0x0500 ([3, 0, 0, 0] ++ le 12 1000)) 4).getD 0 ∧ argT0 (mb 0x0500 ([3, 0, 0, 0] ++ le 12 1000)) 4 = false ∧
    (kennelRead (begun vTrigLoadMask (mb 0x0500 [31, 0, 2, 0, 0, 0, 0, 0, 0, 0]) masked) 0 16).isSome := by decide +kernel

/-- TriggerRows: an armed trigger with an element that makes F1 rise, and a due TIMER condition. -/
theorem wit_trigger_rows : (let s := trigMod 0 3 (fun g => { g with conds := vmod g.conds 0 fun c => { c with formed := [(0, false, 1)] } }) (cmdTrigged true)
      let g := trigOf s 0 3
      g.forced = [] ∧ g.armed = true ∧ s.power.state = .active ∧ g.defn = some cmdTrig ∧ numAt cmdTrig 1 1 = 0 ∧
      (∀ j < 4, condKind (condDef cmdTrig j) ≠ 1 ∧ condKind (condDef cmdTrig j) ≠ 2) ∧
      earliest ((List.range 4).filterMap fun j => condNext s (condDef cmdTrig j) (vget g.conds j)) = some 0 ∧ (∀ j < 4, condDone s (condDef cmdTrig j) 0 (vget g.conds j) = true) ∧
      truth cmdTrig 2 (condBits (Vector.ofFn fun j : Fin 4 => condStep s 0 (condDef cmdTrig j) 0 false (vget g.conds j))) = true) ∧
    (({ cmdTrigged true with power := { upState.power with state := .quiet } } : State).power.state ≠ .active) ∧
    (trigOf (cmdTrigged false) 0 3).armed = false ∧ (vget (trigOf (cmdTrigged true) 0 3).conds 0).due = none ∧
    (let d := cmdTrig.set 64 7; let s := trigMod 0 3 (fun g => { g with defn := some d, conds := vmod g.conds 0 fun c => { c with due := some 0 } }) (cmdTrigged true)
     (vget (trigOf s 0 3).conds 0).due = some 0 ∧ condKind (condDef d 0) = 7 ∧ (0 : Nat) ≤ now s) := by decide +kernel

/-- A span of record 5 on the capture ring of IN0. -/
def pin5 (st : PinState) : PinSt := { record := 5, engine := 0, trigger := 3, span := 1, ring := 0x100, state := st, flags := 0, trigTime := 0, onset := 0, startTime := 0, endTime := 0, firstPos := 0, endPos := 0, blocks := 0, firstSample := 0, lastSample := 0, recRing := 0, meas := none }
/-- With that span, its ring, an ENVELOPE and a MEAS ring of engine 0, an envelope stream, a measurement definition and a job. -/
def recorded (st : PinState) : State := { sampleRinged with
  cyc := msC
  rings := [capRing, { id := 0x104, base := 0x180000000, log2 := 20, type := 8, owner := 0x0500, policy := 1 }, { id := 0x105, base := 0x190000000, log2 := 20, type := 13, owner := 0x0500, policy := 1 }]
  events := { sampleRinged.events with
    pins := [pin5 st], meas := vmod sampleRinged.events.meas 63 fun _ => List.replicate 29 0
    eng := vmod sampleRinged.events.eng 0 fun e => { e with jobs := [(5, 1, 63, 0x105, 3)] }
    envs := [{ id := 0, engine := 0, src := 0x100, k := 2, out := 0x1FF, startTime := 0, words := [7] }] } }
/-- RecordRows. -/
theorem wit_records : accepted [(vRecRingPolicy, mb 0x0B00 ([0, 1, 0, 0, 0, 31] ++ le 6 0), recorded .pinned), (vRecRelease, mb 0x0B00 [5, 0, 0, 0, 0xFF], recorded .pinned),
    (vRecEnvelope, mb 0x0500 (le 4 0x100 ++ le 4 2 ++ le 4 0x104 ++ le 12 0), recorded .pinned), (vRecEnvStop, mb 0x0500 [0], recorded .pinned),
    (vMeasDefine, mb 0x0000 ([62, 8, 0, 0] ++ le 4 2 ++ le 4 0 ++ le 8 0 ++ le 8 0 ++ [3]), recorded .pinned), (vMeasRun, mb 0x0500 ([5, 0, 0, 0, 1, 63, 0, 0] ++ le 4 0x105), recorded .pinned)] = true ∧
    (let s := recorded .open_; (s.events.pins.find? fun p => p.record == 5 && p.span == 1 && !p.complete) = some (pin5 .open_) ∧ (ringOf s 0x100).isSome ∧ (pin5 .open_).endTime ≤ now s ∧
      sourceRuns s 0x100 = false) ∧
    (let s := recorded .copying; (s.events.pins.find? fun p => p.record == 5 && p.span == 1 && p.state == .copying) = some (pin5 .copying) ∧ (pin5 .copying).blocks ≤ (pin5 .copying).copied ∧
      ((ringOf s 0x100).any fun r => (pinEntries r (pin5 .copying)).all fun e => decide (e.pos < (pin5 .copying).nextPos)) = true ∧ (pinCopyOut true { pin5 .copying with state := .copied } s).isSome = true ∧
      msC ≤ since s 0 ∧ ringOf s 0x1FF = none ∧ (vget s.events.eng 0).jobs ≠ [] ∧ (vget s.events.eng 1).jobs = []) ∧
    (let s : State := { recorded .open_ with rings := [] }; ringOf s (pin5 .open_).ring = none ∧ (s.events.pins.find? fun p => p.record == 5 && p.span == 2 && !p.complete) = none ∧
      (s.events.pins.find? fun p => p.record == 5 && p.span == 1 && !p.complete).isSome ∧ (pin5 .open_).endTime ≤ now s) ∧
    (let q := { pin5 .copying with blocks := 1 }; let s := { recorded .copying with events := { (recorded .copying).events with pins := [q] } }
     (s.events.pins.find? fun p => p.record == 5 && p.span == 1 && p.state == .copying) = some q ∧ q.copied < q.blocks) ∧
    ((recorded .pinned).events.envs.find? fun v => v.id == 0).any (fun v => !v.words.isEmpty) = true ∧ since upState 0 < msC := by decide +kernel

/-- Accumulator 0 owns bank 0 and reads analysis 1, which runs with 64 bins; its density array is 256 by 64. -/
def densRec : BitVec 256 := BitVec.ofNat 256 (1 + (8 <<< 8) + (6 <<< 12) + (0xFA00 <<< 16) + (100 <<< 32) + (3 <<< 48) + (20000 <<< 64) + (1024 <<< 96) + (0x200000000 <<< 176))
def densed : State := { sourced with
  xforms := [{ id := 1, pack := 0x8000, cfg := BitVec.ofNat 256 (0x100 + (8 <<< 24) + (1 <<< 64)), running := true, origin := some 0 }]
  banks := vmod sourced.banks 0 fun b => { b with owner := 0x0600 }
  dens := vmod sourced.dens 0 fun d => { d with cfg := densRec } }
/-- It runs, counts and slots both, from microsecond 0. -/
def densOn : State := { densed with
  dens := vmod densed.dens 0 fun d => { d with running := true, occRunning := true, latest := some 1, slotSpectra := 1, chans := [(5, { first := 0, last := 3 })] } }
/-- DensityRows. -/
theorem wit_dens : accepted [(vDensConfigure, mb 0x0600 (le 32 densRec.toNat), densed), (vDensLoadColours, mb 0x0600 [0, 0, 0x40, 0, 0, 0], densed), (vDensStart, mb 0x0600 [], densed), (vDensStop, mb 0x0600 [], densOn),
    (vDensClear, mb 0x0600 [], densOn), (vDensStatus, mb 0x0600 [], densOn), (vDensStatus, mb 0x0600 [], densed), (vOccConfigure, mb 0x0600 (le 16 (0xA000 + (1000 <<< 32) + (1000 <<< 112))), densed),
    (vOccChannel, mb 0x0600 ([63, 0, 0, 0] ++ le 4 0 ++ le 4 255), densed), (vOccStart, mb 0x0600 [], densed), (vOccStop, mb 0x0600 [], densOn), (vOccStatus, mb 0x0600 [0, 0, 0x40, 0, 0, 0], densOn)] = true ∧
    (vget densOn.dens 0).latest = some 1 ∧ (vget densed.dens 0).latest = none ∧ (kennelRead (begun vDensLoadColours (mb 0x0600 [0, 0, 0x40, 0, 0, 0]) densed) 0x400000 1024).isSome ∧
    (let s : State := { densed with dens := vmod densed.dens 0 fun d => { d with clearing := [0] } }
     (vget s.dens 0).running = false ∧ ((vget s.dens 0).clearing.any fun b => b ≤ nowUs s) = true ∧ (densBanks (vget s.dens 0)).all (densOwns s 0) = true ∧ s.power.state = .active) ∧
    ((vget densed.dens 0).clearing.any fun b => b ≤ nowUs densed) = false ∧ (vget densed.dens 0).occRunning = false ∧
    (let s : State := { densOn with power := { densOn.power with state := .quiet } }; s.power.state ≠ .active) ∧
    now densOn < ((vget densOn.dens 0).frameStart + densPeriod (vget densOn.dens 0)) * 65536000 ∧ (vget densOn.dens 0).stepped = false ∧
    now densOn < ((vget densOn.dens 0).slotStart + occPeriod (vget densOn.dens 0)) * 65536000 ∧ (vget densOn.dens 0).occStepped = false ∧
    (let s : State := { densOn with rings := [], time := { counter := 2 ^ 84 } }; let o := vget s.dens 0
     (o.slotStart + occPeriod o) * 65536000 ≤ now s ∧ o.slotSpectra ≠ 0 ∧ o.occNext = [] ∧ o.occStepped = false ∧ o.occStopping = none ∧ densDelivered s o ((o.slotStart + occPeriod o) * 65536000) = true ∧ s.power.state = .active ∧ Memory.wf s.mem = true) := by decide +kernel

/-- DecayOfCounts: a frame at its end, with a count in cell 3. -/
theorem wit_decay : let s : State := { rawWrite 6 [9, 1] densOn with rings := [], time := { counter := 2 ^ 84 } }; let d := vget s.dens 0
    d.running = true ∧ s.power.state = .active ∧ (d.frameStart + densPeriod d) * 65536000 ≤ now s ∧ densDelivered s d ((d.frameStart + densPeriod d) * 65536000) = true ∧ d.clearing = [] ∧ d.next = [] ∧ d.stopping = none ∧ s.rings = [] ∧
    Memory.wf s.mem = true ∧ cellAt s d 3 = 265 ∧ fld d.cfg 51 48 = 3 := by decide +kernel

/-- RawBlocks: IN0 converts in the raw format. -/
theorem wit_raw : let s := running0; let x := vget s.inputs 0
    x.running = true ∧ (x.held.getD (bitAt x.cfg 1, bitAt x.cfg 2)).1 = false ∧ (List.replicate 512 (-2048 : Int)).length = 512 ∧ x.spans = [] ∧ x.openSpan = none ∧ x.gap = none ∧ (vget s.store.skid 0).overflow = none ∧
    skidBytes (vget s.store.skid 0) + 1088 ≤ skidSize s 0 := by decide +kernel

/-- A head in a state of its link. -/
def headed (on hpd stopped : Bool) (tr : TrainSt) : State := { upState with disp := { enabled := on, hpd := hpd, stopped := stopped, train := tr, sink := some (3, 4, 3), rate := 0, lanes := 4, frame := 9 } }
/-- DisplayVerbs: a head that is off, one that shows video, one with no sink, and one with a sink. -/
theorem wit_disp : accepted [(vDispTiming, mb 0x0700 [], upState), (vDispLayer, mb 0x0700 [3], upState), (vDispCommit, mb 0x0700 [], upState), (vDispCommit, mb 0x0700 [], headed true true false .trained),
    (vDispEnable, mb 0x0700 [0], headed true true false .trained), (vDispEnable, mb 0x0700 [1], headed true true false .trained), (vDispEnable, mb 0x0700 [1], headed false false true .off),
    (vDispEnable, mb 0x0700 [1], headed false true true .off), (vDispAux, mb 0x0700 (le 8 0 ++ le 8 16 ++ le 8 0x100000), upState), (vDispAux, mb 0x0700 (le 8 1 ++ le 8 16 ++ le 8 0x100000), upState), (vDispCommit, mb 0x0700 [], headed true true true .off)] = true ∧
    dpChoose (headed false true true .off).disp.committed.timing (headed false true true .off).disp.sink = some (0, 4) ∧ argN (mb 0x0700 [1]) 0 1 = 1 ∧ sinkAsked (headed false true true .off) = false ∧
    (kennelRead (begun vDispAux (mb 0x0700 (le 8 1 ++ le 8 16 ++ le 8 0x100000)) upState) 0x100000 16).isSome ∧
    dispLine (headed true true false .trained) < fld (headed true true false .trained).disp.committed.timing 79 64 - 64 ∧
    ¬ dispLine { headed true true false .trained with cyc := 1600000 } < fld (headed true true false .trained).disp.committed.timing 79 64 - 64 := by decide +kernel

/-- A head that shows video with its pixel clock locked and layer 0 on. -/
def shown (tr : TrainSt) (tries : Nat) : State :=
  let h := headed true true false tr
  loopMod 3 (fun x => { x with lock := .locked }) { h with disp := { h.disp with tries := tries, committed := { h.disp.committed with layers := vmod h.disp.committed.layers 3 fun _ => BitVec.ofNat 256 (1 <<< 50 + 0x100000040) } } }
/-- An AUX read of 40 bytes after its first 16. -/
def auxRun (tries : Nat) : AuxRun := { cmd := some (mb 0x0700 []), kind := 0, addr := 0, len := 40, done := 16, buffer := 0x100000, tries := tries, since := 0 }
/-- DisplayRows. -/
theorem wit_disp_rows : (headed false false true .off).disp.aux = [] ∧ (auxRun 6).tries < 7 ∧ 7 ≤ (auxRun 7).tries ∧ (auxRun 0).cmd = some (mb 0x0700 []) ∧ ([1, 2, 3, 4, 5, 6, 7, 8, 9, 10, 11, 12, 13, 14, 15, 16] : Bytes).length = min 16 ((auxRun 0).len - (auxRun 0).done) ∧
    (auxRun 0).done + 16 < (auxRun 0).len ∧ (headed false false true .off).disp.unplugged = true ∧ (shown .equal 4).disp.train = .equal ∧ (vget (shown .clock 3).synth.loop 3).lock = .locked ∧ (shown .clock 3).disp.tries < 4 ∧
    bitAt (setFld (shown .equal 4).disp.committed.timing 168 168 0) 168 = false ∧ ([(10, {}), (11, {})] : List (Nat × DispState)).find? (fun p => p.1 == ((shown .trained 0).disp.frame + 1).toNat) = some (10, {}) ∧
    (shown .trained 0).disp.enabled = true ∧ (shown .trained 0).disp.stopped = false ∧ bitAt (vget (shown .trained 0).disp.committed.layers 3) 50 = true ∧ bitAt (shown .trained 0).disp.off 3 = false ∧ (shown .trained 0).power.state = .active ∧
    since (headed true false false .trained) 0 < 25000 ∧ driveOf (1, 3) ≠ (shown .clock 3).disp.drive ∧ driveOf (0, 0) = (shown .clock 3).disp.drive ∧ (shown .equal 3).disp.tries < 4 ∧ bitAt (shown .equal 4).disp.committed.timing 168 = true ∧
    dpFallback (shown .equal 4).disp.committed.timing (shown .equal 4).disp.sink 3 4 = some (2, 4) ∧ ((shown .trained 0).disp.pending.find? fun p => p.1 == 10) = none ∧ (∀ n < 4, layerDenied (shown .trained 0) n = false) ∧
    (shown .trained 0).disp.storeDark = false ∧ fld (shown .trained 0).disp.committed.timing 79 64 ≤ 1080 ∧ ((auxRun 0).done + 16 < ({ auxRun 0 with kind := 1 } : AuxRun).len) ∧
    1079 < fld (shown .trained 0).disp.committed.timing 79 64 ∧ bitAt (4 : BitVec 4) 2 = true := by decide +kernel

/-- A request of a port's rank that arrived at a cycle. -/
def req (rank arrived burst : Nat) : StoreReq := { rank := rank, sub := 0, arrived := arrived, addr := 0x100000000, write := false, burst := burst }
/-- Channel 17 with requests and a burst. -/
def schan (q : List StoreReq) (b : Option (StoreReq × Nat)) (owed : List Nat) : State :=
  let s : State := { upState with store := { upState.store with cfg := setFld upState.store.cfg 3 3 1 } }
  schMod 17 (fun x => { x with queue := q, burst := b, owed := owed }) s
/-- A retraining of stack 3 and a rate change run. -/
def retraining : State := { upState with maint := { running := [⟨1, 2, 0x0804, 0, 0, 0, false, none, 0x0E04, 0⟩, ⟨2, 1, 0x0800, 0, 0, 0, false, none, 0x0E02, 1⟩] } }
/-- StoreOperations: a burst of two, two requests of unequal urgency, five refreshes owed, two activities that end, and a store that has rested. -/
theorem wit_store : accepted [(vStoreConfigure, mb 0x0800 [0, 2, 0, 0], upState), (vStoreSetRate, mb 0x0800 [0], upState), (vStoreSetRate, mb 0x0800 [1], upState),
    (vStorePort, mb 0x0800 (le 4 11 ++ le 4 65535), upState), (vStoreRetrain, mb 0x0804 [], upState), (vStorePortStatus, mb 0x0800 (le 16 0x100000), upState), (vStorePortStatus, mb 0x0800 (le 8 0x100000 ++ le 8 1), upState)] = true ∧
    63 < nCh upState.grade ∧ nCh .g480 ≤ 32 ∧ portsHeld upState = false ∧ stackStalled upState 1 = false ∧ pausing upState (vget upState.store.chans 17) = false ∧ pauseCount upState 17 ≤ (vget upState.store.chans 17).pausesDone ∧
    (let s : State := { schan [] (some (req 1 0 8, 2)) [] with cyc := pausePeriod * 2 }; (vget s.store.chans 17).pausesDone < pauseCount s 17 ∧ rateChanging s = false ∧ s.store.dozing = false ∧ s.store.selfRefresh = false) ∧
    rateChanging retraining = true ∧ (vget upState.store.chans 17).pausesDone < pauseCount { upState with cyc := pausePeriod * 2 } 17 ∧
    pausing upState { vget upState.store.chans 17 with pausedAt := some 0 } = true ∧ scrubWord (schan [] none []) (granuleAddr .g880x 17 0) = none ∧ bitAt upState.store.cfg 3 = true ∧ (∀ j : Fin 64, (vget upState.store.chans j).queue = []) ∧
    (vget (schan [] (some (req 1 0 8, 2)) []).store.chans 17).burst = some (req 1 0 8, 2) ∧ (vget (schan [req 3 0 1, req 2 0 1] none []).store.chans 17).queue ≠ [] ∧
    4 ≤ ((vget (schan [] (some (req 1 0 8, 2)) [0, 0, 0, 0]).store.chans 17).owed.filter (· == 0)).length ∧ bitAt (schan [] none []).store.cfg 3 = true ∧
    (maintRunning retraining 2 (BitVec.ofNat 16 0x0804)).isSome = true ∧ maintRunning upState 2 (BitVec.ofNat 16 0x0804) = none ∧
    (retraining.maint.running.find? fun r => r.activity == 1) = some ⟨2, 1, 0x0800, 0, 0, 0, false, none, 0x0E02, 1⟩ ∧ upState.store.lastAccess + 100000 ≤ 100000 := by decide +kernel

/-- BankOperations. The last line: a bank of the Kennel, a stranger, a handover to Fetch, and fills. -/
theorem wit_banks : accepted [(vBankHandover, mb 0x091F (le 2 0x10 ++ le 2 0x0A00), upState), (vBankPower, mb 0x0900 [1], upState), (vBankPower, mb 0x0900 [0], upState), (vBankFill, mb 0x091F (le 4 0x01020304), upState),
    (vBankPower, mb 0x0900 [0], bankMod 0 (fun b => { b with power := 2 }) upState)] = true ∧ 
    (let k := vget upState.banks 31; k.owner = 0x0010 ∧ (0x0010 : Handle) ≠ 0xFFFF ∧ actsAs 0x0010 = 0x0010 ∧ k.pendingOwner = 0xFFFF ∧ k.power = 0 ∧ k.filling = none ∧ k.badWords = []) ∧
    accPort { who := 0x0010, addr := 0x7C00000, op := .read 4 } 0 = true ∧ accPort { who := 0x0010, addr := 0x7C00000, op := .write [1] } 0 = true ∧ accPort { who := 0x0010, addr := 0x7C00000, op := .write [1] } 1 = true ∧
    accPort { who := 0x0700, addr := 0x7C00000, op := .read 4 } 0 = true ∧ bankAns (vget upState.banks 31) 0x0F00 = .denied ∧ accPort { who := 0x0F00, addr := 0x7C00000, op := .write [1] } 0 = true ∧
    accPort { who := 0x0A03, addr := 0x7C00000, op := .read 4 } 0 = true ∧ accPort { who := 0x0700, addr := 0, op := .write [1] } 0 = false ∧ accPort { who := 0x0700, addr := 0, op := .read 1 } 1 = false ∧
    (vget (bankMod 31 (fun b => { b with filling := some (.powerOn (mb 0x091F [0])) }) upState).banks 31).filling = some (.powerOn (mb 0x091F [0])) ∧
    bankAns (vget upState.banks 31) 0x0700 = .denied ∧ (let o := 0x3FFFFC; 0 < 4 ∧ o % 64 + 4 ≤ 64 ∧ o < 0x400000) ∧
    actsAs 0x0A03 = (vget (bankMod 31 (fun b => { b with pendingOwner := 0x0A00, handover := some (none, 0) }) upState).banks 31).pendingOwner ∧
    (vget (bankMod 31 (fun b => { b with filling := some .zero }) upState).banks 31).filling = some .zero ∧
    (vget (bankMod 31 (fun b => { b with filling := some (.fill (mb 0x091F []) 5) }) upState).banks 31).filling = some (.fill (mb 0x091F []) 5) := by decide +kernel

/-- A transfer of n bytes from bank 30 to bank 31. -/
def desc (n : Nat) : FetchDesc := { src := 30 * 0x400000, dst := 31 * 0x400000, length := n, flags := 0, tag := 0 }
/-- Channel 31 in a state with a queue; banks 30 and 31 are Fetch's. -/
def fetching (st : FetchState) (q : List FetchDesc) (total : Nat) : State :=
  let o := fun (b : BankSt) => { b with owner := 0x0A00 }
  bankMod 30 o (bankMod 31 o (fetchMod 31 (fun c => { c with ch := st, queue := q, beatsTotal := total }) upState))
/-- FetchOperations. -/
theorem wit_fetch : accepted [(vFetchStart, mb 0x0A20 (le 8 0 ++ le 8 0x400000 ++ le 8 64), upState), (vFetchStart, mb 0x0A20 (le 8 0 ++ le 8 0x400000 ++ le 8 64), fetching .running [desc 64] 1), (vFetchConfigure, mb 0x0A01 [3], upState),
    (vFetchAbort, mb 0x0A20 [1], fetching .running [desc 64] 1), (vFetchAbort, mb 0x0A20 [0], fetching .running [desc 64, desc 128] 1), (vFetchClear, withByte (mb 0x0A20 [0]) 0 0, fetching .halted [desc 64, desc 128] 1),
    (vFetchClear, withByte (mb 0x0A20 [0]) 0 1, fetching .halted [desc 64] 1)] = true ∧
    (let s := fetching .running [desc 64] 1; fetchPick (fetchHold (fetchPreempt s)) = some 31 ∧ readAns (fetchHold (fetchPreempt s)) 31 (30 * 0x400000) = .go ∧ writeAns (fetchHold (fetchPreempt s)) 31 (31 * 0x400000) = .go ∧
      regionOf s.grade (30 * 0x400000) = .bank 30 0 (30 * 0x400000) ∧ regionOf s.grade (31 * 0x400000) = .bank 31 0 (31 * 0x400000) ∧ (vget s.fetch.ch 31).beatsDone + 1 = (vget s.fetch.ch 31).beatsTotal) ∧
    (let s := fetching .running [{ desc 64 with src := 0x0F0000000000 - 64 }] 1; fetchPick (fetchHold (fetchPreempt s)) = some 31 ∧ readAns (fetchHold (fetchPreempt s)) 31 (0x0F0000000000 - 64) = .err 1) ∧
    (vget (fetchMod 31 (fun c => { c with heldSince := some 0 }) (fetching .running [desc 64] 1)).fetch.ch 31).heldSince = some 0 ∧ (vget upState.fetch.ch 31).ch = .idle ∧
    (vget upState.fetch.ch 0).heldSince = none := by decide +kernel

/-- A ring of the ring manager in the store, with an entry of 32 bytes where asked. -/
def evRing (n : Nat) : RingCtx := { id := 0x200, base := 0x140000000, log2 := 12, type := 3, owner := 0x0B00, policy := 1, producer := 32 * n, entries := (List.range n).map fun i => { pos := 32 * i, len := 32, kind := 0x13, time := 0, index := 0 } }
/-- Its stream. -/
def evStream (resend : List StreamPkt) : State := linkUp { upState with rings := [evRing 1], streams := [{ ring := 0x200, bond := 0, vc := 0, maxPayload := 1024, sendPos := 0, resend := resend }] }
/-- RingAndStreamOperations. -/
theorem wit_rings : accepted [(vRingCreate, mb 0x0B00 (le 4 0x201 ++ le 6 0x150000000 ++ [12, 3] ++ le 2 0x0B00 ++ le 6 0), evStream []), (vRingDelete, mb 0x0B00 (le 4 0x200), { evStream [] with streams := [] }),
    (vRingModify, mb 0x0B00 (le 4 0x200 ++ [1, 0] ++ le 2 0 ++ le 2 0xFFFE ++ [0]), evStream []), (vRingModify, mb 0x0B00 (le 4 0x200 ++ [1, 0] ++ le 2 0 ++ le 2 0xFFFE ++ [1]), { evStream [] with rings := [{ evRing 1 with stopped := true }] }),
    (vRingConsume, mb 0x0B00 (le 8 0x200 ++ le 8 32), evStream []), (vStreamStart, mb 0x0F00 (le 8 0x200), { evStream [] with streams := [] }), (vStreamStop, mb 0x0F00 (le 4 0x200), evStream [])] = true ∧
    ringOf (evStream []) 0x200 = some (evRing 1) ∧ entryFits 3 (List.replicate 32 0) = true ∧ entryFits 3 [] = false ∧ ringPlaceOk (evStream []) (evRing 1) = true ∧ ringReach (evStream []) (evRing 1) = true ∧
    (evRing 1).producer + 32 ≤ (evRing 1).consumer + 2 ^ (evRing 1).log2 ∧ bondUp (evStream []) 0 = true ∧ ((evRing 1).entries.filter fun e => 0 < e.pos + e.len) = [{ pos := 0, len := 32, kind := 0x13, time := 0, index := 0 }] ∧
    entryBad (evStream []) (evRing 1) { pos := 0, len := 32, kind := 0x13, time := 0, index := 0 } = false ∧ ([⟨7, 0, 32, []⟩] : List StreamPkt) ≠ [] := by decide +kernel

/-- SCS0 with an alignment at a cycle, input 0 running and AXS at 80.0. -/
def scsAt (p : Option (Nat × Int)) : State := inMod 0 (fun x => { x with running := true }) (loopMod 0 (fun x => { x with lock := .locked, phase := p }) { upState with cyc := 8 })
/-- A ramp of one step up within 1 %, in the store. -/
def rampBytes : Bytes := le 5 (80 * 2 ^ 32 + 2 ^ 31) ++ [2] ++ le 2 0 ++ le 4 100 ++ le 4 0
/-- AXS with a profile and a stored hop. -/
def axsed : State := axsMod (fun a => { a with profile := [(80 * 2 ^ 32 + 2 ^ 31, 2, 100)], hops := [(255, 0x6400000000)] }) (rawWrite 0x100000 rampBytes upState)
/-- SynthVerbs. -/
theorem wit_synth : accepted [(vSynthSetRate, mb 0x0C00 (le 5 (164 * 2 ^ 32)), scsAt none), (vSynthConfigure, mb 0x0C21 (le 4 (16 * 16 + 1000 * 2 ^ 17)), upState), (vSynthAlign, mb 0x0C00 [0], scsAt (some (0, 0))), (vSynthAlign, mb 0x0C00 [1], upState),
    (vSynthSpread, mb 0x0C04 [2], upState), (vSynthSpread, mb 0x0C21 [1], upState), (vSynthAxsSet, mb 0x0C02 (le 8 (80 * 2 ^ 32 + 2 ^ 31) ++ le 12 0), upState), (vSynthAxsSet, mb 0x0C02 (le 8 (160 * 2 ^ 32) ++ le 12 0), upState),
    (vSynthAxsSet, mb 0x0C02 (le 8 (20 * 2 ^ 32) ++ le 12 (2 ^ 30)), upState), (vSynthAxsStore, mb 0x0C02 (le 4 255 ++ le 5 (20 * 2 ^ 32)), upState), (vSynthAxsHop, mb 0x0C02 (le 4 255 ++ le 12 0), axsed),
    (vSynthAxsRampLoad, mb 0x0C02 (le 6 0x100000 ++ [1]), axsed), (vSynthAxsRampRun, mb 0x0C02 (le 12 0 ++ le 4 1), axsed), (vSynthReference, mb 0 (le 4 (10000 * 256)), upState), (vSynthStatus, mb 0x0C21 [0], upState)] = true ∧
    phaseEqual (scsAt (some (0, 0))) 0 = some true ∧ phaseEqual (scsAt (some (7, 5))) 0 = some false ∧ octetBonds upState 17 = [] ∧ argT0 (mb 0x0C02 (le 8 (80 * 2 ^ 32 + 2 ^ 31) ++ le 12 0)) 8 = true ∧
    within1 upState.synth.axs.bandN.toNat (fld (axsCfgOf (mb 0x0C02 (le 8 (80 * 2 ^ 32 + 2 ^ 31)))) 39 0) = true ∧ within1 upState.synth.axs.bandN.toNat (fld (axsCfgOf (mb 0x0C02 (le 8 (160 * 2 ^ 32)))) 39 0) = false ∧
    kennelRead (begun vSynthAxsRampLoad (mb 0x0C02 (le 6 0x100000 ++ [1])) axsed) 0x100000 16 = some rampBytes ∧ (rampCheck (80 * 2 ^ 32) 0 [(80 * 2 ^ 32 + 2 ^ 31, 0, 100000)]).1 = true := by decide +kernel

/-- SynthRows. -/
theorem wit_synth_rows : (refMod (fun r => { r with coasting := true }) upState).synth.ref.coasting = true ∧ upState.synth.ref.coasting = false ∧ stage upState ≠ 0 ∧ onGrade upState.grade .synth 25 = true ∧
    (let s := refMod (fun r => { r with realignSince := some 0, buildOut := -3 }) { upState with cyc := 300 }; s.synth.ref.realignSince ≠ none ∧ buildOutNow s = 0) ∧ (vget upState.synth.loop 7).lock = .off ∧
    (vget (loopMod 7 (fun x => { x with lock := .locked }) upState).synth.loop 7).lock = .locked ∧ (vget (loopMod 25 (fun x => { x with lock := .unlocked }) { upState with cyc := 1000000 }).synth.loop 25).unlockedSince + 1000000 ≤ 1000000 ∧
    (let s := refMod (fun r => { r with changes := vmod r.changes 0 fun _ => some ⟨some (mb 0x0C00 []), 0x1301, 5, false⟩ }) (scsAt none); (vget s.synth.ref.changes 0).isSome = true ∧ (vget s.synth.loop 0).lock = .locked ∧
      (vget s.inputs 3).switch = none ∧ (vget s.inputs 3).rateSpan = none) ∧
    (let s := refMod (fun r => { r with aligns := vmod r.aligns 0 fun _ => [(mb 0x0C00 [], 0)] }) (scsAt (some (0, 0))); vget s.synth.ref.aligns 0 = [(mb 0x0C00 [], 0)] ∧ 0 ≤ now s ∧ phaseEqual s 0 = some true) ∧
    (let s := axsMod (fun a => { a with hop := [(mb 0x0C02 [], 255, 0, true)] }) axsed; s.synth.axs.hop = [(mb 0x0C02 [], 255, 0, true)] ∧ s.synth.axs.hops.find? (·.1 == 255) = some (255, 0x6400000000)) ∧ axsSearching axsed = false ∧
    (let p : RampRun := ⟨0, true, 1, 0, 99, 80 * 2 ^ 32⟩; axsed.synth.axs.profile[p.seg]? = some (80 * 2 ^ 32 + 2 ^ 31, 2, 100) ∧ segHold (80 * 2 ^ 32 + 2 ^ 31, 2, 100) = false ∧ p.k + 1 = 100 ∧ p.seg + 1 = axsed.synth.axs.profile.length ∧ p.nStart < 2 ^ 40) ∧
    segHold (0, 1, 2) = true ∧ (maintRunning { upState with maint := { running := [⟨5, 6, 0x0C02, 0, 0, 0, false, none, 0x1305, 0x2000000000⟩] } } 6 0x0C02).isSome = true ∧
    bitAt (vget (loopMod 0 (fun x => { x with cfg := 0 }) (loopMod 1 (fun x => { x with cfg := 0 }) upState)).synth.loop 1).cfg 0 = false ∧ upState.boot.mainOn = true ∧
    (let s := loopMod 1 (fun x => { x with lock := .locked }) upState; (vget s.synth.loop 1).lock = .locked ∧ (crossing 7 false 0 0 s).1.isSome = true ∧ (crossing 7 false 0 0 (tinMod 7 (fun x => { x with lastAt := some 0 }) s)).1.isSome = false) := by decide +kernel

/-- A READY device under PPS_IN in a state of its counter. -/
def timed (src : Nat) (st : TimeState) (acc run : Nat) : State := timeMod (fun t => { t with cfg := setFld t.cfg 1 0 src, state := st, accepted := acc, outlierRun := run }) { upState with cyc := 150000000 }
/-- TimeVerbs. -/
theorem wit_time : accepted [(vTimeSet, mb 0x0D00 (le 12 1), timed 3 .locked 0 0), (vTimeSet, mb 0x0D00 (le 12 1 ++ [1]), upState), (vTimeAdjust, mb 0x0D00 (le 8 (2 ^ 64 - 1)), upState),
    (vTimeConfigure, mb 0x0D00 (le 32 State.reset.time.cfg.toNat), timed 3 .locked 0 0), (vTimeConfigure, mb 0x0D00 (le 32 (State.reset.time.cfg.toNat + 3)), upState)] = true ∧
    fld (argW (mb 0x0D00 (le 32 State.reset.time.cfg.toNat)) 0 256) 1 0 = 0 ∧ upState.time.state = .free ∧ tSource upState = 0 ∧ 10 < fld upState.time.cfg 95 64 * 1000 ∧
    bitAt upState.time.cfg 2 = true ∧ fld upState.time.cfg 95 64 * 1000 ≤ (-1000000 : Int).natAbs ∧ (10 - servoPredict (timed 3 .locked 0 0)).natAbs ≤ 8 * tLockPs (timed 3 .locked 0 0) ∧
    8 * tLockPs (timed 3 .locked 0 0) < (800001 - servoPredict (timed 3 .locked 0 0)).natAbs ∧ (timed 3 .acquiring 15 0).time.accepted = 15 := by decide +kernel

/-- PTP from a master over port 0. -/
def ptped (st : TimeState) : State :=
  let s := timed 1 st 0 0
  ptpMod (fun p => { p with selected := some (5, 1), masters := [⟨5, 1, [], 37, 1, 0⟩], sync := some (0, 0), waiting := some (9, 3), delayReq := some (4, 0) }) { s with eth := vmod s.eth 0 fun e => { e with up := true } }
/-- TimeSources. -/
theorem wit_sources : ptpOn (ptped .locked) = true ∧ ptpOn upState = false ∧ fromMaster (ptped .locked) 0 5 1 = true ∧ fromMaster (ptped .locked) 127 5 1 = false ∧ fld (ptped .locked).time.cfg 11 4 = 0 ∧
    (ptpMod (fun p => { p with selected := none, masters := [] }) (ptped .locked)).time.ptp.selected = none ∧ logSecs (ptped .locked).time.ptp.logDelay ≤ 150000000 ∧ (selMaster { ptped .locked with cyc := 600000000 }).isSome = true ∧
    3 * logSecs 1 ≤ 600000000 ∧ tSource (timed 2 .locked 0 0) = 2 ∧ (ptpMod (fun p => { p with l1Up := true }) (timed 2 .locked 0 0)).time.ptp.l1Up = true ∧ (crossing 8 false 0 0 upState).1.isSome = true ∧
    (crossing 8 false 0 0 (tinMod 8 (fun x => { x with lastAt := some 0 }) upState)).1.isSome = false ∧
    tSource (timed 3 .locked 0 0) = 3 ∧ (timed 3 .locked 0 0).time.ppsSince + 150000000 ≤ (timed 3 .locked 0 0).cyc ∧ fld upState.time.cfg 232 224 * 100000 ≤ 10000000 ∧ fld upState.time.cfg 223 192 = 0 ∧ upState.time.ppsOut = none ∧ upState.time.ppsSecond = none ∧ now upState / 65536000000000 ≤ 0 ∧
    0 < fld upState.time.cfg 159 128 ∧ upState.time.holdSince + fld upState.time.cfg 159 128 * 100000000 ≤ 8640000000000 := by decide +kernel

/-- Port 15 on lane 143 with an address, up or down. -/
def ethed (up : Bool) : State := ethMod 15 (fun x => { x with cfg := BitVec.ofNat 256 (1 + (143 <<< 8) + (0x0A000001 <<< 80)), up := up }) upState
/-- An ARP request for an address. -/
def arpFor (ip : Nat) : Bytes := be 6 0xFFFFFFFFFFFF ++ be 6 0x020000000001 ++ be 2 0x0806 ++ be 8 0x0001080006040001 ++ be 6 0x020000000001 ++ be 4 0x0A000002 ++ be 6 0 ++ be 4 ip
/-- A VITA_DEF of stream 63 on port 15 of a ring. -/
def vitaDef : Bytes := padTo 64 ([63, 15, 4, 0] ++ le 4 0x103 ++ List.replicate 36 0 ++ le 4 100 ++ [0, 0] ++ le 2 1024)
/-- The narrowband ring of channel 0 with a block of 1,088 bytes, and a stream of it where asked. -/
def vitaed (l : List (Nat × VitaSt)) : State :=
  let b : Bytes := padTo 1088 [1, 1]
  rawWrite 0x180000000 b { ethed true with vita := l, rings := [{ id := 0x103, base := 0x180000000, log2 := 20, type := 5, owner := 0x0300, policy := 1, producer := 1088, entries := [⟨0, 1088, 1, 0, 0⟩] }] }
/-- EthernetOperations. -/
theorem wit_eth : accepted [(vEthConfigure, mb 0x0E0F (le 32 0), ethed true), (vEthConfigure, mb 0x0E0F (le 32 (1 + 143 * 256)), upState), (vEthVitaCreate, mb 0x0E0F vitaDef, vitaed []), (vEthVitaDelete, mb 0x0E0F [63], vitaed [(63, { defn := vitaDef, pos := 0 })])] = true ∧
    (let s := ethed true; (vget s.eth 15).up = true ∧ beAt (arpFor 0x0A000001) 12 2 = 0x0806 ∧ beAt ((arpFor 0x0A000001).drop 14) 6 2 = 1 ∧ beAt ((arpFor 0x0A000001).drop 14) 24 4 = fld (vget s.eth 15).cfg 111 80 ∧ fld (vget s.eth 15).cfg 27 16 = 0 ∧
      (arpFor 0).length ≤ 1514 ∧ s.boot.mainOn = true ∧ bitAt (vget s.eth 15).cfg 0 = true ∧ tSource s = 0) ∧ (vget (ethed false).eth 15).up = false ∧ beAt (List.replicate 14 0) 12 2 ≠ 0x8100 ∧
    (let v : VitaSt := { defn := vitaDef, pos := 0 }; let s := vitaed [(63, v)]; s.vita.find? (fun v => v.1 == 63) = some (63, v) ∧ (vitaReady s v).isSome = true ∧ (vitaReady s v).all (fun r => decide (heldStart r ≤ 0)) = true ∧
      (vitaReady s v).map (fun r => vitaNext s r v) = some ([], [⟨0, 1088, 1, 0, 0⟩]) ∧ v.context = none) ∧ vitaReady upState { defn := vitaDef, pos := 0 } = none := by decide +kernel

/-- TIN3 in a mode with a state of its measurement, a second after P. -/
def tinned (mode : Nat) (f : TdcSt → TdcSt) : State := tdcMod 3 (fun x => f { x with cfg := setFld x.cfg 18 17 mode }) { upState with cyc := 100000000, time := { upState.time with counter := 2 ^ 80 } }
/-- A first edge. -/
def edge0 : Edge := ⟨0, 0, 1500, false⟩
/-- IntervalMeasurement. -/
theorem wit_tdc : accepted [(vTdcConfigure, mb 0x0D13 (le 16 State.reset.tdc.ch[0].cfg.toNat), upState), (vTdcArm, mb 0x0D13 (le 12 0), upState), (vTdcArm, mb 0x0D13 (le 12 (2 ^ 60)), upState), (vTdcArm, mb 0x0D13 (le 12 (2 ^ 32)), tinned 1 id),
    (vTdcDisarm, mb 0x0D13 [], tinned 1 fun x => { x with armed := true }), (vTdcRead, mb 0x0D13 [], tinned 1 fun x => { x with result := some ⟨0, 0, 1, 0, 0, 0⟩ }), (vTdcSelfcal, mb 0x0D13 [], upState)] = true ∧
    argT0 (mb 0x0D13 (le 12 0)) 0 = true ∧ (argT (mb 0x0D13 (le 12 (2 ^ 60))) 0).any (fun t => decide (now upState < t)) = true ∧ (argT (mb 0x0D13 (le 12 (2 ^ 32))) 0).any (fun t => decide (t < now (tinned 1 id))) = true ∧
    (tinned 1 fun x => { x with armAt := some 0 }).tdc.ch[3].armAt = some 0 ∧ fld upState.tdc.ch[3].cfg 14 13 = 0 ∧ pairFor upState 9 = some 0 ∧ stage upState ≠ 0 ∧ stage State.reset = 0 ∧ pairFor upState 3 = some 0 ∧ fld (tinned 0 fun x => { x with armed := true }).tdc.ch[3].cfg 14 13 ≠ 1 ∧ (tinned 0 fun x => { x with armed := true }).tdc.ch[3].start = none ∧ pairsOk upState.tdc.inp[9] = 18 ∧ upState.tdc.inp[9].lastAt = none ∧
    (tinMod 9 (fun x => { x with lastAt := some 0 }) upState).tdc.inp[9].lastAt = some 0 ∧ (List.replicate 1024 (0, ([] : Bytes))).length = 1024 ∧
    (let x := (tinned 2 fun x => { x with armed := true, start := some (edge0, 0), gate := some (edge0, 1) }).tdc.ch[3]; fld x.cfg 18 17 = 2 ∧ x.gate = some (edge0, 1) ∧ edge0.coarse + fld x.cfg 39 24 * 400 ≤ 400000000) ∧
    (let x := (tinned 0 fun x => { x with armed := true, start := some (edge0, 0) }).tdc.ch[3]; fld x.cfg 18 17 = 0 ∧ x.start = some (edge0, 0) ∧ x.stop = none ∧ edge0.coarse + 2 ^ 24 < 400000000) ∧
    isReady (tinned 3 id) = true ∧ calAsked upState = false ∧ (List.range 4).all (fun j => fld (vget (tdcMod 0 (fun x => { x with cfg := 0 }) (tdcMod 1 (fun x => { x with cfg := 0 }) (tdcMod 2 (fun x => { x with cfg := 0 }) (tdcMod 3 (fun x => { x with cfg := 0 }) upState)))).tdc.ch j).cfg 79 64 == 0) = true ∧
    ({ upState with tdc := { upState.tdc with cal := some (9, 17) } } : State).tdc.cal = some ((9 : Fin 10).val, (17 : Fin 18).val) ∧
    (([⟨5, 5, 0x0D13, 0, 0, 0, false, none, 0x1505, 0⟩] : List MaintReq).find? fun r => r.activity == 5).isSome = true := by decide +kernel

/-- Channel 11 in a state, 100 microseconds after P. -/
def dacAt (f : DacSt → DacSt) : State := dacMod 11 f { upState with time := { upState.time with counter := 100 * 65536000 * 2 ^ 32 } }
/-- ControlOutputs. -/
theorem wit_dac : accepted [(vDacConfigure, mb 0x101B (le 8 State.reset.dacs.ch[0].cfg.toNat), upState), (vDacWrite, mb 0x101B [1, 2, 1], upState), (vDacStrobe, mb 0x1000 [7], upState), (vDacSchedule, mb 0x1000 ([7, 0, 0, 0] ++ le 12 0), upState),
    (vDacSetClear, mb 0x101B [1, 2], upState), (vDacSetClear, mb 0x101B [1, 2], { upState with grade := .g480 }), (vDacRelease, mb 0x1000 [], dacAt fun x => { x with overcurrent := true })] = true ∧ argT (mb 0x1000 ([7, 0, 0, 0] ++ le 12 0)) 4 = some 0 ∧
    nowUs (dacAt id) = 100 ∧ (dacAt id).dacs.lastTick ≠ some 100 ∧ (dacAt id).dacs.powerUpPending = false ∧
    (let x := (dacAt fun x => { x with ch := .slewing, dacReg := 0xFFFF, cfg := setFld x.cfg 47 32 100 }).dacs.ch[11]; x.ch = .slewing ∧ x.slewAt + fld x.cfg 47 32 ≤ 100) ∧
    (let x := (dacAt fun x => { x with clampStart := some 75, clampCleared := true }).dacs.ch[11]; x.clampStart = some 75 ∧ x.ch = .clamped ∧ x.leaveClamp = false) ∧
    (let s := dacAt fun x => { x with ch := .cleared, clearDue := true, overcurrent := true }; cleared s s.dacs.ch[11] = true ∧ s.dacs.clrLow = false ∧ s.dacs.refBad = false) ∧
    (dacsMod (fun d => { d with clrLow := true }) upState).dacs.clrLow = true ∧ (dacsMod (fun d => { d with refBad := true }) upState).dacs.refBad = true ∧
    (let s := dacsMod (fun d => { d with powerUpPending := true }) (dacAt id); s.dacs.lastTick ≠ some (nowUs s) ∧ s.dacs.strobes = 0 ∧ s.dacs.scheduled = [] ∧ cleared s s.dacs.ch[11] = false ∧ s.dacs.ch[11].loadPending = false) ∧
    (let s := dacsMod (fun d => { d with powerUpPending := true, clrLow := true }) (dacAt id); cleared s s.dacs.ch[11] = true ∧ s.dacs.ch[11].newRange = false) ∧ upState.dacs.powered = false ∧ stage upState ≠ 0 ∧ (dacAt fun x => { x with ch := .normal, loadPending := true, cfg := setBit x.cfg 2 false }).dacs.ch[11].loadPending = true := by decide +kernel

/-- The converter with two slots, running or not, and a word held. -/
def hked (run : Bool) (f : HkSt → HkSt) : State :=
  hkMod (fun h => f { h with running := run, cfg := BitVec.ofNat 64 ((2 <<< 8) + (0x1000 <<< 32)), slots := vmod h.slots 1 fun w => setFld w 12 12 1 }) { upState with cyc := 100000 }
/-- Loop 7 on channel 0x2B and output 11 in a state, a second after P. -/
def looped (f : LoopSt → LoopSt) (ch : DacCh) : State :=
  let s := hked true fun h => { h with latest := [(0x09, 5, 65536000000000)] }
  let s : State := { s with time := { s.time with counter := 65536000000000 * 2 ^ 32 } }
  dacMod 11 (fun x => { x with ch := ch }) (loopMod8 7 (fun x => f { x with cfg := setFld (setFld x.cfg 5 0 9) 11 8 11, state := .running }) s)
/-- HousekeepingAndLoops. -/
theorem wit_hk : accepted [(vHkConfigure, mb 0x1020 (le 8 0x4000), upState), (vHkLoadSeq, mb 0x1020 (le 6 0x100000 ++ [64]), upState), (vHkStart, mb 0x1020 [], hked false id), (vHkStop, mb 0x1020 [], hked true id), (vHkStop, mb 0x1020 [], upState),
    (vHkRead, mb 0x1020 (le 6 0x100000), upState), (vThermConfigure, mb 0x1037 (le 32 State.reset.loops[0].cfg.toNat), upState), (vThermStart, mb 0x1037 [], loopMod8 7 (fun x => { x with state := .off }) (looped id .normal)), (vThermStop, mb 0x1037 [], looped id .normal),
    (vThermSetpoint, mb 0x1037 [], upState)] = true ∧ (kennelRead (begun vHkLoadSeq (mb 0x1020 (le 6 0x100000 ++ [64])) upState) 0x100000 256).isSome = true ∧
    (let s : State := { hked true fun h => { h with modA := { discards := 1 }, modB := { slot := 1, left := 2 }, windowMs := some 0 } with cyc := 100000000 }
     convIdle s false s.hk.modA = false ∧ convIdle s true s.hk.modB = false ∧ convIdle upState true {} = true ∧ 1 < s.hk.modB.left ∧ s.hk.modA.discards ≠ 0 ∧ s.hk.modB.discards = 0 ∧ stage s ≠ 0 ∧ s.hk.windowMs = some (nowMs s) ∧ nowUs s % 1000 < 208) ∧
    (let s : State := { hked true id with time := { upState.time with counter := 208 * 65536000 * 2 ^ 32 } }; stage s ≠ 0 ∧ s.hk.windowMs ≠ some (nowMs s) ∧ 208 ≤ nowUs s % 1000 ∧ ringOf sampleRinged 0x100 = some capRing) ∧ fld upState.hk.cfg 51 32 < 0x90 ∧
    (let s := hked true fun h => { h with modB := { slot := 1 } }; bitAt (vget s.hk.slots 1) 13 = true ∧ 0x90 ≤ fld s.hk.cfg 51 32 ∧ hkWords s.hk.fifo < 4096) ∧
    isReady upState = true ∧ isReady State.reset = false ∧ isA upState .hk 0x1000 = false ∧ isA upState .tdc 0x1000 = false ∧ (hked true fun h => { h with fifo := [.word 0 0 0] }).hk.fifo = [.word 0 0 0] ∧
    (let s := looped id .normal; let x := vget s.loops 7; x.state = .running ∧ lOut x.cfg < 12 ∧ nowMs s / max 1 (lPeriod x.cfg) ≠ x.grid ∧ (s.hk.latest.find? fun p => p.1 == lIn x.cfg) = some (lIn x.cfg, 5, 65536000000000) ∧
      now s ≤ 65536000000000 + lStale x.cfg * lPeriod x.cfg * 65536000000 ∧ x.bumpless = false ∧ lMin x.cfg ≤ lMax x.cfg) := by decide +kernel

/-- A READY device with bytes at 0x100000 of the store. -/
def storeHas (b : Bytes) : State := rawWrite 0x100000 b upState
/-- A signed request or token of 160 bytes: 64 bytes, and r, s of a signature that verifies under the keys that \`signers\` finds. -/
def signedBytes (m : Bytes) : Bytes := padTo 64 m ++ be 48 1 ++ be 48 2
/-- The hash of a key under which it verifies. -/
def signedHash (m : Bytes) : Bytes := match signers (padTo 64 m) (be 48 1 ++ be 48 2) with
  | q :: _ => sha384 (keyBytes q)
  | [] => []
/-- A device that holds the hash of a signer's key, and a challenge. -/
def keyHolder (m : Bytes) (k : Nat) : State := { upState with sec := { upState.sec with challenge := some (List.replicate 32 7, 0), otp := { upState.sec.otp with
  vendorHash := if k < 4 then (List.replicate 4 []).set k (signedHash m) else [], ownerHash := if k < 4 then [[], []] else ([[], []] : List Bytes).set (k - 4) (signedHash m) } } }
/-- A key request of an ACTION, with an index and a signer, of the device with serial number 0. -/
def keyMsg (a i k : Nat) : Bytes := le 4 0x4F4B4559 ++ le 1 a ++ le 1 i ++ le 1 k ++ [0] ++ le 8 upState.sec.otp.serial.toNat ++ List.replicate 48 5
/-- A debug token for a challenge of sevens. -/
def tokenMsg (k : Nat) : Bytes := le 4 0x4F444247 ++ [3] ++ le 1 k ++ [0, 0] ++ le 8 upState.sec.otp.serial.toNat ++ List.replicate 32 7
/-- SecurityCommands: signatures that pass. -/
theorem wit_token : tokenOk (keyHolder (tokenMsg 0) 0) (signedBytes (tokenMsg 0)) = true := by decide +kernel
theorem wit_key_vendor : keyAuth (keyHolder (keyMsg 1 1 3) 3) 1 (signedBytes (keyMsg 1 1 3)) = true := by decide +kernel
theorem wit_key_owner : keyAuth (keyHolder (keyMsg 4 0 5) 5) 4 (signedBytes (keyMsg 4 0 5)) = true := by decide +kernel
/-- A slot image that passes every check. -/
theorem wit_update : updateFails (signed 0 3 upState) (testSlot testImages 0) = none ∧ upState.sec.update = none ∧ upState.boot.bootSlot = 0 := by decide +kernel
/-- SecurityCommands. -/
theorem wit_sec : accepted [(vSecAttest, mb 0x1100 (List.replicate 32 1 ++ le 6 0x100000), upState), (vSecCert, mb 0x1100 (le 6 0x100000), upState), (vSecUpdate, mb 0x1100 (le 6 0x100000 ++ [1]), upState),
    (vSecRollback, mb 0x1100 [3], upState), (vSecKey 1, mb 0x1100 (le 6 0x100000), upState), (vSecKey 2, mb 0x1100 (le 6 0x100000), upState), (vSecKey 3, mb 0x1100 (le 6 0x100000), upState),
    (vSecKey 4, mb 0x1100 (le 6 0x100000), upState), (vDebugChallenge, withByte (mb 0x1100 []) 0 0, upState), (vDebugToken, withByte (mb 0x1100 ([1, 0, 0, 0, 0, 0, 0, 0] ++ le 6 0x100000)) 0 1, upState),
    (vDebugRelock, withByte (mb 0x1100 []) 0 2, upState)] = true ∧
    (let c := mb 0x1100 (le 6 0x100000 ++ [1]); let t := begun vSecUpdate c upState; srcBad t 0x100000 64 = false ∧ (kennelRead t 0x100000 64).isSome ∧ ((kennelRead t 0x100000 64).bind fun h => kennelRead t 0x100000 (min 0x2000000 (slotSpan h))).isSome) ∧
    ((List.range 4).all fun a => let c := mb 0x1100 (le 6 0x100000); let t := begun (vSecKey (a + 1)) c upState; !srcBad t 0x100000 160 && (keyRequest t c (a + 1)).isSome) = true ∧
    (let c := withByte (mb 0x1100 ([1, 0, 0, 0, 0, 0, 0, 0] ++ le 6 0x100000)) 0 1; let t := begun vDebugToken c upState; srcBad t 0x100000 160 = false ∧ (kennelRead t 0x100000 160).isSome) ∧
    upState.sec.otp.rollback.length = 3 ∧ upState.sec.otp.dead = [] ∧
    (let u : UpdateSt := ⟨mb 0x1100 [], 1, 7, [0x54, 0x4C, 0x53, 0x4F] ++ List.replicate 124 5⟩; 64 ≤ u.image.length ∧ u.image.length ≤ 0x2000000 ∧ numAt u.image 0 4 = 0x4F534C54 ∧ Memory.wf upState.sec.flash = true) := by decide +kernel

/-- BlackBoxCommands: at the pinned boundary, the last index and with a signing over the next index. -/
theorem wit_box : accepted [(vBoxRead, mb 0x1101 (le 4 131071 ++ le 4 2 ++ le 6 0x100000), upState), (vBoxExport, mb 0x1101 (le 4 131071 ++ le 4 2 ++ List.replicate 16 3 ++ le 6 0x100000), upState),
    (vBoxSign0, withByte (mb 0x1101 (le 4 0 ++ le 4 131072)) 24 0, upState), (vBoxNote, mb 0x1101 [1, 2], upState), (vBoxSign1, withByte (mb 0x1101 (le 4 0 ++ le 4 1)) 24 1, { upState with sec := { mbxSigS := some [1] } }),
    (vBoxSign1, withByte (smb 0x1101 (le 4 0 ++ le 4 1)) 24 1, bankedMod .smbus (fun b => { b with lastSigS := some [1] }) upState)] = true ∧
    (bankOf (bankedMod .smbus (fun b => { b with lastSigS := some [1] }) upState) .smbus).lastSigS = some [1] ∧
    (let s : State := { upState with box := { nextSeq := 131072 }, sec := { signing := some (131071, 2, none, [], smb 0x1101 []) } }
     ¬ (1024 + (s.box.nextSeq - 1024) % 130048 + 131072 - 131071) % 131072 < 2) ∧
    (let i := 0; (i + 131072 - 131071) % 131072 < 2) := by decide +kernel

/-- Bond B0 and lane 15 in a state of training or service, a minute after P. -/
def linked (f : BondSt → BondSt) (g : LaneSt → LaneSt) : State :=
  laneMod 15 g (bondMod 0 f { upState with cyc := 6000000000 })
/-- LinkTraining: the verbs. -/
theorem wit_link_verbs : accepted [(vLinkBond, mb 0x0F07 (le 16 (16 + 31 * 32 + 3 * 2 ^ 10 + 255 * 2 ^ 16 + 2 ^ 32 + 2 ^ 40 + 95 * 2 ^ 48 + 255 * 2 ^ 56)), upState), (vLinkBond, mb 0x0F00 (le 16 State.reset.link.bond[0].cfg.toNat), upState),
    (vLinkBond, mb 0x0F00 (le 16 (State.reset.link.bond[0].cfg.toNat - 2 ^ 10)), upState), (vLinkRetrain, mb 0x0F00 [], upState), (vLinkAperture, mb 0x0F07 (le 8 4096 ++ le 5 0 ++ [37, 15, 1]), upState),
    (vLinkReadapt, mb 0x0F1F [], upState)] = true ∧ bondMajor State.reset.link.bond[0].cfg (bondCfgOf (mb 0x0F00 (le 16 State.reset.link.bond[0].cfg.toNat))) = false ∧
    bondMajor State.reset.link.bond[0].cfg (bondCfgOf (mb 0x0F00 (le 16 (State.reset.link.bond[0].cfg.toNat - 2 ^ 10)))) = true ∧ bitAt State.reset.link.bond[0].cfg 40 = true ∧ bitAt State.reset.link.bond[7].cfg 40 = false := by decide +kernel
/-- LinkTraining: the rows of training. -/
theorem wit_training : (∀ t ∈ [1, 2, 4, 5, 10], ctlOk t (ctlBlock t 15 0 0 [1, 1]) = true) ∧ ctlOk 10 [] = false ∧ laneBond upState 15 = some 0 ∧ laneBond upState 143 = none ∧ upState.boot.mainOn = true ∧ upState.boot.linkBoot = false ∧
    (let s := linked (fun x => { x with phase := .cap, firstMapped := some 0 }) fun l => { l with state := .training, caps := 7, ackRecv := true }; (vget s.link.bond 0).phase = .cap ∧ (vget s.link.lane 15).state = .training ∧ 10000000 ≤ s.cyc - 0 ∧ fld (vget s.link.bond 0).cfg 36 32 ≤ (bondLanes s 0).length) ∧
    (let s := linked (fun x => { x with phase := .cap, cfg := setFld (setFld x.cfg 31 16 0x8000) 36 32 2 }) fun l => { l with state := .training, ackSent := true }
     ¬ fld (vget s.link.bond 0).cfg 36 32 ≤ (bondLanes s 0).length ∧ laneBond s 15 = some 0 ∧ (∀ k ∈ bondLanes s 0, k ≠ 15 → laneMapped (vget s.link.lane k) = true)) ∧
    (let s := linked (fun x => { x with phase := .mapped, rate := 2, partnerMax := 3, mask := 0x8000 }) id; let x := vget s.link.bond 0; x.rate < min (fld x.cfg 11 10) x.partnerMax ∧ maskLanes s 0 x.mask = [15]) ∧
    (let s := linked (fun x => { x with phase := .stepSent }) id; numAt (ctlBlock 4 15 0 0 [1, 1]) 4 1 = (vget s.link.bond 0).rate + 1) ∧
    (let s := linked (fun x => { x with phase := .result, mask := 0x8000 }) fun l => { l with localPass := some true }; (vget s.link.bond 0).phase = .result ∧ 20000 ≤ s.cyc - (vget s.link.bond 0).resultSince ∧ (vget s.link.lane 15).remotePass = none ∧
      (∀ k ∈ maskLanes s 0 0x8000, (vget s.link.lane k).localPass = some true)) ∧
    (let s := linked (fun x => { x with phase := .mapped, rate := 3, partnerMax := 3 }) id; let x := vget s.link.bond 0; x.phase = .mapped ∧ min (fld x.cfg 11 10) x.partnerMax ≤ x.rate) := by decide +kernel
/-- LinkTraining: lanes in service, with other lanes and alone. -/
theorem wit_lanes : (let s := linked (fun x => { x with phase := .up, mask := 0xC000 }) fun l => { l with state := .inService, fomCal := 100, below := 9 }
      let x := vget s.link.bond 0
      let l := vget s.link.lane 15
      maskLanes s 0 x.mask = [14, 15] ∧ logicalOf s 0 15 = 15 ∧ l.fomCal * fld x.cfg 55 48 / 100 = 70 ∧ 2 ≤ fld x.cfg 63 56 ∧ fld x.cfg 63 56 ≤ l.below + 1 ∧ fld x.cfg 36 32 ≤ maskWidth (setBit ((x.width.map (·.mask)).getD x.mask) 15 false) ∧
      (∀ k ∈ maskLanes s 0 x.mask, k = 15 ∨ (vget s.link.lane k).state ≠ .inService) ∧ (vget (laneMod 14 (fun l => { l with state := .inService }) s).link.lane 14).state = .inService ∧
      maskWidth (setBit x.mask 15 false) < fld (setFld x.cfg 36 32 2) 36 32) ∧
    (let s := linked (fun x => { x with phase := .up }) fun l => { l with state := .left }
      let t : State := { s with maint := { running := [⟨9, 4, 0x0F1F, 0, 0, 0, false, none, 0, 0⟩] } }
      1000000000 ≤ s.cyc - (vget s.link.lane 15).since ∧ maintHas s 4 (laneHandle 15) = false ∧ bitAt s.maint.cfg 1 = false ∧ (maintRunning t 4 (laneHandle 15)).isSome = true ∧ maintRunning s 4 (laneHandle 15) = none) := by decide +kernel

/-- Bond B0 in service with lanes 14 and 15, at 10 s. -/
def inLink (f : BondSt → BondSt) : State :=
  laneMod 14 (fun l => { l with state := .inService }) (laneMod 15 (fun l => { l with state := .inService }) (bondMod 0 (fun x => f { x with phase := .up, mask := 0xC000 }) { upState with cyc := 1000000000 }))
/-- A flit without its CRC. -/
def flitOf (h k : Nat) : Bytes := le 2 h ++ le 2 k ++ List.replicate 248 0
/-- LinkDelivery: blocks. -/
theorem wit_blocks : (∀ t ∈ [6, 7, 8, 9], ctlOk t (ctlBlock t 15 0 0 [1]) = true) ∧ laneBond upState 15 = some 0 ∧
    (let s := inLink id; (vget s.link.bond 0).phase = .up ∧ (vget s.link.bond 0).txSleep = .l0 ∧ (vget s.link.bond 0).width = none ∧ (maskLanes s 0 0xC000).filter (fun k => k != 15 && (vget s.link.lane k).state == .inService) = [14] ∧
      (numAt (ctlBlock 6 15 0 0 [1]) 4 4 + 2 ^ 32 - (vget s.link.lane 14).marker) % 2 ^ 32 < 2 ∧ 2 ≤ (numAt (ctlBlock 6 15 0 0 [2]) 4 4 + 2 ^ 32 - (vget s.link.lane 14).marker) % 2 ^ 32 ∧ 10 * (max 0 (vget s.link.lane 14).markerAt - min 0 (vget s.link.lane 14).markerAt) ≤ 64 ∧ bondIdle (vget s.link.bond 0) = true) ∧
    (let s := laneMod 13 (fun l => { l with state := .inService, marker := 1, markerAt := 1000000000 }) (laneMod 14 (fun l => { l with marker := 1, markerAt := 999999993 }) (bondMod 0 (fun x => { x with mask := 0xE000 }) (inLink id)))
     let ls := (maskLanes s 0 (vget s.link.bond 0).mask).filter fun k => (vget s.link.lane k).state == .inService
     15 ∈ ls ∧ skewed (laneMod 15 (fun l => { l with marker := 1, markerAt := s.cyc }) s) ls = [14] ∧ numAt (ctlBlock 6 15 0 0 [1]) 4 4 = 1 ∧ laneBond s 14 = some 0 ∧ (vget s.link.bond 0).width = none ∧
       fld (vget s.link.bond 0).cfg 36 32 ≤ maskWidth (setBit (vget s.link.bond 0).mask (logicalOf s 0 14) false)) ∧
    (let w : WidthChange := ⟨0x4000, 0, true, none⟩; let x := vget (inLink fun x => { x with width := some w }).link.bond 0; w.marker ≤ x.txMarker ∧ fld x.cfg 36 32 ≤ maskWidth w.mask) ∧
    (let w : WidthChange := ⟨1, 1, false, none⟩; let k := ctlBlock 8 15 0 0 ([1, 0, 0, 0, 1]); ctlOk 8 k = true ∧ w.mask.toNat = numAt k 4 2 ∧ w.marker = numAt k 8 4) ∧
    (let x := vget (inLink fun x => { x with partnerLd := true, cfg := setFld x.cfg 95 80 1 }).link.bond 0; fld x.cfg 79 64 ≠ 0 ∧ fld x.cfg 79 64 * 100 ≤ 1000000000 - x.idleSince ∧ fld x.cfg 95 80 * 100000 ≤ 1000000000 - x.idleSince ∧ fld (vget (inLink id).link.bond 0).cfg 95 80 = 0) ∧
    bondIdle (vget (inLink fun x => { x with txSleep := .ls, ackOwed := (1, 0) }).link.bond 0) = false := by decide +kernel
/-- The bytes of a number give it back. -/
theorem leNat_le : ∀ (n v : Nat), v < 256 ^ n → leNat (le n v) = v := by
  intro n
  induction n with
  | zero => intro v h; simp at h; simp [le, leNat, h]
  | succ n ih =>
    intro v h
    have h1 : v / 256 < 256 ^ n := by rw [Nat.pow_succ] at h; omega
    simp only [le, leNat, ih _ h1, BitVec.toNat_ofNat]
    omega
/-- 252 bytes with their CRC are a flit with a good CRC. -/
theorem flit_good (p : Bytes) (e : p.length = 252) : (withCrc p).length = 256 ∧ numAt (withCrc p) 252 4 = (crc32 ((withCrc p).take 252)).toNat := by
  have hl : ∀ n v, (le n v).length = n := by intro n; induction n <;> simp_all [le]
  have ht : (withCrc p).take 252 = p := by simp [withCrc, ← e]
  have hd : (withCrc p).drop 252 = le 4 (crc32 p).toNat := by simp [withCrc, ← e]
  refine ⟨by simp [withCrc, hl, e], ?_⟩
  rw [ht, numAt, hd, List.take_of_length_le (by simp [hl]), leNat_le _ _ (by have := (crc32 p).isLt; omega)]
/-- LinkDelivery: flits in order, out of order, bad and with an acknowledgement. -/
theorem wit_flits : (∀ p ∈ [(0, 0), (5, 0), (0xF000, 4103)], (flitOf p.1 p.2).length = 252 ∧ numAt (withCrc (flitOf p.1 p.2)) 0 2 = p.1 ∧ numAt (withCrc (flitOf p.1 p.2)) 2 2 = p.2) ∧ (vget (inLink id).link.bond 0).rxSeq = 0 ∧
    (let x := vget (inLink fun x => { x with unacked := [⟨6, [], []⟩, ⟨7, [], []⟩], freed := #v[128, 0, 0, 0], ackOwed := (32, 0), replayRun := 7 }).link.bond 0; x.unacked.findIdx? (fun g => g.fseq == 7) = some 1 ∧ 1000 ≤ 1000000000 - x.ackAdvance ∧ 128 ≤ vget x.freed 0) := by decide +kernel
/-- LinkDelivery: transactions. -/
theorem wit_txs : let s := inLink fun x => { x with reads := [⟨9, 0x10000000000, 64, 0, none⟩, ⟨10, 0x10000000000, 64, 0, some 31⟩] }
    let x := vget s.link.bond 0
    txWaits x { ttype := 4, vc := 0, addr := 0x100000ffc, data := [1, 2, 3, 4] } = false ∧ isReady s = true ∧ Memory.wf s.mem = true ∧ regionOf s.grade 0x100000000 = .store ∧ regionOf s.grade 0x1000010fb = .store ∧ regionOf s.grade 0x18000000 = .unmapped ∧
    regionOf s.grade 0x18FFFFFC0 = .store ∧ regionOf s.grade 0x18FC000000 = .context ∧
    (let u : State := { s with boot := { s.boot with stage := 3, linkBoot := true } }; isReady u = false ∧ linkDenied u 0 0x4000000 = true ∧ linkDenied u 0 0x100000000 = false ∧ regionOf u.grade 0x4000000 = .bank 16 0 0x4000000) ∧
    bankAns (vget s.banks 0) (bondHandle 0) = .denied ∧ regionOf s.grade 0 = .bank 0 0 0 ∧
    bankAns { vget s.banks 0 with owner := 0x0F00, power := 0 } (bondHandle 0) = .served ∧ bankAns { vget s.banks 0 with owner := 0x0F00, power := 2 } (bondHandle 0) = .notOn ∧ bankAns { vget s.banks 0 with pendingOwner := 0x0F00 } (bondHandle 0) = .held ∧ s.store.badWords = [] ∧ (x.reads.find? fun r => r.tag == 9).isSome ∧ (x.reads.find? fun r => r.tag == 11) = none ∧ 1000000 ≤ s.cyc - 0 := by decide +kernel

/-- TransactionsReadBack: two transactions cut in the header of the second. -/
theorem wit_readback : let l : List Tx := [{ ttype := 4, vc := 3, addr := 0xFFFFFFFFFFFFFFFF, data := [1, 2, 3] }, { ttype := 15, cpl := true, vc := 0, status := 15, tag := 0xFFFF, rlen := 0xFFFF }]
    (∀ t ∈ l, t.ttype ≠ 0 ∧ t.ttype < 16 ∧ t.vc < 4 ∧ t.status < 16 ∧ t.tag < 2 ^ 16 ∧ t.rlen < 2 ^ 16 ∧ t.addr < 2 ^ 64 ∧ t.data.length < 2 ^ 16 ∧ t.stream = none) ∧ (l.flatMap txBytes ++ List.replicate (8 * 1) 0).length = 8 * 6 ∧
    (let b := l.flatMap txBytes ++ List.replicate 8 0; let p := txParse 6 (b.take 29) []; let q := txParse 6 (p.2 ++ b.drop 29) []; (p.1, q.1, q.2) = (l.take 1, l.drop 1, [])) := by decide +kernel

/-! ### Ill-formed commands are refused (one for each check) -/

theorem test_wf_mailbox_payload : (Instr.inputConfigure { path := .mailbox 0, seq := 1, unit := 0x0100, args := List.replicate 4097 0 }).wf = false := by decide +kernel
theorem test_wf_mailbox_full : (Instr.inputConfigure { path := .mailbox 0, seq := 1, unit := 0x0100, args := List.replicate 4096 0 }).wf = true := by decide +kernel
theorem test_wf_junction_words : (Instr.pwrConfigure (smb 0x1000 (List.replicate 49 0))).wf = false := by decide
theorem test_wf_supply : (Instr.supplySample 65536 3300).wf = false ∧ (Instr.supplySample 12000 65536).wf = false ∧ (Instr.supplySample 12000 3300).wf = true := by decide
theorem test_wf_block_codes : (Instr.ingestBlock 0 (List.replicate 512 2048) (List.replicate 31 0)).wf = false ∧ (Instr.ingestBlock 0 (List.replicate 512 (-2049)) (List.replicate 31 0)).wf = false := by decide +kernel
theorem test_wf_block_lengths : (Instr.ingestBlock 0 (List.replicate 511 0) (List.replicate 31 0)).wf = false ∧ (Instr.ingestBlock 0 (List.replicate 512 0) (List.replicate 30 0)).wf = false ∧
    (Instr.ingestBlock 0 (List.replicate 512 2047) (List.replicate 31 (-2048))).wf = true := by decide +kernel
theorem test_wf_address : (Instr.engineStoreWrite 0 0 1 0 (2 ^ 48) []).wf = false ∧ (Instr.engineStoreWrite 0 0 256 0 0 []).wf = false := by decide
theorem test_wf_ring : (Instr.streamSendPacket (2 ^ 20)).wf = false ∧ (Instr.ringPublish (2 ^ 20) default).wf = false := by decide
theorem test_wf_control_block : (Instr.cap 0 (List.replicate 13 0)).wf = false ∧ (Instr.cap 0 (List.replicate 14 0)).wf = true := by decide
theorem test_wf_flit : (Instr.flitReceived 0 (List.replicate 255 0) 0).wf = false := by decide +kernel
theorem test_wf_side_port : (Instr.smbusBlockRead 33).wf = false ∧ (Instr.smbusBlockWrite (List.replicate 33 0) true).wf = false := by decide
theorem test_wf_transaction : (Instr.memRd 0 0 0 4097).wf = false ∧ (Instr.memRdCompletion 0 0 16 []).wf = false ∧ (Instr.winRd 0 0 0 4097).wf = false := by decide
theorem test_wf_numbers : (Instr.stopComplete 0x8000 65536).wf = false ∧ (Instr.spanComplete 0 4).wf = false ∧ (Instr.maintOverrun 65536).wf = false ∧ (Instr.laneReadaptDone 0 0 256).wf = false := by decide
theorem test_wf_window : (Instr.hkSystemWindow (Vector.replicate 13 65536)).wf = false := by decide

/-! ### Worked examples of the manual -/

/-- The example of R17: 1,700,000,000 s, 250,000,000 ns and 0.5 ns. -/
theorem test_time_value : timeB (1700000000 * 65536000000000 + 250000000 * 65536 + 32768) = [0x00, 0x80, 0x80, 0xB2, 0xE6, 0x0E, 0x00, 0xF1, 0x53, 0x65, 0, 0] := by decide +kernel
/-- The example of R18: an NS field of 1,000,000,000 is invalid. -/
theorem test_time_invalid : timeOf (1000000000 * 65536) = none ∧ timeOf (999999999 * 65536) = some (999999999 * 65536) := by decide +kernel
/-- The example of R272: channel 33, bank 89. -/
theorem test_store_channel : chanOf .g880x 0x000234567800 = 33 ∧ sbankOf .g880x 0x000234567800 = 89 := by decide +kernel
/-- The worked example of file 04: BALANCED, N_HB 8, D_r 1.25: L_eff 28,875, GD 14,437 periods, SETTLE_OUT 91. -/
theorem test_ddc_latency : let w : BitVec 288 := setFld (setFld (setFld 0 3 2 1) 9 5 8) 103 64 0x140000000
    ddcLeff w = 28875 ∧ ddcGd2 w = 2 * 14437 ∧ ddcSettle w = 91 := by decide +kernel
/-- The table of R124: LOW_NOISE at N_HB 8 delays by 7,395 periods. -/
theorem test_ddc_low_noise : let w : BitVec 288 := setFld (setFld 0 9 5 8) 103 64 0x100000000
    ddcGd2 w = 2 * 7395 := by decide +kernel
/-- Line coding (R470), the comma of K28.5 and D0.0 at both disparities, and D17.7, whose last four bits are the alternative ones: IEEE 802.3 Clause 36. -/
theorem test_line_characters : code10 false (.k 0xBC) = (0b0011111010, true) ∧ code10 true (.k 0xBC) = (0b1100000101, false) ∧ (code10 false (.d 0)).1 = 0b1001110100 ∧ (code10 true (.d 0)).1 = 0b0110001011 ∧
    (code10 false (.d 0xF1)).1 = 0b1000110111 := by decide +kernel
/-- The generator polynomial of RS(528,514): IEEE 802.3 Clause 91. -/
theorem test_line_code : rsGen 14 = [904, 6, 701, 32, 656, 925, 900, 614, 391, 592, 265, 945, 290, 432] := by decide +kernel
/-- R470: the gray map of PAM4, and a control block whose bytes stand in two blocks of rate 1. -/
theorem test_line_blocks : pam4 [false, false, false, true, true, true, true, false] = [0, 1, 2, 3] ∧
    blocks1 (.control [1, 2, 3, 4, 5, 6, 7, 8, 9, 10, 11, 12, 13, 14]) = [((true, false), [0xC3, 1, 2, 3, 4, 5, 6, 7]), ((true, false), [0xC5, 8, 9, 10, 11, 12, 13, 14])] := by decide
/-- The worked example of file 07: decay by 2^-3 leaves 6,836 of 7,813. -/
theorem test_decay : decayed 3 7813 = 6836 := by decide
/-- The worked example of file 18: the last step of 214 ends the slew at 33,000. -/
theorem test_leash : let s := dacAt fun x => { x with ch := .slewing, out := 33214, dacReg := 33000, slewAt := 80, cfg := setFld (setFld x.cfg 31 16 1000) 47 32 10 }
    ((vget (leashStep 11 s).dacs.ch 11).out, (vget (leashStep 11 s).dacs.ch 11).ch) = (33000, DacCh.normal) := by decide +kernel
/-- The worked example of file 01: a pack of P2, with a spare in slot 5, and P3, in fan-out order. -/
theorem test_fan_out : expand { upState with packs := [{ handle := 0x8008, slots := [{ member := some 0x8002 }, { member := some 0x8003 }] },
      { handle := 0x8002, slots := [0x0410, 0x0411, 0x0412, 0x0413, 0x0414, 0x0440, 0x0416, 0x0417].map fun h => { member := some h } },
      { handle := 0x8003, slots := [0x0418, 0x0419, 0x041A, 0x041B, 0x041C, 0x041D, 0x041E, 0x041F].map fun h => { member := some h } }] } 0x8008 =
    [0x0410, 0x0411, 0x0412, 0x0413, 0x0414, 0x0440, 0x0416, 0x0417, 0x0418, 0x0419, 0x041A, 0x041B, 0x041C, 0x041D, 0x041E, 0x041F] := by decide +kernel

end Sys2Proof.Tests
end

section
/-! Writes through the control window, register by register (R7, R8, R436 to R445, R449, R460). -/
namespace Sys2Proof.Machine
open Sys2Proof

/-! ### Bits of a register word -/

/-- A number split at bit i, as setFld sees it. -/
theorem setFld_bit_split (h lo i : Nat) (b c : Bool) (hlo : lo < 2 ^ i) :
    2 ^ i * (2 * h + c.toNat) + lo - (((2 ^ i * (2 * h + c.toNat) + lo) >>> i % 2) <<< i) + (b.toNat <<< i) = 2 ^ i * (2 * h + b.toNat) + lo := by
  have hc : (2 ^ i * (2 * h + c.toNat) + lo) >>> i % 2 = c.toNat := by
    rw [Nat.shiftRight_eq_div_pow, Nat.mul_add_div (Nat.two_pow_pos i), Nat.div_eq_of_lt hlo, Nat.add_zero, Nat.mul_add_mod,
      Nat.mod_eq_of_lt (Bool.toNat_lt c)]
  rw [hc, Nat.shiftLeft_eq, Nat.shiftLeft_eq, Nat.mul_add, Nat.mul_add, Nat.mul_comm c.toNat, Nat.mul_comm b.toNat]
  omega

/-- The bits of a number split at bit i. -/
theorem testBit_bit_split (h lo i n : Nat) (b : Bool) (hlo : lo < 2 ^ i) :
    (2 ^ i * (2 * h + b.toNat) + lo).testBit n = if n < i then lo.testBit n else if n = i then b else h.testBit (n - i - 1) := by
  rw [Nat.testBit_two_pow_mul_add _ hlo]
  by_cases hn : n < i
  · rw [if_pos hn, if_pos hn]
  · obtain ⟨d, rfl⟩ := Nat.exists_eq_add_of_le (Nat.le_of_not_lt hn)
    rw [if_neg hn, if_neg hn, Nat.add_sub_cancel_left]
    cases d with
    | zero => cases b <;> simp [Nat.testBit_zero]
    | succ d =>
      have hdiv : (2 * h + b.toNat) / 2 = h := by have := Bool.toNat_lt b; omega
      rw [if_neg (by omega), Nat.testBit_succ, hdiv, Nat.add_sub_cancel]

/-- The word with one bit set has that bit, and every other as before. -/
theorem bitAt_setBit {m : Nat} (w : BitVec m) {i : Nat} (hi : i < m) (b : Bool) (n : Nat) :
    bitAt (setBit w i b) n = if n = i then b else bitAt w n := by
  obtain ⟨c, h, lo, hlo, hw⟩ : ∃ (c : Bool) (h lo : Nat), lo < 2 ^ i ∧ w.toNat = 2 ^ i * (2 * h + c.toNat) + lo := by
    have hc : (decide (w.toNat / 2 ^ i % 2 = 1)).toNat = w.toNat / 2 ^ i % 2 := by
      rcases Nat.mod_two_eq_zero_or_one (w.toNat / 2 ^ i) with e | e <;> rw [e] <;> rfl
    exact ⟨decide (w.toNat / 2 ^ i % 2 = 1), w.toNat / 2 ^ i / 2, w.toNat % 2 ^ i, Nat.mod_lt _ (Nat.two_pow_pos i), by
      rw [hc, Nat.div_add_mod, Nat.div_add_mod]⟩
  have hset : setBit w i b = BitVec.ofNat m (2 ^ i * (2 * h + b.toNat) + lo) := by
    have hb : (if b then 1 else 0) % 2 ^ (i + 1 - i) = b.toNat := by
      rw [Nat.add_sub_cancel_left]
      cases b <;> rfl
    rw [setBit, setFld, fld, hb, hw, Nat.add_sub_cancel_left, Nat.pow_one, setFld_bit_split h lo i b c hlo]
  have hbit : (2 ^ i * (2 * h + b.toNat) + lo).testBit n = if n = i then b else w.toNat.testBit n := by
    rw [hw, testBit_bit_split _ _ _ _ _ hlo, testBit_bit_split _ _ _ _ _ hlo]
    by_cases hn : n = i
    · rw [if_neg (by omega), if_pos hn, if_pos hn]
    · rw [if_neg hn, if_neg hn, if_neg hn]
  rw [hset, bitAt, BitVec.getLsbD_ofNat, hbit, BitVec.testBit_toNat, bitAt]
  by_cases hn : n < m
  · rw [decide_eq_true hn, Bool.true_and]
  · rw [decide_eq_false hn, Bool.false_and, if_neg (by omega), BitVec.getLsbD_of_ge w n (by omega)]

/-- A field of a register word, as a word of the field's width. -/
theorem ofNat_fld {m : Nat} (w : BitVec m) (hi lo : Nat) : BitVec.ofNat (hi + 1 - lo) (fld w hi lo) = (w >>> lo).setWidth (hi + 1 - lo) :=
  BitVec.eq_of_toNat_eq (by simp [fld])

/-- Setting the bits of a window of a word from another word, but those that are fixed: what each bit then is. -/
theorem bitAt_setBits {m q : Nat} (fixed : Nat → Bool) (v : BitVec q) (lo len n : Nat) (w : BitVec m) (h : lo + len ≤ m) :
    bitAt ((List.range len).foldl (fun w i => if fixed (lo + i) then w else setBit w (lo + i) (bitAt v i)) w) n =
      if lo ≤ n ∧ n < lo + len ∧ fixed n = false then bitAt v (n - lo) else bitAt w n := by
  induction len with
  | zero => exact (if_neg fun hn => by omega).symm
  | succ len ih =>
    rw [List.range_succ, List.foldl_append, List.foldl_cons, List.foldl_nil]
    have ih := ih (by omega)
    by_cases hn : n = lo + len
    · subst hn
      cases hf : fixed (lo + len)
      · simp [bitAt_setBit _ (show lo + len < m by omega)]
      · simp [ih, hf]
    · have hlt : n < lo + (len + 1) ↔ n < lo + len := by omega
      cases hf : fixed (lo + len) <;> simp [bitAt_setBit _ (show lo + len < m by omega), hn, ih, hlt]

/-- A long field with word k cleared where v has a 1 (W1C): what each bit then is. -/
theorem bitAt_clear_word (w : BitVec 256) (v : BitVec 32) {k n : Nat} (hn : n < 256) :
    bitAt (w &&& ~~~(v.setWidth 256 <<< (32 * k))) n = (bitAt w n && !(n / 32 == k && bitAt v (n % 32))) := by
  have hd := Nat.div_add_mod n 32
  have hm := Nat.mod_lt n (show 0 < 32 by decide)
  simp only [bitAt, BitVec.getLsbD_and, BitVec.getLsbD_not, BitVec.getLsbD_shiftLeft, BitVec.getLsbD_setWidth, hn, decide_true, Bool.true_and]
  congr 2
  rcases Nat.lt_trichotomy (n / 32) k with h | h | h
  · simp [show n < 32 * k by omega, Nat.ne_of_lt h]
  · subst h
    simp [show ¬ n < 32 * (n / 32) by omega, show n - 32 * (n / 32) = n % 32 by omega, show n % 32 < 256 by omega]
  · simp [show ¬ n < 32 * k by omega, Nat.ne_of_gt h, BitVec.getLsbD_of_ge v (n - 32 * k) (by omega)]

/-! ### One register at a time -/

/-- A bank of the junction stands apart from the event router. -/
@[simp] theorem bankedMod_ev (p : WinPath) (f : BankedSt → BankedSt) (s : State) : (bankedMod p f s).ev = s.ev := by
  cases p <;> rfl

/-- A command that raised no record answers the state that it leaves. -/
theorem settle_quiet {s t : State} (h : t.ev.raised = s.ev.raised) : settle s t = .next t :=
  congrArg Host.Outcome.next (settled_quiet h)

/-- A write that raises no record leaves what winWrite gives. -/
theorem exec_registerWrite_quiet {p : WinPath} {off : BitVec 12} {a : Nat} {v : BitVec 32} {s t : State} (ha : off.toNat = a)
    (hw : winWrite p a v s = t) (ht : t.ev.raised = s.ev.raised) : exec (.registerWrite p off v) s = .next t := by
  subst ha hw
  exact settle_quiet ht

section
variable {p : WinPath} {v : BitVec 32} {s : State}

/-- A misaligned offset, or one that the path does not reach, takes no write (R7, R436, R438). -/
theorem winWrite_closed {a : Nat} (h : a % 4 ≠ 0 ∨ winOpen s p a = false) : winWrite p a v s = s := by
  unfold winWrite
  rcases h with h | h <;> simp [h]

/-- An offset of no writable register takes no write (R7, R8). -/
theorem winWrite_readOnly {a : Nat} (h : a < 0x024 ∨ (0x028 ≤ a ∧ a < 0x040) ∨ (0x180 ≤ a ∧ a < 0x200) ∨ (0x244 ≤ a ∧ a < 0x300) ∨
    (0x304 ≤ a ∧ a < 0x400) ∨ 0x404 ≤ a) : winWrite p a v s = s := by
  by_cases hal : a % 4 = 0
  · unfold winWrite
    simp (disch := omega) only [if_neg, ite_self]
  · exact winWrite_closed (.inl hal)

theorem winWrite_status (h : winOpen s p 0x024 = true) :
    winWrite p 0x024 v s = { s with boot := { s.boot with boxNew := s.boot.boxNew && !bitAt v 11 } } := by
  simp [winWrite, h]

theorem winWrite_summary {k : Nat} (hk : k < 8) (h : winOpen s p (0x040 + 4 * k) = true) :
    winWrite p (0x040 + 4 * k) v s = { s with ev := { s.ev with summary := s.ev.summary &&& ~~~(v.setWidth 256 <<< (32 * k)) } } := by
  unfold winWrite
  rw [if_neg (by simp [h])]
  simp (disch := omega) only [if_neg, if_pos, Nat.add_sub_cancel_left, show 8 * (4 * k) = 32 * k by omega]

theorem winWrite_enable {k : Nat} (hk : k < 8) (h : winOpen s p (0x060 + 4 * k) = true) :
    winWrite p (0x060 + 4 * k) v s = { s with ev := { s.ev with enable := (List.range 32).foldl (fun w i =>
      if fixedEnable s.grade (32 * k + i) then w else setBit w (32 * k + i) (bitAt v i)) s.ev.enable } } := by
  unfold winWrite
  rw [if_neg (by simp [h])]
  simp (disch := omega) only [if_neg, if_pos, Nat.add_sub_cancel_left, show 8 * (4 * k) = 32 * k by omega]

theorem winWrite_whistle {m : Nat} (hm : m < 64) (h : winOpen s p (0x080 + 4 * m) = true) : winWrite p (0x080 + 4 * m) v s = whistle m v s := by
  unfold winWrite
  rw [if_neg (by simp [h])]
  simp (disch := omega) only [if_neg, if_pos, Nat.add_sub_cancel_left, Nat.mul_div_cancel_left]

theorem winWrite_devReset (h : winOpen s p 0x400 = true) : winWrite p 0x400 v s = devResetWrite p v s := by
  simp [winWrite, h]

/-- While MJ_BUSY is 1 the request registers but MJ_GO take no write (R440). -/
theorem winWrite_busy {a : Nat} (hlo : 0x200 ≤ a) (hhi : a < 0x240) (hgo : a ≠ 0x20C) (hb : (bankOf s p).busy = true) : winWrite p a v s = s := by
  unfold winWrite
  simp (disch := omega) only [if_neg, if_pos, hb, if_true, ite_self]

theorem winWrite_cmd (h : winOpen s p 0x200 = true) (hb : (bankOf s p).busy = false) :
    winWrite p 0x200 v s = bankedMod p (fun b => { b with opcode := v.setWidth 16, unit := (v >>> 16).setWidth 16 }) s := by
  simp [winWrite, h, hb, ofNat_fld v 15 0, ofNat_fld v 31 16]

theorem winWrite_seq (h : winOpen s p 0x204 = true) (hb : (bankOf s p).busy = false) :
    winWrite p 0x204 v s = bankedMod p (fun b => { b with seq := v }) s := by
  simp [winWrite, h, hb]

theorem winWrite_len (h : winOpen s p 0x208 = true) (hb : (bankOf s p).busy = false) :
    winWrite p 0x208 v s = bankedMod p (fun b => { b with len := v.setWidth 6 }) s := by
  simp [winWrite, h, hb, ofNat_fld v 5 0]

theorem winWrite_go (h : winOpen s p 0x20C = true) : winWrite p 0x20C v s = if bitAt v 0 then mjGo p s else s := by
  simp [winWrite, h]

theorem winWrite_arg (k : Fin 12) (h : winOpen s p (0x210 + 4 * k.val) = true) (hb : (bankOf s p).busy = false) :
    winWrite p (0x210 + 4 * k.val) v s = bankedMod p (fun b => { b with args := b.args.set k v }) s := by
  unfold winWrite
  rw [if_neg (by simp [h])]
  simp (disch := omega) only [if_neg, if_pos, hb, Bool.false_eq_true, if_false, Nat.add_sub_cancel_left, Nat.mul_div_cancel_left, vmod, k.isLt, dite_true]

theorem winWrite_done (h : winOpen s p 0x240 = true) :
    winWrite p 0x240 v s = bankedMod p (fun b => { b with done := b.done && !bitAt v 9 }) s := by
  simp [winWrite, h]

theorem winWrite_boxRptr (h : winOpen s p 0x300 = true) :
    winWrite p 0x300 v s = bankedMod p (fun b => { b with boxRptr := v.setWidth 17, boxAutoinc := bitAt v 31 }) s := by
  simp [winWrite, h, ofNat_fld v 16 0]

end

/-- A write to an EVENT_SUMMARY word is W1C and moves nothing else (R460). -/
theorem does_summaryWrite {p : WinPath} {v : BitVec 32} {s : State} {k : Nat} (hk : k < 8) (h : winOpen s p (0x040 + 4 * k) = true) :
    Does (.registerWrite p (BitVec.ofNat 12 (0x040 + 4 * k)) v) s fun t =>
      (∀ n < 256, bitAt t.ev.summary n = (bitAt s.ev.summary n && !(n / 32 == k && bitAt v (n % 32)))) ∧
      ({ t with ev := { t.ev with summary := s.ev.summary } } : State) = s :=
  ⟨_, exec_registerWrite_quiet (by rw [BitVec.toNat_ofNat]; omega) (winWrite_summary hk h) rfl, fun _ hn => bitAt_clear_word _ _ hn, rfl⟩

/-- A write to an EVENT_ENABLE word sets the bits that are not fixed and moves nothing else (R460, R610, R611). -/
theorem does_enableWrite {p : WinPath} {v : BitVec 32} {s : State} {k : Nat} (hk : k < 8) (h : winOpen s p (0x060 + 4 * k) = true) :
    Does (.registerWrite p (BitVec.ofNat 12 (0x060 + 4 * k)) v) s fun t =>
      (∀ n < 256, bitAt t.ev.enable n = if n / 32 = k ∧ fixedEnable s.grade n = false then bitAt v (n % 32) else bitAt s.ev.enable n) ∧
      ({ t with ev := { t.ev with enable := s.ev.enable } } : State) = s := by
  refine ⟨_, exec_registerWrite_quiet (by rw [BitVec.toNat_ofNat]; omega) (winWrite_enable hk h) rfl, fun n _ => ?_, rfl⟩
  rw [bitAt_setBits (fixedEnable s.grade) v (32 * k) 32 n s.ev.enable (by omega)]
  by_cases hn : n / 32 = k
  · simp [hn, show 32 * k ≤ n by omega, show n < 32 * k + 32 by omega, show n - 32 * k = n % 32 by omega]
  · rw [if_neg fun c => hn (by omega), if_neg fun c => hn c.1]

theorem mjGo_open {p : WinPath} {s : State} (h : pathOpen s (.junction p) = true) (hb : (bankOf s p).busy = false) :
    mjGo p s = bankedMod p (fun b => { b with busy := true }) s := by
  simp [mjGo, h, hb]

theorem mjGo_busy {p : WinPath} {s : State} (hb : (bankOf s p).busy = true) : mjGo p s = s := by
  simp [mjGo, hb]

/-- Settles O12, register by register: winWrite's lemma of each, and that none but a whistle raises a record. -/
theorem windowWrites : Obligations.WindowWrites := by
  unfold Obligations.WindowWrites
  intro p v s
  refine ⟨fun off h => ?unwritable, fun h => ?status, fun k hk h => does_summaryWrite hk h, fun k hk h => does_enableWrite hk h,
    fun m h => ?whistle, fun h => ?devReset, fun off _ hlo hhi hgo hb => ?busy, fun h hb => ?cmd, fun h hb => ?seq, fun h hb => ?len,
    fun h => ?go, fun k h hb => ?arg, fun h => ?done, fun h => ?boxRptr, fun h hb => ?goOpen, fun hb => ?goBusy⟩
  case unwritable =>
    refine exec_registerWrite_quiet rfl ?_ rfl
    rcases h with h | h | h
    · exact winWrite_closed (.inl h)
    · exact winWrite_closed (.inr h)
    · exact winWrite_readOnly h
  case status => exact exec_registerWrite_quiet rfl (winWrite_status h) rfl
  case whistle =>
    have ha : (BitVec.ofNat 12 (0x080 + 4 * m.val)).toNat = 0x080 + 4 * m.val := by rw [BitVec.toNat_ofNat]; omega
    exact congrArg (settle s) ((congrArg (winWrite p · v s) ha).trans (winWrite_whistle m.isLt h))
  case devReset => exact congrArg (settle s) (winWrite_devReset h)
  case busy => exact exec_registerWrite_quiet rfl (winWrite_busy hlo hhi (fun e => hgo (BitVec.eq_of_toNat_eq e)) hb) rfl
  case cmd => exact exec_registerWrite_quiet rfl (winWrite_cmd h hb) (by simp)
  case seq => exact exec_registerWrite_quiet rfl (winWrite_seq h hb) (by simp)
  case len => exact exec_registerWrite_quiet rfl (winWrite_len h hb) (by simp)
  case go =>
    refine (congrArg (settle s) (winWrite_go h)).trans ?_
    split
    · rfl
    · exact settle_quiet rfl
  case arg => exact exec_registerWrite_quiet (by rw [BitVec.toNat_ofNat]; omega) (winWrite_arg k h hb) (by simp)
  case done => exact exec_registerWrite_quiet rfl (winWrite_done h) (by simp)
  case boxRptr => exact exec_registerWrite_quiet rfl (winWrite_boxRptr h) (by simp)
  case goOpen => exact (congrArg (settle s) (mjGo_open h hb)).trans (settle_quiet (by simp))
  case goBusy => exact (congrArg (settle s) (mjGo_busy hb)).trans (settle_quiet rfl)

end Sys2Proof.Machine
end

section
/-! A RESET_N held low while a D waits (R445, R513). -/
namespace Sys2Proof.Machine
open Sys2Proof

/-- A D that is due no later than the new one stands (R445, R462). -/
theorem askReset_of_due {r q : ResetReq} {s : State} (h : s.boot.pendingReset = some q) (hd : q.due ≤ r.due) : askReset r s = s := by
  have hlt : ¬ r.due < q.due := by omega
  unfold askReset
  simp only [h, hlt, if_false]
  rw [← h]

/-- RESET_N held low asks for a D while the main rails are up. -/
theorem exec_resetNLow {s : State} (hm : s.boot.mainOn = true) (ht : s.power.tripped = false) (hl : s.boot.resetNLow = false) :
    exec .resetNLow s = .next (askReset { origin := 2, mailbox := 0, seq := 0, due := s.cyc } (bootMod (fun b => { b with resetNLow := true }) s)) := by
  have hask : (!s.boot.mainOn || s.power.tripped || s.boot.resetNLow) = false := by simp [hm, ht, hl]
  exact (congrArg (settle s) (if_neg (by simp [hask]))).trans (settle_quiet rfl)

/-- A READY device after a keyed write to DEV_RESET: the D of origin 1 is due and has not begun. -/
def keyedResetDue : State :=
  { State.reset with boot := { stage := 7, mainOn := true, pendingReset := some { origin := 1, mailbox := 0, seq := 0, due := 0 } } }

/-- The model comes into that state by the write itself, through the Kennel's path. -/
theorem exec_devResetWrite_keyedResetDue :
    exec (.devResetWrite .kennel 0xD0E7A501) { State.reset with boot := { stage := 7, mainOn := true } } = .next keyedResetDue := by
  rfl

/-- Refutes O8: the clause on RESET_N does not ask that no D waits. In keyedResetDue one is due already and stands (R445, R462), so the
D that waits after RESET_N has gone low is the one of origin 1 where the clause says origin 2. The state is one that the model comes into
(exec_devResetWrite_keyedResetDue). -/
theorem not_resets : ¬ Obligations.Resets := by
  unfold Obligations.Resets
  intro h
  obtain ⟨_, _, hlow, _⟩ := h keyedResetDue
  have hsaid := hlow rfl rfl rfl
  have hdone : exec .resetNLow keyedResetDue = .next (bootMod (fun b => { b with resetNLow := true }) keyedResetDue) :=
    (exec_resetNLow rfl rfl rfl).trans (congrArg _ (askReset_of_due rfl (Nat.le_refl 0)))
  have horigin : some 2 = some 1 := congrArg (fun t => t.boot.pendingReset.map (·.origin)) (Host.Outcome.next.inj (hsaid.symm.trans hdone))
  exact absurd horigin (by decide)

end Sys2Proof.Machine
end

section
/-! Calibration from signal statistics: update periods, the CAL verbs and foreground runs (R89 to R108). -/
namespace Sys2Proof.Machine
open Sys2Proof

/-! ### What events, answers and grants leave of the calibrators -/

/-- States that agree but for what an answer can touch agree on the calibrators, and on the inputs. -/
theorem cals_of_hush {s t : State} (h : s.hush = t.hush) : s.cals = t.cals := by injection h
theorem inputs_of_hush {s t : State} (h : s.hush = t.hush) : s.inputs = t.inputs := by injection h

/-- A change that State.hush neither hides nor reads keeps two states alike. -/
theorem hush_update {s t : State} (h : s.hush = t.hush) (g : State → State) (hg : ∀ x, (g x).hush = g x.hush) : (g s).hush = (g t).hush := by
  rw [hg, hg, h]

@[simp] theorem settled_cals (s t : State) : (settled s t).cals = t.cals := cals_of_hush (settled_hush s t)

@[simp] theorem evCal_hush (i type slice trim : Nat) (t : Time) (s : State) : (evCal i type slice trim t s).hush = s.hush :=
  hush_of_hushEv (raiseAt_hushEv ..)
@[simp] theorem evCal_cals (i type slice trim : Nat) (t : Time) (s : State) : (evCal i type slice trim t s).cals = s.cals :=
  cals_of_hush (evCal_hush i type slice trim t s)

/-- EV_CAL of each trim at the end of its range moves nothing that State.hush shows (R98, R110). -/
@[simp] theorem evCals_hush (i type : Nat) (t : State → Time) (l : List (Nat × Nat)) (s : State) :
    (l.foldl (fun s h => evCal i type h.1 h.2 (t s) s) s).hush = s.hush :=
  foldl_keeps State.hush _ (fun _ _ => evCal_hush ..) l s
@[simp] theorem evCals_cals (i type : Nat) (t : State → Time) (l : List (Nat × Nat)) (s : State) :
    (l.foldl (fun s h => evCal i type h.1 h.2 (t s) s) s).cals = s.cals :=
  cals_of_hush (evCals_hush i type t l s)

/-- The end of an activity shows in the arbiter alone (R598). -/
theorem maintEnd_hush (r : MaintReq) (s : State) : ∃ m, (maintEnd r s).hush = ({ s with maint := m } : State).hush :=
  ⟨_, raise_hush ..⟩

/-! ### One calibrator changed -/

theorem vget_calMod {i : Nat} (hi : i < 8) (f : CalSt → CalSt) (s : State) : vget (calMod i f s).cals i = f (vget s.cals i) := vget_vmod_same _ f hi
theorem vget_calMod_ne {i k : Nat} (hk : k ≠ i) (f : CalSt → CalSt) (s : State) : vget (calMod i f s).cals k = vget s.cals k := vget_vmod_ne _ f hk

/-- Two changes of one element make one. -/
theorem vmod_vmod {α : Type} {n : Nat} (v : Vector α n) (i : Nat) (f g : α → α) : vmod (vmod v i f) i g = vmod v i (fun x => g (f x)) := by
  by_cases h : i < n
  · simp [vmod, h]
  · simp [vmod, h]

/-- Only what a change makes of the element at its place counts. -/
theorem vmod_congr_at {α : Type} [Inhabited α] {n : Nat} {v : Vector α n} {i : Nat} {f g : α → α} (h : f (vget v i) = g (vget v i)) :
    vmod v i f = vmod v i g := by
  by_cases hi : i < n
  · simp only [vget, hi, dite_true] at h
    simp [vmod, hi, h]
  · simp [vmod, hi]

/-- A view that a change keeps of every element reads as before, whichever element changed. -/
theorem vget_vmod_keeps {α β : Type} [Inhabited α] {n : Nat} (g : α → β) {f : α → α} (h : ∀ x, g (f x) = g x) (v : Vector α n) (i k : Nat) :
    g (vget (vmod v i f) k) = g (vget v k) := by
  by_cases hk : k = i
  · subst hk
    by_cases hn : k < n
    · rw [vget_vmod_same v f hn, h]
    · rw [vmod_out v f (by omega)]
  · rw [vget_vmod_ne v f hk]

/-- A calibrator but for what entering or leaving PAUSED changes (R92, R99): FOREGROUND stands throughout. -/
def CalSt.lasting (c : CalSt) : CalSt :=
  { c with state := if c.state = .foreground then .foreground else .paused, run := 0, tainted := true }

/-- What pauses the calibrators of a die, and what lets them go on, leaves their settings, trims, counts and foreground runs alone. -/
@[simp] theorem calRefresh1_lasting (i k : Nat) (s : State) : (vget (calRefresh1 i s).cals k).lasting = (vget s.cals k).lasting := by
  refine vget_vmod_keeps CalSt.lasting (fun c => ?_) s.cals i k
  cases hc : c.state
  case tracking | holding => dsimp only; split <;> simp [CalSt.lasting, hc]
  case frozen => dsimp only; split <;> simp [CalSt.lasting, hc]
  case paused =>
    dsimp only
    split
    · simp [CalSt.lasting, hc]
    · split <;> simp [CalSt.lasting, hc]
  case foreground => rfl

/-- Calibrators that last agree on what they hold. -/
theorem CalSt.lasting_eq {a b : CalSt} (h : a.lasting = b.lasting) :
    a.cfg = b.cfg ∧ a.suff = b.suff ∧ a.trims = b.trims ∧ a.count = b.count ∧ a.fg = b.fg ∧ a.fgFailed = b.fgFailed ∧
    (b.state = .foreground → a.state = .foreground) := by
  simp only [CalSt.lasting, CalSt.mk.injEq] at h
  obtain ⟨hcfg, hsuff, hstate, -, -, -, -, -, -, -, -, -, hcount, -, -, hfailed, -, htrims, -, -, -, hfg⟩ := h
  refine ⟨hcfg, hsuff, htrims, hcount, hfg, hfailed, fun hb => ?_⟩
  by_cases ha : a.state = .foreground
  · exact ha
  · rw [if_pos hb, if_neg ha] at hstate
    cases hstate

/-- A calibrator that is changed and then follows what pauses it leaves the rest of the state alone. -/
theorem calRefresh1_calMod_frame (i : Nat) (g : CalSt → CalSt) (s : State) (v : Vector CalSt 8) :
    ({ calRefresh1 i (calMod i g s) with cals := v } : State) = { s with cals := v } := rfl

/-- The calibrators of a die follow what pauses them, and nothing else moves. -/
theorem calRefresh_lasting (d : Nat) (s : State) :
    ∃ v, calRefresh d s = { s with cals := v } ∧ ∀ k, (vget v k).lasting = (vget s.cals k).lasting := by
  unfold calRefresh
  induction dieInputs d generalizing s with
  | nil => exact ⟨s.cals, rfl, fun _ => rfl⟩
  | cons i l ih =>
    obtain ⟨v, hv, hlast⟩ := ih (calRefresh1 i s)
    exact ⟨v, hv, fun k => (hlast k).trans (calRefresh1_lasting i k s)⟩

/-- A calibrator in MODE FROZEN stays so while its input converts (R92, R106). -/
theorem calRefresh1_frozen {i : Nat} {s : State} (hi : i < 8) (hs : (vget s.cals i).state = .frozen) (hr : (vget s.inputs i).running = true) :
    vget (calRefresh1 i s).cals i = vget s.cals i := by
  refine (vget_vmod_same s.cals _ hi).trans ?_
  simp [hs, hr]

/-! ### One update of the trims (R95, R98) -/

/-- Steps between two trims of a slice. -/
def trimDist (a b : Trim) : Nat :=
  (b.offset - a.offset).natAbs + (b.gain - a.gain).natAbs + (b.delay - a.delay).natAbs + (b.bw - a.bw).natAbs

@[simp] theorem trimDist_self (t : Trim) : trimDist t t = 0 := by simp [trimDist]

/-- One trim of a slice moved by d lies d away. -/
theorem trimDist_trimSet (t : Trim) (k : Nat) (d : Int) : trimDist t (trimSet t k (trimAt t k + d)) = d.natAbs := by
  have hd : ∀ a : Int, a + d - a = d := fun a => by omega
  by_cases h0 : k = 0
  · simp [trimSet, trimAt, hd, trimDist, h0]
  · by_cases h1 : k = 1
    · simp [trimSet, trimAt, hd, trimDist, h1]
    · by_cases h2 : k = 2
      · simp [trimSet, trimAt, hd, trimDist, h2]
      · simp [trimSet, trimAt, hd, trimDist, h0, h1, h2]

/-- Trims of as many slices, each one step apart at most. -/
def trimsNear (l m : List Trim) : Prop :=
  m.length = l.length ∧ ∀ (k : Nat) (a b : Trim), l[k]? = some a → m[k]? = some b → trimDist a b ≤ 1

theorem trimsNear_nil : trimsNear [] [] := ⟨rfl, fun _ _ _ ha _ => by cases ha⟩

theorem trimsNear_cons {t u : Trim} {l m : List Trim} (ht : trimDist t u ≤ 1) (h : trimsNear l m) : trimsNear (t :: l) (u :: m) := by
  refine ⟨congrArg (· + 1) h.1, fun k a b ha hb => ?_⟩
  cases k with
  | zero =>
    cases ha
    cases hb
    exact ht
  | succ k => exact h.2 k a b ha hb

/-- An update moves every slice by one step at most. -/
theorem trimStep_dist (ref : Int × Int) (ts : List Trim) (es : List SliceErr) (n : Nat) (d g : Int) :
    trimsNear ts (trimStep ref ts es n d g).1 := by
  induction ts generalizing es n d g with
  | nil => exact trimsNear_nil
  | cons t ts ih =>
    have hstay : trimDist t t ≤ 1 := by rw [trimDist_self]; exact Nat.zero_le 1
    unfold trimStep
    split
    · exact trimsNear_cons hstay (ih ..)
    · extract_lets step d' g' v hit
      split
      · exact trimsNear_cons hstay (ih ..)
      · refine trimsNear_cons (Nat.le_of_eq ((trimDist_trimSet ..).trans ?_)) (ih ..)
        simp only [step]
        split <;> rfl

section
variable {i : Nat} {b : Time} {errs : List SliceErr} {s : State}

/-- What an update makes of its calibrator (R95, R101). -/
theorem vget_calUpdate (hi : i < 8) :
    (vget (calUpdate i b errs s).cals i).state = (vget s.cals i).state ∧
    (vget (calUpdate i b errs s).cals i).count = (vget s.cals i).count + 1 ∧
    trimsNear (vget s.cals i).trims (vget (calUpdate i b errs s).cals i).trims := by
  have hstep := trimStep_dist (vget s.cals i).sums (vget s.cals i).trims errs 0 (trimSums (vget s.cals i).trims).1 (trimSums (vget s.cals i).trims).2
  unfold calUpdate
  dsimp only
  revert hstep
  rcases trimStep _ (vget s.cals i).trims errs 0 _ _ with ⟨trims, moved, hits⟩
  intro hstep
  cases moved <;> simpa [vget_vmod_same, hi] using hstep

/-- Another calibrator stands. -/
theorem vget_calUpdate_ne {k : Nat} (hk : k ≠ i) : vget (calUpdate i b errs s).cals k = vget s.cals k := by
  unfold calUpdate
  dsimp only
  rcases trimStep _ (vget s.cals i).trims errs 0 _ _ with ⟨trims, moved, hits⟩
  cases moved <;> simp [vget_vmod_ne, hk]

/-- Besides the calibrator, an update marks the sample at which it takes effect (R96), and reports (R98). -/
theorem calUpdate_frame (v : Vector CalSt 8) (w : Vector InSt 8) :
    ({ calUpdate i b errs s with cals := v, inputs := w } : State).hush = ({ s with cals := v, inputs := w } : State).hush := by
  unfold calUpdate
  dsimp only
  rcases trimStep _ (vget s.cals i).trims errs 0 _ _ with ⟨trims, moved, hits⟩
  cases moved <;> exact congrArg (fun x : State => { x with cals := v, inputs := w }) (evCals_hush i 3 (fun _ => b) hits _)

end

/-! ### The end of an update period (R89 to R101) -/

/-- Once the statistics of the period that ends at b are taken, and before its trims move (R91, R93, R109). -/
def periodTaken (i : Nat) (b : Time) (s : State) : State :=
  let c := vget s.cals i
  let st := calStats s i
  let held := c.state == .paused || c.state == .foreground
  calMod i (fun c' => { c' with
    sufficient := calSufficient c st, act := st.act, breadth := st.breadth, errs := if held then c'.errs else st.errs
    tainted := held, periodFrom := b, acc := { tail := c'.acc.tail } }) { s with freeNo := s.freeNo + calDraws }

/-- The end of a period leaves the sub-state, the settings, the trims and the counts to what follows. -/
theorem vget_periodTaken {i : Nat} (hi : i < 8) (b : Time) (s : State) :
    (vget (periodTaken i b s).cals i).state = (vget s.cals i).state ∧ (vget (periodTaken i b s).cals i).trims = (vget s.cals i).trims ∧
    (vget (periodTaken i b s).cals i).count = (vget s.cals i).count ∧ (vget (periodTaken i b s).cals i).run = (vget s.cals i).run ∧
    (vget (periodTaken i b s).cals i).act = (calStats s i).act := by
  unfold periodTaken
  simp only [vget_calMod hi, and_self]

theorem vget_periodTaken_ne {i k : Nat} (hk : k ≠ i) (b : Time) (s : State) : vget (periodTaken i b s).cals k = vget s.cals k :=
  vget_calMod_ne hk _ _

/-- A calibrator that is neither PAUSED nor in FOREGROUND forms its estimates (R93). -/
theorem vget_periodTaken_errs {i : Nat} (hi : i < 8) (b : Time) {s : State} (hp : (vget s.cals i).state ≠ .paused)
    (hf : (vget s.cals i).state ≠ .foreground) : (vget (periodTaken i b s).cals i).errs = (calStats s i).errs := by
  unfold periodTaken
  simp only [vget_calMod hi, beq_false_of_ne hp, beq_false_of_ne hf, Bool.or_self, Bool.false_eq_true, if_false]

/-- A period that ends in HOLDING counts, and towards the way out if it was sufficient (R92, R109). -/
def holdCount (good : Bool) (c : CalSt) : CalSt := { c with holdPeriods := wrapAdd 32 c.holdPeriods 1, run := if good then c.run + 1 else 0 }

/-- A period that ends in HOLDING, as the row writes it. -/
theorem holdCount_eq (good : Bool) :
    holdCount good = fun c => { c with holdPeriods := wrapAdd 32 c.holdPeriods 1, run := if good then c.run + 1 else 0 } := rfl

section
variable {i : Nat} {b : Time} {s : State}

theorem calDue_iff {c : CalSt} {t : Time} : calDue c b t = true ↔ c.periodFrom < b ∧ b ≤ t ∧ calBoundary c b = b := by
  simp [calDue, and_assoc]

theorem calPeriodEnd_notDue (h : ¬ calDue (vget s.cals i) b (now s) = true) : calPeriodEnd i b s = s := by
  simp [calPeriodEnd, h]

variable (h : calDue (vget s.cals i) b (now s) = true)
include h

/-- In PAUSED and FOREGROUND no estimate is formed (R93). -/
theorem calPeriodEnd_held (hs : (vget s.cals i).state = .paused ∨ (vget s.cals i).state = .foreground) :
    calPeriodEnd i b s = { s with freeNo := s.freeNo + calDraws, cals := vmod s.cals i fun c => { c with
      sufficient := calSufficient c (calStats s i), act := (calStats s i).act, breadth := (calStats s i).breadth
      tainted := true, periodFrom := b, acc := { tail := c.acc.tail }, run := 0 } } := by
  have hend : calPeriodEnd i b s = calMod i (fun c => { c with run := 0 }) (periodTaken i b s) := by
    rcases hs with hs | hs <;> simp [calPeriodEnd, h, hs, periodTaken]
  have hheld : ((vget s.cals i).state == .paused || (vget s.cals i).state == .foreground) = true := by simpa using hs
  rw [hend]
  unfold periodTaken calMod
  simp only [hheld, if_true, vmod_vmod]
  exact congrArg (fun v : Vector CalSt 8 => ({ s with freeNo := s.freeNo + calDraws, cals := v } : State)) (vmod_congr_at rfl)

theorem calPeriodEnd_frozen (hs : (vget s.cals i).state = .frozen) : calPeriodEnd i b s = periodTaken i b s := by
  simp [calPeriodEnd, h, hs, periodTaken]

theorem calPeriodEnd_lapses (hs : (vget s.cals i).state = .tracking) (hg : calSufficient (vget s.cals i) (calStats s i) = false) :
    calPeriodEnd i b s = evCal i 1 0 0 b (calMod i (fun c => { c with state := .holding, run := 0 }) (periodTaken i b s)) := by
  simp [calPeriodEnd, h, hs, hg, periodTaken]

theorem calPeriodEnd_tracks (hs : (vget s.cals i).state = .tracking) (hg : calSufficient (vget s.cals i) (calStats s i) = true) :
    calPeriodEnd i b s = calUpdate i b (calStats s i).errs (periodTaken i b s) := by
  simp [calPeriodEnd, h, hs, hg, periodTaken]

theorem calPeriodEnd_holds (hs : (vget s.cals i).state = .holding)
    (hg : calSufficient (vget s.cals i) (calStats s i) = false ∨ (vget s.cals i).run + 1 < fld (vget s.cals i).cfg 15 8) :
    calPeriodEnd i b s = calMod i (holdCount (calSufficient (vget s.cals i) (calStats s i))) (periodTaken i b s) := by
  have hstay : ¬ (calSufficient (vget s.cals i) (calStats s i) = true ∧ fld (vget s.cals i).cfg 15 8 ≤ (vget s.cals i).run + 1) := by
    rintro ⟨hgood, hrun⟩
    rcases hg with hg | hg
    · simp [hgood] at hg
    · omega
  simp [calPeriodEnd, h, hs, hstay, periodTaken, holdCount_eq]

theorem calPeriodEnd_resumes (hs : (vget s.cals i).state = .holding) (hg : calSufficient (vget s.cals i) (calStats s i) = true)
    (hrun : fld (vget s.cals i).cfg 15 8 ≤ (vget s.cals i).run + 1) :
    calPeriodEnd i b s = calUpdate i b (calStats s i).errs (evCal i 2 0 0 b (calMod i (fun c => { c with state := .tracking, run := 0 })
      (calMod i (holdCount true) (periodTaken i b s)))) := by
  simp [calPeriodEnd, h, hs, hg, hrun, periodTaken, holdCount_eq]

end

/-! ### Foreground runs (R102 to R104) -/

section
variable {i : Nat} {s : State}

theorem fgStart_ungranted (h : maintRunning s 3 (BitVec.ofNat 16 (0x0110 + i)) = none) : fgStart i s = s := by
  simp [fgStart, h]

/-- A granted run begins with its calibrator in FOREGROUND, and an input that converts opens an invalid span (R102 steps 2 and 3). -/
theorem fgStart_granted {r : MaintReq} (hr : maintRunning s 3 (BitVec.ofNat 16 (0x0110 + i)) = some r) (hf : (vget s.cals i).fg = none) :
    ∃ (g : CalSt → CalSt) (w : Vector InSt 8), fgStart i s = calRefresh (dieOf i) { s with cals := vmod s.cals i g, inputs := w } ∧
      ∀ c, (g c).state = .foreground ∧ (g c).fg.isSome = true ∧ (g c).trims = c.trims := by
  simp only [fgStart, hr, hf, Option.isSome_none, Bool.false_eq_true, if_false]
  split
  · exact ⟨_, _, rfl, fun c => ⟨rfl, rfl, rfl⟩⟩
  · exact ⟨_, _, rfl, fun c => ⟨rfl, rfl, rfl⟩⟩

/-- A run that ends leaves its trims as they are, and counts if it converged (R101, R102 step 7, R103). -/
theorem fgClose_ends (f : FgRun) (good : Bool) : ∃ (g : CalSt → CalSt) (w : Vector InSt 8),
    (fgClose i f good s).hush = (calRefresh (dieOf i) { s with cals := vmod s.cals i g, inputs := w }).hush ∧
    ∀ c, (g c).fg = none ∧ (g c).fgFailed = !good ∧ (g c).count = (if good then c.count + 1 else c.count) ∧ (g c).trims = c.trims :=
  ⟨_, _, evCal_hush .., fun _ => ⟨rfl, rfl, rfl, rfl⟩⟩

variable {f : FgRun} {errs : List SliceErr} (hf : (vget s.cals i).fg = some f)
include hf

/-- A run that has begun to resettle takes no more errors (R102 step 6). -/
theorem fgIterate_done (hd : f.doneAt.isSome = true) : fgIterate i errs s = s := by
  simp [fgIterate, hf, hd]

/-- An iteration changes its calibrator alone: it corrects the trims, and ends the run where the errors were small (R102 steps 4 and 5). -/
theorem fgIterate_corrects (hd : f.doneAt = none)
    (hl : errs.length = (if f.second then (vget s.cals i).stored else (vget s.cals i).trims).length) :
    ∃ (g : CalSt → CalSt) (l : List (Nat × Nat)), fgIterate i errs s = l.foldl (fun s h => evCal i 3 h.1 h.2 (now s) s) (calMod i g s) ∧
      (errsSmall errs = true → f.both = false → ∀ c, (g c).fg.any (·.doneAt.isSome) = true) ∧
      (errsSmall errs = false → f.iter + 1 < 64 → ∀ c, (g c).fg.any (·.doneAt.isNone) = true) ∧
      ((errsSmall errs = true ∨ f.iter + 1 < 64) → f.second = false → ∀ c, (g c).trims = fullCorrect (vget s.cals i).trims errs) := by
  have hgo : ¬ (f.doneAt.isSome || errs.length != (if f.second then (vget s.cals i).stored else (vget s.cals i).trims).length) = true := by
    simp [hd, hl]
  unfold fgIterate
  simp only [hf]
  rw [if_neg hgo]
  refine ⟨_, _, rfl, fun hsmall hboth c => ?_, fun hsmall hiter c => ?_, fun hcorr hsecond c => ?_⟩
  · simp [hsmall, hboth]
  · simp [hsmall, show f.iter ≠ 63 by omega]
  · rcases hcorr with hsmall | hiter
    · simp [hsmall, hsecond]
    · simp [hsecond, show f.iter ≠ 63 by omega]

variable {r : MaintReq} (hr : maintRunning s 3 (BitVec.ofNat 16 (0x0110 + i)) = some r)
include hr

/-- Until the samples of step 6 have passed, a run goes on (R102). -/
theorem fgEnd_unsettled (h : fgResettled s i f = false) : fgEnd i s = s := by
  simp [fgEnd, hf, hr, h]

/-- What the end of a run leaves (R101 to R103). -/
theorem fgEnd_resettled (hi : i < 8) (h : fgResettled s i f = true) :
    (vget (fgEnd i s).cals i).fg = none ∧ (vget (fgEnd i s).cals i).fgFailed = !f.converged ∧
    (vget (fgEnd i s).cals i).count = (if f.converged then (vget s.cals i).count + 1 else (vget s.cals i).count) ∧
    (vget (fgEnd i s).cals i).trims = (vget s.cals i).trims ∧
    ({ fgEnd i s with cals := s.cals, inputs := s.inputs, maint := s.maint } : State).hush = s.hush := by
  have hend : fgEnd i s = completeO r.cmd 0x0402 (if f.converged then OK else FAULT) (calRecord (fgClose i f f.converged s) i)
      (maintEnd r (fgClose i f f.converged s)) := by
    simp [fgEnd, hf, hr, h]
  obtain ⟨g, w, hclose, hg⟩ := fgClose_ends (i := i) (s := s) f f.converged
  obtain ⟨m, hmaint⟩ := maintEnd_hush r (fgClose i f f.converged s)
  obtain ⟨v, hv, hvlast⟩ := calRefresh_lasting (dieOf i) { s with cals := vmod s.cals i g, inputs := w }
  rw [hv] at hclose
  have hhush := ((congrArg State.hush hend).trans (completeO_hush ..)).trans (hmaint.trans
    (hush_update hclose (fun x => { x with maint := m }) fun _ => rfl))
  have hlast : (vget (fgEnd i s).cals i).lasting = (g (vget s.cals i)).lasting := by
    rw [cals_of_hush hhush]
    exact (hvlast i).trans (congrArg CalSt.lasting (vget_vmod_same s.cals g hi))
  obtain ⟨-, -, htrims, hcount, hfg, hfailed, -⟩ := CalSt.lasting_eq hlast
  obtain ⟨hgfg, hgfailed, hgcount, hgtrims⟩ := hg (vget s.cals i)
  exact ⟨hfg.trans hgfg, hfailed.trans hgfailed, hcount.trans hgcount, htrims.trans hgtrims,
    hush_update hhush (fun x => { x with cals := s.cals, inputs := s.inputs, maint := s.maint }) fun _ => rfl⟩

end

/-! ### CAL verbs (R92, R106, R108) -/

/-- An accepted verb that answers OK at once leaves what its act left, but for what the answer touches. -/
theorem does_ok {i : Instr} {v : Verb} {c : Cmd} {s t : State} {P : State → Prop} (h : Accepts v c s) (hi : exec i s = settle s (runVerb v c s))
    (ha : v.act c (begun v c s) = ok t) (hp : ∀ u : State, u.hush = t.hush → P u) : Does i s P :=
  does_of h hi (hp _ (by rw [ha, settled_hush, hostPurge_hush]; exact complete_hush ..))

/-- CAL.CONFIGURE stores its words but the reserved bits; MODE FROZEN freezes, and its calibrator then follows what pauses it. -/
theorem vCalConfigure_act (q : Cmd) (s : State) : ∃ g, vCalConfigure.act q s = ok (calRefresh1 (idx q.unit) (calMod (idx q.unit) g s)) ∧
    ∀ c, (g c).cfg = setFld (argW q 0 32) 7 2 0 ∧ (g c).suff = setFld (argW q 4 32) 31 15 0 ∧ (g c).trims = c.trims ∧
      (argN q 0 1 % 4 = 1 → (g c).state = .frozen) :=
  ⟨_, rfl, fun _ => ⟨rfl, rfl, rfl, fun h => if_pos h⟩⟩

/-- What CAL.CONFIGURE leaves (R92, R106, R108). -/
theorem does_calConfigure {q : Cmd} {i : Nat} {s : State} (h8 : i < 8) (hq : Accepts vCalConfigure q s) (hi : idx q.unit = i) :
    Does (.calConfigure q) s fun t =>
      (vget t.cals i).cfg = setFld (argW q 0 32) 7 2 0 ∧ (vget t.cals i).suff = setFld (argW q 4 32) 31 15 0 ∧
      (argN q 0 1 % 4 = 1 → (vget s.inputs i).running = true → (vget t.cals i).state = .frozen) ∧ (vget t.cals i).trims = (vget s.cals i).trims ∧
      (∀ k, k ≠ i → vget t.cals k = vget s.cals k) ∧ ({ t with cals := s.cals } : State).hush = s.hush := by
  obtain ⟨g, hact, hg⟩ := vCalConfigure_act q (begun vCalConfigure q s)
  obtain ⟨hgcfg, hgsuff, hgtrims, hgfrozen⟩ := hg (vget s.cals i)
  rw [hi] at hact
  have hbegun : (begun vCalConfigure q s).hush = s.hush := begin_hush ..
  have hcal : vget (calMod i g (begun vCalConfigure q s)).cals i = g (vget s.cals i) := by
    rw [vget_calMod h8, cals_of_hush hbegun]
  obtain ⟨hcfg, hsuff, htrims, -⟩ := CalSt.lasting_eq (calRefresh1_lasting i i (calMod i g (begun vCalConfigure q s)))
  rw [hcal] at hcfg hsuff htrims
  refine does_ok hq rfl hact fun u hu => ?_
  rw [cals_of_hush hu]
  refine ⟨hcfg.trans hgcfg, hsuff.trans hgsuff, fun hmode hrun => ?_, htrims.trans hgtrims, fun k hk => ?_,
    (hush_update hu (fun x => { x with cals := s.cals }) fun _ => rfl).trans ((congrArg State.hush (calRefresh1_calMod_frame i g _ s.cals)).trans
      (hush_update hbegun (fun x => { x with cals := s.cals }) fun _ => rfl))⟩
  · rw [calRefresh1_frozen h8, hcal]
    · exact hgfrozen hmode
    · rw [hcal]; exact hgfrozen hmode
    · rw [calMod_inputs, inputs_of_hush hbegun]; exact hrun
  · exact (vget_calMod_ne hk ..).trans ((vget_calMod_ne hk ..).trans (congrArg (fun v => vget v k) (cals_of_hush hbegun)))

theorem vCalReadTrims_act (q : Cmd) (s : State) : vCalReadTrims.act q s =
    okWith (destWrite (argN q 0 6) ((vget s.cals (idx q.unit)).trims.flatMap fun t =>
      le 2 (unsgn 16 t.offset) ++ le 2 (unsgn 16 t.gain) ++ le 2 (unsgn 16 t.delay) ++ le 1 (unsgn 8 t.bw) ++ [0]) s) [] := rfl

/-! ### The rows -/

theorem exec_calUpdatePeriodEnd {i : Fin 8} {e : Time} {s t : State} (h : calPeriodEnd i e s = t) :
    exec (.calUpdatePeriodEnd i e) s = .next (settled s t) := congrArg (settle s) h

theorem exec_calUpdatePeriodEnd_quiet {i : Fin 8} {e : Time} {s t : State} (h : calPeriodEnd i e s = t) (ht : t.ev.raised = s.ev.raised) :
    exec (.calUpdatePeriodEnd i e) s = .next t := (exec_calUpdatePeriodEnd h).trans (settle_quiet ht)

/-- Settles O33, row by row: which of its cases the end of a period is, and what each step of a foreground run makes of its calibrator. -/
theorem calibrationRows : Obligations.CalibrationRows := by
  unfold Obligations.CalibrationRows
  intro i e s c st due
  have hdue : due → calDue (vget s.cals i) e (now s) = true := calDue_iff.mpr
  obtain ⟨hpstate, hptrims, hpcount, hprun, hpact⟩ := vget_periodTaken i.isLt e s
  refine ⟨fun hd => ?notDue, fun hd hs => ?held, fun hd hs => ?frozen, fun hd hs hg => ?lapses, fun hd hs hg => ?tracks, fun hd hs hg => ?holds,
    fun hd hs hg hrun => ?resumes, fun q hq hi => does_calConfigure i.isLt hq hi, fun q hq => waits_of hq rfl rfl, fun q hq => ?readTrims, fun hr => ?ungranted,
    fun r hr hf => ?granted, fun f errs hf hdone => ?done, fun f errs hf hdone hl => ?iteration, fun f r hf hr hres => ?unsettled,
    fun f r hf hr hres => ?resettled⟩
  case notDue => exact exec_calUpdatePeriodEnd_quiet (calPeriodEnd_notDue fun h => hd (calDue_iff.mp h)) rfl
  case held => exact exec_calUpdatePeriodEnd_quiet (calPeriodEnd_held (hdue hd) hs) rfl
  case frozen =>
    have herrs := vget_periodTaken_errs i.isLt e (s := s) (fun h => CalState.noConfusion (hs.symm.trans h)) (fun h => CalState.noConfusion (hs.symm.trans h))
    exact ⟨_, exec_calUpdatePeriodEnd_quiet (calPeriodEnd_frozen (hdue hd) hs) rfl, hptrims, hpcount, hpact, herrs,
      fun k hk => vget_periodTaken_ne hk e s, rfl⟩
  case lapses =>
    refine ⟨_, exec_calUpdatePeriodEnd (calPeriodEnd_lapses (hdue hd) hs hg), ?_, ?_, ?_, fun k hk => ?_,
      hush_update ((settled_hush ..).trans (evCal_hush ..)) (fun x => { x with cals := s.cals, freeNo := s.freeNo }) fun _ => rfl⟩ <;>
    rw [settled_cals, evCal_cals]
    · rw [vget_calMod i.isLt]
    · rw [vget_calMod i.isLt]; exact hptrims
    · rw [vget_calMod i.isLt]; exact hpcount
    · rw [vget_calMod_ne hk]; exact vget_periodTaken_ne hk e s
  case tracks =>
    obtain ⟨hstate, hcount, htrims⟩ := vget_calUpdate (b := e) (errs := (calStats s i).errs) (s := periodTaken i e s) i.isLt
    rw [hptrims] at htrims
    refine ⟨_, exec_calUpdatePeriodEnd (calPeriodEnd_tracks (hdue hd) hs hg), ?_, ?_, ?_, fun k a b ha hb => ?_, fun k hk => ?_,
      (hush_update (settled_hush ..) (fun x => { x with cals := s.cals, inputs := s.inputs, freeNo := s.freeNo }) fun _ => rfl).trans
        (hush_update (calUpdate_frame s.cals s.inputs) (fun x => { x with freeNo := s.freeNo }) fun _ => rfl)⟩
    · rw [settled_cals, hstate, hpstate, hs]
    · rw [settled_cals, hcount, hpcount]
    · rw [settled_cals]; exact htrims.1
    · rw [settled_cals] at hb; exact htrims.2 k a b ha hb
    · rw [settled_cals, vget_calUpdate_ne hk, vget_periodTaken_ne hk]
  case holds =>
    refine ⟨_, exec_calUpdatePeriodEnd_quiet (calPeriodEnd_holds (hdue hd) hs hg) rfl, ?_, ?_, ?_, ?_, rfl⟩ <;>
      rw [vget_calMod i.isLt]
    · exact hpstate.trans hs
    · exact hptrims
    · exact hpcount
    · simp only [holdCount, hprun]; rfl
  case resumes =>
    obtain ⟨hstate, hcount, -⟩ := vget_calUpdate (b := e) (errs := (calStats s i).errs) (s := evCal i 2 0 0 e
      (calMod i (fun c => { c with state := .tracking, run := 0 }) (calMod i (holdCount true) (periodTaken i e s)))) i.isLt
    rw [evCal_cals, vget_calMod i.isLt, vget_calMod i.isLt] at hstate hcount
    refine ⟨_, exec_calUpdatePeriodEnd (calPeriodEnd_resumes (hdue hd) hs hg hrun), ?_, ?_,
      (hush_update (settled_hush ..) (fun x => { x with cals := s.cals, inputs := s.inputs, freeNo := s.freeNo }) fun _ => rfl).trans
        ((hush_update (calUpdate_frame s.cals s.inputs) (fun x => { x with freeNo := s.freeNo }) fun _ => rfl).trans
          (hush_update (evCal_hush ..) (fun x => { x with cals := s.cals, inputs := s.inputs, freeNo := s.freeNo }) fun _ => rfl))⟩
    · rw [settled_cals, hstate]
    · rw [settled_cals, hcount]; exact congrArg (· + 1) hpcount
  case readTrims =>
    have hbegun : (begun vCalReadTrims q s).cals = s.cals := cals_of_hush (begin_hush ..)
    refine answers_of hq rfl ((vCalReadTrims_act q _).trans ?_)
    rw [hbegun]
  case ungranted => exact (congrArg (settle s) (fgStart_ungranted hr)).trans (settle_quiet rfl)
  case granted =>
    obtain ⟨g, w, hstart, hg⟩ := fgStart_granted hr hf
    obtain ⟨hgstate, hgfg, hgtrims⟩ := hg (vget s.cals i)
    obtain ⟨v, hv, hlast⟩ := calRefresh_lasting (dieOf i) { s with cals := vmod s.cals i g, inputs := w }
    obtain ⟨-, -, htrims, -, hfg, -, hstate⟩ := CalSt.lasting_eq ((hlast i).trans (congrArg CalSt.lasting (vget_vmod_same s.cals g i.isLt)))
    exact ⟨_, (congrArg (settle s) (hstart.trans hv)).trans (settle_quiet rfl), hstate hgstate, hfg ▸ hgfg, htrims.trans hgtrims, rfl⟩
  case done => exact (congrArg (settle s) (fgIterate_done hf hdone)).trans (settle_quiet rfl)
  case iteration =>
    obtain ⟨g, l, hiter, hsmall, hlarge, hcorrect⟩ := fgIterate_corrects hf hdone hl
    have hcal : vget (settled s (fgIterate i errs s)).cals i = g (vget s.cals i) := by
      rw [settled_cals, hiter, evCals_cals, vget_calMod i.isLt]
    refine ⟨_, rfl, fun h1 h2 => ?_, fun h1 h2 => ?_, fun h1 h2 => ?_, fun k hk => ?_, ?_⟩
    · rw [hcal]; exact hsmall h1 h2 _
    · rw [hcal]; exact hlarge h1 h2 _
    · rw [hcal]; exact hcorrect h1 h2 _
    · rw [settled_cals, hiter, evCals_cals, vget_calMod_ne hk]
    · exact (hush_update ((settled_hush ..).trans ((congrArg State.hush hiter).trans (evCals_hush i 3 now l _)))
        (fun x => { x with cals := s.cals }) fun _ => rfl).trans rfl
  case unsettled => exact (congrArg (settle s) (fgEnd_unsettled hf hr hres)).trans (settle_quiet rfl)
  case resettled =>
    obtain ⟨hfg, hfailed, hcount, htrims, hframe⟩ := fgEnd_resettled hf hr i.isLt hres
    refine ⟨_, rfl, ?_, ?_, ?_, ?_,
      (hush_update (settled_hush ..) (fun x => { x with cals := s.cals, inputs := s.inputs, maint := s.maint }) fun _ => rfl).trans hframe⟩ <;>
      rw [settled_cals]
    · exact hfg
    · exact hfailed
    · exact hcount
    · exact htrims

end Sys2Proof.Machine
end

section
/-! What a verb with no preparation of its own finds when it acts, and what its answer leaves (R42, R440, R453, R454, R615). -/
namespace Sys2Proof.Machine
open Sys2Proof

@[simp] theorem length_le_bytes (n v : Nat) : (le n v).length = n := by
  induction n generalizing v with
  | zero => rfl
  | succ n ih => exact congrArg (· + 1) (ih (v / 256))

@[simp] theorem length_timeB (t : Time) : (timeB t).length = 12 := length_le_bytes 12 _

/-- A record that begins with a number of n bytes begins with them. -/
theorem take_le_append (n v : Nat) (l : Bytes) : (le n v ++ l).take n = le n v :=
  List.take_left' (length_le_bytes n v)

theorem bankedMod_frame (p : WinPath) (f : BankedSt → BankedSt) (s : State) : ∃ j, bankedMod p f s = { s with junction := j } := by
  cases p <;> exact ⟨_, rfl⟩

theorem forwardLoad_frame (m : Fin 64) (c : Cmd) (op : Nat) (s : State) : ∃ j, forwardLoad m c op s = { s with junction := j } := by
  unfold forwardLoad
  split
  · exact ⟨_, rfl⟩
  · exact ⟨s.junction, rfl⟩

/-- The start of a command shows in its mailbox and in the junction's banks alone (R42, R441, R454). -/
theorem begin_frame (c : Cmd) (op n : Nat) (s : State) : ∃ k j, begin_ c op n s = { s with kennel := k, junction := j } := by
  unfold begin_
  cases c.path with
  | mailbox m =>
    obtain ⟨j, hj⟩ := forwardLoad_frame m c op (mbxMod m _ s)
    exact ⟨_, j, hj⟩
  | junction p =>
    obtain ⟨j, hj⟩ := bankedMod_frame p _ s
    exact ⟨s.kennel, j, hj⟩

/-- An event that is raised or not moves nothing that State.hush shows. -/
theorem hush_ite {q : Prop} [Decidable q] {s t : State} (h : t.hush = s.hush) : (if q then t else s).hush = s.hush := by
  split
  · exact h
  · rfl

/-- A condition of the refusal column that holds leaves a code (R615). -/
theorem worstCond_ge (l : List Cond) (w : Nat × Bytes) :
    w.1 ≤ (l.foldl (fun w c => if c.1 && w.1 < c.2.1 then c.2 else w) w).1 ∧
    ∀ x ∈ l, x.1 = true → x.2.1 ≤ (l.foldl (fun w c => if c.1 && w.1 < c.2.1 then c.2 else w) w).1 := by
  induction l generalizing w with
  | nil => exact ⟨Nat.le_refl _, fun _ hx => absurd hx (List.not_mem_nil)⟩
  | cons c l ih =>
    obtain ⟨hw, hl⟩ := ih (if c.1 && w.1 < c.2.1 then c.2 else w)
    have hstep : w.1 ≤ (if c.1 && w.1 < c.2.1 then c.2 else w).1 ∧ (c.1 = true → c.2.1 ≤ (if c.1 && w.1 < c.2.1 then c.2 else w).1) := by
      split
      · next h => simp only [Bool.and_eq_true, decide_eq_true_eq] at h; exact ⟨Nat.le_of_lt h.2, fun _ => Nat.le_refl _⟩
      · next h => exact ⟨Nat.le_refl _, fun hc => by simpa [hc] using h⟩
    refine ⟨Nat.le_trans hstep.1 hw, fun x hx hon => ?_⟩
    rcases List.mem_cons.mp hx with rfl | hx
    · exact Nat.le_trans (hstep.2 hon) hw
    · exact hl x hx hon

/-- Of an accepted command no condition of its refusal column holds (R615). -/
theorem Accepts.clear {v : Verb} {c : Cmd} {s : State} (h : Accepts v c s) {x : Cond} (hx : x ∈ v.checks c s) (hcode : x.2.1 ≠ 0) : x.1 = false := by
  obtain ⟨-, -, -, -, -, -, -, -, hworst⟩ := h.parts
  refine Bool.eq_false_iff.mpr fun hon => hcode (Nat.le_zero.mp ?_)
  exact Nat.le_trans ((worstCond_ge (v.checks c s) (0, [])).2 x hx hon) (Nat.le_of_eq (congrArg Prod.fst hworst))

section
variable {i : Instr} {v : Verb} {c : Cmd} {s : State}

/-- A verb with no preparation acts in a state that differs in mailboxes and junction banks alone. -/
theorem begun_frame (hs : v.start = fun _ s => s) : ∃ k j, begun v c s = { s with kennel := k, junction := j } := by
  unfold begun
  rw [hs]
  exact begin_frame c v.op 1 s

/-- An accepted verb answers OK with what its act gives, whatever mailboxes and junction banks hold by then. -/
theorem answers_of_act {res : Bytes} {f : State → State} (h : Accepts v c s) (hs : v.start = fun _ s => s)
    (hi : exec i s = settle s (runVerb v c s))
    (ha : ∀ k j, v.act c { s with kennel := k, junction := j } = okWith (f { s with kennel := k, junction := j }) res) : Answers i v c s res f := by
  obtain ⟨k, j, hb⟩ := begun_frame (v := v) (c := c) (s := s) hs
  exact answers_of h hi (by rw [hb]; exact ha k j)

/-- An accepted verb reports n bytes where its act answers so many and leaves the state as it was. -/
theorem reports_of_act {n : Nat} (h : Accepts v c s) (hi : exec i s = settle s (runVerb v c s))
    (ha : ∀ u, ∃ res : Bytes, res.length = n ∧ v.act c u = okWith u res) : Reports i v c s n := by
  obtain ⟨res, hlen, hres⟩ := ha (begun v c s)
  exact ⟨res, hlen, answers_of h hi hres⟩

@[simp] theorem reply_hush (op : Nat) (r : State × Option (Nat × Bytes)) : (reply c op r).hush = r.1.hush := by
  unfold reply
  cases r.2 with
  | none => rfl
  | some a => exact complete_hush ..

/-- An accepted verb leaves what its act left, but for what an answer touches. -/
theorem does_of_begun {P : State → Prop} (h : Accepts v c s) (hi : exec i s = settle s (runVerb v c s))
    (hp : ∀ t : State, t.hush = (v.act c (begun v c s)).1.hush → P t) : Does i s P := by
  refine does_of h hi (hp _ ?_)
  rw [settled_hush, hostPurge_hush, reply_hush]

/-- The same of a verb with no preparation, whatever mailboxes and junction banks hold when it acts. -/
theorem does_of_act {P : State → Prop} (h : Accepts v c s) (hs : v.start = fun _ s => s) (hi : exec i s = settle s (runVerb v c s))
    (hp : ∀ k j (t : State), t.hush = (v.act c { s with kennel := k, junction := j }).1.hush → P t) : Does i s P := by
  obtain ⟨k, j, hb⟩ := begun_frame (v := v) (c := c) (s := s) hs
  exact does_of_begun h hi fun t ht => hp k j t (by rw [ht, hb])

end

end Sys2Proof.Machine
end

section
/-! Fields of a register word, and the units of fixed handles (R14, R21). -/
namespace Sys2Proof.Machine
open Sys2Proof

section
variable {m : Nat} (w : BitVec m) {hi lo : Nat} (v : Nat)

/-- A number with one of its fields replaced, cut at the ends of the field. -/
theorem setFld_parts (hlo : lo ≤ hi) : w.toNat - (fld w hi lo <<< lo) + (v <<< lo) =
    2 ^ lo * (2 ^ (hi + 1 - lo) * (w.toNat >>> (hi + 1)) + v) + w.toNat % 2 ^ lo := by
  have hcut : w.toNat >>> (hi + 1) = w.toNat / 2 ^ lo / 2 ^ (hi + 1 - lo) := by
    rw [Nat.div_div_eq_div_mul, ← Nat.pow_add, Nat.shiftRight_eq_div_pow, show lo + (hi + 1 - lo) = hi + 1 by omega]
  have hlow := Nat.div_add_mod w.toNat (2 ^ lo)
  have hfld := congrArg (2 ^ lo * ·) (Nat.div_add_mod (w.toNat / 2 ^ lo) (2 ^ (hi + 1 - lo)))
  rw [hcut, fld, Nat.shiftLeft_eq, Nat.shiftLeft_eq, Nat.shiftRight_eq_div_pow, Nat.mul_comm _ (2 ^ lo), Nat.mul_comm v]
  simp only [Nat.mul_add] at hfld ⊢
  omega

/-- The bits of a word with one field replaced. -/
theorem bitAt_setFld (hlo : lo ≤ hi) (hhi : hi < m) (n : Nat) :
    bitAt (setFld w hi lo v) n = if lo ≤ n ∧ n ≤ hi then v.testBit (n - lo) else bitAt w n := by
  have hv : v % 2 ^ (hi + 1 - lo) < 2 ^ (hi + 1 - lo) := Nat.mod_lt _ (Nat.two_pow_pos _)
  have hl : w.toNat % 2 ^ lo < 2 ^ lo := Nat.mod_lt _ (Nat.two_pow_pos _)
  rw [setFld, setFld_parts w _ hlo, bitAt, BitVec.getLsbD_ofNat, Nat.testBit_two_pow_mul_add _ hl, Nat.testBit_two_pow_mul_add _ hv]
  rcases Nat.lt_or_ge n lo with hn | hn
  · rw [if_pos hn, if_neg (by omega), Nat.testBit_mod_two_pow, BitVec.testBit_toNat, decide_eq_true (show n < m by omega), decide_eq_true hn, bitAt,
      Bool.true_and, Bool.true_and]
  · rcases Nat.lt_or_ge hi n with hn' | hn'
    · have hat : hi + 1 + (n - lo - (hi + 1 - lo)) = n := by omega
      rw [if_neg (by omega), if_neg (by omega), if_neg (by omega), Nat.testBit_shiftRight, hat, BitVec.testBit_toNat, bitAt]
      by_cases hm : n < m
      · rw [decide_eq_true hm, Bool.true_and]
      · rw [decide_eq_false hm, Bool.false_and, BitVec.getLsbD_of_ge w n (by omega)]
    · rw [if_neg (by omega), if_pos (by omega), if_pos ⟨hn, hn'⟩, Nat.testBit_mod_two_pow]
      rw [decide_eq_true (show n < m by omega), decide_eq_true (show n - lo < hi + 1 - lo by omega), Bool.true_and, Bool.true_and]

theorem bitAt_setFld_of_lt {n : Nat} (hlo : lo ≤ hi) (hhi : hi < m) (hn : n < lo) : bitAt (setFld w hi lo v) n = bitAt w n := by
  rw [bitAt_setFld w v hlo hhi, if_neg (by omega)]

/-- The bits of a field. -/
theorem testBit_fld (i : Nat) : (fld w hi lo).testBit i = (decide (i < hi + 1 - lo) && bitAt w (lo + i)) := by
  rw [fld, Nat.testBit_mod_two_pow, Nat.testBit_shiftRight, BitVec.testBit_toNat, bitAt]

/-- A field that is set reads back. -/
theorem fld_setFld_same (hlo : lo ≤ hi) (hhi : hi < m) (hv : v < 2 ^ (hi + 1 - lo)) : fld (setFld w hi lo v) hi lo = v := by
  refine Nat.eq_of_testBit_eq fun i => ?_
  rw [testBit_fld, bitAt_setFld w v hlo hhi]
  by_cases hi' : i < hi + 1 - lo
  · rw [if_pos ⟨by omega, by omega⟩, decide_eq_true hi', Bool.true_and, Nat.add_sub_cancel_left]
  · have hpow := Nat.pow_le_pow_right (show 0 < 2 by decide) (Nat.le_of_not_lt hi')
    rw [decide_eq_false hi', Bool.false_and, Nat.testBit_lt_two_pow (Nat.lt_of_lt_of_le hv hpow)]

/-- A field below one that is set reads as before. -/
theorem fld_setFld_of_lt {hi' lo' : Nat} (hlo : lo ≤ hi) (hhi : hi < m) (hbelow : hi' < lo) : fld (setFld w hi lo v) hi' lo' = fld w hi' lo' := by
  refine Nat.eq_of_testBit_eq fun i => ?_
  rw [testBit_fld, testBit_fld]
  by_cases hi' : i < hi' + 1 - lo'
  · rw [bitAt_setFld_of_lt w v hlo hhi (by omega)]
  · rw [decide_eq_false hi', Bool.false_and, Bool.false_and]

end

/-- A unit of a fixed handle has the index that the handle spells, and is on the grade (R4, R21). -/
theorem unitOf_fixed {s : State} {h : Handle} {k : UK} {i : Nat} (hu : unitOf s h = some (k, i)) (hk : k ≠ .pack) :
    i = idx h ∧ onGrade s.grade k i = true := by
  unfold unitOf at hu
  unfold idx
  split at hu
  · cases hp : packOf s h with
    | none => simp [hp] at hu
    | some p => simp [hp] at hu; exact absurd hu.1.symm hk
  · split at hu
    · dsimp only at hu
      split at hu
      · next hgrade => cases hu; exact ⟨rfl, hgrade⟩
      · cases hu
    · cases hu

/-- A down-conversion channel is one of 128 (R111). -/
theorem idx_ddc_lt {s : State} {h : Handle} (hd : isA s .ddc h = true) : idx h < 128 := by
  cases hu : unitOf s h with
  | none => simp [isA, hu] at hd
  | some u =>
    obtain ⟨k, i⟩ := u
    obtain rfl : k = .ddc := by simpa [isA, hu] using hd
    obtain ⟨rfl, hgrade⟩ := unitOf_fixed hu (by decide)
    have hn : nInputs s.grade ≤ 8 := by cases s.grade <;> decide
    have hlt : idx h < 16 * nInputs s.grade := by simpa [onGrade] using hgrade
    omega

end Sys2Proof.Machine
end

section
/-! The commands that read: TIME, MEAS, REC, TRIG, CHAN, BOX, RING and STREAM (R149, R224 to R226, R350, R364, R417, R587, R589). -/
namespace Sys2Proof.Machine
open Sys2Proof

section
variable {c : Cmd} {s : State}

/-- TRIG.STATUS with CLEAR 0 reports 34 bytes, and counts on (R224). -/
theorem vTrigStatus_reports (hclear : argBit c 1 0 = false) (u : State) : ∃ res : Bytes, res.length = 34 ∧ vTrigStatus.act c u = okWith u res := by
  refine ⟨_, ?_, congrArg (fun t => okWith t _) (if_neg (by simp [hclear]))⟩
  simp

theorem vChanStatus_act {x : ChanSt} (hx : cArg c s = some x) : vChanStatus.act c s = okWith s
    (le 1 (b2n x.running) ++ le 3 0 ++ le 8 x.produced ++ le 4 x.invalid ++ le 4 x.saturated ++ le 4 x.bundles.length ++ timeB x.lastTime) := by
  simp only [vChanStatus, hx]

/-- BOX.STATUS names the newest entry once there is one (R582, R589). -/
theorem vBoxStatus_act (hseq : 0 < s.box.nextSeq) : vBoxStatus.act c s = okWith s
    (le 4 (boxIndex (s.box.nextSeq - 1)) ++ le 4 (s.box.nextSeq - 1) ++ le 4 s.box.lostTotal ++ le 4 s.box.peak) := by
  simp only [vBoxStatus, Nat.pos_iff_ne_zero.mp hseq, if_false]

/-- RING.STATUS with DEST 0 answers without a context (R340, R363). -/
theorem vRingStatus_act {r : RingCtx} (hr : ringOf s (argN c 0 4) = some r) (hdest : argN c 8 6 = 0) : vRingStatus.act c s = okWith s
    (le 8 r.producer ++ le 8 r.consumer ++ le 8 (heldStart r) ++ [(ctxBytes r).getD 29 0] ++ le 1 r.policy ++ le 1 r.type) := by
  simp only [vRingStatus, hr, hdest, if_true]

/-- STREAM.STATUS with CLEAR 0 counts on (R364). -/
theorem vStreamStatus_act {x : StreamSt} (hx : streamArg c s = some x) (hclear : argBit c 4 0 = false) : vStreamStatus.act c s = okWith s
    (le 4 x.seq ++ le 4 0 ++ le 8 x.packets ++ le 8 x.payload ++ le 4 x.gaps ++ le 4 x.resent ++ le 8 x.sendPos) := by
  simp only [vStreamStatus, hx, hclear, Bool.false_eq_true, if_false]

end

/-- Settles O24, verb by verb: the answer of each act, which reads nothing that the command's own start touches. -/
theorem readsAnswer : Obligations.ReadsAnswer := by
  unfold Obligations.ReadsAnswer
  intro c s
  refine ⟨fun h => ?time, fun h => ?meas, fun h => ?rec, fun h hclear => ?trig, fun x hx h => ?chan, fun h hseq => ?box,
    fun r hr hdest h => ?ring, fun x hx h hclear => ?stream⟩
  case time => exact answers_of_act h rfl rfl fun _ _ => rfl
  case meas => exact answers_of_act h rfl rfl fun _ _ => rfl
  case rec =>
    exact ⟨((ringOf s (argN c 0 4)).map fun r => min 65535 (unionLen (pinRanges s (argN c 0 4)) * 65536 / ringSize r)).getD 0,
      answers_of_act h rfl rfl fun _ _ => rfl⟩
  case trig => exact reports_of_act h rfl (vTrigStatus_reports hclear)
  case chan => exact answers_of_act h rfl rfl fun _ _ => vChanStatus_act hx
  case box => exact answers_of_act h rfl rfl fun _ _ => vBoxStatus_act hseq
  case ring => exact ⟨_, answers_of_act h rfl rfl fun _ _ => vRingStatus_act hr hdest⟩
  case stream => exact answers_of_act h rfl rfl fun _ _ => vStreamStatus_act hx hclear

end Sys2Proof.Machine
end

section
/-! The DDC verbs: channels, retunes, thresholds and engines (R117, R131, R132, R135, R137, R138). -/
namespace Sys2Proof.Machine
open Sys2Proof

theorem ddc_of_hush {s t : State} (h : s.hush = t.hush) : s.ddc = t.ddc := by injection h

theorem vget_ddcMod {i : Nat} (hi : i < 128) (f : DdcSt → DdcSt) (s : State) : vget (ddcMod i f s).ddc i = f (vget s.ddc i) := vget_vmod_same _ f hi
theorem vget_ddcMod_ne {i k : Nat} (hk : k ≠ i) (f : DdcSt → DdcSt) (s : State) : vget (ddcMod i f s).ddc k = vget s.ddc k := vget_vmod_ne _ f hk

/-- The channel whose record stands at once, a new FREQ_WORD as a retune (R131). -/
def ddcStored (s : State) (ch : Nat) (w : BitVec 288) (x : DdcSt) : DdcSt :=
  { x with
    cfg := w, synced := x.synced && !ddcChanged ch (vget s.ddc ch).cfg w
    retune := if fld w 239 192 = fld x.cfg 239 192 then x.retune else some ⟨BitVec.ofNat 48 (fld w 239 192), none, false, now s⟩ }

/-- The channel whose record waits for a restart at the next source block (R131). -/
def ddcAwaiting (s : State) (ch : Nat) (w : BitVec 288) (x : DdcSt) : DdcSt :=
  { x with
    cfgNext := some w
    restart := some (ddcSoon s (ddcSource ch w) (!bitAt (vget s.ddc ch).cfg 0 && x.synced && !ddcChanged ch (vget s.ddc ch).cfg w)) }

section
variable {ch : Nat} {w : BitVec 288} {s : State}

/-- DDC.CONFIGURE of a channel that it disables, leaves disabled, or changes nothing of the path of. -/
theorem ddcApply_stored (h : bitAt w 0 = false ∨ bitAt (vget s.ddc ch).cfg 0 = true ∧ ddcChanged ch (vget s.ddc ch).cfg w = false) :
    ddcApply ch w s = ddcMod ch (ddcStored s ch w) s := by
  refine if_neg ?_
  rcases h with hoff | ⟨hon, hsame⟩
  · simp [hoff]
  · simp [hon, hsame]

/-- DDC.CONFIGURE of a channel that it enables, or changes the path of. -/
theorem ddcApply_awaiting (hw : bitAt w 0 = true) (h : bitAt (vget s.ddc ch).cfg 0 = false ∨ ddcChanged ch (vget s.ddc ch).cfg w = true) :
    ddcApply ch w s = ddcMod ch (ddcAwaiting s ch w) s := by
  refine (if_pos ?_).trans ?_
  · rcases h with hoff | hchanged
    · simp [hw, hoff]
    · simp [hw, hchanged]
  · simp only [hw, Bool.true_and]
    rfl

end

/-- What DDC.CONFIGURE makes of its channel is all that it changes (R131, R138). -/
theorem does_ddcConfigure {c : Cmd} {s : State} {g : DdcSt → DdcSt} {P : State → Prop} (h : Accepts vDdcConfigure c s)
    (hg : ∀ k j, ddcApply (idx c.unit) (ddcArg c s) { s with kennel := k, junction := j } =
      ddcMod (idx c.unit) g { s with kennel := k, junction := j })
    (hp : ∀ u : State, vget u.ddc (idx c.unit) = g (vget s.ddc (idx c.unit)) → (∀ k, k ≠ idx c.unit → vget u.ddc k = vget s.ddc k) →
      ({ u with ddc := s.ddc } : State).hush = s.hush → P u) : Does (.ddcConfigure c) s P := by
  obtain ⟨-, -, -, -, -, -, -, hfits, -⟩ := h.parts
  refine does_of_act h rfl rfl fun k j u hu => ?_
  have hact : u.hush = (ddcMod (idx c.unit) g { s with kennel := k, junction := j }).hush := hu.trans (congrArg State.hush (hg k j))
  refine hp u ?_ (fun n hn => ?_) (hush_update hact (fun x => { x with ddc := s.ddc }) fun _ => rfl)
  · rw [ddc_of_hush hact, vget_ddcMod (idx_ddc_lt hfits)]
  · rw [ddc_of_hush hact, vget_ddcMod_ne hn]

@[simp] theorem length_ddcRecord (s : State) (ch : Nat) (cfg : BitVec 288) : (ddcRecord s ch cfg).length = 48 := by
  simp [ddcRecord]

/-- Settles O34, verb by verb: what ddcApply makes of a channel, and what each other verb's act is. -/
theorem ddcVerbs : Obligations.DdcVerbs := by
  unfold Obligations.DdcVerbs
  intro c s ch x w t
  refine ⟨fun h hkeeps => ?stands, fun h hon hpath => ?waits, fun h => ?tune, fun h => ?threshold, fun h => ?sync, fun h => ?engine, fun h => ?query⟩
  case stands =>
    refine does_ddcConfigure (g := ddcStored s ch w) h (fun _ _ => ddcApply_stored hkeeps) fun u hch hne hframe => ?_
    rw [hch]
    exact ⟨rfl, rfl, fun hfreq => if_neg hfreq, hne, hframe⟩
  case waits =>
    refine does_ddcConfigure (g := ddcAwaiting s ch w) h (fun _ _ => ddcApply_awaiting hon hpath) fun u hch hne hframe => ?_
    rw [hch]
    exact ⟨rfl, rfl, rfl, hne, hframe⟩
  case tune => exact answers_of_act h rfl rfl fun _ _ => rfl
  case threshold => exact answers_of_act h rfl rfl fun _ _ => rfl
  case sync => exact answers_of_act h rfl rfl fun _ _ => rfl
  case engine => exact answers_of_act h rfl rfl fun _ _ => rfl
  case query => exact reports_of_act h rfl fun _ => ⟨_, length_ddcRecord .., rfl⟩

end Sys2Proof.Machine
end

section
/-! Retunes, restarts, synchronising resets and threshold averages of the down-conversion channels (R117, R119, R130 to R133, R135, R136). -/
namespace Sys2Proof.Machine
open Sys2Proof

/-! ### Retunes (R117, R131) -/

section
variable {ch : Nat} {s : State}

theorem ddcRetune_none (h : (vget s.ddc ch).retune = none) : ddcRetune ch s = s := by
  simp only [ddcRetune, h]

/-- The bytes of PHASE_OFFSET, at the top of the accumulator (R117). -/
theorem ofNat_phase (p : BitVec 32) : BitVec.ofNat 48 (p.toNat * 65536) = p.setWidth 48 <<< 16 := by
  refine BitVec.eq_of_toNat_eq ?_
  have hp := p.isLt
  rw [BitVec.toNat_ofNat, BitVec.toNat_shiftLeft, BitVec.toNat_setWidth, Nat.shiftLeft_eq]
  omega

/-- What a retune that applies makes of its channel. -/
theorem ddcRetune_some {rt : Retune} (h : (vget s.ddc ch).retune = some rt) : ∃ g, ddcRetune ch s = ddcMod ch g s ∧
    ∀ c, (g c).retune = none ∧ (g c).freq = rt.freq ∧ fld (g c).cfg 239 192 = rt.freq.toNat ∧
      ∀ p, rt.phase = some p → rt.reset = true → (g c).acc = p.setWidth 48 <<< 16 := by
  have hfreq : ∀ w : BitVec 288, fld (setFld w 239 192 rt.freq.toNat) 239 192 = rt.freq.toNat := fun w =>
    fld_setFld_same w _ (by decide) (by decide) rt.freq.isLt
  simp only [ddcRetune, h]
  refine ⟨_, rfl, fun c => ?_⟩
  cases hphase : rt.phase with
  | none => cases rt.reset <;> exact ⟨rfl, rfl, hfreq c.cfg, fun _ hp => nomatch hp⟩
  | some p =>
    have hkept := (fld_setFld_of_lt (setFld c.cfg 239 192 rt.freq.toNat) p.toNat (hi := 287) (lo := 256) (hi' := 239) (lo' := 192)
      (by decide) (by decide) (by decide)).trans (hfreq c.cfg)
    have hload : BitVec.ofNat 48 (fld (setFld (setFld c.cfg 239 192 rt.freq.toNat) 287 256 p.toNat) 287 256 * 65536) = p.setWidth 48 <<< 16 := by
      rw [fld_setFld_same _ _ (by decide) (by decide) p.isLt, ofNat_phase]
    cases rt.reset with
    | false => exact ⟨rfl, rfl, hkept, fun _ _ hr => nomatch hr⟩
    | true => exact ⟨rfl, rfl, hkept, fun q hq _ => by cases hq; exact hload⟩

/-! ### Restarts of a channel without outputs (R130, R131) -/

/-- What steps 2 to 6 of R130 leave of a channel. -/
theorem ddcBegin_leaves (n : Nat) (t : Time) (keep sync : Bool) (rate : Nat) (c : DdcSt) :
    let d := ddcBegin ch n t keep sync rate c
    d.cfg = c.cfg ∧ d.restart = none ∧ d.cfgNext = none ∧ d.synced = keep ∧ d.restartAt = n ∧ d.gain = ddcGain c.cfg ∧
    (keep = false → d.nref = n ∧ d.nextM = 0) ∧ d.spans = [⟨d.nextM, d.nextM + ddcSettle c.cfg⟩] := by
  cases keep with
  | false => exact ⟨rfl, rfl, rfl, rfl, rfl, rfl, fun _ => ⟨rfl, rfl⟩, rfl⟩
  | true => exact ⟨rfl, rfl, rfl, rfl, rfl, rfl, fun hk => (nomatch hk), rfl⟩

/-- A restart puts the waiting record in force, with the ratio of its target rate (R119, R131). -/
theorem ddcInstall_cfg (n cut : Nat) (c : DdcSt) : (ddcInstall s ch n cut c).cfg = ddcResolve s ch (c.cfgNext.getD c.cfg) := by
  unfold ddcInstall
  extract_lets w moved pos c' f same d
  split <;> rfl

variable (hoff : bitAt (vget s.ddc ch).cfg 0 = false)
include hoff

theorem ddcRuns_off : ddcRuns s ch = false := by
  simp only [ddcRuns, hoff, Bool.false_and]

/-- A disabled channel has no block to complete (R130 step 1). -/
theorem ddcCloseAll_off (n : Nat) : ddcCloseAll ch n s = (s, true) := by
  have hclose : ∀ k, ddcClose ch n k s = s := fun k => by
    cases k with
    | zero => rfl
    | succ k => simp [ddcClose, ddcRuns_off hoff]
  simp [ddcCloseAll, hclose, ddcRuns_off hoff]

/-- A disabled channel meets no gap of its source (R131). -/
theorem ddcRestart_off : ddcRestart ch s = if (ddcTakeCfg ch s).2 then ddcCondGap ch (ddcTakeCfg ch s).1 else (ddcTakeCfg ch s).1 := by
  unfold ddcRestart
  rw [ddcRuns_off hoff]
  rcases ddcTakeCfg ch s with ⟨t, _ | _⟩ <;> rfl

theorem ddcRestart_none (h : (vget s.ddc ch).restart = none) : ddcRestart ch s = s := by
  have htake : ddcTakeCfg ch s = (s, false) := by simp only [ddcTakeCfg, h]
  rw [ddcRestart_off hoff, htake]
  rfl

/-- A disabled channel whose source has not reached the restart sample goes on waiting (R130, R131). -/
theorem ddcRestart_waits {q : DdcRestart} (hq : (vget s.ddc ch).restart = some q)
    (hsrc : ((ringOf s (captureRing s (ddcSource ch ((vget s.ddc ch).cfgNext.getD (vget s.ddc ch).cfg)))).bind fun r =>
      (srcBlocks s r (lastGapPos s r)).find? fun b => decide (q.at_ < b.first + 256)) = none) : ddcRestart ch s = s := by
  have htake : ddcTakeCfg ch s = (s, false) := by
    simp [ddcTakeCfg, ddcCut, hq, hoff, hsrc]
  rw [ddcRestart_off hoff, htake]
  rfl

/-- A disabled channel whose source has reached the restart sample restarts there (R130, R131). -/
theorem ddcRestart_restarts {q : DdcRestart} {r : RingCtx} {b : SrcBlk} (hq : (vget s.ddc ch).restart = some q)
    (hring : ringOf s (captureRing s (ddcSource ch ((vget s.ddc ch).cfgNext.getD (vget s.ddc ch).cfg))) = some r)
    (hblk : (srcBlocks s r (lastGapPos s r)).find? (fun b => decide (q.at_ < b.first + 256)) = some b)
    (hrun : runComing s (ddcSource ch ((vget s.ddc ch).cfgNext.getD (vget s.ddc ch).cfg)) = false) : ∃ t cut rate,
    ddcRestart ch s = ddcCondGap ch (ddcMod ch (fun c => ddcBegin ch (max q.at_ b.first) t q.keep q.sync rate (ddcInstall s ch (max q.at_ b.first) cut c)) s) := by
  have htake : ∃ t cut rate, ddcTakeCfg ch s =
      (ddcMod ch (fun c => ddcBegin ch (max q.at_ b.first) t q.keep q.sync rate (ddcInstall s ch (max q.at_ b.first) cut c)) s, true) := by
    simp only [ddcTakeCfg, ddcCut, hq, hoff, hring, hblk, hrun, Option.map_some, Option.bind_some, Bool.not_false, Bool.or_true, if_true,
      Bool.and_false, Bool.false_and, Bool.or_self, Bool.false_eq_true, if_false, ddcCloseAll_off hoff]
    exact ⟨_, _, _, rfl⟩
  obtain ⟨t, cut, rate, htake⟩ := htake
  refine ⟨t, cut, rate, ?_⟩
  rw [ddcRestart_off hoff, htake]
  rfl

end

/-- Trigger conditions that meet a restart change in their engines alone (R194). -/
theorem ddcCondGap_frame (ch : Nat) (s : State) : ∃ ev, ddcCondGap ch s = { s with events := ev } := by
  unfold ddcCondGap
  dsimp only
  split <;> exact ⟨_, rfl⟩

/-! ### Synchronising resets (R132, R133) -/

/-- What a synchronising reset makes of a channel x: y restarts and synchronises if x is enabled, and else is SYNCED with nothing pending (R133). -/
def DdcSt.syncsTo (x y : DdcSt) : Prop :=
  (bitAt (x.cfgNext.getD x.cfg) 0 = true → y.restart.any (fun q => q.sync && !q.keep) = true) ∧
  (bitAt (x.cfgNext.getD x.cfg) 0 = false → y.synced = true ∧ y.restart = none ∧ y.cfgNext = none)

/-- The synchronising reset of one channel changes it alone. -/
theorem ddcSyncOne_syncs (t : Time) (ch : Nat) (s : State) : ∃ g, ddcSyncOne t ch s = ddcMod ch g s ∧ (vget s.ddc ch).syncsTo (g (vget s.ddc ch)) := by
  unfold ddcSyncOne
  extract_lets c w src n rt w1 w2 load
  clear_value rt
  have hw : bitAt w2 0 = bitAt w 0 := by
    have hw1 : bitAt w1 0 = bitAt w 0 := by
      dsimp only [w1]
      split
      · exact bitAt_setFld_of_lt _ _ (by decide) (by decide) (by decide)
      · rfl
    rw [← hw1]
    dsimp only [w2]
    split
    · exact bitAt_setFld_of_lt _ _ (by decide) (by decide) (by decide)
    · rfl
  split
  · next hon => exact ⟨_, rfl, fun _ => rfl, fun hoff => by simp [hw, w, c, hoff] at hon⟩
  · next hoff =>
    refine ⟨_, rfl, fun hon => absurd (hw.trans hon) hoff, fun _ => ?_⟩
    obtain ⟨-, hrestart, hnext, -⟩ := ddcBegin_leaves (ch := ch) n (wideTime s src n) false true (wideRate s src) (ddcInstall s ch n n (load c))
    exact ⟨rfl, hrestart, hnext⟩

/-- The first n channels of an engine synchronise, and nothing else moves. -/
theorem syncFold_leaves (t : Time) (e n : Nat) (s : State) (hn : 16 * e + n ≤ 128) :
    ∃ v, (List.range n).foldl (fun s k => ddcSyncOne t (16 * e + k) s) s = { s with ddc := v } ∧
      (∀ k < n, (vget s.ddc (16 * e + k)).syncsTo (vget v (16 * e + k))) ∧ ∀ k, (∀ j < n, k ≠ 16 * e + j) → vget v k = vget s.ddc k := by
  induction n with
  | zero => exact ⟨s.ddc, rfl, fun k hk => absurd hk (Nat.not_lt_zero k), fun _ _ => rfl⟩
  | succ n ih =>
    obtain ⟨v, hv, hsync, hrest⟩ := ih (by omega)
    obtain ⟨g, hg, hone⟩ := ddcSyncOne_syncs t (16 * e + n) { s with ddc := v }
    have hlast : vget v (16 * e + n) = vget s.ddc (16 * e + n) := hrest _ fun j hj => by omega
    refine ⟨vmod v (16 * e + n) g, ?_, fun k hk => ?_, fun k hk => ?_⟩
    · rw [List.range_succ, List.foldl_append, hv]
      exact hg
    · by_cases hkn : k = n
      · subst hkn
        rw [vget_vmod_same v g (by omega), ← hlast]
        exact hone
      · rw [vget_vmod_ne v g (by omega)]
        exact hsync k (by omega)
    · rw [vget_vmod_ne v g (hk n (Nat.lt_succ_self n))]
      exact hrest k fun j hj => hk j (by omega)

/-! ### Threshold averages (R135, R136) -/

section
variable {ch : Nat} {s : State} {t : Time} {l : List (Time × Option Nat)}

theorem threshAverage_empty (h : (vget s.ddc ch).averages = []) : threshAverage ch s = s := by
  simp only [threshAverage, h]

/-- A window that was not valid zeroes HOLD. -/
theorem threshAverage_invalid (h : (vget s.ddc ch).averages = (t, none) :: l) :
    threshAverage ch s = { s with ddc := vmod s.ddc ch fun x => { x with averages := l, hold := 0 } } := by
  simp only [threshAverage, h]
  exact congrArg (fun v : Vector DdcSt 128 => ({ s with ddc := v } : State)) (vmod_congr_at rfl)

/-- A count that goes on or begins again grows by one at most. -/
theorem ite_succ_le {q : Prop} [Decidable q] (n : Nat) : (if q then n + 1 else 0) ≤ n + 1 := by
  split
  · exact Nat.le_refl _
  · exact Nat.zero_le _

/-- Averages in a row that qualify for a change of ABOVE, with one more of a window's power (R136). -/
def threshRun (c : DdcSt) (p : Nat) : Nat :=
  let avg := logCode p (2 ^ fld c.thr 31 28 * 2 ^ 54)
  if if c.above then avg + fld c.thr 27 16 ≤ fld c.thr 15 0 else fld c.thr 15 0 ≤ avg then c.hold + 1 else 0

theorem threshRun_le (c : DdcSt) (p : Nat) : threshRun c p ≤ c.hold + 1 := ite_succ_le _

variable {p : Nat} (h : (vget s.ddc ch).averages = (t, some p) :: l)
include h

/-- A valid window without HOLD averages in a row leaves ABOVE. -/
theorem threshAverage_holds (hrun : threshRun (vget s.ddc ch) p < fld (vget s.ddc ch).thr 47 32) : ∃ ev, threshAverage ch s =
    { ddcMod ch (fun _ => { vget s.ddc ch with averages := l, hold := threshRun (vget s.ddc ch) p }) s with events := ev } := by
  simp only [threshAverage, h]
  exact ⟨_, if_pos hrun⟩

/-- A valid window that makes HOLD averages in a row changes ABOVE, with its event (R136). -/
theorem threshAverage_crosses (hrun : fld (vget s.ddc ch).thr 47 32 ≤ threshRun (vget s.ddc ch) p) : ∃ ev, (threshAverage ch s).hush =
    ({ ddcMod ch (fun _ => { vget s.ddc ch with averages := l, above := !(vget s.ddc ch).above, hold := 0 }) s with events := ev } : State).hush := by
  have hlong := Nat.not_lt.mpr hrun
  unfold threshRun at hlong
  simp only [threshAverage, h, if_neg hlong]
  exact ⟨_, (hush_ite (hush_of_hushEv (raiseAt_hushEv ..))).trans rfl⟩

end

/-! ### The rows -/

/-- A row that raises no record leaves what it makes. -/
theorem does_quiet {i : Instr} {s t : State} {P : State → Prop} (hi : exec i s = settle s t) (hr : t.ev.raised = s.ev.raised) (hp : P t) : Does i s P :=
  ⟨t, hi.trans (settle_quiet hr), hp⟩

/-- A row leaves what it makes, but for what the delivery of its records touches. -/
theorem does_row {i : Instr} {s t : State} {P : State → Prop} (hi : exec i s = settle s t) (hp : ∀ u : State, u.hush = t.hush → P u) : Does i s P :=
  ⟨_, hi, hp _ (settled_hush s t)⟩

section
variable {ch : Nat} {s : State} {q : DdcRestart} {w : BitVec 288} {r : RingCtx} {b : SrcBlk}

/-- What the restart of a disabled channel leaves (R119, R130, R131). -/
theorem ddcRestart_leaves (hch : ch < 128) (hoff : bitAt (vget s.ddc ch).cfg 0 = false) (hq : (vget s.ddc ch).restart = some q)
    (hw : (vget s.ddc ch).cfgNext = some w) (hring : ringOf s (captureRing s (ddcSource ch w)) = some r)
    (hblk : (srcBlocks s r (lastGapPos s r)).find? (fun b => decide (q.at_ < b.first + 256)) = some b) (hrun : runComing s (ddcSource ch w) = false) :
    let t := ddcRestart ch s
    let d := vget t.ddc ch
    (d.cfg = ddcResolve s ch w ∧ d.restart = none ∧ d.cfgNext = none ∧ d.synced = q.keep ∧ d.restartAt = max q.at_ b.first ∧ d.gain = ddcGain d.cfg ∧
      (q.keep = false → d.nref = max q.at_ b.first ∧ d.nextM = 0) ∧ d.spans = [⟨d.nextM, d.nextM + ddcSettle d.cfg⟩] ∧
      (∀ k, k ≠ ch → vget t.ddc k = vget s.ddc k) ∧ ({ t with ddc := s.ddc, events := s.events } : State) = s) ∧ t.ev = s.ev := by
  have hnext : (vget s.ddc ch).cfgNext.getD (vget s.ddc ch).cfg = w := by rw [hw]; rfl
  obtain ⟨u, cut, rate, hrestart⟩ := ddcRestart_restarts hoff hq (by rw [hnext]; exact hring) hblk (by rw [hnext]; exact hrun)
  obtain ⟨ev, hev⟩ := ddcCondGap_frame ch
    (ddcMod ch (fun c => ddcBegin ch (max q.at_ b.first) u q.keep q.sync rate (ddcInstall s ch (max q.at_ b.first) cut c)) s)
  obtain ⟨hcfg, hgone, htaken, hsynced, hat, hgain, hgrid, hspans⟩ :=
    ddcBegin_leaves (ch := ch) (max q.at_ b.first) u q.keep q.sync rate (ddcInstall s ch (max q.at_ b.first) cut (vget s.ddc ch))
  have hinstall := ddcInstall_cfg (ch := ch) (s := s) (max q.at_ b.first) cut (vget s.ddc ch)
  rw [hnext] at hinstall
  intro t d
  have ht : t = _ := hrestart.trans hev
  have hd : d = _ := (congrArg (fun x : State => vget x.ddc ch) ht).trans (vget_ddcMod hch _ s)
  rw [ht, hd, hcfg]
  exact ⟨⟨hinstall, hgone, htaken, hsynced, hat, hgain, hgrid, hspans, fun k hk => vget_ddcMod_ne hk _ s, rfl⟩, rfl⟩

/-- What a synchronising reset of an engine leaves (R132, R133). -/
theorem syncReset_leaves {e : Nat} {t0 : Time} (he : e < 8) (h : syncInstant e s = some t0) : ∃ v,
    syncReset e s = { s with ddc := v, ddcEng := vmod s.ddcEng e fun x => { x with pin := none, sync := if x.pin.isSome then x.sync else none } } ∧
    (∀ k < 16, (vget s.ddc (16 * e + k)).syncsTo (vget v (16 * e + k))) ∧ ∀ k, k / 16 ≠ e → vget v k = vget s.ddc k := by
  obtain ⟨v, hv, hsync, hrest⟩ := syncFold_leaves t0 e 16
    { s with ddcEng := vmod s.ddcEng e fun x => { x with pin := none, sync := if x.pin.isSome then x.sync else none } } (by omega)
  refine ⟨v, ?_, hsync, fun k hk => hrest k fun j hj => by omega⟩
  simp only [syncReset, h]
  exact hv

end

/-- Settles O35, row by row: the retune, the restart of a disabled channel, the synchronising reset as a fold over an engine's channels, and
the window of averages that has ended. -/
theorem ddcRows : Obligations.DdcRows := by
  unfold Obligations.DdcRows
  intro ch s x
  refine ⟨fun h => ?retuneNone, fun rt h => ?retune, fun h hoff => ?restartNone, fun q hq hoff hsrc => ?restartWaits,
    fun q w r b hq hw hoff hring hblk hrun => ?restart, fun e h => ?syncNone, fun e t0 h => ?sync, fun h => ?threshEmpty,
    fun t0 l h => ?threshInvalid, fun t0 p l h => ?thresh⟩
  case retuneNone => exact (congrArg (settle s) (ddcRetune_none h)).trans (settle_quiet rfl)
  case retune =>
    obtain ⟨g, hg, hleft⟩ := ddcRetune_some h
    obtain ⟨hgone, hfreq, hstored, hphase⟩ := hleft (vget s.ddc ch)
    refine does_quiet (congrArg (settle s) hg) rfl ?_
    rw [vget_ddcMod ch.isLt]
    exact ⟨hgone, hfreq, hstored, hphase, fun k hk => vget_ddcMod_ne hk g s, rfl⟩
  case restartNone => exact (congrArg (settle s) (ddcRestart_none hoff h)).trans (settle_quiet rfl)
  case restartWaits => exact (congrArg (settle s) (ddcRestart_waits hoff hq hsrc)).trans (settle_quiet rfl)
  case restart =>
    obtain ⟨hleaves, hquiet⟩ := ddcRestart_leaves ch.isLt hoff hq hw hring hblk hrun
    exact does_quiet rfl (congrArg (·.raised) hquiet) hleaves
  case syncNone =>
    have hsame : syncReset e s = s := by simp only [syncReset, h]
    exact (congrArg (settle s) hsame).trans (settle_quiet rfl)
  case sync =>
    obtain ⟨v, hv, hsync, hrest⟩ := syncReset_leaves e.isLt h
    refine does_quiet (congrArg (settle s) hv) rfl ⟨?_, ?_, fun k hk => (hsync k hk).1, fun k hk => (hsync k hk).2,
      fun k hk => hrest k hk, fun j hj => vget_vmod_ne s.ddcEng _ fun hje => hj (Fin.ext hje), rfl⟩ <;>
    rw [vget_vmod_same s.ddcEng _ e.isLt]
  case threshEmpty => exact (congrArg (settle s) (threshAverage_empty h)).trans (settle_quiet rfl)
  case threshInvalid => exact (congrArg (settle s) (threshAverage_invalid h)).trans (settle_quiet rfl)
  case thresh =>
    have hle := threshRun_le x p
    by_cases hrun : threshRun x p < fld x.thr 47 32
    · obtain ⟨ev, hev⟩ := threshAverage_holds h hrun
      refine does_quiet (congrArg (settle s) hev) rfl ?_
      rw [vget_ddcMod ch.isLt]
      exact ⟨rfl, fun hne => absurd rfl hne, hle, fun k hk => vget_ddcMod_ne hk _ s, rfl⟩
    · obtain ⟨ev, hev⟩ := threshAverage_crosses h (Nat.le_of_not_lt hrun)
      refine does_row rfl fun u hu => ?_
      rw [ddc_of_hush (hu.trans hev), vget_ddcMod ch.isLt]
      exact ⟨rfl, fun _ => ⟨Nat.le_trans (Nat.le_of_not_lt hrun) hle, rfl⟩, Nat.zero_le _, fun k hk => vget_ddcMod_ne hk _ s,
        hush_update (hu.trans hev) (fun y => { y with ddc := s.ddc, events := s.events }) fun _ => rfl⟩

end Sys2Proof.Machine
end

section
/-! The XFORM and CHAN verbs: definitions, windows, bundles, starts and stops (R140, R144, R145, R149, R150, R153, R154, R169, R185). -/
namespace Sys2Proof.Machine
open Sys2Proof

/-! ### Definitions under their numbers -/

/-- A number below n is free while fewer than n are taken. -/
theorem exists_free {n : Nat} {used : List Nat} (h : used.length < n) : ∃ i < n, i ∉ used := by
  refine Classical.byContradiction fun hall => ?_
  have hsub : List.range n ⊆ used := fun i hi => Classical.byContradiction fun hfree => hall ⟨i, List.mem_range.mp hi, hfree⟩
  have hlen := List.nodup_range.length_le_of_subset hsub
  rw [List.length_range] at hlen
  omega

/-- The lowest free number is free, and every lower one is taken (R150). -/
theorem lowFree_lowest {n : Nat} {used : List Nat} (h : used.length < n) :
    lowFree n used < n ∧ (∀ k < lowFree n used, k ∈ used) ∧ lowFree n used ∉ used := by
  obtain ⟨i, hi, hfree⟩ := exists_free h
  obtain ⟨m, hm⟩ : ∃ m, (List.range n).find? (fun i => !used.contains i) = some m :=
    Option.isSome_iff_exists.mp (List.find?_isSome.mpr ⟨i, List.mem_range.mpr hi, by simpa using hfree⟩)
  obtain ⟨hmfree, hmn, hlow⟩ := List.find?_range_eq_some.mp hm
  have hget : lowFree n used = m := by rw [lowFree, hm]; rfl
  rw [hget]
  exact ⟨List.mem_range.mp hmn, fun k hk => by simpa using hlow k hk, by simpa using hmfree⟩

section
variable {α : Type} (key : α → Nat) (i : Nat) {g : α → α} (hg : ∀ x, key (g x) = key x) (l : List α)
include hg

/-- Of a list changed at one number, that number names what the change makes of what it named. -/
theorem find?_lmod_key : (lmod (fun x => key x == i) g l).find? (fun x => key x == i) = (l.find? fun x => key x == i).map g := by
  induction l with
  | nil => rfl
  | cons x l ih =>
    simp only [lmod, List.map_cons] at ih ⊢
    by_cases hx : key x = i
    · simp [hx, hg]
    · simpa [hx] using ih

/-- Of a list changed at one number, what has another stood in it before. -/
theorem mem_of_mem_lmod_key {y : α} (hy : y ∈ lmod (fun x => key x == i) g l) (hne : key y ≠ i) : y ∈ l := by
  obtain ⟨x, hx, rfl⟩ := List.mem_map.mp hy
  by_cases hxi : key x = i
  · simp [hxi, hg] at hne
  · simpa [hxi] using hx

end

theorem xforms_of_hush {s t : State} (h : s.hush = t.hush) : s.xforms = t.xforms := by injection h
theorem chans_of_hush {s t : State} (h : s.hush = t.hush) : s.chans = t.chans := by injection h
theorem fab_of_hush {s t : State} (h : s.hush = t.hush) : s.fab = t.fab := by injection h

section
variable {c : Cmd} {s : State}

/-- XFORM.CREATE finds fewer than 256 definitions (R150). -/
theorem xformCreate_room (h : Accepts vXformCreate c s) : s.xforms.length < 256 := by
  have hroom := h.clear (x := xCountCond s c.unit (xCfgArg c)) (by simp [vXformCreate]) (by simp [xCountCond, noRoom, REFUSED_CAPACITY])
  simp only [xCountCond, noRoom, Bool.or_eq_false_iff, decide_eq_false_iff_not] at hroom
  omega

/-- CHAN.CREATE finds fewer than 64 channelisers (R140). -/
theorem chanCreate_room (h : Accepts vChanCreate c s) : s.chans.length < 64 := by
  have hroom := h.clear (x := noRoom (64 ≤ s.chans.length) []) (by simp [vChanCreate]) (by simp [noRoom, REFUSED_CAPACITY])
  simp only [noRoom, decide_eq_false_iff_not] at hroom
  omega

/-- XFORM.CREATE adds one definition under the lowest free number, and answers with it first (R150, R185). -/
theorem vXformCreate_act (c : Cmd) (s : State) : ∃ r : Bytes, r.take 2 = le 2 (lowFree 256 (s.xforms.map (·.id))) ∧ vXformCreate.act c s =
    okWith { s with xforms := s.xforms ++ [{ id := lowFree 256 (s.xforms.map (·.id)), pack := c.unit, cfg := xCfgArg c }] } r := by
  refine ⟨_, ?_, rfl⟩
  simp only [List.append_assoc, take_le_append]

/-- CHAN.CREATE adds one channeliser under the lowest free number, and answers with it first (R140, R149). -/
theorem vChanCreate_act (c : Cmd) (s : State) : ∃ r : Bytes, r.take 2 = le 2 (lowFree 64 (s.chans.map (·.id))) ∧ vChanCreate.act c s =
    okWith { s with chans := s.chans ++ [chanOfArgs c (lowFree 64 (s.chans.map (·.id)))] } r := by
  refine ⟨_, ?_, rfl⟩
  simp only [List.append_assoc, take_le_append]

/-- An accepted XFORM.START names an analysis. -/
theorem xformStart_named (h : Accepts vXformStart c s) : ∃ x, xArg c s = some x := by
  refine Option.ne_none_iff_exists'.mp fun hnone => ?_
  have hbad := h.clear (x := badArg true) (by simp [vXformStart, hnone]) (by decide)
  cases hbad

/-- An accepted CHAN.START names a channeliser. -/
theorem chanStart_named (h : Accepts vChanStart c s) : ∃ x, cArg c s = some x := by
  refine Option.ne_none_iff_exists'.mp fun hnone => ?_
  have hbad := h.clear (x := badArg true) (by simp [vChanStart, hnone]) (by decide)
  cases hbad

/-! ### A user window (R153) -/

theorem bankDeny_frame (b : Nat) (who : Handle) (write : Bool) (s : State) (v : Vector BankSt 32) :
    ({ bankDeny b who write s with banks := v } : State).hush = ({ s with banks := v } : State).hush :=
  (hush_update (hush_ite (raise_hush ..)) (fun x => { x with banks := v }) fun _ => rfl).trans rfl

theorem bankFail_frame (b : Nat) (who : Handle) (s : State) (v : Vector BankSt 32) :
    ({ bankFail b who s with banks := v } : State).hush = ({ s with banks := v } : State).hush :=
  (hush_update (hush_ite (raise_hush ..)) (fun x => { x with banks := v }) fun _ => rfl).trans rfl

/-- What the Kennel reads shows in the banks' counts alone (R311, R317). -/
theorem kennelNote_frame (a n : Nat) (s : State) (v : Vector BankSt 32) :
    ({ kennelNote a n s with banks := v } : State).hush = ({ s with banks := v } : State).hush := by
  unfold kennelNote
  split
  · split
    · rfl
    · refine foldl_keeps (fun s : State => ({ s with banks := v } : State).hush) _ (fun s i => ?_) _ s
      dsimp only
      split
      · exact bankDeny_frame _ _ _ s v
      · exact bankFail_frame _ _ s v
      · rfl
  · rfl

/-- XFORM.LOAD_WINDOW reads the table and notes the read (R153, R185). -/
theorem vXformLoadWindow_act {x : XformSt} {b : Bytes} (hx : xArg c s = some x) (hb : kennelRead s (argN c 4 6) (4 * 2 ^ xLog2N x.cfg) = some b) :
    (vXformLoadWindow.act c s).1 = xMod x.id (fun y => { y with window := readTable b (2 ^ xLog2N x.cfg) }) (kennelNote (argN c 4 6) (4 * 2 ^ xLog2N x.cfg) s) := by
  simp only [vXformLoadWindow, hx, hb]
  rfl

/-- XFORM.LOAD_WINDOW sets the window of its analysis, and nothing else but the banks' counts moves. -/
theorem does_xformLoadWindow {x : XformSt} {b : Bytes} (hx : xArg c s = some x)
    (hb : kennelRead (begun vXformLoadWindow c s) (argN c 4 6) (4 * 2 ^ xLog2N x.cfg) = some b) (h : Accepts vXformLoadWindow c s) :
    Does (.xformLoadWindow c) s fun t =>
      t.xforms = s.xforms.map (fun y => if y.id == x.id then { y with window := readTable b (2 ^ xLog2N x.cfg) } else y) ∧
      ({ t with xforms := s.xforms, banks := s.banks } : State).hush = s.hush := by
  obtain ⟨k, j, hbegun⟩ := begun_frame (v := vXformLoadWindow) (c := c) (s := s) rfl
  have hact := vXformLoadWindow_act (s := begun vXformLoadWindow c s) (by rw [hbegun]; exact hx) hb
  have hnote := kennelNote_frame (argN c 4 6) (4 * 2 ^ xLog2N x.cfg) (begun vXformLoadWindow c s) s.banks
  generalize kennelNote (argN c 4 6) (4 * 2 ^ xLog2N x.cfg) (begun vXformLoadWindow c s) = u at hact hnote
  refine does_of_begun h rfl fun t ht => ?_
  rw [hact] at ht
  have hsame : ({ u with banks := s.banks } : State).hush = s.hush := by
    rw [hbegun] at hnote
    exact hnote
  have hxforms := xforms_of_hush hsame
  refine ⟨?_, (hush_update ht (fun x => { x with xforms := s.xforms, banks := s.banks }) fun _ => rfl).trans
    (hush_update hsame (fun x => { x with xforms := s.xforms }) fun _ => rfl)⟩
  rw [xforms_of_hush ht, ← hxforms]
  rfl

/-! ### Starts (R144, R154, R169) -/

/-- The packs' states are reported and noted, and nothing else moves (R47). -/
theorem packWatch_frame (n : Option Nat) (s : State) (ps : List PackSt) (f : FabSt) :
    ({ packWatch n s with packs := ps, fab := f } : State).hush = ({ s with packs := ps, fab := f } : State).hush := by
  refine foldl_keeps (fun s : State => ({ s with packs := ps, fab := f } : State).hush) _ (fun s k => ?_) _ s
  dsimp only
  split
  · rfl
  · split
    · rfl
    · exact (hush_update (raise_hush ..) (fun x => { x with packs := ps, fab := f }) fun _ => rfl).trans rfl

theorem packWatch_fab (n : Option Nat) (s : State) : (packWatch n s).fab = s.fab := by
  refine foldl_keeps State.fab _ (fun s k => ?_) _ s
  dsimp only
  split
  · rfl
  · split
    · rfl
    · exact (fab_of_hush (raise_hush ..)).trans rfl

/-- A start that is accepted is answered at once, or waits for V_FAB (R169). -/
theorem startDone_cases (c : Cmd) (op : Nat) (s : State) : (startDone c op s).1 = packWatch none s ∨
    ∃ w, (startDone c op s).1 = { packWatch none s with fab := { (packWatch none s).fab with waits := (packWatch none s).fab.waits ++ [w] } } := by
  unfold startDone
  generalize packWatch none s = u
  dsimp only
  split
  · exact .inl rfl
  · exact .inr ⟨_, rfl⟩

/-- What a start that is accepted leaves: at most one start more waits, and but for that the packs alone have moved (R47, R169). -/
theorem startDone_leaves {op : Nat} {t : State} (ht : t.hush = (startDone c op s).1.hush) : t.xforms = s.xforms ∧ t.chans = s.chans ∧
    (∀ ps f, ({ t with packs := ps, fab := f } : State).hush = ({ s with packs := ps, fab := f } : State).hush) ∧
    (t.fab.waits.length = s.fab.waits.length ∨ t.fab.waits.length = s.fab.waits.length + 1) := by
  have hwatch := packWatch_frame none s
  have hfab := packWatch_fab none s
  have hcases := startDone_cases c op s
  generalize packWatch none s = u at hwatch hfab hcases
  have hframe : ∀ ps f, ({ t with packs := ps, fab := f } : State).hush = ({ s with packs := ps, fab := f } : State).hush := fun ps f => by
    refine (hush_update ht (fun x => { x with packs := ps, fab := f }) fun _ => rfl).trans (Eq.trans ?_ (hwatch ps f))
    rcases hcases with h | ⟨w, h⟩ <;> rw [h]
  have hxforms := xforms_of_hush (hframe [] {})
  have hchans := chans_of_hush (hframe [] {})
  refine ⟨hxforms, hchans, hframe, ?_⟩
  rw [fab_of_hush ht]
  rcases hcases with h | ⟨w, h⟩ <;> rw [h]
  · exact .inl (congrArg (·.waits.length) hfab)
  · refine .inr ?_
    rw [List.length_append, hfab]
    rfl

/-- What XFORM.START makes of the list of analyses: an empty grid under the number (R154, R185). -/
theorem xRunning_xforms (id : Nat) (t : Time) (s : State) : ∃ g, (xRunning id t s).xforms = lmod (fun x => x.id == id) g s.xforms ∧
    ∀ x, (g x).id = x.id ∧ (g x).running = true ∧ (g x).startTime = (if t = 0 then now s else t) ∧ (g x).origin = none ∧ (g x).formed = 0 ∧
      (g x).next = 0 ∧ (g x).issued = [] ∧ (g x).completed = [] :=
  ⟨_, rfl, fun _ => ⟨rfl, rfl, rfl, rfl, rfl, rfl, rfl, rfl⟩⟩

/-- What CHAN.START makes of the list of channelisers (R144, R149). -/
theorem cRunning_chans (id : Nat) (t : Time) (s : State) : ∃ g, (cRunning id t s).chans = lmod (fun x => x.id == id) g s.chans ∧
    ∀ x, (g x).id = x.id ∧ (g x).running = true ∧ (g x).startTime = (if t = 0 then now s else t) ∧ (g x).origin = none ∧ (g x).next = 0 ∧
      (g x).publish = 0 :=
  ⟨_, rfl, fun _ => ⟨rfl, rfl, rfl, rfl, rfl, rfl⟩⟩

/-- What has a number and a pack is found under its number. -/
theorem find?_of_and {α : Type} {p q : α → Bool} {l : List α} {a : α} (h : l.find? (fun x => p x && q x) = some a) : ∃ b, l.find? p = some b := by
  have ha : (p a && q a) = true := List.find?_some (p := fun x => p x && q x) h
  exact Option.isSome_iff_exists.mp (List.find?_isSome.mpr ⟨a, List.mem_of_find?_eq_some h, (Bool.and_eq_true_iff.mp ha).1⟩)

/-- XFORM.START (R154, R169, R185). -/
theorem does_xformStart (h : Accepts vXformStart c s) : Does (.xformStart c) s fun t =>
    (∃ x, t.xforms.find? (fun x => x.id == argN c 0 2) = some x ∧ x.running = true ∧ x.startTime = (if (argT c 4).getD 0 = 0 then now s else (argT c 4).getD 0) ∧
      x.origin = none ∧ x.formed = 0 ∧ x.next = 0 ∧ x.issued = [] ∧ x.completed = []) ∧
    (∀ y ∈ t.xforms, y.id ≠ argN c 0 2 → y ∈ s.xforms) ∧ ({ t with xforms := s.xforms, fab := s.fab, packs := s.packs } : State).hush = s.hush ∧
    (t.fab.waits.length = s.fab.waits.length ∨ t.fab.waits.length = s.fab.waits.length + 1) := by
  refine does_of_act h rfl rfl fun k j t ht => ?_
  obtain ⟨hxforms, -, hframe, hwaits⟩ := startDone_leaves ht
  obtain ⟨g, hg, hstart⟩ := xRunning_xforms (argN c 0 2) ((argT c 4).getD 0) { s with kennel := k, junction := j }
  obtain ⟨x, hx⟩ := find?_of_and (xformStart_named h).choose_spec
  rw [hg] at hxforms
  rw [hxforms, find?_lmod_key (fun x : XformSt => x.id) _ (fun x => (hstart x).1), hx]
  exact ⟨⟨g x, rfl, (hstart x).2⟩, fun y hy hne => mem_of_mem_lmod_key (fun x : XformSt => x.id) _ (fun x => (hstart x).1) _ hy hne,
    (hush_update (hframe s.packs s.fab) (fun x => { x with xforms := s.xforms }) fun _ => rfl).trans rfl, hwaits⟩

/-- CHAN.START (R144, R149, R169). -/
theorem does_chanStart (h : Accepts vChanStart c s) : Does (.chanStart c) s fun t =>
    (∃ x, t.chans.find? (fun x => x.id == argN c 0 2) = some x ∧ x.running = true ∧ x.startTime = (if (argT c 4).getD 0 = 0 then now s else (argT c 4).getD 0) ∧
      x.origin = none ∧ x.next = 0 ∧ x.publish = 0) ∧
    (∀ y ∈ t.chans, y.id ≠ argN c 0 2 → y ∈ s.chans) ∧ ({ t with chans := s.chans, fab := s.fab, packs := s.packs } : State).hush = s.hush ∧
    (t.fab.waits.length = s.fab.waits.length ∨ t.fab.waits.length = s.fab.waits.length + 1) := by
  refine does_of_act h rfl rfl fun k j t ht => ?_
  obtain ⟨-, hchans, hframe, hwaits⟩ := startDone_leaves ht
  obtain ⟨g, hg, hstart⟩ := cRunning_chans (argN c 0 2) ((argT c 4).getD 0) { s with kennel := k, junction := j }
  obtain ⟨x, hx⟩ := find?_of_and (chanStart_named h).choose_spec
  rw [hg] at hchans
  rw [hchans, find?_lmod_key (fun x : ChanSt => x.id) _ (fun x => (hstart x).1), hx]
  exact ⟨⟨g x, rfl, (hstart x).2⟩, fun y hy hne => mem_of_mem_lmod_key (fun x : ChanSt => x.id) _ (fun x => (hstart x).1) _ hy hne,
    (hush_update (hframe s.packs s.fab) (fun x => { x with chans := s.chans }) fun _ => rfl).trans rfl, hwaits⟩

/-! ### Bundles (R145) -/

theorem vChanBundle_act {x : ChanSt} (hx : cArg c s = some x) : vChanBundle.act c s = ok (cMod x.id (fun y => { y with bundles := y.bundles ++
    [{ first := argN c 4 4, count := argN c 8 4, ring := argN c 12 4, addAt := if x.running then some (now s + 100 * 65536000) else none }] }) s) := by
  simp only [vChanBundle, hx]

theorem vChanUnbundle_stopped {x : ChanSt} (hx : cArg c s = some x) (hrun : x.running = false) : vChanUnbundle.act c s =
    ok (cMod x.id (fun y => { y with bundles := y.bundles.filter fun b => b.first != argN c 4 4 }) s) := by
  simp only [vChanUnbundle, hx, hrun, Bool.false_eq_true, if_false]

theorem vChanUnbundle_running {x : ChanSt} (hx : cArg c s = some x) (hrun : x.running = true) : vChanUnbundle.act c s =
    ok (bundleMod x.id (argN c 4 4) (fun b => { b with removeAt := some (now s + 100 * 65536000) }) s) := by
  simp only [vChanUnbundle, hx, hrun, if_true]

end

/-- Settles O28, verb by verb: the lowest free number of a definition, the window as read, the starts by what startDone leaves, and for the
others what their act is. -/
theorem analysisVerbs : Obligations.AnalysisVerbs := by
  unfold Obligations.AnalysisVerbs
  intro c s
  refine ⟨fun h => ?xformCreate, fun x b hx hb h => ?loadWindow, does_xformStart, fun h => waits_of h rfl rfl, fun h => ?xformDelete, fun h => ?query,
    fun h => ?chanCreate, fun x hx h => ?bundle, fun x hx hrun h => ?unbundleStopped, fun x hx hrun h => ?unbundleRunning, does_chanStart,
    fun h => waits_of h rfl rfl, fun h => ?chanDelete⟩
  case xformCreate =>
    obtain ⟨hlt, htaken, hfree⟩ := lowFree_lowest (n := 256) (used := s.xforms.map (·.id)) (by simpa using xformCreate_room h)
    obtain ⟨k, j, hbegun⟩ := begun_frame (v := vXformCreate) (c := c) (s := s) rfl
    obtain ⟨r, hr, hact⟩ := vXformCreate_act c { s with kennel := k, junction := j }
    exact ⟨_, hlt, fun k hk => by simpa using htaken k hk, by simpa using hfree, r, hr, answers_of h rfl (by rw [hbegun]; exact hact)⟩
  case loadWindow => exact does_xformLoadWindow hx hb h
  case xformDelete => exact answers_of_act h rfl rfl fun _ _ => rfl
  case query => exact reports_of_act h rfl fun _ => ⟨_, by simp, rfl⟩
  case chanCreate =>
    obtain ⟨hlt, -, hfree⟩ := lowFree_lowest (n := 64) (used := s.chans.map (·.id)) (by simpa using chanCreate_room h)
    obtain ⟨k, j, hbegun⟩ := begun_frame (v := vChanCreate) (c := c) (s := s) rfl
    obtain ⟨r, hr, hact⟩ := vChanCreate_act c { s with kennel := k, junction := j }
    exact ⟨_, hlt, by simpa using hfree, r, hr, answers_of h rfl (by rw [hbegun]; exact hact)⟩
  case bundle => exact answers_of_act h rfl rfl fun _ _ => vChanBundle_act hx
  case unbundleStopped => exact answers_of_act h rfl rfl fun _ _ => vChanUnbundle_stopped hx hrun
  case unbundleRunning => exact answers_of_act h rfl rfl fun _ _ => vChanUnbundle_running hx hrun
  case chanDelete => exact answers_of_act h rfl rfl fun _ _ => rfl

end Sys2Proof.Machine
end

section
/-! V_FAB and the rate lock: token rates, headrooms and raises (R167 to R170). -/
namespace Sys2Proof.Machine
open Sys2Proof

/-! ### What an update of the rate lock leaves besides V_FAB (R167, R170) -/

/-- The state but for packs and event engines, where the reports of units stand, and for what an event can touch. -/
def State.unreported (s : State) : State := ({ s with packs := [], events := {} } : State).hush

@[simp] theorem raise_unreported (src type unit : Nat) (d : Bytes) (s : State) : (raise src type unit d s).unreported = s.unreported :=
  hush_update (raise_hush ..) (fun x => { x with packs := [], events := {} }) fun _ => rfl

@[simp] theorem packMod_unreported (h : Handle) (f : PackSt → PackSt) (s : State) : (packMod h f s).unreported = s.unreported := by
  unfold State.unreported packMod; rfl

@[simp] theorem engMod_unreported (e : Nat) (f : EvEng → EvEng) (s : State) : (engMod e f s).unreported = s.unreported := by
  unfold State.unreported engMod; rfl

/-- GAP_RISK of a unit shows in its pack or its event engine alone (R170). -/
theorem gapRisk_unreported (s : State) (u : Handle × Frac × Nat) : (gapRisk s u).unreported = s.unreported := by
  unfold gapRisk
  dsimp only
  split
  all_goals
    split
    · simp
    · split <;> simp

/-- The token rates that units report show in packs and event engines alone (R167). -/
theorem tokenRates_unreported (us : List (Handle × Frac × Nat)) (s : State) :
    (us.foldl (fun s u => if 0x8000 ≤ u.1.toNat then packMod u.1 (fun p => { p with tokenRate := u.2.2 }) s
      else engMod (u.1.toNat - 0x0500) (fun g => { g with tokenRate := u.2.2 }) s) s).unreported = s.unreported :=
  foldl_keeps State.unreported _ (fun s u => by split <;> simp) us s

section
variable {s : State}

theorem rateLock_inactive (rates : List (Handle × Nat)) (h : s.power.state ≠ .active) : rateLock rates s = s :=
  if_pos (bne_iff_ne.mpr h)

/-- With no unit to report, V_FAB falls a step (R168). -/
theorem rateLock_silent (rates : List (Handle × Nat)) (h : s.power.state = .active) (hnone : reporters s = []) :
    rateLock rates s = { s with fab := { s.fab with vfab := max 6000 (s.fab.vfab - 25), above := 0 } } := by
  simp [rateLock, h, hnone]

/-- An update in ACTIVE leaves V_FAB, lowers it a step down to 0.60 V or raises it a step up to 0.85 V (R168). -/
theorem rateLock_steps (rates : List (Handle × Nat)) (h : s.power.state = .active) : ∃ (u : State) (v n : Nat),
    rateLock rates s = { u with fab := { u.fab with vfab := v, above := n } } ∧
    u.unreported = s.unreported ∧ (v = s.fab.vfab ∨ v = max 6000 (s.fab.vfab - 25) ∨ v = min 8500 (s.fab.vfab + 25)) := by
  unfold rateLock
  rw [if_neg (by simp [h])]
  dsimp only
  generalize (reporters s).filterMap _ = us
  have hframe := (foldl_keeps State.unreported _ gapRisk_unreported us _).trans (tokenRates_unreported us s)
  generalize us.foldl gapRisk _ = u at hframe
  have hfab : u.fab = s.fab := fab_of_hush (s := { u with packs := [], events := {} }) (t := { s with packs := [], events := {} }) hframe
  generalize (if (!us.isEmpty && _) = true then u.fab.above + 1 else 0) = n
  rw [← hfab]
  split
  · exact ⟨u, _, _, rfl, hframe, .inr (.inl rfl)⟩
  · split
    · exact ⟨u, _, _, rfl, hframe, .inr (.inr rfl)⟩
    · split
      · exact ⟨u, _, _, rfl, hframe, .inr (.inl rfl)⟩
      · exact ⟨u, _, _, rfl, hframe, .inl rfl⟩

/-- RATE_LOCK_UPDATE in ACTIVE (R168). -/
theorem does_rateLockUpdate (rates : List (Handle × Nat)) (h : s.power.state = .active) (hlo : 6000 ≤ s.fab.vfab) (hhi : s.fab.vfab ≤ 8500) :
    Does (.rateLockUpdate rates) s fun t => 6000 ≤ t.fab.vfab ∧ t.fab.vfab ≤ 8500 ∧ t.fab.vfab ≤ s.fab.vfab + 25 ∧ s.fab.vfab ≤ t.fab.vfab + 25 ∧
      ({ t with fab := s.fab, packs := s.packs, events := s.events } : State).hush = s.hush := by
  obtain ⟨u, v, n, hlock, hframe, hv⟩ := rateLock_steps rates h
  refine does_row rfl fun t ht => ?_
  rw [hlock] at ht
  have htv : t.fab.vfab = v := congrArg (·.vfab) (fab_of_hush ht)
  have hsame : ({ t with fab := s.fab, packs := s.packs, events := s.events } : State).hush = s.hush :=
    (hush_update ht (fun x => { x with fab := s.fab, packs := s.packs, events := s.events }) fun _ => rfl).trans
      (hush_update hframe (fun x => { x with fab := s.fab, packs := s.packs, events := s.events }) fun _ => rfl)
  rw [htv]
  refine ⟨?_, ?_, ?_, ?_, hsame⟩ <;> omega

/-! ### Raises (R169) -/

theorem vFabDone_none (h : s.fab.waits = []) : vFabDone s = s := by
  simp only [vFabDone, h]

theorem vFabDone_inactive (h : s.power.state ≠ .active) : vFabDone s = s := by
  unfold vFabDone
  split
  · rfl
  · exact if_pos (bne_iff_ne.mpr h)

/-- A raise that is done answers the oldest start that waits, at the level of that start. -/
theorem vFabDone_raised {w : FabWait} {ws : List FabWait} (hw : s.fab.waits = w :: ws) (h : s.power.state = .active) :
    vFabDone s = complete w.cmd w.opcode.toNat OK [] { s with fab := { s.fab with vfab := max s.fab.vfab w.level, waits := ws } } := by
  simp [vFabDone, hw, h]

end

/-- Settles O29, by the three ways V_FAB can go at an update and the cases of a raise that is done. -/
theorem fabricRows : Obligations.FabricRows := by
  unfold Obligations.FabricRows
  intro s
  refine ⟨fun rates h => ?outside, fun rates => does_rateLockUpdate rates, fun rates h hnone => ?silent, fun h => ?noneWaits, fun h => ?raiseOutside,
    fun w ws hw h => congrArg (settle s) (vFabDone_raised hw h)⟩
  case outside => exact (congrArg (settle s) (rateLock_inactive rates h)).trans (settle_quiet rfl)
  case silent => exact (congrArg (settle s) (rateLock_silent rates h hnone)).trans (settle_quiet rfl)
  case noneWaits => exact (congrArg (settle s) (vFabDone_none h)).trans (settle_quiet rfl)
  case raiseOutside => exact (congrArg (settle s) (vFabDone_inactive h)).trans (settle_quiet rfl)

end Sys2Proof.Machine
end

section
/-! Work items of a pack: issue, completion ahead of order, and the pool's timer (R171, R173, R176, R180). -/
namespace Sys2Proof.Machine
open Sys2Proof

/-! ### Transform engines -/

/-- The index of a unit of a fixed handle lies in the run of its kind (R21). -/
theorem unitOf_run {s : State} {h : Handle} {k : UK} {i : Nat} (hu : unitOf s h = some (k, i)) (hk : k ≠ .pack) :
    ∃ r ∈ unitRuns, r.2.2.1 = k ∧ i ≤ r.2.1 - r.1 + r.2.2.2 := by
  unfold unitOf at hu
  split at hu
  · obtain ⟨p, -, hp⟩ := Option.map_eq_some_iff.mp hu
    cases hp
    exact absurd rfl hk
  · split at hu
    · next lo last k' i' hrun =>
      have hin := List.find?_some hrun
      simp only [Bool.and_eq_true, decide_eq_true_eq] at hin
      dsimp only at hu
      split at hu
      · cases hu
        exact ⟨_, List.mem_of_find?_eq_some hrun, rfl, by dsimp only; omega⟩
      · cases hu
    · cases hu

/-- A transform engine is one of 72 (R162). -/
theorem idx_te_lt {s : State} {h : Handle} (hte : isA s .te h = true) : idx h < 72 := by
  obtain ⟨⟨k, i⟩, hu, hk⟩ := (Option.any_eq_true ..).mp hte
  obtain rfl : k = .te := by simpa using hk
  obtain ⟨r, hr, hkind, hle⟩ := unitOf_run hu (by decide)
  have hruns : ∀ r ∈ unitRuns, r.2.2.1 = .te → r.2.1 - r.1 + r.2.2.2 < 72 := by decide
  rw [← (unitOf_fixed hu (by decide)).1]
  exact Nat.lt_of_le_of_lt hle (hruns r hr hkind)

/-- A choice that each step leaves or turns to the element at hand is none or one of the elements. -/
theorem foldl_choice {α : Type} (f : Option α → α → Option α) (hf : ∀ b a, f b a = b ∨ f b a = some a) (l : List α) (b : Option α) {x : α}
    (h : l.foldl f b = some x) : b = some x ∨ x ∈ l := by
  induction l generalizing b with
  | nil => exact .inl h
  | cons a l ih =>
    rcases ih (f b a) h with hb | hl
    · rcases hf b a with hkeep | hturn
      · exact .inl (hkeep ▸ hb)
      · exact .inr (List.mem_cons.mpr (.inl (Option.some.inj (hb.symm.trans hturn))))
    · exact .inr (List.mem_cons_of_mem a hl)

section
variable {s : State} {p : Handle}

/-- The engine that a pack picks is a transform engine (R173). -/
theorem packEngine_lt {e : Nat} (h : packEngine s p = some e) : e < 72 := by
  have hmem : e ∈ (inService s p).map fun h => idx h := by
    refine (foldl_choice _ (fun b a => ?_) _ none h).resolve_left nofun
    split
    · exact .inl rfl
    · split
      · exact .inr rfl
      · split
        · exact .inr rfl
        · exact .inl rfl
  obtain ⟨m, hm, rfl⟩ := List.mem_map.mp hmem
  have hserves := (List.mem_filter.mp hm).2
  exact idx_te_lt (Bool.and_eq_true_iff.mp hserves).1

/-! ### Issue (R171, R173) -/

/-- A pack with no slot that waits for a spare promotes none (R176). -/
theorem promote_idle (h : s.packs.all (fun q => q.slots.all (·.promote.isNone)) = true) : promote p s = s := by
  unfold promote
  split
  · rfl
  · next q hq =>
    have hslots := List.all_eq_true.mp h q (List.mem_of_find?_eq_some hq)
    have hwaits : (q.slots.zipIdx.filterMap fun x => x.1.promote.map fun h => (x.2, h)) = [] := by
      refine List.filterMap_eq_nil_iff.mpr fun x hx => ?_
      have hnone := List.all_eq_true.mp hslots x.1 (List.fst_mem_of_mem_zipIdx hx)
      rw [Option.isNone_iff_eq_none.mp hnone]
      rfl
    dsimp only at hwaits ⊢
    rw [hwaits, List.mergeSort_nil, List.foldl_nil]

/-- Nor does any list of packs. -/
theorem promotes_idle (h : s.packs.all (fun q => q.slots.all (·.promote.isNone)) = true) (l : List Handle) :
    l.foldl (fun s q => promote q s) s = s := by
  induction l with
  | nil => rfl
  | cons q l ih => rw [List.foldl_cons, promote_idle h, ih]

/-- An item that is taken shows in its piece of work alone (R173). -/
theorem workTaken_frame (i : WorkItem) (s : State) : ∃ xs cs, workTaken i s = { s with xforms := xs, chans := cs } := by
  unfold workTaken
  cases i.kind with
  | xform => exact ⟨_, s.chans, rfl⟩
  | chan => exact ⟨s.xforms, _, rfl⟩

/-- An engine with one item more. -/
def TeSt.given (i : WorkItem) (cyc : Nat) (t : TeSt) : TeSt :=
  { t with items := t.items ++ [i], handshake := if t.items.isEmpty then cyc else t.handshake }

/-- With nothing else due, the item that is ready goes to the engine that the pack picks. -/
theorem issueWork_issues {i : WorkItem} {e : Nat} (hactive : s.power.state = .active)
    (hpump : (worksOf s p).foldl (fun s w => pump w.kind w.id s) s = s) (hbegin : (worksOf s p).foldl workBegin s = s)
    (hgap : (worksOf s p).foldl workGap s = s) (hlag : (worksOf s p).foldl (workLag p) s = s) (hready : packReady s p = some i)
    (hredo : i.redo = false) (hspares : s.packs.all (fun q => q.slots.all (·.promote.isNone)) = true) (hengine : packEngine s p = some e) :
    issueWork p s = workTaken i (teMod e (TeSt.given i s.cyc) s) := by
  have hpromote := promotes_idle hspares
  unfold issueWork
  rw [if_neg (by simp [hactive])]
  simp only [hpump, hbegin, hgap, hlag, hready, hpromote, hredo, hengine, Bool.false_and, Bool.false_eq_true, if_false]
  rfl

/-! ### Completion ahead of order (R173) -/

/-- What is found by one property and has another is found by both. -/
theorem find?_and {α : Type} {f g : α → Bool} {l : List α} {a : α} (h : l.find? f = some a) (hg : g a = true) :
    l.find? (fun x => f x && g x) = some a := by
  obtain ⟨hf, before, after, hl, hbefore⟩ := List.find?_eq_some_iff_append.mp h
  refine List.find?_eq_some_iff_append.mpr ⟨by simp [hf, hg], before, after, hl, fun b hb => ?_⟩
  have hb := hbefore b hb
  simp_all

/-- An analysis with an item of its own completed (R173). -/
def XformSt.done (n : Nat) (x : XformSt) : XformSt :=
  if x.running then { x with issued := x.issued.filter fun d => d.index != n, completed := x.completed ++ x.issued.filter fun d => d.index == n } else x

theorem XformSt.done_id (n : Nat) (x : XformSt) : (x.done n).id = x.id := by
  unfold XformSt.done; split <;> rfl

theorem workDone_xform {i : WorkItem} (h : i.kind = .xform) (s : State) : workDone i s = xMod i.id (XformSt.done i.index) s := by
  simp only [workDone, h]
  rfl

/-- While the item whose turn it is has not completed, and no whole output is due, nothing of an analysis is taken or published. -/
theorem pump_waits {id : Nat} {x : XformSt} (hx : s.xforms.find? (fun x => x.id == id) = some x) (hrun : x.running = true)
    (hformed : x.publish / xM x.cfg ≤ x.formed) (hskips : x.skips = []) (hcompleted : x.completed.find? (fun k => k.index == x.publish) = none) :
    pump .xform id s = s := by
  have hfound : s.xforms.find? (fun x => x.id == id && x.running) = some x := find?_and hx hrun
  simp only [pump, hx]
  rw [pumpX]
  simp only [hfound, if_neg (Nat.not_lt.mpr hformed), hskips, List.find?_nil, hcompleted]

/-- No re-initialisation that waits is done (R181). -/
theorem packReinits_idle (h : s.packs.all (fun p => p.reinits.isEmpty) = true) : packReinits s = s := by
  unfold packReinits
  rw [List.filter_eq_nil_iff.mpr fun p hp => by simpa using List.all_eq_true.mp h p hp]
  rfl

/-- Of items completed ahead of the one whose turn it is, none is it. -/
theorem find?_completed_ahead {l m : List DoneItem} {n k : Nat} (hl : l.find? (fun d => d.index == k) = none) (hk : k < n) :
    (l ++ m.filter fun d => d.index == n).find? (fun d => d.index == k) = none := by
  rw [List.find?_append, hl, Option.none_or]
  refine List.find?_eq_none.mpr fun d hd => ?_
  have hindex : d.index = n := by simpa using (List.mem_filter.mp hd).2
  simp only [beq_iff_eq, hindex]
  omega

/-- An item completed ahead of one still out is kept, and nothing is published. -/
theorem workComplete_ahead {e n : Nat} {i : WorkItem} {x : XformSt} (hitem : (vget s.te e).items[n]? = some i) (hkind : i.kind = .xform)
    (hx : s.xforms.find? (fun x => x.id == i.id) = some x) (hrun : x.running = true) (hahead : x.publish < i.index) (hskips : x.skips = [])
    (hcompleted : x.completed.find? (fun k => k.index == x.publish) = none) (hformed : x.publish / xM x.cfg ≤ x.formed)
    (hreinits : s.packs.all (fun p => p.reinits.isEmpty) = true) :
    workComplete e n s = xMod i.id (XformSt.done i.index) (teMod e (fun t => { t with items := t.items.eraseIdx n, handshake := s.cyc }) s) ∧
    (xMod i.id (XformSt.done i.index) s).xforms.find? (fun x => x.id == i.id) =
      some { x with issued := x.issued.filter fun d => d.index != i.index, completed := x.completed ++ x.issued.filter fun d => d.index == i.index } := by
  have hfound := find?_lmod_key (fun x : XformSt => x.id) i.id (XformSt.done_id i.index) s.xforms
  rw [hx, Option.map_some, XformSt.done, if_pos hrun] at hfound
  refine ⟨?_, hfound⟩
  have hpump := pump_waits
    (s := xMod i.id (XformSt.done i.index) (teMod e (fun t => { t with items := t.items.eraseIdx n, handshake := s.cyc }) s)) hfound hrun hformed hskips (find?_completed_ahead hcompleted hahead)
  simp only [workComplete, hitem, workDone_xform hkind]
  rw [hkind, hpump]
  exact packReinits_idle hreinits

/-! ### The pool's timer (R180) -/

/-- The filled slots of a pack in order, each with its member. -/
def poolFilled (q : PackSt) : List (Nat × Handle) := q.slots.zipIdx.filterMap fun x => x.1.member.map fun m => (x.2, m)

/-- The member of the spare pool whose turn it is. -/
def poolNext (s : State) (q : PackSt) : Option (Nat × Handle) :=
  ((poolFilled q).find? fun f => s.fab.poolTest.2 ≤ f.1).orElse fun _ => (poolFilled q).head?

/-- The first slot that is filled comes first. -/
theorem filled_cons {l : List Slot} {n : Nat} {h : Handle} (hn : (l[n]?).bind (·.member) = some h)
    (hbefore : ∀ k < n, (l[k]?).bind (·.member) = none) (k : Nat) :
    ∃ rest, (l.zipIdx k).filterMap (fun x => x.1.member.map fun m => (x.2, m)) = (k + n, h) :: rest := by
  induction l generalizing n k with
  | nil => cases hn
  | cons x l ih =>
    rw [List.zipIdx_cons]
    cases n with
    | zero =>
      have hx : x.member = some h := hn
      exact ⟨_, List.filterMap_cons_some (by rw [hx]; rfl)⟩
    | succ n =>
      have hx : x.member = none := hbefore 0 (Nat.succ_pos n)
      obtain ⟨rest, hrest⟩ := ih hn (fun j hj => hbefore (j + 1) (Nat.succ_lt_succ hj)) (k + 1)
      refine ⟨rest, (List.filterMap_cons_none (by rw [hx]; rfl)).trans (hrest.trans ?_)⟩
      rw [Nat.add_right_comm, Nat.add_assoc]

/-- The first member of the pool is next where its slot has not been passed. -/
theorem poolNext_first {q : PackSt} {n : Nat} {h : Handle} (hn : (q.slots[n]?).bind (·.member) = some h)
    (hbefore : ∀ k < n, (q.slots[k]?).bind (·.member) = none) (hturn : s.fab.poolTest.2 ≤ n) : poolNext s q = some (n, h) := by
  obtain ⟨rest, hrest⟩ := filled_cons hn hbefore 0
  rw [Nat.zero_add] at hrest
  rw [poolNext, poolFilled, hrest, List.find?_cons_of_pos (by simpa using hturn)]
  rfl

/-- Before 10 s have passed the timer does nothing. -/
theorem poolTimer_early (h : since s s.fab.poolTest.1 < 10 * secC) : poolTimer s = s :=
  if_pos (by simp [h])

section
variable {q : PackSt} (hdue : 10 * secC ≤ since s s.fab.poolTest.1) (hready : isReady s = true) (hidle : isIdle s 0x80FF = true)
  (hq : packOf s 0x80FF = some q)
include hdue hready hidle hq

/-- The timer of an empty pool counts 10 s anew. -/
theorem poolTimer_empty (h : poolNext s q = none) : poolTimer s = { s with fab := { s.fab with poolTest := (s.cyc, 0) } } := by
  unfold poolTimer
  rw [if_neg (by rw [hready, hidle]; simpa using hdue)]
  unfold poolNext poolFilled at h
  simp only [hq, h]

/-- The timer marks the member whose turn it is. -/
theorem poolTimer_marks {i : Nat} {m : Handle} (h : poolNext s q = some (i, m)) :
    poolTimer s = teMod (idx m) (fun t => { t with selftest := some (t.selftest.getD none) }) { s with fab := { s.fab with poolTest := (s.cyc, i + 1) } } := by
  unfold poolTimer
  rw [if_neg (by rw [hready, hidle]; simpa using hdue)]
  unfold poolNext poolFilled at h
  simp only [hq, h]

end

end

/-- Settles O27, row by row: issue, completion ahead of order, and the timer by the member whose turn it is. -/
theorem workRows : Obligations.WorkRows := by
  unfold Obligations.WorkRows
  intro s
  refine ⟨fun p h => ?outside, fun p i e hactive hpump hbegin hgap hlag hready hredo hspares hengine => ?issue,
    fun e n i x hitem hkind hx hrun hahead hskips hcompleted hformed hreinits => ?complete, fun h => ?early, fun q hdue hready hidle hq => ?due⟩
  case outside =>
    have hstay : issueWork p s = s := if_pos (bne_iff_ne.mpr h)
    exact (congrArg (settle s) hstay).trans (settle_quiet rfl)
  case issue =>
    obtain ⟨xs, cs, htaken⟩ := workTaken_frame i (teMod e (TeSt.given i s.cyc) s)
    have hissue := (issueWork_issues hactive hpump hbegin hgap hlag hready hredo hspares hengine).trans htaken
    refine does_quiet (congrArg (settle s) hissue) rfl ⟨?_, rfl⟩
    exact congrArg (·.items) (vget_vmod_same s.te (TeSt.given i s.cyc) (packEngine_lt hengine))
  case complete =>
    obtain ⟨hdone, hfound⟩ := workComplete_ahead hitem hkind hx hrun hahead hskips hcompleted hformed hreinits
    have hte := vget_vmod_same s.te (fun t => { t with items := t.items.eraseIdx n, handshake := s.cyc }) e.isLt
    exact does_quiet (congrArg (settle s) hdone) rfl ⟨congrArg (·.items) hte, congrArg (·.handshake) hte, ⟨_, hfound, rfl, rfl⟩, rfl⟩
  case early => exact (congrArg (settle s) (poolTimer_early h)).trans (settle_quiet rfl)
  case due =>
    cases hnext : poolNext s q with
    | none =>
      refine does_quiet (congrArg (settle s) (poolTimer_empty hdue hready hidle hq hnext)) rfl ⟨rfl, fun n h hn _ hbefore hturn => ?_, rfl⟩
      cases hnext.symm.trans (poolNext_first hn hbefore hturn)
    | some f =>
      obtain ⟨i, m⟩ := f
      refine does_quiet (congrArg (settle s) (poolTimer_marks hdue hready hidle hq hnext)) rfl ⟨rfl, fun n h hn hlt hbefore hturn => ?_, rfl⟩
      cases hnext.symm.trans (poolNext_first hn hbefore hturn)
      exact ⟨congrArg (·.selftest.isSome) (vget_vmod_same s.te _ hlt), rfl⟩

end Sys2Proof.Machine
end

section
/-! Records and pins: what they leave of the triggers and of the rest of the state (R206 to R212, R220). -/
namespace Sys2Proof.Machine
open Sys2Proof

theorem events_of_hush {s t : State} (h : s.hush = t.hush) : s.events = t.events := by injection h

/-- The state but for records, envelope streams and the Fetch channels that copy records, and for what an event can touch; the event engines show. -/
def State.unrecorded (s : State) : State := ({ s with fetch := {}, events := { eng := s.events.eng } } : State).hush

theorem unrecorded_of_hush {s t : State} (h : s.hush = t.hush) : s.unrecorded = t.unrecorded :=
  hush_update h (fun x => { x with fetch := {}, events := { eng := x.events.eng } }) fun _ => rfl

theorem eng_of_unrecorded {s t : State} (h : s.unrecorded = t.unrecorded) : s.events.eng = t.events.eng :=
  congrArg (·.eng) (events_of_hush h)

theorem hush_of_unrecorded {s t : State} (h : s.unrecorded = t.unrecorded) (ev : EventsSt) (f : FetchSt) :
    ({ s with events := ev, fetch := f } : State).hush = ({ t with events := ev, fetch := f } : State).hush :=
  hush_update h (fun x => { x with events := ev, fetch := f }) fun _ => rfl

/-! ### Shared operations -/

@[simp] theorem raiseAt_hush (t : Time) (src type unit : Nat) (d : Bytes) (s : State) : (raiseAt t src type unit d s).hush = s.hush :=
  hush_of_hushEv (raiseAt_hushEv ..)

@[simp] theorem offer_hush (w : Bool) (id : Nat) (e : Ent) (s : State) : (offer w id e s).1.hush = s.hush := by
  unfold offer; simp

@[simp] theorem offerNow_hush (id : Nat) (e : Ent) (s : State) : (offerNow id e s).hush = s.hush := offer_hush ..

@[simp] theorem pinReport_hush (p : PinSt) (s : State) : (pinReport p s).hush = s.hush := by
  unfold pinReport
  split
  · rfl
  · exact offerNow_hush ..

@[simp] theorem offerAll_hush (w : Bool) (id : Nat) (l : List Ent) (s : State) : (offerAll w id l s).1.hush = s.hush := by
  induction l generalizing s with
  | nil => rfl
  | cons e l ih =>
    have hone := offer_hush w id e s
    unfold offerAll
    split
    · next h => rwa [h] at hone
    · next h => rw [h] at hone; exact (ih _).trans hone

theorem pinCopyOut_hush {w : Bool} {p : PinSt} {s u : State} {n : Nat} (h : pinCopyOut w p s = some (u, n)) : u.hush = s.hush := by
  unfold pinCopyOut at h
  dsimp only at h
  split at h
  · next hall => cases h; exact (congrArg (fun x => x.1.hush) hall).symm.trans (offerAll_hush ..)
  · cases h

@[simp] theorem pinCut_hush (p : PinSt) (s : State) : (pinCut p s).1.hush = s.hush := by
  unfold pinCut
  dsimp only
  split
  · next h =>
    split at h
    · cases h
    · exact pinCopyOut_hush h
  · rfl

@[simp] theorem recordDone_hush (rec : BitVec 32) (s : State) : (recordDone rec s).hush = s.hush := by
  unfold recordDone
  dsimp only
  split
  · rfl
  · exact hush_ite (raise_hush ..)

/-! ### Pins and policies -/

@[simp] theorem raise_unrecorded (src type unit : Nat) (d : Bytes) (s : State) : (raise src type unit d s).unrecorded = s.unrecorded :=
  unrecorded_of_hush (raise_hush ..)
@[simp] theorem raiseAt_unrecorded (t : Time) (src type unit : Nat) (d : Bytes) (s : State) : (raiseAt t src type unit d s).unrecorded = s.unrecorded :=
  unrecorded_of_hush (raiseAt_hush ..)
@[simp] theorem pinReport_unrecorded (p : PinSt) (s : State) : (pinReport p s).unrecorded = s.unrecorded := unrecorded_of_hush (pinReport_hush ..)
@[simp] theorem recordDone_unrecorded (rec : BitVec 32) (s : State) : (recordDone rec s).unrecorded = s.unrecorded := unrecorded_of_hush (recordDone_hush ..)
@[simp] theorem pinCut_unrecorded (p : PinSt) (s : State) : (pinCut p s).1.unrecorded = s.unrecorded := unrecorded_of_hush (pinCut_hush ..)
@[simp] theorem pinSet_unrecorded (p : PinSt) (s : State) : (pinSet p s).unrecorded = s.unrecorded := rfl
@[simp] theorem policyMod_unrecorded (id : Nat) (f : PinPolicy → PinPolicy) (s : State) : (policyMod id f s).unrecorded = s.unrecorded := rfl
@[simp] theorem fetchMod_unrecorded (n : Nat) (f : FetchCh → FetchCh) (s : State) : (fetchMod n f s).unrecorded = s.unrecorded := rfl
@[simp] theorem fetchQueue_unrecorded (n : Nat) (d : FetchDesc) (s : State) : (fetchQueue n d s).unrecorded = s.unrecorded := rfl

@[simp] theorem pinRelease_unrecorded (p : PinSt) (s : State) : (pinRelease p s).unrecorded = s.unrecorded := by
  simp [pinRelease]

/-- The policy's act on a pin shows in records and in the channel that copies alone (R209). -/
@[simp] theorem pinAct_unrecorded (p : PinSt) (s : State) : (pinAct p s).unrecorded = s.unrecorded := by
  unfold pinAct
  dsimp only
  split
  · split <;> split <;> simp
  · simp

@[simp] theorem pinBudget_unrecorded (id size : Nat) (new : Nat × Nat) (n : Nat) (s : State) : (pinBudget id size new n s).unrecorded = s.unrecorded := by
  induction n generalizing s with
  | zero => rfl
  | succ n ih =>
    unfold pinBudget
    split
    · rfl
    · split
      · rfl
      · rw [ih, pinAct_unrecorded]

@[simp] theorem pinRoom_unrecorded (id : Nat) (rec : BitVec 32) (n : Nat) (s : State) : (pinRoom id rec n s).unrecorded = s.unrecorded := by
  induction n generalizing s with
  | zero => rfl
  | succ n ih =>
    unfold pinRoom
    split
    · rfl
    · split
      · rfl
      · rw [ih, pinAct_unrecorded]

/-- A span that is pinned, or refused, shows in records and channels alone (R206 to R209). -/
@[simp] theorem pinMake_unrecorded (p : PinSt) (s : State) : (pinMake p s).unrecorded = s.unrecorded := by
  have hadd (q : PinSt) (u : State) : ({ u with events := { u.events with pins := u.events.pins ++ [q] } } : State).unrecorded = u.unrecorded := rfl
  unfold pinMake
  dsimp only
  split
  · simp [hadd]
  · split <;> simp [hadd]

end Sys2Proof.Machine
end

section
/-! Triggers: one trigger changed, firings, and what an evaluation leaves (R199 to R203, R220). -/
namespace Sys2Proof.Machine
open Sys2Proof

/-! ### One trigger changed -/

theorem trigOf_of_eng {s u : State} (h : u.events.eng = s.events.eng) (k m : Nat) : trigOf u k m = trigOf s k m :=
  congrArg (fun v : Vector EvEng 16 => vget (vget v k).trig m) h

section
variable {e n : Nat}

theorem trigOf_trigMod (he : e < 16) (hn : n < 16) (f : TrigSt → TrigSt) (s : State) : trigOf (trigMod e n f s) e n = f (trigOf s e n) :=
  (congrArg (fun g : EvEng => vget g.trig n) (vget_vmod_same s.events.eng _ he)).trans (vget_vmod_same _ f hn)

theorem trigOf_trigMod_ne {k m : Nat} (h : (k, m) ≠ (e, n)) (f : TrigSt → TrigSt) (s : State) : trigOf (trigMod e n f s) k m = trigOf s k m := by
  by_cases hk : k = e
  · subst hk
    have hm : m ≠ n := fun hm => h (hm ▸ rfl)
    exact vget_vmod_keeps (fun g : EvEng => vget g.trig m) (fun _ => vget_vmod_ne _ f hm) s.events.eng k k
  · exact congrArg (fun g : EvEng => vget g.trig m) (vget_vmod_ne s.events.eng _ hk)

/-- Two changes of one trigger make one. -/
theorem trigMod_trigMod (f g : TrigSt → TrigSt) (s : State) : trigMod e n g (trigMod e n f s) = trigMod e n (fun x => g (f x)) s := by
  unfold trigMod engMod
  dsimp only
  rw [vmod_vmod]
  simp only [vmod_vmod]

/-- Only what a change makes of the trigger as it stands counts. -/
theorem trigMod_congr {f g : TrigSt → TrigSt} {s : State} (h : f (trigOf s e n) = g (trigOf s e n)) : trigMod e n f s = trigMod e n g s := by
  unfold trigMod engMod
  rw [vmod_congr_at]
  exact congrArg (fun v => ({ vget s.events.eng e with trig := v } : EvEng)) (vmod_congr_at h)

/-- A trigger changed alike in two states that differ in records alone. -/
theorem trigMod_unrecorded {s u : State} (h : u.unrecorded = s.unrecorded) (f : TrigSt → TrigSt) :
    (trigMod e n f u).unrecorded = (trigMod e n f s).unrecorded :=
  congrArg (trigMod e n f) h

end

/-- From s to u trigger n of engine e may change, with records, Fetch channels and what an event can touch; no other trigger, and nothing else. -/
structure TrigStep (e n : Nat) (s u : State) : Prop where
  others : ∀ k m, (k, m) ≠ (e, n) → trigOf u k m = trigOf s k m
  rest : ({ u with events := s.events, fetch := s.fetch } : State).hush = s.hush

namespace TrigStep
variable {e n : Nat} {s t u : State}

theorem refl : TrigStep e n s s := ⟨fun _ _ _ => rfl, rfl⟩

theorem trans (h : TrigStep e n s t) (h' : TrigStep e n t u) : TrigStep e n s u :=
  ⟨fun k m hne => (h'.others k m hne).trans (h.others k m hne),
    (hush_update h'.rest (fun x => { x with events := s.events, fetch := s.fetch }) fun _ => rfl).trans h.rest⟩

theorem of_unrecorded (h : u.unrecorded = s.unrecorded) : TrigStep e n s u :=
  ⟨fun k m _ => trigOf_of_eng (eng_of_unrecorded h) k m, hush_of_unrecorded h s.events s.fetch⟩

theorem of_trigMod (f : TrigSt → TrigSt) (h : u.unrecorded = (trigMod e n f s).unrecorded) : TrigStep e n s u :=
  ⟨fun k m hne => (trigOf_of_eng (eng_of_unrecorded h) k m).trans (trigOf_trigMod_ne hne f s), hush_of_unrecorded h s.events s.fetch⟩

theorem ofFold {α : Type} {f : State → α → State} (h : ∀ s a, TrigStep e n s (f s a)) (l : List α) (s : State) : TrigStep e n s (l.foldl f s) := by
  induction l generalizing s with
  | nil => exact refl
  | cons a l ih => exact (h s a).trans (ih (f s a))

end TrigStep

/-! ### Firings (R201, R202, R206, R220) -/

/-- What a firing makes of its trigger: counts and times, the window but for a forced one, the hold-off, and ONE_SHOT (R201, R202). -/
def TrigSt.fires (d : Bytes) (trig : Time) (forced : Bool) (g : TrigSt) : TrigSt :=
  { g with
    armed := g.armed && !bitAt (BitVec.ofNat 8 (numAt d 6 1)) 3, fired := wrapAdd 32 g.fired 1, lastTime := trig, win := if forced then g.win else none
    holdoff := laterEnd g.holdoff (if numAt d 16 8 = 0 then none else some (trig + nsT (numAt d 16 8))) }

section
variable {e n : Nat} {s : State}

/-- But for its records and events a firing changes its trigger alone. -/
theorem fire_unrecorded (d : Bytes) (id : BitVec 32) (trig onset : Time) (forced : Bool) :
    (fire e n d id trig onset forced s).unrecorded = (trigMod e n (TrigSt.fires d trig forced) s).unrecorded := by
  unfold fire
  extract_lets g act m span s1 s2 s3
  have h1 : s1.unrecorded = s.unrecorded := by
    dsimp only [s1]
    split
    · exact foldl_keeps State.unrecorded _ (fun _ _ => pinMake_unrecorded ..) _ s
    · rfl
  have h3 : s3.unrecorded = s2.unrecorded := by
    dsimp only [s3]
    split
    · exact raiseAt_unrecorded ..
    · rfl
  split
  · next hshot =>
    obtain ⟨hbit, harmed⟩ := Bool.and_eq_true_iff.mp hshot
    rw [raise_unrecorded, trigMod_unrecorded (h3.trans (trigMod_unrecorded h1 _)), trigMod_trigMod]
    refine congrArg State.unrecorded (trigMod_congr ?_)
    simp [TrigSt.fires, show bitAt (BitVec.ofNat 8 (numAt d 6 1)) 3 = true from hbit]
  · next hshot =>
    refine (h3.trans (trigMod_unrecorded h1 _)).trans (congrArg State.unrecorded (trigMod_congr ?_))
    have hkeep : (trigOf s e n).armed = ((trigOf s e n).armed && !bitAt (BitVec.ofNat 8 (numAt d 6 1)) 3) := by
      cases harmed : (trigOf s e n).armed with
      | false => rfl
      | true =>
        have hbit : bitAt act 3 = false := by simpa [g, harmed] using hshot
        simp [show bitAt (BitVec.ofNat 8 (numAt d 6 1)) 3 = false from hbit]
    unfold TrigSt.fires
    rw [← hkeep]

theorem recordFor_unrecorded (d : Bytes) (s : State) : (recordFor d s).1.unrecorded = s.unrecorded := by
  unfold recordFor
  split <;> rfl

theorem fireNow_unrecorded (trig onset : Time) (forced : Bool) : (fireNow e n trig onset forced s).1.unrecorded =
    (trigMod e n (TrigSt.fires ((trigOf s e n).defn.getD []) trig forced) s).unrecorded :=
  (fire_unrecorded ..).trans (trigMod_unrecorded (recordFor_unrecorded _ s) _)

end

end Sys2Proof.Machine
end

section
/-! The TRIG verbs: definition, masks, arming, forcing and signals (R189, R190, R195, R220, R224). -/
namespace Sys2Proof.Machine
open Sys2Proof

/-- The index of a unit of a kind is below what the runs of handles of that kind reach (R21). -/
theorem idx_lt_of_runs {s : State} {h : Handle} {k : UK} {n : Nat} (hk : k ≠ .pack) (hruns : ∀ r ∈ unitRuns, r.2.2.1 = k → r.2.1 - r.1 + r.2.2.2 < n)
    (hunit : isA s k h = true) : idx h < n := by
  obtain ⟨⟨k', i⟩, hu, hkind⟩ := (Option.any_eq_true ..).mp hunit
  obtain rfl : k' = k := by simpa using hkind
  obtain ⟨r, hr, hrk, hle⟩ := unitOf_run hu hk
  rw [← (unitOf_fixed hu hk).1]
  exact Nat.lt_of_le_of_lt hle (hruns r hr hrk)

/-- An event engine is one of 16 (R189). -/
theorem idx_eng_lt {s : State} {h : Handle} (heng : isA s .eng h = true) : idx h < 16 := idx_lt_of_runs (by decide) (by decide) heng

section
variable {c : Cmd} {s : State}

theorem Accepts.eng_lt {v : Verb} (h : Accepts v c s) (hfit : v.fits s c.unit = isA s .eng c.unit) : idx c.unit < 16 := by
  obtain ⟨-, -, -, -, -, -, -, hfits, -⟩ := h.parts
  exact idx_eng_lt (hfit.symm.trans hfits)

/-- A verb of one trigger names one of 16 (R224). -/
theorem Accepts.trig_lt {v : Verb} (h : Accepts v c s) (hx : trigNo c ∈ v.checks c s) : argN c 0 1 < 16 := by
  have hbad := h.clear hx (by simp [trigNo, badArg, BAD_ARG])
  simp only [trigNo, badArg, decide_eq_false_iff_not] at hbad
  omega

/-- What an accepted verb that changes one trigger leaves, but for its answer. -/
theorem does_trigMod {i : Instr} {v : Verb} {f : TrigSt → TrigSt} {P : State → Prop} (h : Accepts v c s) (hs : v.start = fun _ s => s)
    (hi : exec i s = settle s (runVerb v c s)) (he : idx c.unit < 16) (hn : argN c 0 1 < 16)
    (ha : ∀ k j, (v.act c { s with kennel := k, junction := j }).1.unrecorded = (trigMod (idx c.unit) (argN c 0 1) f s).unrecorded)
    (hp : ∀ u : State, (∃ k j, u.hush = (v.act c { s with kennel := k, junction := j }).1.hush) →
      trigOf u (idx c.unit) (argN c 0 1) = f (trigOf s (idx c.unit) (argN c 0 1)) → TrigStep (idx c.unit) (argN c 0 1) s u → P u) : Does i s P := by
  refine does_of_act h hs hi fun k j u hu => ?_
  have hsame := (unrecorded_of_hush hu).trans (ha k j)
  exact hp u ⟨k, j, hu⟩ ((trigOf_of_eng (eng_of_unrecorded hsame) _ _).trans (trigOf_trigMod he hn f s)) (.of_trigMod f hsame)

/-- TRIG.LOAD_MASK puts the breakpoints read into one mask of its engine, and notes the read (R195, R224). -/
theorem vTrigLoadMask_act {b : Bytes} (hb : kennelRead s (argN c 4 6) (8 * argN c 2 2) = some b) : (vTrigLoadMask.act c s).1 =
    engMod (idx c.unit) (fun g => { g with masks := vmod g.masks (argN c 0 1) fun _ => (readMask b (argN c 2 2)).getD [] })
      (kennelNote (argN c 4 6) (8 * argN c 2 2) s) := by
  simp only [vTrigLoadMask, hb]
  rfl

/-- TRIG.LOAD_MASK names one of 32 masks. -/
theorem trigLoadMask_lt (h : Accepts vTrigLoadMask c s) : argN c 0 1 < 32 := by
  have hbad := h.clear List.mem_cons_self (by simp [badArg, BAD_ARG])
  simp only [badArg, Bool.or_eq_false_iff, decide_eq_false_iff_not, and_assoc] at hbad
  obtain ⟨harg, -⟩ := hbad
  omega

/-- What TRIG.LOAD_MASK leaves: one mask replaced, and nothing else but the banks' counts. -/
theorem does_trigLoadMask {b : Bytes} (hb : kennelRead (begun vTrigLoadMask c s) (argN c 4 6) (8 * argN c 2 2) = some b) (h : Accepts vTrigLoadMask c s) :
    Does (.trigLoadMask c) s fun t =>
      vget (vget t.events.eng (idx c.unit)).masks (argN c 0 1) = (readMask b (argN c 2 2)).getD [] ∧
      (∀ k, k ≠ argN c 0 1 → vget (vget t.events.eng (idx c.unit)).masks k = vget (vget s.events.eng (idx c.unit)).masks k) ∧
      (vget t.events.eng (idx c.unit)).trig = (vget s.events.eng (idx c.unit)).trig ∧ (∀ k, k ≠ idx c.unit → vget t.events.eng k = vget s.events.eng k) ∧
      ({ t with events := s.events, banks := s.banks } : State).hush = s.hush := by
  obtain ⟨k, j, hbegun⟩ := begun_frame (v := vTrigLoadMask) (c := c) (s := s) rfl
  have hact := vTrigLoadMask_act hb
  have hnote := kennelNote_frame (argN c 4 6) (8 * argN c 2 2) (begun vTrigLoadMask c s) s.banks
  rw [hbegun] at hact hnote
  generalize kennelNote (argN c 4 6) (8 * argN c 2 2) { s with kennel := k, junction := j } = u at hact hnote
  have hevents : u.events = s.events := events_of_hush (s := { u with banks := s.banks }) hnote
  refine does_of_begun h rfl fun t ht => ?_
  rw [hbegun, hact] at ht
  have heng : t.events.eng = vmod s.events.eng (idx c.unit)
      (fun g => { g with masks := vmod g.masks (argN c 0 1) fun _ => (readMask b (argN c 2 2)).getD [] }) := by
    rw [events_of_hush ht, ← hevents]
    rfl
  have hone := (congrArg (fun v => vget v (idx c.unit)) heng).trans (vget_vmod_same s.events.eng _ (h.eng_lt rfl))
  refine ⟨?_, fun n hn => ?_, congrArg (·.trig) hone, fun n hn => ?_,
    (hush_update ht (fun x => { x with events := s.events, banks := s.banks }) fun _ => rfl).trans
      (hush_update hnote (fun x => { x with events := s.events }) fun _ => rfl)⟩
  · exact (congrArg (fun g : EvEng => vget g.masks (argN c 0 1)) hone).trans (vget_vmod_same _ _ (trigLoadMask_lt h))
  · exact (congrArg (fun g : EvEng => vget g.masks n) hone).trans (vget_vmod_ne _ _ hn)
  · exact (congrArg (fun v => vget v n) heng).trans (vget_vmod_ne s.events.eng _ hn)

/-- The instant that TRIG.FORCE names: its own for TIME 0 (R220). -/
def forceTime (c : Cmd) (s : State) : Time := if argT0 c 4 then now s else (argT c 4).getD 0

/-- TRIG.FORCE for an instant that has come fires at once (R220). -/
theorem vTrigForce_now (h : forceTime c s ≤ now s) : (vTrigForce.act c s).1 =
    (fireNow (idx c.unit) (argN c 0 1) (forceTime c s) (forceTime c s) true s).1 :=
  congrArg Prod.fst (if_pos h)

/-- Taking a RECORD_ID moves neither an event engine nor a pin (R207). -/
theorem recordFor_frame (d : Bytes) (s : State) :
    ∃ ev, (recordFor d s).1 = { s with events := ev } ∧ ev.eng = s.events.eng ∧ ev.pins = s.events.pins := by
  unfold recordFor
  split
  · exact ⟨_, rfl, rfl, rfl⟩
  · exact ⟨s.events, rfl, rfl, rfl⟩

/-- TRIG.FORCE for a later instant keeps the firing, with its record and its definition (R220). -/
theorem vTrigForce_later (h : now s < forceTime c s) : ∃ rec ev, ev.eng = s.events.eng ∧ ev.pins = s.events.pins ∧
    (vTrigForce.act c s).1 = trigMod (idx c.unit) (argN c 0 1) (fun g => { g with
      forced := g.forced ++ [((argT c 4).getD 0, rec, (trigArg c s).defn.getD [])] }) { s with events := ev } := by
  have hown : forceTime c s = (argT c 4).getD 0 := by
    refine if_neg fun harg => ?_
    rw [forceTime, if_pos harg] at h
    exact Nat.lt_irrefl _ h
  obtain ⟨ev, hrec, heng, hpins⟩ := recordFor_frame ((trigArg c s).defn.getD []) s
  refine ⟨(recordFor ((trigArg c s).defn.getD []) s).2, ev, heng, hpins, ?_⟩
  rw [← hrec, ← hown]
  exact congrArg Prod.fst (if_neg (Nat.not_le.mpr h))

/-- A trigger that is armed has every condition false (R189). -/
theorem trigFresh_conds (s : State) (g : TrigSt) (j : Fin 4) : (trigFresh s g).conds[j].isTrue = false ∧ (trigFresh s g).conds[j].run = 0 := by
  simp [trigFresh]

end

/-- Settles O36, verb by verb: an answer is what the act gives, and what a verb leaves is one trigger changed, or one mask. -/
theorem triggerVerbs : Obligations.TriggerVerbs := by
  unfold Obligations.TriggerVerbs
  intro c s e n g
  refine ⟨fun h => ?define, fun b hb h => does_trigLoadMask hb h, fun h => ?arm, fun h => ?disarm, fun h hdue => ?forceNow, fun h hlater => ?forceLater,
    fun h => ?signal, fun h => ?delete⟩
  case define => exact ⟨_, answers_of h rfl rfl⟩
  case arm =>
    refine does_trigMod (f := fun g => { trigFresh s g with armed := true }) h rfl rfl (h.eng_lt rfl) (h.trig_lt List.mem_cons_self)
      (fun _ _ => rfl) fun u hu hat hstep => ?_
    obtain ⟨k, j, hu⟩ := hu
    rw [hat]
    exact ⟨rfl, rfl, rfl, rfl, trigFresh_conds s g, hstep.others, hush_update hu (fun x => { x with events := s.events }) fun _ => rfl⟩
  case disarm => exact answers_of_act h rfl rfl fun _ _ => rfl
  case forceNow =>
    refine does_trigMod (f := TrigSt.fires (g.defn.getD []) (forceTime c s) true) h rfl rfl (h.eng_lt rfl) (h.trig_lt List.mem_cons_self)
      (fun k j => ?_) fun u _ hat hstep => ?_
    · exact (congrArg State.unrecorded (vTrigForce_now (s := { s with kennel := k, junction := j }) hdue)).trans (fireNow_unrecorded ..)
    · rw [hat]
      exact ⟨rfl, rfl, rfl, rfl, hstep.others, hstep.rest⟩
  case forceLater =>
    refine does_of_act h rfl rfl fun k j u hu => ?_
    obtain ⟨rec, ev, heng, hpins, hact⟩ := vTrigForce_later (c := c) (s := { s with kennel := k, junction := j }) hlater
    rw [hact] at hu
    have htrig := trigOf_of_eng (congrArg (·.eng) (events_of_hush hu))
    have hsame := trigOf_of_eng (s := s) (u := { s with kennel := k, junction := j, events := ev }) heng
    refine ⟨⟨rec, ?_⟩, fun k m hne => ?_, (congrArg (·.pins) (events_of_hush hu)).trans hpins,
      hush_update hu (fun x => { x with events := s.events }) fun _ => rfl⟩
    · rw [htrig, trigOf_trigMod (h.eng_lt rfl) (h.trig_lt List.mem_cons_self), hsame]
      rfl
    · exact (htrig k m).trans ((trigOf_trigMod_ne hne _ _).trans (hsame k m))
  case signal => exact answers_of_act h rfl rfl fun _ _ => rfl
  case delete => exact answers_of_act h rfl rfl fun _ _ => rfl

end Sys2Proof.Machine
end

section
/-! Trigger evaluation: elements, truth tables, rises, and the hold-off (R190, R199 to R203, R220, R221). -/
namespace Sys2Proof.Machine
open Sys2Proof

/-! ### What an instant makes of the conditions (R191 to R194, R199) -/

/-- The conditions once the pulses that an instant has passed have ended (R191). -/
def condsWere (d : Bytes) (a : Time) (g : TrigSt) : Vector CondSt 4 := Vector.ofFn fun j : Fin 4 => pulseEnd (condDef d j) a g.conds[j]

/-- The conditions whose source shows a gap up to an instant (R194). -/
def condsGap (s : State) (d : Bytes) (a : Time) (g : TrigSt) : Vector Bool 4 := Vector.ofFn fun j : Fin 4 => condGap s (condDef d j) a g.conds[j]

/-- The conditions as source gaps leave them (R194). -/
def condsOld (s : State) (d : Bytes) (a : Time) (g : TrigSt) : Vector CondSt 4 :=
  Vector.ofFn fun j : Fin 4 => if (condsGap s d a g)[j] then condClear (condsWere d a g)[j] else (condsWere d a g)[j]

/-- The conditions with the elements of an instant (R192, R193). -/
def condsNew (s : State) (e : Nat) (d : Bytes) (a : Time) (g : TrigSt) : Vector CondSt 4 :=
  Vector.ofFn fun j : Fin 4 => condStep s e (condDef d j) a (condsGap s d a g)[j] (condsOld s d a g)[j]

/-- The trigger from whose values a rise counts (R194, R199). -/
def TrigSt.before (s : State) (d : Bytes) (a : Time) (g : TrigSt) : TrigSt := rebased d (condsWere d a g) (condsOld s d a g) g

/-- The sequence window at an instant: ended, or opened by a rise of F1 in TYPE 1 (R200). -/
def TrigSt.winAt (s : State) (e : Nat) (d : Bytes) (a : Time) (g : TrigSt) : Option (Time × Time) :=
  if numAt d 1 1 = 1 && truth d 2 (condBits (condsNew s e d a g)) && !(g.before s d a).f1 then some (a, a + nsT (numAt d 8 8))
  else (g.before s d a).win.filter fun w => a ≤ w.2

/-- The trigger's function rises at an instant (R199, R200). -/
def TrigSt.rises (s : State) (e : Nat) (d : Bytes) (a : Time) (g : TrigSt) : Bool :=
  if numAt d 1 1 = 0 then truth d 2 (condBits (condsNew s e d a g)) && !(g.before s d a).f1
  else truth d 4 (condBits (condsNew s e d a g)) && !(g.before s d a).f2 && (g.winAt s e d a).any fun w => w.1 < a

/-- The trigger with the elements of an instant taken in, before it fires. -/
def TrigSt.takes (s : State) (e : Nat) (d : Bytes) (a : Time) (old g : TrigSt) : TrigSt :=
  { g with
    conds := condsNew s e d a old, f1 := truth d 2 (condBits (condsNew s e d a old)), f2 := truth d 4 (condBits (condsNew s e d a old))
    win := old.winAt s e d a }

/-- A trigger is within a hold-off at an instant (R201). -/
def TrigSt.held (a : Time) (g : TrigSt) : Bool := g.holdoff.any fun h => decide (a < h)

section
variable {e n : Nat} {s : State} {d : Bytes} {a : Time}

/-- Clearing conditions leaves all of a trigger but the last values of its functions. -/
theorem rebased_holdoff (old new : Vector CondSt 4) (g : TrigSt) : (rebased d old new g).holdoff = g.holdoff := by
  unfold rebased
  split <;> rfl

/-- An evaluation takes the elements in; at a rise it fires, or within a hold-off counts (R199 to R202). -/
theorem trigTake_eq : trigTake e n d a s =
    let g := trigOf s e n
    let u := trigMod e n (TrigSt.takes s e d a g) s
    if !g.rises s e d a then u
    else if g.held a then trigMod e n (fun g => { g with suppressed := wrapAdd 32 g.suppressed 1 }) u
    else (fireNow e n a (riseOnset (condsOld s d a g) (condsNew s e d a g) a) false u).1 := by
  dsimp only
  have hheld : (trigOf s e n).held a = ((trigOf s e n).before s d a).holdoff.any fun h => decide (a < h) := by
    unfold TrigSt.before
    rw [rebased_holdoff]
    rfl
  rw [hheld]
  rfl

/-- What an evaluation makes of its trigger. -/
def TrigSt.evaluated (s : State) (e : Nat) (d : Bytes) (a : Time) (g : TrigSt) : TrigSt :=
  let u := g.takes s e d a g
  if !g.rises s e d a then u else if g.held a then { u with suppressed := wrapAdd 32 u.suppressed 1 } else u.fires (u.defn.getD []) a false

/-- But for records and events an evaluation changes its trigger alone. -/
theorem trigTake_unrecorded (he : e < 16) (hn : n < 16) : (trigTake e n d a s).unrecorded = (trigMod e n (TrigSt.evaluated s e d a) s).unrecorded := by
  rw [trigTake_eq]
  dsimp only
  split
  · next h => exact congrArg State.unrecorded (trigMod_congr (if_pos h).symm)
  · next h =>
    split
    · next hheld =>
      rw [trigMod_trigMod]
      exact congrArg State.unrecorded (trigMod_congr ((if_neg h).trans (if_pos hheld)).symm)
    · next hheld =>
      rw [fireNow_unrecorded, trigMod_trigMod, trigOf_trigMod he hn]
      exact congrArg State.unrecorded (trigMod_congr ((if_neg h).trans (if_neg hheld)).symm)

/-- What an evaluation of TYPE 0 leaves: a firing or a suppression exactly where F1 rises (R199, R201, R202). -/
theorem TrigSt.evaluated_type0 {g : TrigSt} (hd : g.defn = some d) (htype : numAt d 1 1 = 0) :
    let t := g.evaluated s e d a
    let rise := truth d 2 (condBits (condsNew s e d a g)) && !(g.before s d a).f1
    t.conds = condsNew s e d a g ∧ t.f1 = truth d 2 (condBits (condsNew s e d a g)) ∧
    t.fired = (if rise && !g.held a then wrapAdd 32 g.fired 1 else g.fired) ∧
    t.suppressed = (if rise && g.held a then wrapAdd 32 g.suppressed 1 else g.suppressed) ∧ (rise && !g.held a = true → t.lastTime = a) ∧
    (bitAt (BitVec.ofNat 8 (numAt d 6 1)) 3 = false → t.armed = g.armed) := by
  intro t rise
  have hrise : g.rises s e d a = rise := if_pos htype
  dsimp only [t, TrigSt.evaluated]
  rw [hrise]
  cases hr : rise with
  | false => exact ⟨rfl, rfl, rfl, rfl, nofun, fun _ => rfl⟩
  | true =>
    cases hh : g.held a with
    | true => exact ⟨rfl, rfl, rfl, rfl, nofun, fun _ => rfl⟩
    | false =>
      refine ⟨rfl, rfl, rfl, rfl, fun _ => rfl, fun hbit => ?_⟩
      simp [TrigSt.fires, TrigSt.takes, hd, hbit]

/-! ### When a trigger is evaluated (R200, R203, R220, R221) -/

/-- Conditions of other kinds than LEVEL and MASK, which have no backlog to skip (R203). -/
def NoBacklog (d : Bytes) : Prop := ∀ j < 4, condKind (condDef d j) ≠ 1 ∧ condKind (condDef d j) ≠ 2

theorem condBlind_noBacklog {j : Nat} (hj : j < 4) (hd : (trigOf s e n).defn = some d) (hk : NoBacklog d) : condBlind e n j s = s := by
  obtain ⟨h1, h2⟩ := hk j hj
  have hring : condRing s (condDef ((trigOf s e n).defn.getD []) j) = none := by
    rw [hd]
    unfold condRing
    split
    · next h => exact absurd h h1
    · next h => exact absurd h h2
    · rfl
  simp only [condBlind, hring, Option.bind_none]

theorem condBlind_step (e n j : Nat) (s : State) : TrigStep e n s (condBlind e n j s) := by
  unfold condBlind
  dsimp only
  split
  · exact .refl
  · split
    · exact .refl
    · exact .of_trigMod _ (raiseAt_unrecorded ..)

/-- A firing that was forced changes its own trigger (R220). -/
theorem forcedDue_step (e n : Nat) (a : Time) (s : State) : TrigStep e n s (forcedDue e n a s) :=
  (TrigStep.of_trigMod _ rfl).trans (.ofFold (fun _ _ => .of_trigMod _ (fire_unrecorded ..)) _ _)

/-- No firing that was forced is due at an instant (R220). -/
abbrev NoneForced (s : State) (e n : Nat) (a : Time) : Prop := ((trigOf s e n).forced.any fun x => decide (x.1 ≤ a) && decide (a ≤ now s)) = false

theorem trigEval_idle (hforced : NoneForced s e n a) (h : (trigOf s e n).armed = false ∨ s.power.state ≠ .active) : trigEval e n a s = s := by
  unfold trigEval
  rw [hforced]
  refine (if_neg Bool.false_ne_true).trans (if_pos ?_)
  rcases h with h | h <;> simp [h]

/-- An instant is the next at which a condition has an element, and every source has delivered up to it (R200). -/
def trigDue (s : State) (d : Bytes) (g : TrigSt) (a : Time) : Bool :=
  earliest ((List.range 4).filterMap fun j => condNext s (condDef d j) (vget g.conds j)) == some a &&
    (List.range 4).all fun j => condDone s (condDef d j) a (vget g.conds j)

/-- Evaluation of an armed trigger in ACTIVE: at an instant that is due, and at no other (R200). -/
theorem trigEval_armed (hforced : NoneForced s e n a) (harmed : (trigOf s e n).armed = true) (hactive : s.power.state = .active)
    (hd : (trigOf s e n).defn = some d) (hk : NoBacklog d) : trigEval e n a s = if trigDue s d (trigOf s e n) a then trigTake e n d a s else s := by
  have hblind : (List.range 4).foldl (fun s j => condBlind e n j s) s = s := by
    refine List.foldlRecOn (motive := (· = s)) _ _ rfl fun u hu j hj => ?_
    rw [hu]
    exact condBlind_noBacklog (List.mem_range.mp hj) hd hk
  unfold trigEval
  rw [hforced, hblind]
  simp only [harmed, hactive, hd]
  rfl

/-- An evaluation changes its trigger alone, but for records and events. -/
theorem trigEval_step (he : e < 16) (hn : n < 16) : TrigStep e n s (trigEval e n a s) := by
  unfold trigEval
  split
  · exact forcedDue_step e n a s
  · split
    · exact .refl
    · have hblind : TrigStep e n s ((List.range 4).foldl (fun s j => condBlind e n j s) s) := .ofFold (fun s j => condBlind_step e n j s) _ s
      generalize (List.range 4).foldl (fun s j => condBlind e n j s) s = u at hblind
      refine hblind.trans ?_
      dsimp only
      split
      · exact .refl
      · split
        · exact .of_trigMod _ (trigTake_unrecorded he hn)
        · exact .refl

/-! ### TIMER conditions (R190) -/

theorem timerDue_none {j : Nat} (h : (vget (trigOf s e n).conds j).due = none) : timerDue e n j s = s := by
  simp only [timerDue, h]

/-- The due instant of a TIMER condition yields one element, and the next falls a period later. -/
theorem timerDue_yields {j : Nat} {u : Time} (h : (vget (trigOf s e n).conds j).due = some u) (harmed : (trigOf s e n).armed = true)
    (hk : condKind (condDef ((trigOf s e n).defn.getD []) j) = 7) (hu : u ≤ now s) : timerDue e n j s =
      trigMod e n (fun x => { x with conds := vmod x.conds j fun c => { c with
        formed := c.formed ++ [(u, false, 1)]
        due := if numAt (condDef ((trigOf s e n).defn.getD []) j) 16 8 = 0 then none
          else some (u + nsT (numAt (condDef ((trigOf s e n).defn.getD []) j) 16 8)) } }) s := by
  simp only [timerDue, h, harmed, hk]
  exact if_neg (by simpa using hu)

end

/-- Settles O37, row by row: when a trigger is evaluated, and what an evaluation makes of it. -/
theorem triggerRows : Obligations.TriggerRows := by
  unfold Obligations.TriggerRows
  intro e n s g due next
  refine ⟨fun a hforced h => ?idle, fun a => ?alone, fun a d hforced hd hk hnext => ?other, fun a d hforced harmed hactive hd htype hk hnext hdone => ?evaluated,
    fun j u h harmed hk hu => ?timer, fun j h => ?timerNone, settle_quiet rfl, settle_quiet rfl⟩
  case idle => exact (congrArg (settle s) (trigEval_idle hforced h)).trans (settle_quiet rfl)
  case alone =>
    refine does_row rfl fun u hu => ?_
    have hstep : TrigStep e n s u := (trigEval_step e.isLt n.isLt).trans (.of_unrecorded (unrecorded_of_hush hu))
    exact ⟨hstep.others, hstep.rest⟩
  case other =>
    have hstay : trigEval e n a s = s := by
      by_cases h : g.armed = false ∨ s.power.state ≠ .active
      · exact trigEval_idle hforced h
      · obtain ⟨harmed, hactive⟩ := not_or.mp h
        rw [trigEval_armed hforced (Bool.not_eq_false _ ▸ harmed) (Classical.not_not.mp hactive) hd hk]
        exact if_neg fun hdue => hnext (eq_of_beq (Bool.and_eq_true_iff.mp hdue).1)
    exact (congrArg (settle s) hstay).trans (settle_quiet rfl)
  case evaluated =>
    intro was gap old new rise held
    have hdue : trigDue s d g a = true :=
      Bool.and_eq_true_iff.mpr ⟨beq_iff_eq.mpr hnext, List.all_eq_true.mpr fun j hj => hdone j (List.mem_range.mp hj)⟩
    have heval : trigEval e n a s = trigTake e n d a s := (trigEval_armed hforced harmed hactive hd hk).trans (if_pos hdue)
    refine does_row (congrArg (settle s) heval) fun u hu => ?_
    have hat : trigOf u e n = g.evaluated s e d a :=
      (trigOf_of_eng (eng_of_unrecorded ((unrecorded_of_hush hu).trans (trigTake_unrecorded e.isLt n.isLt))) e n).trans (trigOf_trigMod e.isLt n.isLt _ s)
    obtain ⟨hconds, hf1, hfired, hsuppressed, htime, hshot⟩ := TrigSt.evaluated_type0 (s := s) (e := e) (a := a) hd htype
    rw [hat]
    exact ⟨hconds, hf1, hfired, hsuppressed, htime, fun hbit => (hshot hbit).trans harmed⟩
  case timer => exact (congrArg (settle s) (timerDue_yields h harmed hk hu)).trans (settle_quiet rfl)
  case timerNone => exact (congrArg (settle s) (timerDue_none h)).trans (settle_quiet rfl)

end Sys2Proof.Machine
end

section
/-! Records, pins, envelope streams and measurements (R206, R209, R211 to R213, R218, R225, R226, R352). -/
namespace Sys2Proof.Machine
open Sys2Proof

/-! ### Policies (R209, R225) -/

theorem policyOf_of_events {s u : State} (h : u.events.policies = s.events.policies) (k : Nat) : policyOf u k = policyOf s k := by
  unfold policyOf
  rw [h]

theorem policyOf_ring (s : State) (id : Nat) : (policyOf s id).ring = id := by
  unfold policyOf
  cases h : s.events.policies.find? fun q => q.ring == id with
  | none => rfl
  | some q => exact eq_of_beq (List.find?_some (p := fun q : PinPolicy => q.ring == id) h)

theorem policyOf_policyMod {id : Nat} {f : PinPolicy → PinPolicy} (hf : ∀ q, (f q).ring = q.ring) (s : State) :
    policyOf (policyMod id f s) id = f (policyOf s id) := by
  have hfind : (policyMod id f s).events.policies.find? (fun q => q.ring == id) = some (f (policyOf s id)) :=
    List.find?_cons_of_pos (by simp [hf, policyOf_ring])
  unfold policyOf at hfind ⊢
  rw [hfind]
  rfl

theorem policyOf_policyMod_ne {id k : Nat} (hk : k ≠ id) {f : PinPolicy → PinPolicy} (hf : ∀ q, (f q).ring = q.ring) (s : State) :
    policyOf (policyMod id f s) k = policyOf s k := by
  have hfind : (policyMod id f s).events.policies.find? (fun q => q.ring == k) = s.events.policies.find? fun q => q.ring == k := by
    refine (List.find?_cons_of_neg (by simpa [hf, policyOf_ring] using hk.symm)).trans ?_
    rw [List.find?_filter]
    refine congrArg (fun p => List.find? p s.events.policies) (funext fun q => ?_)
    by_cases hq : q.ring = k
    · simp [hq, hk]
    · simp [hq]
  unfold policyOf
  rw [hfind]

/-- What changes the policy of one ring leaves those of the others. -/
theorem policyOf_of_hush {id : Nat} {f : PinPolicy → PinPolicy} (hf : ∀ q, (f q).ring = q.ring) {s u : State} (hu : u.hush = (policyMod id f s).hush) :
    policyOf u id = f (policyOf s id) ∧ ∀ k, k ≠ id → policyOf u k = policyOf s k := by
  have hsame := policyOf_of_events (congrArg (·.policies) (events_of_hush hu))
  exact ⟨(hsame id).trans (policyOf_policyMod hf s), fun k hk => (hsame k).trans (policyOf_policyMod_ne hk hf s)⟩

/-- REC.RING_POLICY sets what the policy of a ring does, and keeps its counts. -/
theorem vRecRingPolicy_act (c : Cmd) (s : State) : ∃ f, (vRecRingPolicy.act c s).1 = policyMod (argN c 0 4) f s ∧
    ∀ q, (f q).ring = q.ring ∧ (f q).copy = (argN c 4 1 == 1) ∧ (f q).channel = argN c 5 1 ∧ (f q).copies = q.copies :=
  ⟨fun q => { q with copy := argN c 4 1 == 1, channel := argN c 5 1, copyRing := if argN c 4 1 = 1 then argN c 8 4 else 0 },
    rfl, fun _ => ⟨rfl, rfl, rfl, rfl⟩⟩

/-! ### Spans under their keys (R212) -/

/-- A span of a record stands in a list, and P holds of it. -/
def SpanIn (l : List PinSt) (rec : BitVec 32) (sp : Nat) (P : PinSt → Prop) : Prop := ∃ q ∈ l, q.record = rec ∧ q.span = sp ∧ P q

section
variable {rec : BitVec 32} {sp : Nat} {P Q : PinSt → Prop} {l : List PinSt} {p : PinSt}

/-- A span that is replaced under its key reads as replaced. -/
theorem SpanIn.replaced (h : SpanIn l p.record p.span P) (hp : Q p) : SpanIn (lmod (samePin p) (fun _ => p) l) p.record p.span Q := by
  obtain ⟨q, hq, hrec, hsp, -⟩ := h
  refine ⟨p, List.mem_map.mpr ⟨q, hq, if_pos ?_⟩, rfl, rfl, hp⟩
  simp [samePin, hrec, hsp]

/-- What holds of a span, and of one that replaces any, holds after the replacement. -/
theorem SpanIn.keeps (h : SpanIn l rec sp P) (hp : P p) : SpanIn (lmod (samePin p) (fun _ => p) l) rec sp P := by
  obtain ⟨q, hq, hrec, hsp, hP⟩ := h
  by_cases hsame : samePin p q = true
  · obtain ⟨hr, hs⟩ := Bool.and_eq_true_iff.mp hsame
    exact ⟨p, List.mem_map.mpr ⟨q, hq, if_pos hsame⟩, (eq_of_beq hr).trans hrec, (eq_of_beq hs).trans hsp, hp⟩
  · exact ⟨q, List.mem_map.mpr ⟨q, hq, if_neg hsame⟩, hrec, hsp, hP⟩

/-- A span that is found by its key and more stands under its key. -/
theorem SpanIn.of_find? {f : PinSt → Bool} (h : l.find? (fun p => p.record == rec && p.span == sp && f p) = some p) :
    SpanIn l p.record p.span (fun _ => True) ∧ p.record = rec ∧ p.span = sp := by
  have hp := List.find?_some (p := fun p : PinSt => p.record == rec && p.span == sp && f p) h
  obtain ⟨hkey, -⟩ := Bool.and_eq_true_iff.mp hp
  obtain ⟨hrec, hsp⟩ := Bool.and_eq_true_iff.mp hkey
  exact ⟨⟨p, List.mem_of_find?_eq_some h, rfl, rfl, trivial⟩, eq_of_beq hrec, eq_of_beq hsp⟩

end

/-! ### REC.RELEASE (R211, R225) -/

/-- A span as REC.RELEASE leaves it. -/
def PinSt.Freed (p : PinSt) : Prop := p.state = .released ∧ p.complete = true

/-- What takes a copy out of its channel's queue moves the channels alone. -/
theorem pinUnqueue_frame (p : PinSt) (s : State) : ∃ f, pinUnqueue p s = { s with fetch := f } := by
  unfold pinUnqueue
  dsimp only
  induction List.range 32 generalizing s with
  | nil => exact ⟨s.fetch, rfl⟩
  | cons n l ih =>
    rw [List.foldl_cons]
    split
    · exact ih s
    · exact ih (fetchMod n _ s)

/-- A release moves records, channels and what an event can touch, and of the records its span (R211). -/
theorem pinReleaseNow_frame (p : PinSt) (s : State) : ∃ f q, (pinReleaseNow p s).hush = ({ pinSet q s with fetch := f } : State).hush ∧
    q.record = p.record ∧ q.span = p.span ∧ q.Freed := by
  have hstart : ∃ f, (if p.state == .copying then (pinCut p (pinUnqueue p s)).1 else s).hush = ({ s with fetch := f } : State).hush := by
    split
    · obtain ⟨f, hf⟩ := pinUnqueue_frame p s
      exact ⟨f, (pinCut_hush ..).trans (congrArg State.hush hf)⟩
    · exact ⟨s.fetch, rfl⟩
  obtain ⟨f, hf⟩ := hstart
  refine ⟨f, { p with complete := true, data := [], state := .released }, ?_, rfl, rfl, rfl, rfl⟩
  unfold pinReleaseNow
  dsimp only
  generalize (if p.state == .copying then (pinCut p (pinUnqueue p s)).1 else s) = u at hf
  have hrelease : (pinRelease { p with complete := true, data := [] } u).hush =
      ({ pinSet { p with complete := true, data := [], state := .released } s with fetch := f } : State).hush :=
    (raise_hush ..).trans ((pinReport_hush ..).trans (hush_update hf (pinSet { p with complete := true, data := [], state := .released }) fun _ => rfl))
  split
  · exact hrelease
  · exact (recordDone_hush ..).trans hrelease

section
variable {rec : BitVec 32} {sp : Nat}

theorem pinReleaseNow_pins (p : PinSt) (s : State) : ∃ q, (pinReleaseNow p s).events.pins = lmod (samePin q) (fun _ => q) s.events.pins ∧
    q.record = p.record ∧ q.span = p.span ∧ q.Freed := by
  obtain ⟨f, q, hframe, hq⟩ := pinReleaseNow_frame p s
  exact ⟨q, congrArg (·.pins) (events_of_hush hframe), hq⟩

@[simp] theorem pinReleaseNow_unrecorded (p : PinSt) (s : State) : (pinReleaseNow p s).unrecorded = s.unrecorded := by
  obtain ⟨f, q, hframe, -⟩ := pinReleaseNow_frame p s
  exact (unrecorded_of_hush hframe).trans rfl

/-- Releases leave standing what stands, and freed what is freed. -/
theorem releases_keep {P : PinSt → Prop} (hP : ∀ q : PinSt, q.Freed → P q) (l : List PinSt) {s : State} (h : SpanIn s.events.pins rec sp P) :
    SpanIn (l.foldl (fun s p => pinReleaseNow p s) s).events.pins rec sp P := by
  induction l generalizing s with
  | nil => exact h
  | cons p l ih =>
    obtain ⟨q, hpins, -, -, hfreed⟩ := pinReleaseNow_pins p s
    exact ih (hpins ▸ h.keeps (hP q hfreed))

/-- Each of the spans that are released is freed in the end. -/
theorem releases_free (l : List PinSt) {s : State} (h : ∀ p ∈ l, SpanIn s.events.pins p.record p.span fun _ => True) :
    ∀ p ∈ l, SpanIn (l.foldl (fun s p => pinReleaseNow p s) s).events.pins p.record p.span PinSt.Freed := by
  induction l generalizing s with
  | nil => exact fun _ hp => absurd hp List.not_mem_nil
  | cons p l ih =>
    obtain ⟨q, hpins, hrec, hsp, hfreed⟩ := pinReleaseNow_pins p s
    intro x hx
    rcases List.mem_cons.mp hx with rfl | hx
    · have hone : SpanIn (pinReleaseNow x s).events.pins x.record x.span PinSt.Freed := by
        have hthere := h x List.mem_cons_self
        rw [← hrec, ← hsp] at hthere ⊢
        exact hpins ▸ hthere.replaced hfreed
      exact releases_keep (fun _ h => h) l hone
    · exact ih (fun y hy => hpins ▸ (h y (List.mem_cons_of_mem p hy)).keeps trivial) x hx

end

/-! ### The end of a span (R208, R212, R218) -/

section
variable {rec : BitVec 32} {sp : Nat} {p q : PinSt} {s : State}

theorem spanComplete_none (h : s.events.pins.find? (fun p => p.record == rec && p.span == sp && !p.complete) = none) : spanComplete rec sp s = s := by
  simp only [spanComplete, h]

/-- A measurement job joins its queue while that holds fewer than 64 (R218). -/
theorem measQueue_joins {e m ring trig : Nat} (h : (vget s.events.eng e).jobs.length < 64) :
    measQueue e rec sp m ring trig s = (engMod e (fun g => { g with jobs := g.jobs ++ [(rec, sp, m, ring, trig)] }) s, true) :=
  if_pos h

/-- A measurement job that joins its queue, or is skipped, moves its engine alone. -/
theorem measQueue_frame (e m ring trig : Nat) : ∃ v, (measQueue e rec sp m ring trig s).1.hush =
    ({ s with events := { s.events with eng := v } } : State).hush := by
  unfold measQueue
  split
  · exact ⟨_, rfl⟩
  · exact ⟨_, raise_hush ..⟩

/-- A closed span with its measurement, if any, in its engine's queue, and its mark for that (R218). -/
def spanMeasured (rec : BitVec 32) (sp : Nat) (p : PinSt) (s : State) : State × PinSt :=
  match p.meas with
  | none => (s, p)
  | some (m, ring) => match measQueue p.engine rec sp m ring p.trigger s with
    | (s, true) => (s, { p with flags := p.flags ||| 0x20 })
    | (s, false) => (s, p)

theorem spanMeasured_frame (p : PinSt) (s : State) : ∃ v, (spanMeasured rec sp p s).1.hush = ({ s with events := { s.events with eng := v } } : State).hush ∧
    (spanMeasured rec sp p s).2.record = p.record ∧ (spanMeasured rec sp p s).2.span = p.span ∧
    (spanMeasured rec sp p s).2.complete = p.complete ∧ (spanMeasured rec sp p s).2.state = p.state := by
  unfold spanMeasured
  split
  · exact ⟨_, rfl, rfl, rfl, rfl, rfl⟩
  · next m ring _ =>
    obtain ⟨v, hv⟩ := measQueue_frame (rec := rec) (sp := sp) (s := s) p.engine m ring p.trigger
    split
    · next h => exact ⟨v, (congrArg (fun x => x.1.hush) h).symm.trans hv, rfl, rfl, rfl, rfl⟩
    · next h => exact ⟨v, (congrArg (fun x => x.1.hush) h).symm.trans hv, rfl, rfl, rfl, rfl⟩

/-- A span whose interval has passed over a source that does not run closes (R208). -/
theorem spanComplete_closes {r : RingCtx} (hp : s.events.pins.find? (fun p => p.record == rec && p.span == sp && !p.complete) = some p)
    (hr : ringOf s p.ring = some r) (hopen : p.state = .open_) (hend : p.endTime ≤ now s) (hsrc : sourceRuns s p.ring = false) :
    let m := spanMeasured rec sp (spanClose s (spanTimes s r p) p) s
    (spanComplete rec sp s).hush = (pinSet m.2 m.1).hush := by
  intro m
  have hdone : ¬ (!(spanCovered s (spanTimes s r p) p || (decide (p.endTime ≤ now s) && !sourceRuns s p.ring))) = true := by simp [hend, hsrc]
  have hcloses : spanComplete rec sp s = recordDone rec (pinReport m.2 (pinSet m.2 m.1)) := by
    unfold spanComplete
    simp only [hp, hr]
    exact (if_neg hdone).trans ((if_neg (by simp [hopen])).trans (if_neg (by simp [hopen])))
  rw [hcloses, recordDone_hush, pinReport_hush]

/-- A span whose ring is gone is complete without a pin, once its interval has passed (R206, R212). -/
theorem spanComplete_ringless (hp : s.events.pins.find? (fun p => p.record == rec && p.span == sp && !p.complete) = some p)
    (hr : ringOf s p.ring = none) (hend : p.endTime ≤ now s) :
    (spanComplete rec sp s).hush = (pinSet { p with complete := true, state := .notPinned } s).hush := by
  unfold spanComplete
  simp only [hp, hr, if_neg (Nat.not_lt.mpr hend), recordDone_hush, pinReport_hush]

/-- A span that is replaced shows so among the records, and nothing else moves but event engines. -/
theorem pinSet_leaves {u t : State} {v : Vector EvEng 16} {P : PinSt → Prop} (hthere : SpanIn s.events.pins q.record q.span fun _ => True)
    (hu : u.hush = ({ s with events := { s.events with eng := v } } : State).hush) (hP : P q) (ht : t.hush = (pinSet q u).hush) :
    SpanIn t.events.pins q.record q.span P ∧ ({ t with events := s.events } : State).hush = s.hush := by
  have hset := ht.trans (hush_update hu (pinSet q) fun _ => rfl)
  rw [events_of_hush hset]
  exact ⟨hthere.replaced hP, hush_update hset (fun x => { x with events := s.events }) fun _ => rfl⟩

/-! ### The end of a copy (R209, R212) -/

theorem pinCopyComplete_short (hp : s.events.pins.find? (fun p => p.record == rec && p.span == sp && p.state == .copying) = some p)
    (hshort : p.copied < p.blocks) : pinCopyComplete rec sp s = s := by
  simp only [pinCopyComplete, hp]
  exact if_pos (by simp [hshort])

/-- A span whose copy COPY_RING has taken from a position on. -/
def PinSt.asCopied (p : PinSt) (at_ : Nat) : PinSt := { p with state := .copied, copyPos := at_, data := [] }

/-- The policy of a ring with one copy more (R209). -/
def PinPolicy.withCopy (q : PinPolicy) : PinPolicy := { q with copies := wrapAdd 32 q.copies 1 }

/-- A copy that is whole, once COPY_RING takes it, leaves its span COPIED, and its ring's policy with one copy more. -/
theorem pinCopyComplete_copied {u : State} {at_ : Nat}
    (hp : s.events.pins.find? (fun p => p.record == rec && p.span == sp && p.state == .copying) = some p) (hwhole : p.blocks ≤ p.copied)
    (htook : ∀ r, ringOf s p.ring = some r → ∀ e ∈ pinEntries r p, e.pos < p.nextPos)
    (hout : pinCopyOut true { p with state := .copied } s = some (u, at_)) : ∃ f, (pinCopyComplete rec sp s).hush =
      (policyMod p.ring PinPolicy.withCopy { pinSet (p.asCopied at_) s with fetch := f }).hush := by
  have hall : ((ringOf s p.ring).any fun r => (pinEntries r p).any fun e => decide (p.nextPos ≤ e.pos)) = false := by
    cases hr : ringOf s p.ring with
    | none => rfl
    | some r => simpa using htook r hr
  have hgo : ¬ (decide (p.copied < p.blocks) || (ringOf s p.ring).any fun r => (pinEntries r p).any fun e => decide (p.nextPos ≤ e.pos)) = true := by
    rw [hall]
    simpa using hwhole
  have hcopies : pinCopyComplete rec sp s = raise 0xA9 0 0x0B00 (pinDetail (p.asCopied at_)) (policyMod p.ring
      PinPolicy.withCopy (pinUnqueue (p.asCopied at_) (pinReport (p.asCopied at_) (pinSet (p.asCopied at_) u)))) := by
    unfold pinCopyComplete
    simp only [hp]
    refine (if_neg hgo).trans ?_
    rw [hout]
    rfl
  obtain ⟨f, hf⟩ := pinUnqueue_frame (p.asCopied at_) (pinReport (p.asCopied at_) (pinSet (p.asCopied at_) u))
  have hset : (pinReport (p.asCopied at_) (pinSet (p.asCopied at_) u)).hush = (pinSet (p.asCopied at_) s).hush :=
    (pinReport_hush ..).trans (hush_update (pinCopyOut_hush hout) (pinSet (p.asCopied at_)) fun _ => rfl)
  refine ⟨f, ?_⟩
  rw [hcopies, raise_hush, hf]
  exact hush_update hset (fun x => policyMod p.ring PinPolicy.withCopy { x with fetch := f }) fun _ => rfl

end

/-! ### Envelope streams (R213, R225, R352) -/

section
variable {s : State} {id : Nat} {v : EnvSt}

@[simp] theorem offer_unrecorded (w : Bool) (id : Nat) (e : Ent) (s : State) : (offer w id e s).1.unrecorded = s.unrecorded :=
  unrecorded_of_hush (offer_hush ..)

@[simp] theorem pinOverrun_unrecorded (p : PinSt) (s : State) : (pinOverrun p s).unrecorded = s.unrecorded := by
  have hfetch (f : FetchSt) (u : State) : ({ u with fetch := f } : State).unrecorded = u.unrecorded := rfl
  simp [pinOverrun, hfetch]

@[simp] theorem pinsOverrun_unrecorded (id : Nat) (s : State) : (pinsOverrun id s).unrecorded = s.unrecorded := by
  unfold pinsOverrun
  split
  · rfl
  · exact foldl_keeps State.unrecorded _ (fun _ _ => pinOverrun_unrecorded ..) _ s

@[simp] theorem publish_unrecorded (w : Bool) (id : Nat) (e : Ent) (s : State) : (publish w id e s).1.unrecorded = s.unrecorded :=
  (pinsOverrun_unrecorded ..).trans (offer_unrecorded ..)

@[simp] theorem gapsOut_unrecorded (ring unit kind : Nat) (l : List PendGap) (stop : Time) (s : State) :
    (gapsOut ring unit kind l stop s).1.unrecorded = s.unrecorded := by
  induction l generalizing s with
  | nil => rfl
  | cons g l ih =>
    unfold gapsOut
    dsimp only
    split
    · next h => exact (congrArg (fun x => x.1.unrecorded) h).symm.trans (publish_unrecorded ..)
    · next h => exact (ih _).trans ((congrArg (fun x => x.1.unrecorded) h).symm.trans (publish_unrecorded ..))

@[simp] theorem envMod_unrecorded (id : Nat) (f : EnvSt → EnvSt) (s : State) : (envMod id f s).unrecorded = s.unrecorded := rfl

@[simp] theorem envGaps_unrecorded (v : EnvSt) (stop : Time) (s : State) : (envGaps v stop s).1.unrecorded = s.unrecorded :=
  (envMod_unrecorded ..).trans (gapsOut_unrecorded ..)

/-- The end of an envelope frame moves records, rings and channels alone (R214, R352). -/
@[simp] theorem envClose_unrecorded (id : Nat) (s : State) : (envClose id s).1.unrecorded = s.unrecorded := by
  unfold envClose
  split
  · rfl
  · next v _ =>
    have hgaps := envGaps_unrecorded v v.first.2.1 s
    split
    · rfl
    · split
      · next h => rwa [h] at hgaps
      · next s' h =>
        rw [h] at hgaps
        have hpub := publish_unrecorded true v.out (envFrame s' v) s'
        split
        · next h' => rw [h'] at hpub; exact hpub.trans hgaps
        · next h' => rw [h'] at hpub; exact (envMod_unrecorded ..).trans (hpub.trans hgaps)

/-- A ring that is gone takes nothing, and its pins lose nothing. -/
theorem publish_ringless (h : ringOf s id = none) (w : Bool) (e : Ent) : publish w id e s = (s, .dropped) := by
  simp [publish, offer, ringPut, pinsOverrun, h, emit]

theorem gapsOut_ringless (h : ringOf s id = none) (unit kind : Nat) (l : List PendGap) (stop : Time) :
    ∃ n, gapsOut id unit kind l stop s = (s, [], n) := by
  induction l with
  | nil => exact ⟨0, rfl⟩
  | cons g l ih =>
    obtain ⟨n, hn⟩ := ih
    unfold gapsOut
    simp only [publish_ringless h, hn]
    exact ⟨_, rfl⟩

theorem envFrameClose_waits (hv : s.events.envs.find? (fun v => v.id == id) = some v) (h : v.words = [] ∨ since s v.first.2.2 < msC) :
    envFrameClose id s = s := by
  simp only [envFrameClose, hv]
  refine if_neg ?_
  rcases h with h | h
  · simp [h]
  · simp [h]

theorem envFrameClose_due (hv : s.events.envs.find? (fun v => v.id == id) = some v) (hw : v.words ≠ []) (h : msC ≤ since s v.first.2.2) :
    envFrameClose id s = (envClose id s).1 := by
  simp only [envFrameClose, hv]
  exact if_pos (by simp [hw, h])

/-- Two changes of the streams under one number make one. -/
theorem envMod_envMod {f : EnvSt → EnvSt} (hf : ∀ v, (f v).id = v.id) (g : EnvSt → EnvSt) (s : State) :
    envMod id g (envMod id f s) = envMod id (fun v => g (f v)) s := by
  have hmap : lmod (fun v : EnvSt => v.id == id) g (lmod (fun v => v.id == id) f s.events.envs) = lmod (fun v => v.id == id) (fun v => g (f v)) s.events.envs := by
    unfold lmod
    rw [List.map_map]
    refine List.map_congr_left fun v _ => ?_
    by_cases h : v.id = id
    · simp [h, hf]
    · simp [h]
  unfold envMod
  rw [← hmap]

/-- A frame whose ring is gone is dropped with the gap descriptors before it. -/
theorem envClose_ringless (hv : s.events.envs.find? (fun v => v.id == id) = some v) (hw : v.words ≠ []) (hr : ringOf s v.out = none) :
    (envClose id s).1 = envMod id (fun v => { v with gaps := [], words := [], flags := 0 }) s := by
  obtain ⟨n, hn⟩ := gapsOut_ringless hr (0x0500 + v.engine) 2 v.gaps v.first.2.1
  have hid : v.id = id := eq_of_beq (List.find?_some (p := fun v : EnvSt => v.id == id) hv)
  have hgaps : envGaps v v.first.2.1 s = (envMod id (fun v => { v with gaps := [] }) s, true) := by
    simp only [envGaps, hn, hid, List.isEmpty_nil]
  have hempty : ¬ v.words.isEmpty = true := by simpa using hw
  have hpub := publish_ringless (s := envMod id (fun v => { v with gaps := [] }) s) (id := v.out) hr true (envFrame (envMod id (fun v => { v with gaps := [] }) s) v)
  unfold envClose
  simp only [hv, if_neg hempty, hgaps, hpub]
  exact envMod_envMod (f := fun v => { v with gaps := [] }) (fun _ => rfl) _ s

/-- REC.ENVELOPE finds fewer than 64 streams (R213). -/
theorem recEnvelope_room {c : Cmd} (h : Accepts vRecEnvelope c s) : s.events.envs.length < 64 := by
  have hroom := h.clear (x := noRoom (64 ≤ s.events.envs.length) []) (by simp [vRecEnvelope]) (by simp [noRoom, REFUSED_CAPACITY])
  simpa [noRoom] using hroom

end

/-! ### Measurements (R218, R226) -/

section
variable {c : Cmd} {s : State} {e : Nat}

/-- MEAS.RUN finds fewer than 64 jobs in its engine's queue (R226). -/
theorem measRun_room (h : Accepts vMeasRun c s) : (vget s.events.eng (idx c.unit)).jobs.length < 64 := by
  have hbusy := h.clear (x := busy (64 ≤ (vget s.events.eng (idx c.unit)).jobs.length)) (by simp [vMeasRun]) (by simp [busy, BUSY])
  simpa [busy] using hbusy

theorem vMeasRun_act (h : (vget s.events.eng (idx c.unit)).jobs.length < 64) : (vMeasRun.act c s).1 = engMod (idx c.unit)
    (fun g => { g with jobs := g.jobs ++ [(argW c 0 32, argN c 4 1, argN c 5 1, argN c 8 4, 0xFF)] }) s :=
  congrArg Prod.fst (measQueue_joins h)

theorem measComplete_idle (h : (vget s.events.eng e).jobs = []) : measComplete e s = s := by
  simp only [measComplete, h]

/-- The oldest job of an engine is done, with its record and its event if its span still stands (R218). -/
theorem measComplete_oldest {j : BitVec 32 × Nat × Nat × Nat × Nat} {js : List (BitVec 32 × Nat × Nat × Nat × Nat)}
    (h : (vget s.events.eng e).jobs = j :: js) : (measComplete e s).hush =
      (engMod e (fun g => { g with jobs := js, done := wrapAdd 32 g.done 1 }) s).hush := by
  simp only [measComplete, h]
  split
  · rfl
  · refine (raise_hush ..).trans ?_
    split
    · rfl
    · exact offerNow_hush ..

end

/-! ### What the rows leave -/

section
variable {c : Cmd} {s : State} {rec : BitVec 32} {sp : Nat} {p : PinSt}

/-- REC.RING_POLICY (R209, R225). -/
theorem does_recRingPolicy (h : Accepts vRecRingPolicy c s) : Does (.recRingPolicy c) s fun t =>
    (policyOf t (argN c 0 4)).copy = (argN c 4 1 == 1) ∧ (policyOf t (argN c 0 4)).channel = argN c 5 1 ∧
    (policyOf t (argN c 0 4)).copies = (policyOf s (argN c 0 4)).copies ∧ (∀ k, k ≠ argN c 0 4 → policyOf t k = policyOf s k) ∧
    ({ t with events := s.events } : State).hush = s.hush := by
  refine does_of_act h rfl rfl fun k j t ht => ?_
  obtain ⟨f, hact, hf⟩ := vRecRingPolicy_act c { s with kennel := k, junction := j }
  obtain ⟨-, hcopy, hchannel, hcopies⟩ := hf (policyOf s (argN c 0 4))
  rw [hact] at ht
  obtain ⟨hone, hothers⟩ := policyOf_of_hush (fun q => (hf q).1) ht
  rw [hone]
  exact ⟨hcopy, hchannel, hcopies, hothers, hush_update ht (fun x => { x with events := s.events }) fun _ => rfl⟩

/-- REC.RELEASE (R211, R225). -/
theorem does_recRelease (h : Accepts vRecRelease c s) : Does (.recRelease c) s fun t =>
    (∀ p ∈ releaseArg c s, ∃ q ∈ t.events.pins, q.record = p.record ∧ q.span = p.span ∧ q.state = .released ∧ q.complete = true) ∧
    ({ t with events := s.events, fetch := s.fetch } : State).hush = s.hush := by
  refine does_of_act h rfl rfl fun k j t ht => ⟨?_, ?_⟩
  · rw [events_of_hush ht]
    exact releases_free _ fun p hp => ⟨p, (List.mem_filter.mp hp).1, rfl, rfl, trivial⟩
  · exact hush_of_unrecorded ((unrecorded_of_hush ht).trans (foldl_keeps State.unrecorded _ (fun _ _ => pinReleaseNow_unrecorded ..) _ _)) s.events s.fetch

/-- SPAN_COMPLETE over a source that does not run (R208, R212). -/
theorem does_spanComplete {r : RingCtx} (hp : s.events.pins.find? (fun p => p.record == rec && p.span == sp && !p.complete) = some p)
    (hr : ringOf s p.ring = some r) (hopen : p.state = .open_) (hend : p.endTime ≤ now s) (hsrc : sourceRuns s p.ring = false) :
    Does (.spanComplete rec sp) s fun t => (∃ q ∈ t.events.pins, q.record = rec ∧ q.span = sp ∧ q.complete = true ∧ q.state = .pinned) ∧
      ({ t with events := s.events } : State).hush = s.hush := by
  obtain ⟨hthere, hrec, hsp⟩ := SpanIn.of_find? hp
  obtain ⟨v, hv, hmrec, hmsp, hmdone, hmstate⟩ := spanMeasured_frame (rec := rec) (sp := sp) (s := s) (spanClose s (spanTimes s r p) p)
  have hrecord := hmrec.trans (rfl : _ = p.record)
  have hspan := hmsp.trans (rfl : _ = p.span)
  refine does_row rfl fun t ht => ?_
  have hleft := pinSet_leaves (P := fun q => q.complete = true ∧ q.state = .pinned) (by rw [hrecord, hspan]; exact hthere) hv
    ⟨hmdone, hmstate⟩ (ht.trans (spanComplete_closes hp hr hopen hend hsrc))
  rw [hrecord, hspan, hrec, hsp] at hleft
  exact hleft

/-- SPAN_COMPLETE of a span whose ring is gone (R206, R212). -/
theorem does_spanComplete_ringless (hp : s.events.pins.find? (fun p => p.record == rec && p.span == sp && !p.complete) = some p)
    (hr : ringOf s p.ring = none) (hend : p.endTime ≤ now s) :
    Does (.spanComplete rec sp) s fun t => (∃ q ∈ t.events.pins, q.record = rec ∧ q.span = sp ∧ q.complete = true ∧ q.state = .notPinned) ∧
      ({ t with events := s.events } : State).hush = s.hush := by
  obtain ⟨hthere, hrec, hsp⟩ := SpanIn.of_find? hp
  refine does_row rfl fun t ht => ?_
  have hleft := pinSet_leaves (q := { p with complete := true, state := .notPinned }) (v := s.events.eng)
    (P := fun q => q.complete = true ∧ q.state = .notPinned) hthere rfl ⟨rfl, rfl⟩ (ht.trans (spanComplete_ringless hp hr hend))
  exact hrec ▸ hsp ▸ hleft

/-- PIN_COPY_COMPLETE of a copy that is whole and that COPY_RING takes (R209, R212). -/
theorem does_pinCopyComplete (hp : s.events.pins.find? (fun p => p.record == rec && p.span == sp && p.state == .copying) = some p)
    (hwhole : p.blocks ≤ p.copied) (htook : ∀ r, ringOf s p.ring = some r → ∀ e ∈ pinEntries r p, e.pos < p.nextPos)
    (hout : (pinCopyOut true { p with state := .copied } s).isSome = true) : Does (.pinCopyComplete rec sp) s fun t =>
      (∃ q ∈ t.events.pins, q.record = rec ∧ q.span = sp ∧ q.state = .copied) ∧ (policyOf t p.ring).copies = wrapAdd 32 (policyOf s p.ring).copies 1 ∧
      ({ t with events := s.events, fetch := s.fetch } : State).hush = s.hush := by
  obtain ⟨hthere, hrec, hsp⟩ := SpanIn.of_find? hp
  obtain ⟨⟨u, at_⟩, hout⟩ := Option.isSome_iff_exists.mp hout
  obtain ⟨f, hcopied⟩ := pinCopyComplete_copied hp hwhole htook hout
  refine does_row rfl fun t ht => ?_
  have hnow := ht.trans hcopied
  have hspan : SpanIn t.events.pins p.record p.span fun q => q.state = .copied := by
    rw [events_of_hush hnow]
    exact SpanIn.replaced (p := p.asCopied at_) hthere rfl
  have hpolicy : policyOf t p.ring = (policyOf s p.ring).withCopy := (policyOf_of_hush (f := PinPolicy.withCopy) (fun _ => rfl) hnow).1
  exact ⟨hrec ▸ hsp ▸ hspan, congrArg (·.copies) hpolicy,
    hush_of_unrecorded ((unrecorded_of_hush hnow).trans (policyMod_unrecorded ..)) s.events s.fetch⟩

/-- MEAS.RUN (R226). -/
theorem does_measRun (h : Accepts vMeasRun c s) : Does (.measRun c) s fun t => (vget t.events.eng (idx c.unit)).jobs =
    (vget s.events.eng (idx c.unit)).jobs ++ [(argW c 0 32, argN c 4 1, argN c 5 1, argN c 8 4, 0xFF)] ∧ ({ t with events := s.events } : State).hush = s.hush := by
  have hroom := measRun_room h
  refine does_of_act h rfl rfl fun k j t ht => ?_
  have hjoin := ht.trans (congrArg State.hush (vMeasRun_act (s := { s with kennel := k, junction := j }) hroom))
  refine ⟨?_, hush_update hjoin (fun x => { x with events := s.events }) fun _ => rfl⟩
  rw [events_of_hush hjoin]
  exact congrArg (·.jobs) (vget_vmod_same s.events.eng _ (h.eng_lt rfl))

/-- MEAS_COMPLETE (R218). -/
theorem does_measComplete {e : Fin 16} {j : BitVec 32 × Nat × Nat × Nat × Nat} {js : List (BitVec 32 × Nat × Nat × Nat × Nat)}
    (h : (vget s.events.eng e).jobs = j :: js) : Does (.measComplete e) s fun t => (vget t.events.eng e).jobs = js ∧
      (vget t.events.eng e).done = wrapAdd 32 (vget s.events.eng e).done 1 ∧ (vget t.events.eng e).trig = (vget s.events.eng e).trig ∧
      ({ t with events := s.events } : State).hush = s.hush := by
  refine does_row rfl fun t ht => ?_
  have hdone := ht.trans (measComplete_oldest h)
  have heng : vget t.events.eng e = { vget s.events.eng e with jobs := js, done := wrapAdd 32 (vget s.events.eng e).done 1 } := by
    rw [events_of_hush hdone]
    exact vget_vmod_same s.events.eng _ e.isLt
  rw [heng]
  exact ⟨rfl, rfl, rfl, hush_update hdone (fun x => { x with events := s.events }) fun _ => rfl⟩

end

/-- Settles O38, row by row: the policy of a ring, spans under their keys, envelope streams under their numbers, and the jobs of an engine. -/
theorem recordRows : Obligations.RecordRows := by
  unfold Obligations.RecordRows
  intro c s
  refine ⟨does_recRingPolicy, does_recRelease, fun h => ?envelope, fun h => waits_of h rfl rfl, fun rec sp h => ?spanNone,
    fun rec sp p r => does_spanComplete, fun rec sp p => does_spanComplete_ringless, fun rec sp p hp hshort => ?copyShort,
    fun rec sp p => does_pinCopyComplete, fun id v hv h => ?envWaits, fun id v hv hw hdue => ?envCloses, fun id v hv hw hdue hr => ?envRingless,
    fun h => answers_of_act h rfl rfl fun _ _ => rfl, does_measRun, fun e j js => does_measComplete, fun e h => ?measIdle⟩
  case envelope =>
    obtain ⟨-, -, hfree⟩ := lowFree_lowest (n := 64) (used := s.events.envs.map (·.id)) (by simpa using recEnvelope_room h)
    exact ⟨envOfArgs c s, fun w hw heq => hfree (List.mem_map.mpr ⟨w, hw, heq⟩), rfl, rfl, rfl, rfl, rfl, answers_of_act h rfl rfl fun _ _ => rfl⟩
  case spanNone => exact (congrArg (settle s) (spanComplete_none h)).trans (settle_quiet rfl)
  case copyShort => exact (congrArg (settle s) (pinCopyComplete_short hp hshort)).trans (settle_quiet rfl)
  case envWaits => exact (congrArg (settle s) (envFrameClose_waits hv h)).trans (settle_quiet rfl)
  case envCloses =>
    refine does_row (congrArg (settle s) (envFrameClose_due hv hw hdue)) fun t ht => ?_
    exact hush_of_unrecorded ((unrecorded_of_hush ht).trans (envClose_unrecorded ..)) s.events s.fetch
  case envRingless =>
    have hclose := (envFrameClose_due hv hw hdue).trans (envClose_ringless hv hw hr)
    exact does_quiet (congrArg (settle s) hclose) rfl ⟨rfl, rfl⟩
  case measIdle => exact (congrArg (settle s) (measComplete_idle h)).trans (settle_quiet rfl)

end Sys2Proof.Machine
end

section
/-! The scan-out head: link training, commits and the DISP verbs (R248 to R252, R257, R258, R262, R268). -/
namespace Sys2Proof.Machine
open Sys2Proof

/-! ### What events and answers leave of the head -/

theorem disp_of_hush {s t : State} (h : s.hush = t.hush) : s.disp = t.disp := by injection h
theorem synth_of_hush {s t : State} (h : s.hush = t.hush) : s.synth = t.synth := by injection h
theorem banks_of_hush {s t : State} (h : s.hush = t.hush) : s.banks = t.banks := by injection h
theorem grade_of_hush {s t : State} (h : s.hush = t.hush) : s.grade = t.grade := by injection h

/-- A change of the head keeps two states alike. -/
theorem dispMod_hush {s t : State} (h : s.hush = t.hush) (f : DispSt → DispSt) : (dispMod f s).hush = (dispMod f t).hush :=
  hush_update h (dispMod f) fun _ => rfl

theorem dispMod_dispMod (f g : DispSt → DispSt) (s : State) : dispMod g (dispMod f s) = dispMod (fun d => g (f d)) s := rfl

/-- A row that raises no record answers what it makes. -/
theorem exec_quiet {i : Instr} {s t u : State} (hi : exec i s = settle s t) (ht : t = u) (hu : u.ev.raised = s.ev.raised) : exec i s = .next u := by
  rw [hi, ht, settle_quiet hu]

/-- A row that changes the head leaves it changed and all else as it was, but for what the delivery of its records touches. -/
theorem does_dispMod {i : Instr} {s t : State} {f : DispSt → DispSt} {P : State → Prop} (hi : exec i s = settle s t)
    (ht : t.hush = (dispMod f s).hush) (hp : ∀ u : State, u.disp = f s.disp → ({ u with disp := s.disp } : State).hush = s.hush → P u) : Does i s P :=
  does_row hi fun u hu => hp u (disp_of_hush (hu.trans ht)) (hush_update (hu.trans ht) (fun x => { x with disp := s.disp }) fun _ => rfl)

/-- States that are alike are alike beyond the head and the synthesisers. -/
theorem hush_beyond {s t : State} (h : s.hush = t.hush) (d : DispSt) (y : SynthsSt) :
    ({ s with disp := d, synth := y } : State).hush = ({ t with disp := d, synth := y } : State).hush :=
  hush_update h (fun x => { x with disp := d, synth := y }) fun _ => rfl

/-! ### Training (R252) -/

@[simp] theorem evTrain_hush (type : Nat) (s : State) : (evTrain type s).hush = s.hush := raise_hush ..

@[simp] theorem enableDone_hush (st : Nat) (s : State) : (enableDone st s).hush = (dispMod (fun d => { d with enabling := [] }) s).hush :=
  foldl_keeps State.hush _ (fun _ _ => complete_hush ..) _ _

/-- Training that fails answers the ENABLE commands that wait (R252 step 6). -/
theorem trainFail_hush (s : State) :
    (trainFail s).hush = (dispMod (fun d => { d with train := .fail, pattern := 0, stopped := true, enabling := [] }) s).hush :=
  (enableDone_hush ..).trans (dispMod_hush (evTrain_hush ..) _)

/-- Step 1 of R252 takes the link over and queues the writes of its configuration to the sink. -/
theorem trainSetup_eq (r l : Nat) (s : State) : ∃ q, trainSetup r l s = dispMod (fun d =>
    { d with rate := r, lanes := l, train := .setup, tries := 0, pattern := 0, drive := (0, 0), stopped := true, aux := q }) s := ⟨_, rfl⟩

/-- The commit that the next frame awaits (R258). -/
def DispSt.nextCommit (d : DispSt) : Option (Nat × DispState) := d.pending.find? fun p => p.1 == (d.frame + 1).toNat

theorem pendingTake_none {s : State} (h : s.disp.nextCommit = none) : pendingTake s = s := by
  unfold DispSt.nextCommit at h
  simp only [pendingTake, dispMod, h]

/-- Training does not start on a head that is disabled or sees no sink. -/
theorem trainStart_idle {s : State} (h : s.disp.enabled = false ∨ s.disp.hpd = false) : trainStart s = s := by
  unfold trainStart
  rcases h with h | h <;> simp [h]

/-- Training begins on the link that R251 chooses. -/
theorem trainStart_chosen {s : State} {r l : Nat} (hon : s.disp.enabled = true) (hsink : s.disp.hpd = true) (hnext : s.disp.nextCommit = none)
    (hlink : dpChoose s.disp.committed.timing s.disp.sink = some (r, l)) : trainStart s = trainSetup r l s := by
  unfold trainStart
  simp [hon, hsink, pendingTake_none hnext, hlink]

/-- What training leaves of the head: its staged and committed state, the commits that wait, and the frame. -/
def DispSt.scene (d : DispSt) : DispState × DispState × List (Nat × DispState) × Bool × BitVec 32 :=
  (d.staged, d.committed, d.pending, d.flipDue, d.frame)

/-- What is done about the link leaves the head's scene, and all that lies beyond the head and the synthesisers. -/
structure LinkStep (s t : State) : Prop where
  scene : t.disp.scene = s.disp.scene
  beyond : ∀ d y, ({ t with disp := d, synth := y } : State).hush = ({ s with disp := d, synth := y } : State).hush

namespace LinkStep
variable {s t u : State}

theorem refl (s : State) : LinkStep s s := ⟨rfl, fun _ _ => rfl⟩

theorem trans (h : LinkStep s t) (h' : LinkStep t u) : LinkStep s u :=
  ⟨h'.scene.trans h.scene, fun d y => (h'.beyond d y).trans (h.beyond d y)⟩

theorem of_hush {f : DispSt → DispSt} (hf : (f s.disp).scene = s.disp.scene) (h : t.hush = (dispMod f s).hush) : LinkStep s t :=
  ⟨(congrArg DispSt.scene (disp_of_hush h)).trans hf, fun d y => hush_beyond h d y⟩

theorem of_dispMod {f : DispSt → DispSt} (hf : (f s.disp).scene = s.disp.scene) : LinkStep s (dispMod f s) := of_hush hf rfl

theorem parts (h : LinkStep s t) : t.disp.staged = s.disp.staged ∧ t.disp.committed = s.disp.committed ∧ t.disp.pending = s.disp.pending ∧
    t.disp.flipDue = s.disp.flipDue ∧ t.disp.frame = s.disp.frame := by
  simpa [DispSt.scene] using h.scene

theorem nextCommit (h : LinkStep s t) : t.disp.nextCommit = s.disp.nextCommit := by
  obtain ⟨-, -, hpending, -, hframe⟩ := h.parts
  unfold DispSt.nextCommit
  rw [hpending, hframe]

end LinkStep

@[simp] theorem dssRelock_disp (s : State) : (dssRelock s).disp = s.disp := rfl

theorem dssRelock_linkStep (s : State) : LinkStep s (dssRelock s) := ⟨rfl, fun _ _ => rfl⟩

theorem trainFail_linkStep (s : State) : LinkStep s (trainFail s) := .of_hush rfl (trainFail_hush s)

theorem trainSetup_linkStep (r l : Nat) (s : State) : LinkStep s (trainSetup r l s) := by
  obtain ⟨q, hq⟩ := trainSetup_eq r l s
  exact .of_hush rfl (congrArg State.hush hq)

theorem trainStart_linkStep {s : State} (hnext : s.disp.nextCommit = none) : LinkStep s (trainStart s) := by
  unfold trainStart
  split
  · exact .refl s
  · rw [pendingTake_none hnext]
    dsimp only
    split
    · exact trainFail_linkStep s
    · exact trainSetup_linkStep _ _ s

/-- Training that starts after such a step is one more. -/
theorem LinkStep.trainStart {s t : State} (h : LinkStep s t) (hnext : s.disp.nextCommit = none) : LinkStep s (trainStart t) :=
  h.trans (trainStart_linkStep (h.nextCommit.trans hnext))

/-! ### Commits (R257, R258, R262) -/

/-- A commit taken: what commitApply does before it looks at the link. -/
def commitTaken (st : DispState) (s : State) : State :=
  dispMod (fun d => { d with committed := st, flipDue := true, scanning := Vector.replicate 4 none }) s

theorem commitApply_off {st : DispState} {s : State} (h : s.disp.enabled = false) : commitApply st s = commitTaken st s :=
  if_pos (by rw [dispMod, h]; rfl)

/-- Whatever a commit brings about on the link, it is the committed state, and no other commit moves. -/
theorem commitApply_linkStep {s : State} (st : DispState) (hnext : s.disp.nextCommit = none) : LinkStep (commitTaken st s) (commitApply st s) := by
  have htaken : (commitTaken st s).disp.nextCommit = none := hnext
  have hmode (b : Bool) : LinkStep (commitTaken st s) (dispMod (fun d => { d with modeChanged := d.modeChanged || b }) (commitTaken st s)) := .of_dispMod rfl
  have hstop {u : State} (h : LinkStep (commitTaken st s) u) :
      LinkStep (commitTaken st s) (dssRelock (dispMod (fun d => { d with stopped := true }) u)) :=
    (h.trans (.of_dispMod rfl)).trans (dssRelock_linkStep _)
  unfold commitApply
  dsimp only
  rw [← commitTaken]
  generalize commitTaken st s = u at *
  split
  · exact .refl _
  split
  · exact (hstop (hmode _)).trainStart htaken
  split
  · exact hstop (hmode _)
  · exact hmode _

/-! ### The DISP verbs (R257, R258, R268) -/

section
variable {c : Cmd} {s : State}

theorem vDispCommit_off (h : s.disp.enabled = false) : vDispCommit.act c s = okWith (commitTaken s.disp.staged s) (le 4 1 ++ le 4 0) :=
  (if_pos (by rw [h]; rfl)).trans (congrArg (okWith · _) (commitApply_off h))

/-- While video is stopped a commit takes effect and replaces those that wait. -/
theorem vDispCommit_stopped (hon : s.disp.enabled = true) (hstop : s.disp.stopped = true) :
    (vDispCommit.act c s).1 = commitApply s.disp.staged (dispMod (fun d => { d with pending := [] }) s) := by
  simp only [vDispCommit, hon, hstop, Bool.not_true, Bool.false_eq_true, if_true, if_false, okWith]

/-- TARGET_FRAME of a commit while the head shows video (R257). -/
def commitTarget (s : State) : Nat :=
  (s.disp.frame + (if dispLine s < fld s.disp.committed.timing 79 64 - 64 then 1 else 2)).toNat

/-- A commit while the head shows video waits for its target, in place of one that waited for the same (R258). -/
theorem vDispCommit_shown (hon : s.disp.enabled = true) (hstop : s.disp.stopped = false) :
    ∃ n, (vDispCommit.act c s).1.hush = (dispMod (fun d => { d with
      pending := (s.disp.pending.filter fun p => p.1 != commitTarget s) ++ [(commitTarget s, s.disp.staged)], lateCommits := n }) s).hush := by
  by_cases hline : dispLine s < fld s.disp.committed.timing 79 64 - 64
  · refine ⟨s.disp.lateCommits, ?_⟩
    simp [vDispCommit, tVactive, commitTarget, hon, hstop, hline, okWith, dispMod]
  · refine ⟨wrapAdd 32 s.disp.lateCommits 1, ?_⟩
    simp [vDispCommit, tVactive, commitTarget, hon, hstop, hline, okWith, dispMod]

/-- DISP.ENABLE 0 turns the head and DSS off, and answers the ENABLE commands that wait. -/
theorem vDispEnable_off (h : argN c 0 1 = 0) : (vDispEnable.act c s).1.hush = ({ s with
    disp := { s.disp with enabled := false, train := .off, pattern := 0, stopped := true, pending := [], enabling := [],
                          committed := ((s.disp.pending.getLast?).map (·.2)).getD s.disp.committed }
    synth := { s.synth with loop := vmod s.synth.loop 3 fun l => { l with lock := .off } } } : State).hush := by
  simp only [vDispEnable, h, if_true, ok]
  exact enableDone_hush ..

theorem vDispEnable_trained (h : argN c 0 1 = 1) (hon : s.disp.enabled = true) (htrain : s.disp.train = .trained) : vDispEnable.act c s = ok s := by
  simp [vDispEnable, h, hon, htrain]

/-- A head that DISP.ENABLE 1 has turned on: DSS acquires, frames count anew, and the command waits. -/
def headOn (c : Cmd) (s : State) : State :=
  dispMod (fun d => { d with enabled := true, enabling := d.enabling ++ [c], frame := 0, stopped := true,
                             train := if d.train == .fail then .off else d.train }) (dssRelock s)

/-- Training begins as soon as the head is on, unless it is still reading the sink (R249). -/
theorem vDispEnable_on (h : argN c 0 1 = 1) (hoff : s.disp.enabled = false) :
    vDispEnable.act c s = later (if sinkAsked s then headOn c s else trainStart (headOn c s)) := by
  refine (if_neg (by omega)).trans ((if_neg (by simp [hoff])).trans ?_)
  simp only [headOn, dispMod, dssRelock_disp, hoff, Bool.false_eq_true, if_false, Bool.false_and, Bool.false_or]
  rfl

theorem vDispEnable_waits (h : argN c 0 1 = 1) (hoff : s.disp.enabled = false) (hwait : s.disp.hpd = false ∨ sinkAsked s = true) :
    vDispEnable.act c s = later (headOn c s) := by
  rw [vDispEnable_on h hoff]
  refine congrArg later ?_
  split
  · rfl
  · next hask => exact trainStart_idle (.inr (hwait.resolve_right hask))

theorem vDispEnable_trains {r l : Nat} (h : argN c 0 1 = 1) (hoff : s.disp.enabled = false) (hsink : s.disp.hpd = true) (hask : sinkAsked s = false)
    (hnone : s.disp.pending = []) (hlink : dpChoose s.disp.committed.timing s.disp.sink = some (r, l)) :
    vDispEnable.act c s = later (trainSetup r l (headOn c s)) := by
  rw [vDispEnable_on h hoff, if_neg (ne_true_of_eq_false hask)]
  exact congrArg later (trainStart_chosen rfl hsink (congrArg (List.find? _) hnone) hlink)

/-- A transfer that DISP.AUX asks for (R268). -/
def auxOf (c : Cmd) (data : Bytes) (s : State) : AuxRun :=
  { cmd := some c, kind := argN c 0 1, addr := argN c 4 4, len := argN c 8 2, done := 0, buffer := argN c 16 6, data := data, tries := 0, since := s.cyc }

theorem vDispAux_read (heven : argN c 0 1 % 2 = 0) : vDispAux.act c s = later (auxAsk (auxOf c [] s) s) := if_pos heven

/-- A write takes the bytes of its buffer when the command is taken. -/
theorem vDispAux_write {b : Bytes} (hodd : argN c 0 1 % 2 = 1) (hb : kennelRead s (argN c 16 6) (argN c 8 2) = some b) :
    vDispAux.act c s = later (auxAsk (auxOf c b s) (kennelNote (argN c 16 6) (argN c 8 2) s)) := by
  refine (if_neg (by omega)).trans ?_
  simp only [hb]
  rfl

/-! ### What the verbs leave -/

/-- A commit on a head whose video is stopped (R258). -/
theorem does_dispCommit_stopped (h : Accepts vDispCommit c s) (hon : s.disp.enabled = true) (hstop : s.disp.stopped = true) :
    Does (.dispCommit c) s fun t =>
      t.disp.committed = s.disp.staged ∧ t.disp.staged = s.disp.staged ∧ t.disp.pending = [] ∧ t.disp.flipDue = true ∧ t.disp.frame = s.disp.frame ∧
      ({ t with disp := s.disp, synth := s.synth } : State).hush = s.hush := by
  refine does_of_act h rfl rfl fun k j t ht => ?_
  have hact := ht.trans (congrArg State.hush (vDispCommit_stopped (s := { s with kennel := k, junction := j }) hon hstop))
  have hstep := commitApply_linkStep (s := dispMod (fun d => { d with pending := [] }) { s with kennel := k, junction := j }) s.disp.staged rfl
  obtain ⟨hstaged, hcommitted, hpending, hflip, hframe⟩ := hstep.parts
  rw [disp_of_hush hact]
  exact ⟨hcommitted, hstaged, hpending, hflip, hframe,
    (hush_beyond hact s.disp s.synth).trans (hstep.beyond s.disp s.synth)⟩

/-- A commit on a head that shows video (R257, R258). -/
theorem does_dispCommit_shown (h : Accepts vDispCommit c s) (hon : s.disp.enabled = true) (hstop : s.disp.stopped = false) :
    Does (.dispCommit c) s fun t =>
      t.disp.committed = s.disp.committed ∧ t.disp.staged = s.disp.staged ∧
      t.disp.pending = (s.disp.pending.filter fun p => p.1 != commitTarget s) ++ [(commitTarget s, s.disp.staged)] ∧
      ({ t with disp := s.disp } : State).hush = s.hush := by
  refine does_of_act h rfl rfl fun k j t ht => ?_
  obtain ⟨n, hn⟩ := vDispCommit_shown (c := c) (s := { s with kennel := k, junction := j }) hon hstop
  have hact := ht.trans hn
  rw [disp_of_hush hact]
  exact ⟨rfl, rfl, rfl, hush_update hact (fun x => { x with disp := s.disp }) fun _ => rfl⟩

/-- DISP.ENABLE 0 (R268). -/
theorem does_dispEnable_off (h : Accepts vDispEnable c s) (h0 : argN c 0 1 = 0) : Does (.dispEnable c) s fun t =>
    t.disp.enabled = false ∧ t.disp.train = .off ∧ t.disp.pending = [] ∧ t.disp.enabling = [] ∧ t.disp.staged = s.disp.staged ∧
    (vget t.synth.loop 3).lock = .off ∧ ({ t with disp := s.disp, synth := s.synth } : State).hush = s.hush := by
  refine does_of_act h rfl rfl fun k j t ht => ?_
  have hact := ht.trans (vDispEnable_off h0)
  rw [disp_of_hush hact, synth_of_hush hact]
  exact ⟨rfl, rfl, rfl, rfl, rfl, congrArg (·.lock) (vget_vmod_same s.synth.loop _ (by decide)),
    hush_beyond hact s.disp s.synth⟩

/-- DISP.ENABLE 1 with no sink, or with one that is still being read (R249, R268). -/
theorem does_dispEnable_waits (h : Accepts vDispEnable c s) (h1 : argN c 0 1 = 1) (hoff : s.disp.enabled = false)
    (hwait : s.disp.hpd = false ∨ sinkAsked s = true) : Does (.dispEnable c) s fun t =>
    t.disp.enabled = true ∧ t.disp.enabling = s.disp.enabling ++ [c] ∧ t.disp.frame = 0 ∧ t.disp.stopped = true ∧
    (vget t.synth.loop 3).lock = .acquiring ∧ ({ t with disp := s.disp, synth := s.synth } : State).hush = s.hush := by
  refine does_of_act h rfl rfl fun k j t ht => ?_
  have hact := ht.trans (congrArg (fun p => p.1.hush) (vDispEnable_waits (s := { s with kennel := k, junction := j }) h1 hoff hwait))
  rw [disp_of_hush hact, synth_of_hush hact]
  exact ⟨rfl, rfl, rfl, rfl, congrArg (·.lock) (vget_vmod_same s.synth.loop _ (by decide)),
    hush_beyond hact s.disp s.synth⟩

/-- DISP.ENABLE 1 with a sink that has been read (R251, R252). -/
theorem does_dispEnable_trains {r l : Nat} (h : Accepts vDispEnable c s) (h1 : argN c 0 1 = 1) (hoff : s.disp.enabled = false) (hsink : s.disp.hpd = true)
    (hask : sinkAsked s = false) (hnone : s.disp.pending = []) (hlink : dpChoose s.disp.committed.timing s.disp.sink = some (r, l)) :
    Does (.dispEnable c) s fun t =>
      t.disp.enabled = true ∧ t.disp.enabling = s.disp.enabling ++ [c] ∧ t.disp.train = .setup ∧ t.disp.rate = r ∧ t.disp.lanes = l ∧
      t.disp.tries = 0 ∧ t.disp.frame = 0 ∧ ({ t with disp := s.disp, synth := s.synth } : State).hush = s.hush := by
  refine does_of_act h rfl rfl fun k j t ht => ?_
  obtain ⟨q, hq⟩ := trainSetup_eq r l (headOn c { s with kennel := k, junction := j })
  have hact := ht.trans (congrArg (fun p => p.1.hush)
    (vDispEnable_trains (s := { s with kennel := k, junction := j }) h1 hoff hsink hask hnone hlink))
  rw [later, hq] at hact
  rw [disp_of_hush hact]
  exact ⟨rfl, rfl, rfl, rfl, rfl, rfl, rfl, hush_beyond hact s.disp s.synth⟩

end

/-- Settles O42, verb by verb: an act on the staged state, a commit in each of the three states of the head, what ENABLE sets off on the link, and a
transfer that joins the queue. -/
theorem displayVerbs : Obligations.DisplayVerbs := by
  unfold Obligations.DisplayVerbs
  intro c s
  exact ⟨fun h => answers_of_act h rfl rfl fun _ _ => rfl, fun h => answers_of_act h rfl rfl fun _ _ => rfl,
    fun h hoff => answers_of_act h rfl rfl fun _ _ => vDispCommit_off hoff, does_dispCommit_stopped, does_dispCommit_shown, does_dispEnable_off,
    fun h h1 hon htrain => answers_of_act h rfl rfl fun _ _ => vDispEnable_trained h1 hon htrain, does_dispEnable_waits, fun _ _ => does_dispEnable_trains,
    fun h heven => waits_of h rfl (vDispAux_read heven), fun _ h hodd hb => waits_of h rfl (vDispAux_write hodd hb)⟩

end Sys2Proof.Machine
end

section
/-! The scan-out head: AUX replies, hot plug, tries of training, blanks, frames and underruns (R249, R250, R252, R256 to R262). -/
namespace Sys2Proof.Machine
open Sys2Proof

/-! ### AUX (R250, R268) -/

section
variable {s : State} {a : AuxRun} {as : List AuxRun} {c : Cmd}

theorem auxReply_idle (h : s.disp.aux = []) (r : AuxReply) : auxReply r s = s := by
  simp only [auxReply, h]

theorem auxTimeout_idle (h : s.disp.aux = []) : auxTimeout s = s := by
  simp only [auxTimeout, h]

theorem auxReply_defer (h : s.disp.aux = a :: as) : auxReply .defer s = auxFail a s := by
  simp only [auxReply, h]

theorem auxTimeout_early (h : s.disp.aux = a :: as) (hearly : s.cyc - a.since < 40000) : auxTimeout s = s := by
  simp only [auxTimeout, h]
  exact if_pos hearly

theorem auxTimeout_due (h : s.disp.aux = a :: as) (hdue : 40000 ≤ s.cyc - a.since) : auxTimeout s = auxFail a s := by
  simp only [auxTimeout, h]
  exact if_neg (Nat.not_lt.mpr hdue)

/-- A transaction that has failed fewer than 7 times is tried again. -/
theorem auxFail_again (h : s.disp.aux = a :: as) (htries : a.tries < 7) :
    auxFail a s = { s with disp := { s.disp with aux := { a with tries := a.tries + 1, since := s.cyc } :: as } } := by
  simp only [auxFail, htries, if_true, dispMod, h, List.drop_succ_cons, List.drop_zero]

/-- After 7 retries the command ends with TIMEOUT and the bytes transferred. -/
theorem auxFail_ends (hcmd : a.cmd = some c) (htries : 7 ≤ a.tries) : auxFail a s = complete c 0x0D05 TIMEOUT (le 2 a.done) (auxNext s) := by
  simp only [auxFail, Nat.not_lt.mpr htries, if_false, hcmd]

theorem length_auxNext (h : s.disp.aux = a :: as) : (auxNext s).disp.aux.length = as.length := by
  cases as <;> simp [auxNext, dispMod, h]

/-- The bytes of an acknowledged read go to the buffer, and the transfer goes on behind them. -/
theorem auxReply_ackRead {l : Bytes} (h : s.disp.aux = a :: as) (hcmd : a.cmd = some c) (hread : a.kind % 2 = 0) (hne : l ≠ [])
    (hlen : l.length = auxChunk a) (hmore : a.done + l.length < a.len) : auxReply (.ack l) s =
      dispMod (fun d => { d with aux := { a with done := a.done + l.length, tries := 0, since := (destWrite (a.buffer + a.done) l s).cyc } :: as })
        (destWrite (a.buffer + a.done) l s) := by
  simp [auxReply, h, hcmd, hread, ← hlen, hne, hmore]

/-- An acknowledged write goes on behind its 16 bytes. -/
theorem auxReply_ackWrite (h : s.disp.aux = a :: as) (hcmd : a.cmd = some c) (hwrite : a.kind % 2 = 1) (hmore : a.done + 16 < a.len) (l : Bytes) :
    auxReply (.ack l) s = { s with disp := { s.disp with aux := { a with done := a.done + 16, tries := 0, since := s.cyc } :: as } } := by
  have hchunk : auxChunk a = 16 := Nat.min_eq_left (by omega)
  simp [auxReply, h, hcmd, hwrite, hchunk, hmore, dispMod]

end

/-! ### Hot plug (R249) -/

section
variable {s : State}

theorem hpdFall_low (h : s.disp.hpd = false) : hpdFall s = s := if_pos (by simp [h])

theorem hpdFall_high (h : s.disp.hpd = true) : hpdFall s = dispMod (fun d => { d with hpd := false, hpdFell := some s.cyc }) s := if_neg (by simp [h])

theorem hpdUnplug_stays (h : s.disp.hpd = true ∨ s.disp.unplugged = true) : hpdUnplug s = s := by
  unfold hpdUnplug
  rcases h with h | h <;> simp [h]

/-- A low period that is shorter than 2 ms is no unplug. -/
theorem hpdUnplug_short {f : Nat} (hfell : s.disp.hpdFell = some f) (hshort : since s f < 200000) : hpdUnplug s = s := by
  have hlow : ¬ 2 * msC ≤ since s f := Nat.not_le.mpr hshort
  exact if_pos (by simp [hfell, hlow])

/-- HPD low for 2 ms is an unplug: the sink is forgotten, video stops and the link is off. -/
theorem hpdUnplug_due {f : Nat} (hlow : s.disp.hpd = false) (hin : s.disp.unplugged = false) (hfell : s.disp.hpdFell = some f)
    (hdue : f + 200000 ≤ s.cyc) : (hpdUnplug s).hush =
      (dispMod (fun d => { d with unplugged := true, stopped := true, sink := none, pattern := 0,
                                  train := if d.train == .fail then .fail else .off }) s).hush := by
  have hlong : 2 * msC ≤ since s f := by unfold since msC; omega
  refine (congrArg State.hush (if_neg ?_)).trans (raise_hush ..)
  simp [hlow, hin, hfell, hlong]

theorem hpdRise_high (h : s.disp.hpd = true) : hpdRise s = s := if_pos h

/-- The head's own read of the sink's capabilities. -/
def sinkQuery (s : State) : AuxRun := { cmd := none, kind := 0, addr := 0, len := 16, done := 0, buffer := 0, tries := 0, since := s.cyc }

/-- A rise after an unplug is a plug: the read of the sink joins the AUX queue. -/
theorem hpdRise_plug (hlow : s.disp.hpd = false) (hout : s.disp.unplugged = true) : (hpdRise s).hush =
    (dispMod (fun d => { d with hpd := true, hpdFell := none, unplugged := false, aux := d.aux ++ [sinkQuery s] }) s).hush := by
  have hrise : hpdRise s = auxAsk (sinkQuery s) (raise 0x8C 1 0x0700 []
      (dispMod (fun d => { d with hpd := true, hpdFell := none, unplugged := false }) s)) := by
    simp only [hpdRise, hlow, hpdUnplug_stays (.inr hout), hout, Bool.false_eq_true, if_false, if_true]
    rfl
  rw [hrise]
  exact dispMod_hush (raise_hush ..) _

/-- A low period that is shorter than 0.25 ms passes unnoticed on a head that trains or has trained. -/
theorem hpdRise_glitch {f : Nat} (hlow : s.disp.hpd = false) (hin : s.disp.unplugged = false) (hfell : s.disp.hpdFell = some f)
    (hshort : since s f < 25000) (htrain : s.disp.train ≠ .off) : hpdRise s = { s with disp := { s.disp with hpd := true, hpdFell := none } } := by
  have hbrief : ¬ 25000 ≤ since s f := Nat.not_le.mpr hshort
  simp [hpdRise, hlow, hpdUnplug_short hfell (by omega), hin, hfell, dispMod, htrain, hbrief]

end

/-! ### Tries of training (R252) -/

section
variable {s : State} {want : Fin 4 × Fin 4}

theorem dssLocked_iff : dssLocked s = true ↔ (vget s.synth.loop 3).lock = .locked := by simp [dssLocked]

theorem trainStep_idle {pass : Bool} (h : (s.disp.train ≠ .clock ∧ s.disp.train ≠ .equal) ∨ (vget s.synth.loop 3).lock ≠ .locked) :
    trainStep pass want s = s := by
  refine if_pos ?_
  rcases h with ⟨hclock, hequal⟩ | hlock
  · simp [hclock, hequal]
  · simp [dssLocked, hlock]

theorem trainStep_clockPass (htrain : s.disp.train = .clock) (hlock : dssLocked s = true) :
    trainStep true want s = dispMod (fun d => { d with train := .equal, tries := 0, pattern := eqPattern d }) s := by
  simp [trainStep, htrain, hlock]

/-- A passed equalisation trains the link and answers the ENABLE commands that wait. -/
theorem trainStep_equalPass (htrain : s.disp.train = .equal) (hlock : dssLocked s = true) :
    (trainStep true want s).hush = (dispMod (fun d => { d with train := .trained, tries := 0, pattern := 0, enabling := [] }) s).hush := by
  have hstep : trainStep true want s = enableDone OK (evTrain 1 (dispMod (fun d => { d with train := .trained, tries := 0, pattern := 0 }) s)) := by
    simp [trainStep, htrain, hlock]
  rw [hstep]
  exact (enableDone_hush ..).trans (dispMod_hush (evTrain_hush ..) _)

/-- A failed try of clock recovery whose sink asks for another drive counts anew at that drive. -/
theorem trainStep_newDrive (htrain : s.disp.train = .clock) (hlock : dssLocked s = true) (hdrive : driveOf want ≠ s.disp.drive) :
    trainStep false want s = dispMod (fun d => { d with drive := driveOf want, tries := 0 }) s := by
  simp [trainStep, htrain, hlock, hdrive, dispMod]

/-- A failed try of equalisation, or of clock recovery at the same drive. -/
def TriesOn (want : Fin 4 × Fin 4) (d : DispSt) : Prop := d.train = .equal ∨ (d.train = .clock ∧ driveOf want = d.drive)

theorem TriesOn.sameDrive (h : TriesOn want s.disp) : (s.disp.train == .clock && driveOf want != s.disp.drive) = false := by
  rcases h with h | ⟨-, h⟩ <;> simp [h]

theorem TriesOn.trying (h : TriesOn want s.disp) (hlock : dssLocked s = true) :
    (!(s.disp.train == .clock || s.disp.train == .equal) || !dssLocked s) = false := by
  rcases h with h | ⟨h, -⟩ <;> simp [h, hlock]

/-- A try that fails and leaves more to come at its drive. -/
theorem trainStep_counts (h : TriesOn want s.disp) (hlock : dssLocked s = true) (hmore : s.disp.tries < 4) :
    trainStep false want s = dispMod (fun d => { d with drive := driveOf want, tries := d.tries + 1 }) s := by
  have hleft : s.disp.tries + 1 < 5 := by omega
  simp only [trainStep, h.trying hlock, h.sameDrive, hleft, Bool.false_eq_true, if_false, if_true, dispMod_dispMod]

/-- The fifth failed try on a fixed link is the end of training. -/
theorem trainStep_fixed (h : TriesOn want s.disp) (hlock : dssLocked s = true) (hlast : 4 ≤ s.disp.tries) (hfixed : tAuto s.disp.committed.timing = false) :
    trainStep false want s = trainFail (dispMod (fun d => { d with drive := driveOf want }) s) := by
  have hspent : ¬ s.disp.tries + 1 < 5 := by omega
  simp only [trainStep, h.trying hlock, h.sameDrive, hspent, hfixed, Bool.false_eq_true, Bool.not_false, if_false, if_true]

/-- The fifth failed try under AUTO_LINK takes the next link of R252 step 4. -/
theorem trainStep_fallback {r l : Nat} (h : TriesOn want s.disp) (hlock : dssLocked s = true) (hlast : 4 ≤ s.disp.tries)
    (hauto : tAuto s.disp.committed.timing = true) (hnext : dpFallback s.disp.committed.timing s.disp.sink s.disp.rate s.disp.lanes = some (r, l)) :
    trainStep false want s = evTrain 2 (trainSetup r l (dispMod (fun d => { d with drive := driveOf want }) s)) := by
  have hspent : ¬ s.disp.tries + 1 < 5 := by omega
  simp only [trainStep, h.trying hlock, h.sameDrive, hspent, hauto, hnext, Bool.false_eq_true, Bool.not_true, if_false]

end

/-! ### Blanks (R257, R258) -/

section
variable {s : State}

theorem verticalBlank_idle (h : s.disp.enabled = false ∨ s.disp.stopped = true) : verticalBlank s = s :=
  if_pos (by rcases h with h | h <;> simp [h])

theorem verticalBlank_noCommit (hon : s.disp.enabled = true) (hstop : s.disp.stopped = false) (hnext : s.disp.nextCommit = none) :
    verticalBlank s = dispMod (fun d => { d with msa := some d.committed.timing }) s := by
  unfold DispSt.nextCommit at hnext
  refine (if_neg (by simp [hon, hstop])).trans ?_
  simp only [hnext]

theorem verticalBlank_commit {p : Nat × DispState} (hon : s.disp.enabled = true) (hstop : s.disp.stopped = false) (hnext : s.disp.nextCommit = some p) :
    verticalBlank s = dispMod (fun d => { d with msa := some d.committed.timing })
      (commitApply p.2 (dispMod (fun d => { d with pending := d.pending.filter fun q => q.1 != p.1 }) s)) := by
  unfold DispSt.nextCommit at hnext
  refine (if_neg (by simp [hon, hstop])).trans ?_
  simp only [hnext]

/-- Without the commits of its frame, nothing waits for the next frame. -/
theorem nextCommit_taken {d : DispSt} {p : Nat × DispState} (hnext : d.nextCommit = some p) :
    ({ d with pending := d.pending.filter fun q => q.1 != p.1 } : DispSt).nextCommit = none := by
  have hp : p.1 = (d.frame + 1).toNat := eq_of_beq (List.find?_some (p := fun q : Nat × DispState => q.1 == (d.frame + 1).toNat) hnext)
  simp [DispSt.nextCommit, hp]

end

/-! ### Frames and underruns (R256, R259 to R262, R264) -/

section
variable {s : State}

theorem dispAddrOk_congr {t : State} (hgrade : t.grade = s.grade) (hbanks : t.banks = s.banks) : dispAddrOk t = dispAddrOk s := by
  funext a
  simp only [dispAddrOk, hgrade, hbanks]

/-- Which layers are denied rests on the committed state and the banks. -/
theorem layerDenied_congr {t : State} (hcommitted : t.disp.committed = s.disp.committed) (hgrade : t.grade = s.grade) (hbanks : t.banks = s.banks) (n : Nat) :
    layerDenied t n = layerDenied s n := by
  simp only [layerDenied, layerHeld, dispAddrOk_congr hgrade hbanks, hcommitted]

theorem layerUnderrun_idle {n line : Nat} (h : s.disp.enabled = false ∨ s.disp.stopped = true ∨ bitAt (vget s.disp.committed.layers n) 50 = false ∨
    bitAt s.disp.off n = true ∨ fld s.disp.committed.timing 79 64 ≤ line) : layerUnderrun n line s = s := by
  refine if_pos ?_
  rcases h with h | h | h | h | h <;> simp [lOn, tVactive, h]

/-- A layer that underruns is off for the rest of the frame, and counted. -/
def layerOff (n : Nat) (d : DispSt) : DispSt := { d with off := setBit d.off n true, underruns := vmod d.underruns n fun u => wrapAdd 16 u 1 }

theorem layerUnderrun_counts {n line : Nat} (hon : s.disp.enabled = true) (hstop : s.disp.stopped = false)
    (hlayer : bitAt (vget s.disp.committed.layers n) 50 = true)
    (hoff : bitAt s.disp.off n = false) (hlit : s.disp.storeDark = false) (hline : line < fld s.disp.committed.timing 79 64) :
    (layerUnderrun n line s).hush = (dispMod (layerOff n) s).hush := by
  refine (congrArg State.hush (if_neg ?_)).trans (raise_hush ..)
  simp [lOn, tVactive, hon, hstop, hlayer, hoff, hlit, Nat.not_le.mpr hline]

/-- Only which layers are off, and their counts, tell one head from another. -/
def LayersStep (s t : State) : Prop := ∃ o u, t.hush = (dispMod (fun d => { d with off := o, underruns := u }) s).hush

theorem LayersStep.refl (s : State) : LayersStep s s := ⟨s.disp.off, s.disp.underruns, rfl⟩

theorem LayersStep.trans {s t u : State} (h : LayersStep s t) (h' : LayersStep t u) : LayersStep s u := by
  obtain ⟨_, _, h⟩ := h
  obtain ⟨o, n, h'⟩ := h'
  exact ⟨o, n, h'.trans (dispMod_hush h _)⟩

theorem layerUnderrun_step (n line : Nat) (s : State) : LayersStep s (layerUnderrun n line s) := by
  unfold layerUnderrun
  dsimp only
  split
  · exact .refl s
  · exact ⟨_, _, raise_hush ..⟩

theorem layersDenied_step (line : Nat) (s : State) : LayersStep s (layersDenied line s) := by
  refine List.foldlRecOn _ _ (LayersStep.refl s) fun t ht n _ => ?_
  split
  · exact ht.trans (layerUnderrun_step ..)
  · exact ht

theorem layersDenied_none (h : ∀ n < 4, layerDenied s n = false) (line : Nat) : layersDenied line s = s := by
  refine List.foldlRecOn (motive := fun t => t = s) _ _ rfl fun t ht n hn => ?_
  rw [ht, h n (List.mem_range.mp hn)]
  rfl

/-- A head that shows no video starts no frame. -/
theorem frameStart_idle (h : s.disp.enabled = false ∨ s.disp.train ≠ .trained ∨ (vget s.synth.loop 3).lock ≠ .locked) : frameStart s = s := by
  refine if_pos ?_
  rcases h with h | h | h <;> simp [dssLocked, h]

/-- The head at the first active line of a frame, before the layers whose reads are denied fall away. -/
def frameBegun (s : State) (d : DispSt) : DispSt :=
  { d with
    frame := d.frame + 1, frameAt := s.cyc, off := 0, stopped := false, flipDue := false, modeChanged := false, storeDark := s.power.state == .quiet
    lastFlip := if d.flipDue then now s else d.lastFlip
    scanning := Vector.ofFn fun n =>
      let l := vget d.committed.layers n
      if lOn l && lDens l != 0 then (vget s.dens (lDens l - 1)).latest else none }

theorem frameStart_begins (hon : s.disp.enabled = true) (htrain : s.disp.train = .trained) (hlock : dssLocked s = true) :
    ∃ u : State, frameStart s = layersDenied 0 u ∧ u.hush = (dispMod (frameBegun s) s).hush := by
  refine ⟨_, if_neg ?_, (hush_ite (raise_hush ..)).trans (hush_ite (raise_hush ..))⟩
  simp [hon, htrain, hlock]

end

/-! ### What the rows leave -/

section
variable {s : State} {want : Fin 4 × Fin 4}

theorem does_hpdInFall (s : State) : Does .hpdInFall s fun t => t.disp.hpd = false ∧ (s.disp.hpd = true → t.disp.hpdFell = some s.cyc) ∧
    ({ t with disp := { t.disp with hpd := s.disp.hpd, hpdFell := s.disp.hpdFell } } : State) = s := by
  rcases Bool.eq_false_or_eq_true s.disp.hpd with h | h
  · exact does_quiet (congrArg (settle s) (hpdFall_high h)) rfl ⟨rfl, fun _ => rfl, rfl⟩
  · exact does_quiet (congrArg (settle s) (hpdFall_low h)) rfl ⟨h, fun hhigh => absurd hhigh (by simp [h]), rfl⟩

theorem does_hpdUnplug {f : Nat} (hlow : s.disp.hpd = false) (hin : s.disp.unplugged = false) (hfell : s.disp.hpdFell = some f) (hdue : f + 200000 ≤ s.cyc) :
    Does .hpdUnplug s fun t => t.disp.unplugged = true ∧ t.disp.stopped = true ∧ t.disp.sink = none ∧ t.disp.train ≠ .trained ∧
      t.disp.committed = s.disp.committed ∧ t.disp.frame = s.disp.frame ∧ ({ t with disp := s.disp } : State).hush = s.hush := by
  refine does_dispMod rfl (hpdUnplug_due hlow hin hfell hdue) fun u hu hrest => ?_
  rw [hu]
  refine ⟨rfl, rfl, rfl, ?_, rfl, rfl, hrest⟩
  change (if s.disp.train == .fail then TrainSt.fail else .off) ≠ .trained
  split <;> exact TrainSt.noConfusion

theorem does_hpdInRise (hlow : s.disp.hpd = false) (hout : s.disp.unplugged = true) : Does .hpdInRise s fun t =>
    t.disp.hpd = true ∧ t.disp.unplugged = false ∧ (∃ a, t.disp.aux = s.disp.aux ++ [a] ∧ a.cmd = none ∧ a.addr = 0 ∧ a.len = 16) ∧
    ({ t with disp := s.disp } : State).hush = s.hush := by
  refine does_dispMod rfl (hpdRise_plug hlow hout) fun u hu hrest => ?_
  rw [hu]
  exact ⟨rfl, rfl, ⟨sinkQuery s, rfl, rfl, rfl, rfl⟩, hrest⟩

theorem does_dpTrainStep_trained (htrain : s.disp.train = .equal) (hlock : (vget s.synth.loop 3).lock = .locked) :
    Does (.dpTrainStep true want) s fun t => t.disp.train = .trained ∧ t.disp.enabling = [] ∧ t.disp.rate = s.disp.rate ∧
      t.disp.lanes = s.disp.lanes ∧ ({ t with disp := s.disp } : State).hush = s.hush := by
  refine does_dispMod rfl (trainStep_equalPass htrain (dssLocked_iff.mpr hlock)) fun u hu hrest => ?_
  rw [hu]
  exact ⟨rfl, rfl, rfl, rfl, hrest⟩

theorem does_dpTrainStep_fallback {r l : Nat} (htrain : s.disp.train = .equal) (hlock : (vget s.synth.loop 3).lock = .locked) (hlast : 4 ≤ s.disp.tries)
    (hauto : bitAt s.disp.committed.timing 168 = true) (hnext : dpFallback s.disp.committed.timing s.disp.sink s.disp.rate s.disp.lanes = some (r, l)) :
    Does (.dpTrainStep false want) s fun t => t.disp.train = .setup ∧ t.disp.rate = r ∧ t.disp.lanes = l ∧ t.disp.tries = 0 ∧
      t.disp.enabling = s.disp.enabling ∧ ({ t with disp := s.disp } : State).hush = s.hush := by
  obtain ⟨q, hq⟩ := trainSetup_eq r l (dispMod (fun d => { d with drive := driveOf want }) s)
  have hstep := congrArg State.hush (trainStep_fallback (want := want) (.inl htrain) (dssLocked_iff.mpr hlock) hlast hauto hnext)
  have hsetup := congrArg State.hush (hq.trans (dispMod_dispMod ..))
  refine does_dispMod rfl (hstep.trans ((evTrain_hush ..).trans hsetup)) fun u hu hrest => ?_
  rw [hu]
  exact ⟨rfl, rfl, rfl, rfl, rfl, hrest⟩

theorem does_dpTrainStep_fail (htrain : s.disp.train = .equal) (hlock : (vget s.synth.loop 3).lock = .locked) (hlast : 4 ≤ s.disp.tries)
    (hfixed : bitAt s.disp.committed.timing 168 = false) : Does (.dpTrainStep false want) s fun t =>
      t.disp.train = .fail ∧ t.disp.stopped = true ∧ t.disp.enabling = [] ∧ ({ t with disp := s.disp } : State).hush = s.hush := by
  have hstep := congrArg State.hush (trainStep_fixed (want := want) (.inl htrain) (dssLocked_iff.mpr hlock) hlast hfixed)
  refine does_dispMod rfl ((hstep.trans (trainFail_hush _)).trans (congrArg State.hush (dispMod_dispMod ..))) fun u hu hrest => ?_
  rw [hu]
  exact ⟨rfl, rfl, rfl, hrest⟩

theorem does_verticalBlank {p : Nat × DispState} (hon : s.disp.enabled = true) (hstop : s.disp.stopped = false) (hnext : s.disp.nextCommit = some p) :
    Does .verticalBlank s fun t => t.disp.committed = p.2 ∧ t.disp.flipDue = true ∧ t.disp.pending = s.disp.pending.filter (fun q => q.1 != p.1) ∧
      t.disp.staged = s.disp.staged ∧ t.disp.frame = s.disp.frame ∧ t.disp.msa = some p.2.timing ∧
      ({ t with disp := s.disp, synth := s.synth } : State).hush = s.hush := by
  have hstep := commitApply_linkStep (s := dispMod (fun d => { d with pending := d.pending.filter fun q => q.1 != p.1 }) s) p.2 (nextCommit_taken hnext)
  obtain ⟨hstaged, hcommitted, hpending, hflip, hframe⟩ := hstep.parts
  refine does_row (congrArg (settle s) (verticalBlank_commit hon hstop hnext)) fun u hu => ?_
  rw [disp_of_hush hu]
  exact ⟨hcommitted, hflip, hpending, hstaged, hframe, congrArg (fun d : DispState => some d.timing) hcommitted,
    (hush_beyond hu s.disp s.synth).trans (hstep.beyond s.disp s.synth)⟩

theorem does_frameStart (hon : s.disp.enabled = true) (htrain : s.disp.train = .trained) (hlock : (vget s.synth.loop 3).lock = .locked) :
    Does .frameStart s fun t => t.disp.frame = s.disp.frame + 1 ∧ ((∀ n < 4, layerDenied s n = false) → t.disp.off = 0) ∧ t.disp.stopped = false ∧
      t.disp.frameAt = s.cyc ∧ t.disp.lastFlip = (if s.disp.flipDue = true then now s else s.disp.lastFlip) ∧ t.disp.committed = s.disp.committed ∧
      t.disp.pending = s.disp.pending ∧ ({ t with disp := s.disp } : State).hush = s.hush := by
  obtain ⟨v, hv, hbegun⟩ := frameStart_begins hon htrain (dssLocked_iff.mpr hlock)
  obtain ⟨o, n, hlayers⟩ := layersDenied_step 0 v
  have hframe := hlayers.trans (dispMod_hush hbegun _)
  refine does_row (congrArg (settle s) hv) fun u hu => ?_
  have hdisp := disp_of_hush (hu.trans hframe)
  have hoff : (∀ n < 4, layerDenied s n = false) → o = 0 := fun hnone => by
    have hv0 : layersDenied 0 v = v := layersDenied_none (fun n hn =>
      (layerDenied_congr (congrArg (·.committed) (disp_of_hush hbegun)) (grade_of_hush hbegun) (banks_of_hush hbegun) n).trans (hnone n hn)) 0
    have hsame : u.disp = frameBegun s s.disp := disp_of_hush ((hv0 ▸ hu).trans hbegun)
    exact (congrArg (·.off) hdisp).symm.trans (congrArg (·.off) hsame)
  rw [hdisp]
  exact ⟨rfl, hoff, rfl, rfl, rfl, rfl, rfl, hush_update (hu.trans hframe) (fun x => { x with disp := s.disp }) fun _ => rfl⟩

theorem does_layerUnderrun {n : Fin 4} {line : Nat} (hon : s.disp.enabled = true) (hstop : s.disp.stopped = false)
    (hlayer : bitAt (vget s.disp.committed.layers n) 50 = true) (hoff : bitAt s.disp.off n = false) (hlit : s.disp.storeDark = false)
    (hline : line < fld s.disp.committed.timing 79 64) : Does (.layerUnderrun n line) s fun t =>
      bitAt t.disp.off n = true ∧ vget t.disp.underruns n = (vget s.disp.underruns n + 1) % 65536 ∧
      (∀ k : Fin 4, k ≠ n → bitAt t.disp.off k = bitAt s.disp.off k ∧ vget t.disp.underruns k = vget s.disp.underruns k) ∧
      t.disp.committed = s.disp.committed ∧ ({ t with disp := s.disp } : State).hush = s.hush := by
  refine does_dispMod rfl (layerUnderrun_counts hon hstop hlayer hoff hlit hline) fun u hu hrest => ?_
  rw [hu]
  refine ⟨(bitAt_setBit s.disp.off n.isLt true n).trans (if_pos rfl), vget_vmod_same s.disp.underruns _ n.isLt, fun k hk => ⟨?_, ?_⟩, rfl, hrest⟩
  · exact (bitAt_setBit s.disp.off n.isLt true k).trans (if_neg (Fin.val_ne_of_ne hk))
  · exact vget_vmod_ne s.disp.underruns _ (Fin.val_ne_of_ne hk)

end

/-- Settles O43, row by row: the replies of AUX, the levels of HPD, the tries of training, the blank that takes a commit, and the frame with its underruns. -/
theorem displayRows : Obligations.DisplayRows := by
  unfold Obligations.DisplayRows
  intro s
  refine ⟨fun r h => exec_quiet rfl (auxReply_idle h r) rfl, fun h => exec_quiet rfl (auxTimeout_idle h) rfl,
    fun a as h htries => exec_quiet rfl ((auxReply_defer h).trans (auxFail_again h htries)) rfl,
    fun a as h hearly => exec_quiet rfl (auxTimeout_early h hearly) rfl,
    fun a as h hdue htries => exec_quiet rfl ((auxTimeout_due h hdue).trans (auxFail_again h htries)) rfl,
    fun a as c h hcmd hdue htries => ⟨length_auxNext h, congrArg (settle s) ((auxTimeout_due h hdue).trans (auxFail_ends hcmd htries))⟩,
    fun a as c x xs h hcmd hkind hlen hmore => ?ackRead, fun a as c l h hcmd hkind hmore => ?ackWrite, does_hpdInFall s,
    fun h => exec_quiet rfl (hpdUnplug_stays h) rfl, fun f => does_hpdUnplug, fun h => exec_quiet rfl (hpdRise_high h) rfl, does_hpdInRise,
    fun f hlow hin hfell hshort htrain => exec_quiet rfl (hpdRise_glitch hlow hin hfell hshort htrain) rfl,
    fun pass want h => exec_quiet rfl (trainStep_idle h) rfl,
    fun want htrain hlock => exec_quiet rfl (trainStep_clockPass htrain (dssLocked_iff.mpr hlock)) rfl, fun want => does_dpTrainStep_trained,
    fun want htrain hlock hdrive => exec_quiet rfl (trainStep_newDrive htrain (dssLocked_iff.mpr hlock) hdrive) rfl,
    fun want htry hlock hmore => exec_quiet rfl (trainStep_counts htry (dssLocked_iff.mpr hlock) hmore) rfl,
    fun want r l => does_dpTrainStep_fallback, fun want => does_dpTrainStep_fail, fun h => exec_quiet rfl (verticalBlank_idle h) rfl,
    fun p => does_verticalBlank, fun hon hstop hnext => exec_quiet rfl (verticalBlank_noCommit hon hstop hnext) rfl,
    fun h => exec_quiet rfl (frameStart_idle h) rfl, does_frameStart, fun n line h => exec_quiet rfl (layerUnderrun_idle h) rfl,
    fun n line => does_layerUnderrun⟩
  case ackRead =>
    exact congrArg (settle s) (auxReply_ackRead h hcmd (by omega) (List.cons_ne_nil x xs) hlen hmore)
  case ackWrite => exact exec_quiet rfl (auxReply_ackWrite h hcmd (by omega) hmore l) rfl

end Sys2Proof.Machine
end

section
/-! The temperature of the die and of the stacks: readings, warnings, trips and cooling (R284, R533, R534). -/
namespace Sys2Proof.Machine
open Sys2Proof

/-! ### What events and answers leave of bring-up, the supplies and the outputs -/

theorem boot_of_hush {s t : State} (h : s.hush = t.hush) : s.boot = t.boot := by injection h
theorem power_of_hush {s t : State} (h : s.hush = t.hush) : s.power = t.power := by injection h
theorem dacs_of_hush {s t : State} (h : s.hush = t.hush) : s.dacs = t.dacs := by injection h
theorem loops_of_hush {s t : State} (h : s.hush = t.hush) : s.loops = t.loops := by injection h
theorem power_of_hushEv {s t : State} (h : s.hushEv = t.hushEv) : s.power = t.power := power_of_hush (hush_of_hushEv h)

/-- The stacks are none of what State.hushEv hides of the store. -/
theorem stks_of_hushEv {s t : State} (h : s.hushEv = t.hushEv) : s.store.stks = t.store.stks := congrArg (·.store.stks) h

/-- States that are alike stay so when the power state, the store or the black box of both becomes the same. -/
theorem hushEv_withPower {s t : State} (h : s.hushEv = t.hushEv) (p : PowerSt) : ({ s with power := p } : State).hushEv =
    ({ t with power := p } : State).hushEv :=
  congrArg (fun x : State => { x with power := p }) h
theorem hushEv_withStore {s t : State} (h : s.hushEv = t.hushEv) (w : StoreSt) : ({ s with store := w } : State).hushEv =
    ({ t with store := w } : State).hushEv :=
  congrArg (fun x : State => { x with store := { w with dozing := false, lastAccess := 0, badWords := [] } }) h
theorem hushEv_withBox {s t : State} (h : s.hushEv = t.hushEv) (b : BoxSt) : ({ s with box := b } : State).hushEv = ({ t with box := b } : State).hushEv :=
  congrArg (fun x : State => { x with box := b }) h

/-- An event that is raised or not moves nothing that State.hushEv shows. -/
theorem hushEv_ite {q : Prop} [Decidable q] {s t : State} (h : t.hushEv = s.hushEv) : (if q then t else s).hushEv = s.hushEv := by
  split
  · exact h
  · rfl

/-- A row leaves what it makes, mailboxes and the black box included, but for what the delivery of its records touches. -/
theorem does_rowEv {i : Instr} {s t x : State} {P : State → Prop} (hi : exec i s = settle s t) (ht : t.hushEv = x.hushEv)
    (hp : ∀ u : State, u.hushEv = x.hushEv → P u) : Does i s P :=
  ⟨_, hi, hp _ ((settled_hushEv s t).trans ht)⟩

/-- An entry touches the black box alone (R584). -/
theorem boxNow_frame (o c u : Nat) (d : Bytes) (s : State) : ∃ b, boxNow o c u d s = { s with box := b } := by
  unfold boxNow boxAt boxPut
  split <;> exact ⟨_, rfl⟩

/-- With an entry a state is as one that is alike, but for the black box. -/
theorem boxNow_hushEv (o c u : Nat) (d : Bytes) {s t : State} (h : s.hushEv = t.hushEv) :
    ∃ b, (boxNow o c u d s).hushEv = ({ t with box := b } : State).hushEv := by
  obtain ⟨b, hb⟩ := boxNow_frame o c u d s
  exact ⟨b, (congrArg State.hushEv hb).trans (hushEv_withBox h b)⟩

@[simp] theorem evPower_hush (s : State) : (evPower s).hush = s.hush := raise_hush ..

@[simp] theorem powerChanged_hush (o s : State) : (powerChanged o s).hush = s.hush := hush_ite (evPower_hush s)

@[simp] theorem devResetDone_hush (st : Nat) (s : State) : (devResetDone st s).hush = s.hush := by
  unfold devResetDone
  exact foldl_keeps State.hush _ (fun u p => hush_ite (finish_hush ..)) _ s

@[simp] theorem forwardDrop_hush (s : State) : (forwardDrop s).hush = s.hush := hush_ite (bankedMod_hush ..)

theorem setStage_hush (n : Nat) (s : State) : (setStage n s).hush = ({ s with boot := { s.boot with stage := BitVec.ofNat 4 n } } : State).hush :=
  hush_of_hushEv (setStage_hushEv n s)

/-! ### What the removal of the main rails keeps (R508, R512, R534) -/

/-- The cause of a fault, the state of a thermal trip, the control outputs and the thermal loops. -/
structure Outlasting where
  cause : BitVec 8
  causeUnit : Handle
  tripped : Bool
  cooled : Bool
  dacs : DacsSt
  loops : Vector LoopSt 8

/-- What of a state outlasts the removal of the main rails. -/
def State.outlasting (s : State) : Outlasting :=
  ⟨s.boot.cause, s.boot.causeUnit, s.power.tripped, s.power.cooled, s.dacs, s.loops⟩

theorem outlasting_of_hush {s t : State} (h : s.hush = t.hush) : s.outlasting = t.outlasting :=
  (congrArg State.outlasting h : s.hush.outlasting = t.hush.outlasting)

@[simp] theorem raise_outlasting (src type unit : Nat) (d : Bytes) (s : State) : (raise src type unit d s).outlasting = s.outlasting :=
  outlasting_of_hush (raise_hush ..)

@[simp] theorem boxNow_outlasting (o c u : Nat) (d : Bytes) (s : State) : (boxNow o c u d s).outlasting = s.outlasting :=
  outlasting_of_hush (boxNow_hush ..)

@[simp] theorem complete_outlasting (c : Cmd) (op st : Nat) (res : Bytes) (s : State) : (complete c op st res s).outlasting = s.outlasting :=
  outlasting_of_hush (complete_hush ..)

@[simp] theorem setStage_outlasting (n : Nat) (s : State) : (setStage n s).outlasting = s.outlasting := (outlasting_of_hush (setStage_hush n s)).trans rfl

@[simp] theorem powerChanged_outlasting (o s : State) : (powerChanged o s).outlasting = s.outlasting := outlasting_of_hush (powerChanged_hush o s)

@[simp] theorem devResetDone_outlasting (st : Nat) (s : State) : (devResetDone st s).outlasting = s.outlasting :=
  outlasting_of_hush (devResetDone_hush st s)

@[simp] theorem maintAbandon_outlasting (s : State) : (maintAbandon s).outlasting = s.outlasting :=
  foldl_keeps State.outlasting _ (fun _ _ => raise_outlasting ..) _ s

@[simp] theorem abandonPower_outlasting (s : State) : (abandonPower s).outlasting = s.outlasting := by
  unfold abandonPower
  split
  · rfl
  · exact foldl_keeps State.outlasting _ (fun _ _ => complete_outlasting ..) _ _

@[simp] theorem stopPlanes_outlasting (n : Nat) (s : State) : (stopPlanes n s).outlasting = s.outlasting := by
  unfold stopPlanes
  rw [abandonPower_outlasting, maintAbandon_outlasting]
  rfl

/-- The state of the time counter is no part of it (R396). -/
@[simp] theorem timeGo_outlasting (n : TimeState) (s : State) : (timeGo n s).outlasting = s.outlasting := raise_outlasting ..

@[simp] theorem sourceLost_outlasting (s : State) : (sourceLost s).outlasting = s.outlasting := by
  unfold sourceLost
  split <;> simp

@[simp] theorem ptpLose_outlasting (s : State) : (ptpLose s).outlasting = s.outlasting := by
  unfold ptpLose
  rw [sourceLost_outlasting]
  split
  · exact raise_outlasting ..
  · rfl

@[simp] theorem portsDown_outlasting (s : State) : (portsDown s).outlasting = s.outlasting := by
  unfold portsDown ptpPortDown
  split
  · split
    · exact ptpLose_outlasting _
    · rfl
  · rfl

@[simp] theorem planesOff_outlasting (s : State) : (planesOff s).outlasting = s.outlasting :=
  (outlasting_of_hush (forwardDrop_hush (portsDown s))).trans (portsDown_outlasting s)

/-! ### The thermal trip (R534) -/

/-- CAUSE_UNIT of a trip: none for a sensor, or the stack (R436, R534). -/
def tripUnit (code : Nat) : Handle := if code < 16 then 0xFFFF else BitVec.ofNat 16 (0x0801 + (code - 16))

theorem tripUnit_stack (k : Nat) : tripUnit (16 + k) = BitVec.ofNat 16 (0x0801 + k) := by
  rw [tripUnit, if_neg (by omega), Nat.add_sub_cancel_left]

/-- A device that a trip has put in FAULT: the sensor or the stack as the cause, the rails off, the outputs and the loops as they were. -/
structure TrippedFrom (code : Nat) (s t : State) : Prop where
  stage : stage t = 15
  mainOn : t.boot.mainOn = false
  kept : t.outlasting = ⟨7, tripUnit code, true, false, s.dacs, s.loops⟩

theorem TrippedFrom.of_hush {code : Nat} {s t u : State} (h : TrippedFrom code s t) (hu : u.hush = t.hush) : TrippedFrom code s u where
  stage := (congrArg (·.stage.toNat) (boot_of_hush hu)).trans h.stage
  mainOn := (congrArg (·.mainOn) (boot_of_hush hu)).trans h.mainOn
  kept := (outlasting_of_hush hu).trans h.kept

/-- When the planes stop, the main rails are removed and STAGE says FAULT (R505, R508), what outlasts that tells of the trip. -/
theorem TrippedFrom.of_outlasting {code : Nat} {s u : State}
    (hu : u.outlasting = ⟨7, tripUnit code, true, false, s.dacs, s.loops⟩) (st : Nat) (o : State) :
    TrippedFrom code s (setStage 15 (devResetDone st (powerChanged o (planesOff (stopPlanes 15 u))))) := by
  have hstage := boot_of_hush (setStage_hush 15 (devResetDone st (powerChanged o (planesOff (stopPlanes 15 u)))))
  have hrails := boot_of_hush ((devResetDone_hush st _).trans (powerChanged_hush o (planesOff (stopPlanes 15 u))))
  exact {
    stage := congrArg (·.stage.toNat) hstage
    mainOn := (congrArg (·.mainOn) hstage).trans (congrArg (·.mainOn) hrails)
    kept := by simpa using hu }

theorem thermalTrip_trips (code : Nat) (reading : Int) {s : State} (h : s.power.tripped = false) : TrippedFrom code s (thermalTrip code reading s) := by
  unfold thermalTrip
  rw [if_neg (by simp [h])]
  refine .of_outlasting ?_ ..
  rw [raise_outlasting]
  exact boxNow_outlasting ..

section
variable {s : State} {tj : Vector Int 8}

/-! ### Readings of the die (R531, R533) -/

/-- The supervision after a reading of the sensors at `cyc`, but for the warning (R534). -/
def PowerSt.reads (cyc : Nat) (tj : Vector Int 8) (p : PowerSt) : PowerSt :=
  { p with
    tj := tj, tripReadings := if 1100 ≤ (hottest tj).1 then p.tripReadings + 1 else 0
    coolSince := if (hottest tj).1 < 850 then some (p.coolSince.getD cyc) else none }

/-- The supervision with the warning in force or not (R533). -/
def PowerSt.warned (w : Bool) (p : PowerSt) : PowerSt := { p with thermalWarn := w }

/-- The warning in force after a reading: it begins at WARN_C and ends below WARN_C - 5 (R533). -/
def warnAfter (tj : Vector Int 8) (p : PowerSt) : Bool :=
  if p.thermalWarn then !decide ((hottest tj).1 < 10 * (fld p.cfg 7 0 : Nat) - 50) else decide (10 * ((fld p.cfg 7 0 : Nat) : Int) ≤ (hottest tj).1)

/-- A reading recorded, with EV_THERMAL where the warning begins or ends (R533). -/
def dieRead (tj : Vector Int 8) (s : State) : State :=
  if warnAfter tj s.power = s.power.thermalWarn then powerMod (PowerSt.reads s.cyc tj) s
  else raise 0x09 (if warnAfter tj s.power then 1 else 2) 0x1000 (le 1 (hottest tj).2 ++ [0] ++ s16 (hottest tj).1)
    (powerMod (PowerSt.warned (warnAfter tj s.power)) (powerMod (PowerSt.reads s.cyc tj) s))

/-- A reading is recorded, and trips the device where it is the second in a row of 110 degrees or above (R533, R534). -/
theorem thermalRead_eq (hon : stage s ≠ 0) : thermalRead tj s =
    if 2 ≤ (dieRead tj s).power.tripReadings then thermalTrip (hottest tj).2 (hottest tj).1 (dieRead tj s) else dieRead tj s := by
  have hread : thermalRead tj s = _ := if_neg hon
  rw [hread]
  unfold dieRead warnAfter
  cases hw : s.power.thermalWarn
  · by_cases h : 10 * ((fld s.power.cfg 7 0 : Nat) : Int) ≤ (hottest tj).1
    · simp [hw, h] <;> rfl
    · simp [hw, h] <;> rfl
  · by_cases h : (hottest tj).1 < 10 * (fld s.power.cfg 7 0 : Nat) - 50
    · simp [hw, h] <;> rfl
    · simp [hw, h] <;> rfl

theorem dieRead_hushEv : (dieRead tj s).hushEv = (powerMod (fun p => (p.reads s.cyc tj).warned (warnAfter tj s.power)) s).hushEv := by
  unfold dieRead
  split
  · next h =>
    rw [h]
    rfl
  · exact raise_hushEv ..

theorem dieRead_power : (dieRead tj s).power = (s.power.reads s.cyc tj).warned (warnAfter tj s.power) := power_of_hushEv dieRead_hushEv

/-- Below 110 degrees no trip is near. -/
theorem thermalRead_below (hon : stage s ≠ 0) (h : (hottest tj).1 < 1100) : thermalRead tj s = dieRead tj s := by
  rw [thermalRead_eq hon, dieRead_power]
  exact if_neg (by simp [PowerSt.warned, PowerSt.reads, Int.not_le.mpr h])

/-- The second reading in a row of 110 degrees or above trips. -/
theorem thermalRead_second (hon : stage s ≠ 0) (h : 1100 ≤ (hottest tj).1) (hfirst : 1 ≤ s.power.tripReadings) :
    thermalRead tj s = thermalTrip (hottest tj).2 (hottest tj).1 (dieRead tj s) := by
  rw [thermalRead_eq hon, dieRead_power]
  exact if_pos (by simp [PowerSt.warned, PowerSt.reads, h, hfirst])

theorem dieRead_cool (hoff : s.power.thermalWarn = false) (hwarn : (hottest tj).1 < 10 * (fld s.power.cfg 7 0 : Nat)) (hcool : (hottest tj).1 < 850) :
    dieRead tj s = { s with power := { s.power with tj := tj, tripReadings := 0, coolSince := some (s.power.coolSince.getD s.cyc) } } := by
  have hsame : warnAfter tj s.power = s.power.thermalWarn := by simp [warnAfter, hoff, hwarn]
  have hno : ¬ 1100 ≤ (hottest tj).1 := by omega
  simp [dieRead, hsame, powerMod, PowerSt.reads, hno, hcool]

theorem does_thermalRead_warns (hon : stage s ≠ 0) (hoff : s.power.thermalWarn = false) (hwarn : 10 * ((fld s.power.cfg 7 0 : Nat) : Int) ≤ (hottest tj).1)
    (h : (hottest tj).1 < 1100) :
    Does (.thermalRead tj) s fun t => t.power.thermalWarn = true ∧ t.power.tj = tj ∧ ({ t with power := s.power } : State).hushEv = s.hushEv := by
  have hset : warnAfter tj s.power = true := by simp [warnAfter, hoff, hwarn]
  refine does_rowEv (congrArg (settle s) (thermalRead_below hon h)) dieRead_hushEv fun u hu => ⟨?_, ?_, hushEv_withPower hu _⟩
  · rw [power_of_hushEv hu]
    exact hset
  · rw [power_of_hushEv hu]
    rfl

theorem does_thermalRead_trips (hon : stage s ≠ 0) (h : 1100 ≤ (hottest tj).1) (hfirst : 1 ≤ s.power.tripReadings) (hrun : s.power.tripped = false) :
    Does (.thermalRead tj) s fun t => stage t = 15 ∧ t.boot.cause = 7 ∧ t.boot.mainOn = false ∧ t.power.tripped = true ∧ t.power.cooled = false ∧
      t.dacs = s.dacs ∧ t.loops = s.loops := by
  have hread : (dieRead tj s).hush = _ := hush_of_hushEv dieRead_hushEv
  have htrip := thermalTrip_trips (hottest tj).2 (hottest tj).1 ((congrArg (·.tripped) (dieRead_power (tj := tj) (s := s))).trans hrun)
  refine does_row (congrArg (settle s) (thermalRead_second hon h hfirst)) fun u hu => ?_
  obtain ⟨hstage, hmain, hkept⟩ := htrip.of_hush hu
  exact ⟨hstage, congrArg (·.cause) hkept, hmain, congrArg (·.tripped) hkept, congrArg (·.cooled) hkept,
    (congrArg (·.dacs) hkept).trans (dacs_of_hush hread), (congrArg (·.loops) hkept).trans (loops_of_hush hread)⟩

/-! ### Cooling after a trip (R534) -/

/-- After 10 s below 85 degrees COOLED is set, with an event and an entry; AUTO_RESTART then cycles the main rails. -/
theorem thermalCooled_eq {c : Nat} (htrip : s.power.tripped = true) (hhot : s.power.cooled = false) (hsince : s.power.coolSince = some c)
    (hdue : 10 * secC ≤ since s c) : ∃ u b, u.hushEv = ({ s with power := { s.power with cooled := true }, box := b } : State).hushEv ∧ thermalCooled s =
      if bitAt u.power.cfg 8 then beginM 7 0 0 (10 * msC) (powerMod (fun p => { p with tripped := false, cooled := false }) u) else u := by
  have hcool : thermalCooled s = _ := if_neg (by simp [htrip, hhot, hsince, hdue])
  obtain ⟨b, hb⟩ := boxNow_hushEv 1 0x0105 0x1000 (le 1 (hottest s.power.tj).2 ++ [1] ++ s16 (hottest s.power.tj).1)
    (raise_hushEv 0x09 4 0x1000 (le 1 (hottest s.power.tj).2 ++ [0] ++ s16 (hottest s.power.tj).1) (powerMod (fun p => { p with cooled := true }) s))
  exact ⟨_, b, hb, hcool⟩

theorem does_thermalCooled {c : Nat} (htrip : s.power.tripped = true) (hhot : s.power.cooled = false) (hsince : s.power.coolSince = some c)
    (hdue : 10 * secC ≤ since s c) (hauto : bitAt s.power.cfg 8 = false) :
    Does .thermalCooled s fun t => t.power.cooled = true ∧ t.power.tripped = true ∧ ({ t with power := s.power, box := s.box } : State).hushEv = s.hushEv := by
  obtain ⟨v, b, hv, hcool⟩ := thermalCooled_eq htrip hhot hsince hdue
  have hstay : bitAt v.power.cfg 8 ≠ true := by
    rw [power_of_hushEv hv]
    exact ne_true_of_eq_false hauto
  rw [if_neg hstay] at hcool
  refine does_rowEv (congrArg (settle s) hcool) hv fun u hu => ⟨?_, ?_, hushEv_withBox (hushEv_withPower hu s.power) s.box⟩
  · rw [power_of_hushEv hu]
  · rw [power_of_hushEv hu]
    exact htrip

/-! ### Readings of the stacks (R284) -/

/-- A stack after a reading: its refresh is doubled from 85 degrees and until one below 82 (R284). -/
def StackSt.reads (x : Int) (k : StackSt) : StackSt :=
  { k with temperature := x, double := if 85 ≤ x then true else if x < 82 then false else k.double }

/-- A reading is recorded, with EV_STORE_THERMAL where the doubling begins or ends, and trips the device at 105 degrees (R284). -/
theorem stackTempRead_eq {k : Nat} (x : Int) (hon : s.boot.mainOn = true) (hk : k < nStacks s.grade) :
    ∃ u, u.hushEv = (stackMod k (StackSt.reads x) s).hushEv ∧ stackTempRead k x s =
      if 105 ≤ x then thermalTrip (16 + k) (10 * x) (raise (0x91 + 4 * k) 3 (0x0801 + k) (le 1 (unsgn 8 x)) u) else u := by
  have hread : stackTempRead k x s = _ := if_neg (by simp [hon, hk])
  refine ⟨_, ?_, hread⟩
  split
  · exact raise_hushEv ..
  · exact hushEv_ite (raise_hushEv ..)

theorem stackTempRead_hot {k : Nat} {x : Int} (hon : s.boot.mainOn = true) (hk : k < nStacks s.grade) (h : 105 ≤ x) :
    ∃ u, stackTempRead k x s = thermalTrip (16 + k) (10 * x) u ∧ u.power = s.power := by
  obtain ⟨v, hv, hread⟩ := stackTempRead_eq x hon hk
  exact ⟨_, hread.trans (if_pos h), (power_of_hush (raise_hush ..)).trans ((power_of_hushEv hv).trans rfl)⟩

theorem does_stackTempRead_cool {k : Fin 4} {x : Int} (hon : s.boot.mainOn = true) (hk : k.val < nStacks s.grade) (h : x < 82) :
    Does (.stackTempRead k x) s fun t => (vget t.store.stks k).temperature = x ∧ (vget t.store.stks k).double = false ∧
      ({ t with store := s.store } : State).hushEv = s.hushEv := by
  obtain ⟨v, hv, hread⟩ := stackTempRead_eq x hon hk
  rw [if_neg (by omega)] at hread
  refine does_rowEv (congrArg (settle s) hread) hv fun u hu => ?_
  have hstack : vget u.store.stks k = (vget s.store.stks k).reads x := by
    rw [stks_of_hushEv hu]
    exact vget_vmod_same _ _ k.isLt
  refine ⟨?_, ?_, hushEv_withStore hu s.store⟩
  · rw [hstack]
    rfl
  · rw [hstack]
    simp [StackSt.reads, h, show ¬ 85 ≤ x by omega]

theorem does_stackTempRead_trips {k : Fin 4} {x : Int} (hon : s.boot.mainOn = true) (hk : k.val < nStacks s.grade) (h : 105 ≤ x)
    (hrun : s.power.tripped = false) : Does (.stackTempRead k x) s fun t =>
      stage t = 15 ∧ t.boot.cause = 7 ∧ t.boot.causeUnit = BitVec.ofNat 16 (0x0801 + k.val) ∧ t.boot.mainOn = false := by
  obtain ⟨v, hread, hpower⟩ := stackTempRead_hot hon hk h
  have htrip := thermalTrip_trips (16 + k) (10 * x) ((congrArg (·.tripped) hpower).trans hrun)
  refine does_row (congrArg (settle s) hread) fun u hu => ?_
  obtain ⟨hstage, hmain, hkept⟩ := htrip.of_hush hu
  exact ⟨hstage, congrArg (·.cause) hkept, (congrArg (·.causeUnit) hkept).trans (tripUnit_stack k), hmain⟩

end

/-- Settles O10, clause by clause: what a reading of the die records, its warning and its trip, the cooling, and the readings of the stacks. -/
theorem temperature : Obligations.Temperature := by
  unfold Obligations.Temperature
  intro s
  exact ⟨fun tj hon hoff hwarn hcool => exec_quiet rfl ((thermalRead_below hon (by omega)).trans (dieRead_cool hoff hwarn hcool)) rfl,
    fun tj => does_thermalRead_warns, fun tj => does_thermalRead_trips, fun c => does_thermalCooled,
    fun k x => does_stackTempRead_cool, fun k x => does_stackTempRead_trips⟩

end Sys2Proof.Machine
end

section
/-! What a range filled with a pattern leaves outside it (R305, R318). -/
namespace Sys2Proof.Machine
open Sys2Proof

/-- A list with no entry for an address that follows another adds nothing to what is read there. -/
theorem memGet_append_of_absent_right {l k : List Host.Cell} {a : Nat} (h : ∀ c ∈ k, c.1 ≠ a) : memGet (l ++ k) a = memGet l a := by
  induction l with
  | nil =>
    induction k with
    | nil => rfl
    | cons c k ih =>
      obtain ⟨hc, hk⟩ := List.forall_mem_cons.1 h
      exact (if_neg hc).trans (ih hk)
  | cons c l ih => simp only [List.cons_append, memGet, ih]

/-- A list with no entry for an address does not stand before another's entry. -/
theorem memGet_append_of_absent_left {l k : List Host.Cell} {a : Nat} (h : ∀ c ∈ l, c.1 ≠ a) : memGet (l ++ k) a = memGet k a := by
  induction l with
  | nil => rfl
  | cons c l ih =>
    obtain ⟨hc, hl⟩ := List.forall_mem_cons.1 h
    exact (if_neg hc).trans (ih hl)

/-- A choice of entries that takes all of an address reads there as the whole list. -/
theorem memGet_filter {p : Host.Cell → Bool} {a : Nat} (m : List Host.Cell) (h : ∀ b, p (a, b) = true) : memGet (m.filter p) a = memGet m a := by
  induction m with
  | nil => rfl
  | cons c m ih =>
    obtain ⟨x, b⟩ := c
    by_cases hx : x = a
    · subst hx
      rw [List.filter_cons_of_pos (h b), memGet, memGet, if_pos rfl, if_pos rfl]
    · rw [List.filter_cons]
      split
      · rw [memGet, memGet, if_neg hx, if_neg hx, ih]
      · rw [memGet, if_neg hx, ih]

/-- The entries that a fill lists in its own range. -/
def patternCells (lo hi : Nat) (w : BitVec 32) : List Host.Cell :=
  (span lo hi).filterMap fun a => let b := (le 4 w.toNat).getD ((a - lo) % 4) 0; if b = 0 then none else some (a, b)

theorem memPattern_eq (m : List Host.Cell) (lo hi : Nat) (w : BitVec 32) : memPattern m lo hi w =
    (m.filter fun c => decide (c.1 < lo)) ++ patternCells lo hi w ++ m.filter fun c => decide (hi ≤ c.1) := rfl

theorem patternCells_bounds {lo hi : Nat} {w : BitVec 32} {c : Host.Cell} (h : c ∈ patternCells lo hi w) : lo ≤ c.1 ∧ c.1 < hi := by
  obtain ⟨a, ha, hc⟩ := List.mem_filterMap.1 h
  obtain ⟨-, rfl⟩ : _ ∧ (a, _) = c := by simpa using hc
  exact mem_span.1 ha

/-- A byte outside a filled range reads as before. -/
theorem memGet_memPattern_other {m : List Host.Cell} {lo hi x : Nat} {w : BitVec 32} (hl : lo ≤ hi) (hx : x < lo ∨ hi ≤ x) :
    memGet (memPattern m lo hi w) x = memGet m x := by
  rw [memPattern_eq]
  rcases hx with hx | hx
  · have habove : ∀ c ∈ patternCells lo hi w ++ m.filter (fun c => decide (hi ≤ c.1)), c.1 ≠ x := by
      intro c hc
      rcases List.mem_append.1 hc with hc | hc
      · have := patternCells_bounds hc
        omega
      · have := of_decide_eq_true (List.mem_filter.1 hc).2
        omega
    rw [List.append_assoc, memGet_append_of_absent_right habove, memGet_filter m fun _ => decide_eq_true hx]
  · have hbelow : ∀ c ∈ m.filter (fun c => decide (c.1 < lo)) ++ patternCells lo hi w, c.1 ≠ x := by
      intro c hc
      rcases List.mem_append.1 hc with hc | hc
      · have := of_decide_eq_true (List.mem_filter.1 hc).2
        omega
      · have := patternCells_bounds hc
        omega
    rw [memGet_append_of_absent_left hbelow, memGet_filter m fun _ => decide_eq_true hx]

/-- Settles O5, operation by operation: its law of the canonical form, and what each byte then reads. -/
theorem memoryOperations : Obligations.MemoryOperations := by
  unfold Obligations.MemoryOperations
  intro m a b h
  exact ⟨memPut_wf a b h, fun i hi => memGet_memPut_same a b h hi, fun x hx => memGet_memPut_other b hx,
    fun hi => ⟨memZero_wf a hi h, memGet_memZero m a hi⟩,
    fun hi w hl => ⟨memPattern_wf a hi w hl h, fun x hx => memGet_memPattern_other hl hx⟩⟩

end Sys2Proof.Machine
end

section
/-! Reads of the window, and the side port (R307, R439, R444, R464). -/
namespace Sys2Proof.Machine
open Sys2Proof

/-! ### What a read of the window leaves alone -/

/-- A state but for its junction. -/
def State.sansJunction (s : State) : State := { s with junction := {} }

/-- A state that differs in its junction alone is the other with that junction put back. -/
theorem junction_alone {s t : State} (h : t.sansJunction = s.sansJunction) : ({ t with junction := s.junction } : State) = s :=
  congrArg (fun x : State => { x with junction := s.junction }) h

/-- What does not hang on the junction is the same in two states that differ there alone. -/
theorem eq_of_sansJunction {α : Type} (g : State → α) {s t : State} (hg : ∀ (x : State) j, g { x with junction := j } = g x)
    (h : t.sansJunction = s.sansJunction) : g t = g s :=
  (hg t s.junction).symm.trans (congrArg g (junction_alone h))

/-- A path reaches the same offsets whatever stands in the junction. -/
theorem winOpen_of_sansJunction {s t : State} (h : t.sansJunction = s.sansJunction) (p : WinPath) (a : Nat) : winOpen t p a = winOpen s p a :=
  eq_of_sansJunction (winOpen · p a) (fun _ _ => by cases p <;> rfl) h

theorem raised_of_sansJunction {s t : State} (h : t.sansJunction = s.sansJunction) : t.ev.raised = s.ev.raised :=
  eq_of_sansJunction (·.ev.raised) (fun _ _ => rfl) h

/-- What reads of the window leave alone: all but the junction, and of the junction the side port's pointer. -/
def pastReads (s : State) : State × BitVec 16 := (s.sansJunction, s.junction.smbusPtr)

@[simp] theorem bankedMod_pastReads (p : WinPath) (f : BankedSt → BankedSt) (s : State) : pastReads (bankedMod p f s) = pastReads s := by
  cases p <;> rfl

@[simp] theorem winLatch_pastReads (p : WinPath) (a : Nat) (s : State) : pastReads (winLatch p a s) = pastReads s := by
  unfold winLatch
  split
  · split <;> simp
  · rfl

@[simp] theorem boxAdvance_pastReads (p : WinPath) (s : State) : pastReads (boxAdvance p s) = pastReads s := by
  unfold boxAdvance
  split <;> simp

/-- The record of the last word that a path has read. -/
def noteRead (p : WinPath) (v : Nat) (s : State) : State :=
  { s with junction := { s.junction with lastRead := vmod s.junction.lastRead (pathIdx p) fun _ => BitVec.ofNat 32 v } }

@[simp] theorem noteRead_pastReads (p : WinPath) (v : Nat) (s : State) : pastReads (noteRead p v s) = pastReads s := rfl

@[simp] theorem bankOf_noteRead (p q : WinPath) (v : Nat) (s : State) : bankOf (noteRead p v s) q = bankOf s q := by
  cases q <;> rfl

@[simp] theorem bankOf_bankedMod (p : WinPath) (f : BankedSt → BankedSt) (s : State) : bankOf (bankedMod p f s) p = f (bankOf s p) := by
  cases p <;> rfl

section
variable {p : WinPath} {s : State} {a : Nat}

/-- An aligned read returns the word, latches its field, advances BOX_RPTR at 0x37C and is recorded (R439, R444). -/
theorem winRead_aligned (h : a % 4 = 0) : winRead p a s = (winValue s p a, noteRead p (winValue s p a)
    (let u := if winOpen s p a then winLatch p a s else s; if a = 0x37C && winOpen u p a then boxAdvance p u else u)) :=
  if_neg (by simp [h])

@[simp] theorem winRead_pastReads (p : WinPath) (a : Nat) (s : State) : pastReads (winRead p a s).2 = pastReads s := by
  by_cases h : a % 4 = 0
  · rw [winRead_aligned h, noteRead_pastReads]
    dsimp only
    split <;> split <;> simp
  · rw [winRead, if_pos (by simpa using h)]

theorem winRead_sansJunction (p : WinPath) (a : Nat) (s : State) : (winRead p a s).2.sansJunction = s.sansJunction :=
  congrArg Prod.fst (winRead_pastReads p a s)

/-! ### Latched fields -/

/-- The words of a field as they stand. -/
def fieldWords (s : State) (p : WinPath) (lo n : Nat) : List (BitVec 32) := (List.range n).map fun i => BitVec.ofNat 32 (winWord s p (lo + 4 * i))

/-- The multi-word fields are word-aligned, and none begins at the box's last word. -/
theorem wideFields_aligned : ∀ f ∈ wideFields, f.1 % 4 = 0 ∧ f.1 ≠ 0x37C := by decide

/-- The multi-word fields do not overlap: a word of one belongs to it. -/
theorem wideOf_word : ∀ f ∈ wideFields, ∀ i < f.2, wideOf (f.1 + 4 * i) = some f := by decide

theorem mem_wideFields {f : Nat × Nat} (h : wideOf a = some f) : f ∈ wideFields := List.mem_of_find?_eq_some h

/-- A read of a field's lowest word (R439). -/
theorem winRead_lowest {n : Nat} (hw : wideOf a = some (a, n)) (h : winOpen s p a = true) : (winRead p a s).2 =
    noteRead p (winValue s p a) (bankedMod p (fun b => { b with latch := some (a, fieldWords s p a n) }) s) := by
  obtain ⟨hal, hbox⟩ := wideFields_aligned _ (mem_wideFields hw)
  rw [winRead_aligned hal]
  simp [h, hbox, winLatch, hw, fieldWords]

/-- A word past the lowest of an open field reads from the latch of that field (R439). -/
theorem winValue_latched {lo n i : Nat} {ws : List (BitVec 32)} (hw : wideOf (lo + 4 * i) = some (lo, n)) (hl : (bankOf s p).latch = some (lo, ws))
    (hi : 0 < i) (h : winOpen s p (lo + 4 * i) = true) : winValue s p (lo + 4 * i) = (ws.getD i 0).toNat := by
  have hpast : (lo + 4 * i != lo) = true := bne_iff_ne.2 (by omega)
  have hindex : (lo + 4 * i - lo) / 4 = i := by omega
  simp only [winValue, hw, hl, hpast, hindex, h, BEq.rfl, Bool.and_self, if_true]

theorem fieldWords_getD {lo n i : Nat} (hi : i < n) : (fieldWords s p lo n).getD i 0 = BitVec.ofNat 32 (winWord s p (lo + 4 * i)) := by
  simp [fieldWords, hi]

/-- A read that is a row of its own leaves what winRead makes. -/
theorem does_winRead {i : Instr} {P : State → Prop} (hi : exec i s = settle s (winRead p a s).2) (hp : P (winRead p a s).2) : Does i s P :=
  does_quiet hi (raised_of_sansJunction (winRead_sansJunction p a s)) hp

theorem does_windowLatchRead {off : BitVec 12} {n : Nat} (hw : wideOf off.toNat = some (off.toNat, n)) (h : winOpen s p off.toNat = true) :
    Does (.windowLatchRead p off) s fun t => (bankOf t p).latch = some (off.toNat, fieldWords s p off.toNat n) ∧
      (∀ i, 0 < i → i < n → winOpen s p (off.toNat + 4 * i) = true →
        winValue t p (off.toNat + 4 * i) = (BitVec.ofNat 32 (winWord s p (off.toNat + 4 * i))).toNat) ∧
      t.hush = s.hush ∧ t.ev = s.ev ∧ t.mem = s.mem ∧ t.kennel = s.kennel := by
  have hkept := winRead_sansJunction p off.toNat s
  have hlatch : (bankOf (winRead p off.toNat s).2 p).latch = some (off.toNat, fieldWords s p off.toNat n) := by
    rw [winRead_lowest hw h, bankOf_noteRead, bankOf_bankedMod]
  refine does_winRead rfl ⟨hlatch, fun i hpos hi hopen => ?_, eq_of_sansJunction State.hush (fun _ _ => rfl) hkept,
    eq_of_sansJunction (·.ev) (fun _ _ => rfl) hkept, eq_of_sansJunction (·.mem) (fun _ _ => rfl) hkept, eq_of_sansJunction (·.kennel) (fun _ _ => rfl) hkept⟩
  rw [winValue_latched (wideOf_word _ (mem_wideFields hw) i hi) hlatch hpos ((winOpen_of_sansJunction hkept ..).trans hopen), fieldWords_getD hi]

/-! ### The box's last word -/

/-- BOX_RPTR after a read of the box's last word (R444). -/
theorem boxAdvance_rptr : (bankOf (boxAdvance p s) p).boxRptr =
    if p ≠ .kennel ∧ (bankOf s p).boxAutoinc = true then (bankOf s p).boxRptr + 1 else (bankOf s p).boxRptr := by
  unfold boxAdvance
  simp only [Bool.and_eq_true, bne_iff_ne]
  split
  · rw [bankOf_bankedMod]
  · rfl

/-- 0x37C is not the lowest word of its field, so reading it latches nothing. -/
theorem winLatch_lastWord : winLatch p 0x37C s = s := by
  simp [winLatch, show wideOf 0x37C = some (0x340, 16) by decide]

theorem winRead_lastWord (h : winOpen s p 0x37C = true) : (winRead p 0x37C s).2 = noteRead p (winValue s p 0x37C) (boxAdvance p s) := by
  rw [winRead_aligned (by decide)]
  simp [h, winLatch_lastWord]

theorem does_boxDataLastWordRead (h : winOpen s p 0x37C = true) : Does (.boxDataLastWordRead p) s fun t =>
    (bankOf t p).boxRptr = (if p ≠ .kennel ∧ (bankOf s p).boxAutoinc = true then (bankOf s p).boxRptr + 1 else (bankOf s p).boxRptr) ∧
    ({ t with junction := s.junction } : State) = s := by
  refine does_winRead rfl ⟨?_, junction_alone (winRead_sansJunction ..)⟩
  rw [winRead_lastWord h, bankOf_noteRead, boxAdvance_rptr]

/-! ### Reads of the side port -/

/-- The words that a block read takes, in address order, and the state that the reads leave (R464). -/
def sideReads (ptr : Nat) (k : Nat) (s : State) : Bytes × State :=
  (List.range k).foldl (fun (p : Bytes × State) i =>
    let q := winRead .smbus (ptr + 4 * i) p.2
    (p.1 ++ le 4 q.1, q.2)) ([], s)

theorem sideReads_succ (ptr k : Nat) (s : State) : sideReads ptr (k + 1) s =
    ((sideReads ptr k s).1 ++ le 4 (winRead .smbus (ptr + 4 * k) (sideReads ptr k s).2).1, (winRead .smbus (ptr + 4 * k) (sideReads ptr k s).2).2) := by
  simp only [sideReads, List.range_succ, List.foldl_append, List.foldl_cons, List.foldl_nil]

@[simp] theorem sideReads_length (ptr k : Nat) (s : State) : (sideReads ptr k s).1.length = 4 * k := by
  induction k with
  | zero => rfl
  | succ k ih => rw [sideReads_succ, List.length_append, ih, length_le_bytes]; omega

@[simp] theorem sideReads_pastReads (ptr k : Nat) (s : State) : pastReads (sideReads ptr k s).2 = pastReads s := by
  induction k with
  | zero => rfl
  | succ k ih => rw [sideReads_succ, winRead_pastReads, ih]

/-- A block of one word is the word that a window read gives. -/
theorem sideReads_one {ptr : Nat} (h : ptr % 4 = 0) (s : State) : (sideReads ptr 1 s).1 = le 4 (winValue s .smbus ptr) :=
  congrArg (fun q : Nat × State => le 4 q.1) (winRead_aligned h)

/-- What makes a side-port block good. -/
theorem smbusSpan_aligned {n : Nat} (h : smbusSpan s n = true) : n % 4 = 0 ∧ s.junction.smbusPtr.toNat % 4 = 0 := by
  simp only [smbusSpan, Bool.and_eq_true, beq_iff_eq] at h
  obtain ⟨⟨⟨_, hn⟩, hptr⟩, _⟩ := h
  exact ⟨hn, hptr⟩

/-- What a good block read leaves: the bytes out, and the pointer behind them. -/
theorem exec_smbusBlockRead_good {n : Nat} (h : smbusSpan s n = true) : exec (.smbusBlockRead n) s = settle s
    (let r := sideReads s.junction.smbusPtr.toNat (n / 4) s
     { smbusAdvance n r.2 with junction := { (smbusAdvance n r.2).junction with smbusOut := some r.1 } }) :=
  congrArg (settle s) (if_pos h)

theorem does_smbusBlockRead {n : Nat} (h : smbusSpan s n = true) : Does (.smbusBlockRead n) s fun t =>
    (∃ r : Bytes, t.junction.smbusOut = some r ∧ r.length = n) ∧ t.junction.smbusPtr = s.junction.smbusPtr + BitVec.ofNat 16 n ∧
    (n = 4 → t.junction.smbusOut = some (le 4 (winValue s .smbus s.junction.smbusPtr.toNat))) ∧
    ({ t with junction := s.junction } : State) = s := by
  obtain ⟨hn, hptr⟩ := smbusSpan_aligned h
  obtain ⟨hkept, hstays⟩ := Prod.mk.inj (sideReads_pastReads s.junction.smbusPtr.toNat (n / 4) s)
  refine does_quiet (exec_smbusBlockRead_good h) (raised_of_sansJunction (s := s) hkept)
    ⟨⟨_, rfl, ?_⟩, congrArg (· + BitVec.ofNat 16 n) hstays, ?_, junction_alone (s := s) hkept⟩
  · rw [sideReads_length]
    omega
  · rintro rfl
    exact congrArg some (sideReads_one hptr s)

theorem exec_smbusBlockRead_bad {n : Nat} (h : smbusSpan s n = false) :
    exec (.smbusBlockRead n) s = .next { s with junction := { s.junction with smbusOut := none } } :=
  exec_quiet rfl (if_neg (by simp [h])) rfl

/-! ### Writes of the side port -/

theorem exec_smbusWriteWord_good (v : BitVec 16) (h : stage s ≠ 0) : exec (.smbusWriteWord v true) s =
    .next (if v.toNat % 4 = 0 then { s with junction := { s.junction with smbusPtr := v } } else s) := by
  refine exec_quiet rfl (by simp [h]) ?_
  split <;> rfl

theorem exec_smbusWriteWord_bad (v : BitVec 16) : exec (.smbusWriteWord v false) s = .next s :=
  exec_quiet rfl (if_neg (by simp)) rfl

/-- A state but for what writes of the side port can move: BOX_NEW and the junction but the pointer (R438, R445). -/
def pastSideWrites (s : State) : State × BitVec 16 := ({ s with boot := {}, junction := {} }, s.junction.smbusPtr)

@[simp] theorem bankedMod_pastSideWrites (p : WinPath) (f : BankedSt → BankedSt) (s : State) :
    pastSideWrites (bankedMod p f s) = pastSideWrites s := by
  cases p <;> rfl

theorem mjGo_pastSideWrites (p : WinPath) (s : State) : pastSideWrites (mjGo p s) = pastSideWrites s := by
  unfold mjGo
  split <;> simp

/-- The side port does not reach the Kennel-hosted registers (R438). -/
theorem winOpen_smbus (h : winOpen s .smbus a = true) : a < 0x040 ∨ 0x188 ≤ a := by
  have hclosed : ¬ kennelHosted a = true := fun hhosted => by simp [winOpen, hhosted] at h
  simp only [kennelHosted, Bool.and_eq_true, decide_eq_true_eq] at hclosed
  omega

/-- DEV_RESET takes no write over the side port (R438, R445). -/
theorem devResetWrite_smbus (v : BitVec 32) (s : State) : devResetWrite .smbus v s = s := rfl

/-- A write of the side port moves BOX_NEW or its own bank, or nothing. -/
@[simp] theorem winWrite_pastSideWrites (a : Nat) (v : BitVec 32) (s : State) : pastSideWrites (winWrite .smbus a v s) = pastSideWrites s := by
  by_cases h : a % 4 ≠ 0 ∨ winOpen s .smbus a = false
  · rw [winWrite_closed h]
  · obtain ⟨-, hopen⟩ : a % 4 = 0 ∧ winOpen s .smbus a = true := by simpa using h
    have hreach := winOpen_smbus hopen
    by_cases hstatus : a = 0x024
    · subst hstatus
      rw [winWrite_status hopen]
      rfl
    · unfold winWrite
      simp only [if_neg hstatus, if_neg (show ¬ (0x040 ≤ a ∧ a < 0x060) by omega), if_neg (show ¬ (0x060 ≤ a ∧ a < 0x080) by omega),
        if_neg (show ¬ (0x080 ≤ a ∧ a < 0x180) by omega), apply_ite pastSideWrites, devResetWrite_smbus, mjGo_pastSideWrites,
        bankedMod_pastSideWrites, ite_self]

/-- The state that the words of a block leave, written in address order (R464). -/
def sideWrites (ptr : Nat) (d : Bytes) (s : State) : State :=
  (List.range (d.length / 4)).foldl (fun s' i => winWrite .smbus (ptr + 4 * i) (BitVec.ofNat 32 (numAt d (4 * i) 4)) s') s

theorem sideWrites_pastSideWrites (ptr : Nat) (d : Bytes) (s : State) : pastSideWrites (sideWrites ptr d s) = pastSideWrites s :=
  foldl_keeps pastSideWrites _ (fun _ _ => winWrite_pastSideWrites ..) _ s

theorem sideWrites_one (ptr : Nat) {d : Bytes} (h : d.length = 4) (s : State) :
    sideWrites ptr d s = winWrite .smbus ptr (BitVec.ofNat 32 (numAt d 0 4)) s := by
  simp [sideWrites, h]

theorem exec_smbusBlockWrite_good {d : Bytes} (h : smbusSpan s d.length = true) :
    exec (.smbusBlockWrite d true) s = settle s (smbusAdvance d.length (sideWrites s.junction.smbusPtr.toNat d s)) :=
  congrArg (settle s) (if_pos h)

theorem does_smbusBlockWrite {d : Bytes} (h : smbusSpan s d.length = true) : Does (.smbusBlockWrite d true) s fun t =>
    t.junction.smbusPtr = s.junction.smbusPtr + BitVec.ofNat 16 d.length ∧ t.mem = s.mem := by
  have hkept := sideWrites_pastSideWrites s.junction.smbusPtr.toNat d s
  exact does_quiet (exec_smbusBlockWrite_good h) (congrArg (fun x : State × BitVec 16 => x.1.ev.raised) hkept)
    ⟨congrArg (fun x : State × BitVec 16 => x.2 + BitVec.ofNat 16 d.length) hkept, congrArg (fun x : State × BitVec 16 => x.1.mem) hkept⟩

theorem exec_smbusBlockWrite_one {d : Bytes} (h : smbusSpan s 4 = true) (hd : d.length = 4) : exec (.smbusBlockWrite d true) s =
    .next (settled s (smbusAdvance 4 (winWrite .smbus s.junction.smbusPtr.toNat (BitVec.ofNat 32 (numAt d 0 4)) s))) := by
  rw [exec_smbusBlockWrite_good (hd ▸ h), sideWrites_one _ hd, hd]
  rfl

theorem exec_smbusBlockWrite_bad {d : Bytes} {pec : Bool} (h : pec = false ∨ smbusSpan s d.length = false) :
    exec (.smbusBlockWrite d pec) s = .next s :=
  exec_quiet rfl (if_neg (by rcases h with h | h <;> simp [h])) rfl

end

/-- Settles O13, clause by clause: a latch by the fields that do not overlap, a block as a fold of reads or writes that move only the
junction (and BOX_NEW), and of one word as a single one. -/
theorem windowReads : Obligations.WindowReads := by
  unfold Obligations.WindowReads
  intro p s
  exact ⟨fun off n => does_windowLatchRead, does_boxDataLastWordRead, fun v => exec_smbusWriteWord_good v, exec_smbusWriteWord_bad,
    fun n => does_smbusBlockRead, fun n => exec_smbusBlockRead_bad, fun d => does_smbusBlockWrite, fun d => exec_smbusBlockWrite_one,
    fun d pec => exec_smbusBlockWrite_bad⟩

end Sys2Proof.Machine
end

section
/-! An entry that is longer than its ring (R614), and a ring whose CONSUMER is ahead of PRODUCER (R339). -/
namespace Sys2Proof.Machine
open Sys2Proof

theorem ringOf_ringSet_same {s : State} {id : Nat} {r q : RingCtx} (hr : ringOf s id = some r) (hq : q.id = id) :
    ringOf (ringSet q s) id = some q := by
  subst hq
  have hid : r.id = q.id := eq_of_beq (List.find?_some (p := fun x : RingCtx => x.id == q.id) hr)
  have hkeeps : ((fun x : RingCtx => x.id == q.id) ∘ fun x => if x.id == q.id then q else x) = fun x => x.id == q.id := by
    funext x
    by_cases hx : x.id = q.id <;> simp [hx]
  have hfind : s.rings.find? (fun x => x.id == q.id) = some r := hr
  unfold ringOf ringSet lmod
  rw [List.find?_map, hkeeps, hfind]
  simp [hid]

@[simp] theorem ringDrop_id (r : RingCtx) (e : Ent) (b : Bool) : (ringDrop r e b).id = r.id := by
  unfold ringDrop
  dsimp only
  split
  · split <;> rfl
  · rfl

/-- What is discarded does not move PRODUCER (R342, R614). -/
@[simp] theorem ringDrop_producer (r : RingCtx) (e : Ent) (b : Bool) : (ringDrop r e b).producer = r.producer := by
  unfold ringDrop
  dsimp only
  split
  · split <;> rfl
  · rfl

/-- No pin of a ring, none that its producer overruns (R210). -/
theorem pinsOverrun_unpinned {s : State} {id : Nat} (h : ∀ p ∈ s.events.pins, p.ring ≠ id) : pinsOverrun id s = s := by
  unfold pinsOverrun
  split
  · rfl
  · rw [List.filter_eq_nil_iff.mpr fun p hp => by simp [h p hp]]
    rfl

section
variable {s : State} {id : Nat} {r : RingCtx} {e : Ent} (hr : ringOf s id = some r) (hplace : ringPlaceOk s r = true) (hgo : r.stopped = false)
include hr hplace hgo

/-- An entry longer than its ring is discarded, whatever room PRODUCER and CONSUMER leave (R614). -/
theorem ringPut_longer (w : Bool) (hlong : ringSize r < e.bytes.length) : ringPut w id e s = (ringSet (ringDrop r e false) s, .dropped, []) := by
  simp [ringPut, hr, hplace, hgo, hlong]

theorem exec_ringPublish_longer {b : Bytes} (hfits : entryFits r.type b = true) (hlong : ringSize r < b.length) (hpins : ∀ p ∈ s.events.pins, p.ring ≠ id) :
    exec (.ringPublish id (.entry b)) s = .next (ringSet (ringDrop r (entryOf s r.type b) false) s) := by
  refine exec_quiet rfl ?_ rfl
  have hput (w : Bool) := ringPut_longer (e := entryOf s r.type b) hr hplace hgo w hlong
  simp only [ringPublish, hr, hfits, Bool.not_true, publish, offer, hput]
  exact pinsOverrun_unpinned hpins

end

/-- A frame is an entry of a frame ring by its length and its kind (R341, R347). -/
theorem entryFits_frame {type : Nat} {k : Byte} {b : Bytes} (hframe : isFrame type = true) (hlen : (k :: b).length % 64 = 0)
    (hkind : k.toNat ∈ [1, 2, 3, 4, 5, 6, 7, 8, 9, 0x10]) : entryFits type (k :: b) = true := by
  have hcmd : type ≠ 1 := fun h => absurd (h ▸ hframe) (by decide)
  have hnum : numAt (k :: b) 0 1 = k.toNat := rfl
  simp only [entryFits, hframe, hlen, hnum, if_true]
  simpa [hcmd] using hkind

/-- A housekeeping ring of 4,096 bytes in the store, with CONSUMER 64 bytes ahead of PRODUCER. -/
def aheadRing : RingCtx := { id := 0x200, base := 0x140000000, log2 := 12, type := 14, owner := 0x1020, policy := 0, consumer := 64 }

/-- A device whose one ring that is. -/
def aheadState : State := { State.reset with rings := [aheadRing] }

/-- A housekeeping frame of 4,160 bytes. -/
def longFrame : Bytes := 7 :: List.replicate 4159 0

/-- Refutes O47: the clause on a publication with room does not ask that CONSUMER is not ahead of PRODUCER, as R339 has it. In aheadState it
is, by 64 bytes, so that an entry of 64 bytes more than SIZE passes for one with room; the model discards it (R614), and PRODUCER stays. -/
theorem not_ringAndStreamOperations : ¬ Obligations.RingAndStreamOperations := by
  unfold Obligations.RingAndStreamOperations
  intro h
  obtain ⟨-, -, -, -, -, -, -, hroom, -⟩ := h default aheadState
  have hlen : longFrame.length = 4160 := by rw [longFrame, List.length_cons, List.length_replicate]
  have hfits : entryFits 14 longFrame = true := entryFits_frame rfl (by rw [List.length_cons, List.length_replicate]) (by decide)
  have hpins : ∀ p ∈ aheadState.events.pins, p.ring ≠ 0x200 := nofun
  have hring : ringOf aheadState 0x200 = some aheadRing := rfl
  obtain ⟨t, ht, ⟨u, hu, hproducer, -⟩, -⟩ := hroom 0x200 longFrame aheadRing hring (by decide) hfits rfl rfl rfl rfl (by rw [hlen]; decide) hpins
  have hdone := exec_ringPublish_longer hring rfl rfl hfits (by rw [hlen]; decide) hpins
  cases ht.symm.trans hdone
  cases hu.symm.trans (ringOf_ringSet_same hring (by simp [aheadRing]))
  rw [ringDrop_producer, hlen] at hproducer
  exact absurd hproducer (by decide)

end Sys2Proof.Machine
end

section
/-! One step of the machine: the command at the front of the queue, or an idle cycle of the reference clock (R395, R417, spec/95_what_each_step_holds.md). -/
namespace Sys2Proof.Machine
open Sys2Proof

/-- An empty queue lets one reference cycle pass. -/
theorem step_idle {s : State} (h : s.pending = []) : step s = .next (clockTick s) := by
  unfold step
  rw [h]

/-- Settles O1. -/
theorem stepServesFront : Obligations.StepServesFront := by
  unfold Obligations.StepServesFront
  intro c q s h
  unfold step
  rw [h]

theorem le_clampI {lo hi : Int} (h : lo ≤ hi) (x : Int) : lo ≤ clampI lo hi x := by
  unfold clampI
  split
  · exact le_rfl
  · split <;> omega

theorem clampI_le {lo hi : Int} (h : lo ≤ hi) (x : Int) : clampI lo hi x ≤ hi := by
  unfold clampI
  split
  · exact h
  · split <;> omega

theorem clampI_of_mem {lo hi x : Int} (hl : lo ≤ x) (hh : x ≤ hi) : clampI lo hi x = x := by
  unfold clampI
  rw [if_neg (by omega), if_neg (by omega)]

/-- The part of an adjustment that one cycle slews. -/
def slewPart (a : Int) (limit : Nat) : Int := if a < 0 then -(min a.natAbs limit : Nat) else (min a.natAbs limit : Nat)

theorem slewPart_bounds (a : Int) (limit : Nat) : -(limit : Int) ≤ slewPart a limit ∧ slewPart a limit ≤ limit := by
  unfold slewPart
  split <;> omega

/-- What one cycle leaves of an adjustment is nearer to 0 by the limit, and never past it. -/
theorem natAbs_sub_slewPart (a : Int) (limit : Nat) : (a - slewPart a limit).natAbs = a.natAbs - limit := by
  unfold slewPart
  split <;> omega

/-- INCREMENT leaves MAX_SLEW_PPM within 500 ppm of nominal. -/
def SlewFits (s : State) : Prop :=
  s.time.increment + ppm (tMaxSlew s) ≤ nominalInc + ppm 500 ∧ nominalInc + ppm (tMaxSlew s) ≤ s.time.increment + ppm 500

/-- 500 ppm of nominal. -/
theorem ppm_500_le : ppm 500 ≤ nominalInc := by decide

/-- An idle cycle moves the counter within 500 ppm of nominal. -/
theorem clockTick_counter (s : State) : s.time.counter + nominalInc ≤ (clockTick s).time.counter + ppm 500 ∧
    (clockTick s).time.counter ≤ s.time.counter + nominalInc + ppm 500 := by
  have hp := ppm_500_le
  have hlo := le_clampI (lo := (nominalInc : Int) - ppm 500 - s.time.increment) (hi := nominalInc + ppm 500 - s.time.increment) (by omega)
    (slewPart s.time.adjust (ppm (tMaxSlew s)))
  have hhi := clampI_le (lo := (nominalInc : Int) - ppm 500 - s.time.increment) (hi := nominalInc + ppm 500 - s.time.increment) (by omega)
    (slewPart s.time.adjust (ppm (tMaxSlew s)))
  unfold slewPart at hlo hhi
  simp only [clockTick]
  omega

/-- A state differs from another in its clock alone: the cycle number, the counter and the adjustment. -/
def SameButClock (s t : State) : Prop := t = { s with cyc := t.cyc, time := { s.time with counter := t.time.counter, adjust := t.time.adjust } }

/-- With room for the slew, an idle cycle counts one INCREMENT and slews the whole part. -/
theorem clockTick_slews {s : State} (h : SlewFits s) : (clockTick s).cyc = s.cyc + 1 ∧
    ((clockTick s).time.counter : Int) = s.time.counter + s.time.increment + slewPart s.time.adjust (ppm (tMaxSlew s)) ∧
    (clockTick s).time.adjust = s.time.adjust - slewPart s.time.adjust (ppm (tMaxSlew s)) := by
  obtain ⟨hhi, hlo⟩ := h
  have hp := ppm_500_le
  have hb := slewPart_bounds s.time.adjust (ppm (tMaxSlew s))
  have he := clampI_of_mem (lo := (nominalInc : Int) - ppm 500 - s.time.increment) (hi := nominalInc + ppm 500 - s.time.increment)
    (x := slewPart s.time.adjust (ppm (tMaxSlew s))) (by omega) (by omega)
  unfold slewPart at he hb ⊢
  refine ⟨rfl, ?_, ?_⟩
  · simp only [clockTick, he]
    omega
  · simp only [clockTick, he]

/-- n idle cycles, one after another: each slews its part of what the cycles before it have left. -/
theorem runSteps_idle (n : Nat) {s : State} (hq : s.pending = []) (h : SlewFits s) : ∃ t, runSteps n s = .next t ∧ t.cyc = s.cyc + n ∧
    (t.time.counter : Int) = s.time.counter + n * s.time.increment + (s.time.adjust - t.time.adjust) ∧
    t.time.adjust.natAbs = s.time.adjust.natAbs - n * ppm (tMaxSlew s) ∧ SameButClock s t := by
  induction n generalizing s with
  | zero => exact ⟨s, rfl, rfl, by omega, by omega, rfl⟩
  | succ n ih =>
    obtain ⟨hcyc, hcount, hadj⟩ := clockTick_slews h
    obtain ⟨t, hrun, htcyc, htcount, htadj, htsame⟩ := ih (s := clockTick s) hq h
    have hinc : (clockTick s).time.increment = s.time.increment := rfl
    have hslew : tMaxSlew (clockTick s) = tMaxSlew s := rfl
    rw [hinc, hcount, hadj] at htcount
    rw [hslew, hadj, natAbs_sub_slewPart] at htadj
    refine ⟨t, ?_, by omega, ?_, ?_, htsame⟩
    · rw [runSteps, step_idle hq]
      exact hrun
    · rw [htcount, Int.natCast_succ, Int.add_mul]
      omega
    · rw [htadj, Nat.succ_mul]
      omega

/-- Settles O2: a cycle takes the smaller of the limit and what is left, so n of them take the smaller of n limits and the whole. -/
theorem adjustmentIsSlewedOut : Obligations.AdjustmentIsSlewedOut := by
  unfold Obligations.AdjustmentIsSlewedOut
  refine ⟨fun s hq => ⟨clockTick s, step_idle hq, rfl, clockTick_counter s⟩, fun n s hq hhi hlo => ?_⟩
  obtain ⟨t, hrun, hcyc, hcount, hadj, hsame⟩ := runSteps_idle n hq ⟨hhi, hlo⟩
  exact ⟨t, hrun, hcyc, hcount, hadj, fun hall => by omega, hsame⟩

end Sys2Proof.Machine
end

section
/-! Transactions as a stream of bytes and back (R481, R484). -/
namespace Sys2Proof.Machine
open Sys2Proof

/-! ### Numbers in bytes -/

/-- n bytes of a number spell it, up to what n bytes hold. -/
theorem leNat_le (n v : Nat) : leNat (le n v) = v % 256 ^ n := by
  induction n generalizing v with
  | zero => simp [le, leNat, Nat.mod_one]
  | succ n ih =>
    rw [Nat.pow_succ', Nat.mod_mul, ← ih (v / 256), ← BitVec.toNat_ofNat v 8]
    rfl

/-- The number that stands at an offset of a record, written as what goes before it, its bytes and the rest. -/
theorem numAt_append (a r : Bytes) (n v : Nat) {off : Nat} (ho : off = a.length) (hv : v < 256 ^ n) : numAt (a ++ (le n v ++ r)) off n = v := by
  subst ho
  rw [numAt, List.drop_left, List.take_left' (length_le_bytes n v), leNat_le, Nat.mod_eq_of_lt hv]

/-! ### One transaction -/

/-- Every field of a transaction within its width, and a TYPE that is not PAD's (R481, R484). -/
def Tx.Fits (t : Tx) : Prop :=
  t.ttype ≠ 0 ∧ t.ttype < 16 ∧ t.vc < 4 ∧ t.status < 16 ∧ t.tag < 2 ^ 16 ∧ t.rlen < 2 ^ 16 ∧ t.addr < 2 ^ 64 ∧ t.data.length < 2 ^ 16 ∧ t.stream = none

/-- The first byte of a transaction. -/
def Tx.kindByte (t : Tx) : Nat := t.ttype + if t.cpl then 16 else 0

/-- Bytes of PAD behind the data of a transaction. -/
def Tx.fill (t : Tx) : Nat := ceilDiv (16 + t.data.length) 8 * 8 - (16 + t.data.length)

theorem fill_add (t : Tx) : 16 + t.data.length + t.fill = ceilDiv (16 + t.data.length) 8 * 8 := by
  unfold Tx.fill ceilDiv
  omega

/-- The fields ahead of the data of a transaction, followed by a rest. -/
def Tx.headed (t : Tx) (rest : Bytes) : Bytes :=
  le 1 t.kindByte ++ (le 1 (t.vc + t.status * 16) ++ (le 2 t.data.length ++ (le 2 t.tag ++ (le 2 t.rlen ++ (le 8 t.addr ++ rest)))))

/-- A transaction's bytes, field by field. -/
theorem txBytes_eq (t : Tx) : txBytes t = t.headed (t.data ++ List.replicate t.fill 0) := by
  have hf := fill_add t
  have hd : (t.headed t.data).length = 16 + t.data.length := by simp [Tx.headed]; omega
  have hb : txBytes t = padTo (ceilDiv (t.headed t.data).length 8 * 8) (t.headed t.data) := by simp [txBytes, Tx.headed, Tx.kindByte, le]
  rw [hb, padTo, hd, ← hf, List.take_append, hd, List.take_of_length_le (by omega), Nat.add_sub_cancel_left, List.take_replicate,
    Nat.min_eq_left (by omega)]
  simp [Tx.headed]

theorem length_txBytes (t : Tx) : (txBytes t).length = ceilDiv (16 + t.data.length) 8 * 8 := by
  rw [← fill_add, txBytes_eq]
  simp [Tx.headed]
  omega

variable {t : Tx}

theorem headed_append (t : Tx) (a b : Bytes) : t.headed a ++ b = t.headed (a ++ b) := by simp [Tx.headed]

/-- What the reader finds in the fields of a transaction (R484). -/
theorem headed_fields (h : t.Fits) (rest : Bytes) : numAt (t.headed rest) 0 1 = t.kindByte ∧ numAt (t.headed rest) 1 1 = t.vc + t.status * 16 ∧
    numAt (t.headed rest) 2 2 = t.data.length ∧ numAt (t.headed rest) 4 2 = t.tag ∧ numAt (t.headed rest) 6 2 = t.rlen ∧
    numAt (t.headed rest) 8 8 = t.addr ∧ (t.headed rest).drop 16 = rest := by
  obtain ⟨h0, htype, hvc, hst, htag, hrlen, haddr, hlen, _⟩ := h
  have hkind : t.kindByte < 256 := by unfold Tx.kindByte; split <;> omega
  refine ⟨numAt_append [] _ 1 _ rfl hkind, numAt_append (le 1 _) _ 1 _ rfl (by omega), ?_, ?_, ?_, ?_, rfl⟩
  · exact numAt_append (le 1 _ ++ le 1 _) _ 2 _ rfl (by omega)
  · exact numAt_append (le 1 _ ++ le 1 _ ++ le 2 _) _ 2 _ rfl (by omega)
  · exact numAt_append (le 1 _ ++ le 1 _ ++ le 2 _ ++ le 2 _) _ 2 _ rfl (by omega)
  · exact numAt_append (le 1 _ ++ le 1 _ ++ le 2 _ ++ le 2 _ ++ le 2 _) _ 8 _ rfl (by omega)

/-! ### The reader -/

variable {n : Nat} {acc : List Tx} {rest : Bytes}

/-- A number that stands within the first bytes of a record stands there too when the record is cut behind it. -/
theorem numAt_take {b : Bytes} {off k c : Nat} (h : off + k ≤ c) : numAt (b.take c) off k = numAt b off k := by
  rw [numAt, List.drop_take, List.take_take, Nat.min_eq_left (by omega), numAt]

/-- The first eight bytes of a transaction are not those of PAD. -/
theorem headed_notPad (h : t.Fits) {c : Nat} (hc : 8 ≤ c) : (((t.headed rest).take c).take 8).all (· == 0) = false := by
  obtain ⟨hkind, _⟩ := headed_fields h rest
  obtain ⟨h0, htype, _⟩ := h
  have hne : (t.headed rest).head? ≠ some 0 := by
    intro he
    have hz : BitVec.ofNat 8 t.kindByte = 0 := Option.some.inj he
    have hv : numAt (t.headed rest) 0 1 = (BitVec.ofNat 8 t.kindByte).toNat := rfl
    rw [hz, hkind, Tx.kindByte] at hv
    simp at hv
    omega
  rw [List.take_take, Nat.min_eq_left hc]
  cases hd : t.headed rest with
  | nil => simp [Tx.headed, le] at hd
  | cons x xs => simp_all

/-- The reader takes a whole transaction at the front as it was sent. -/
theorem txParse_whole (h : t.Fits) : txParse (n + 1) (txBytes t ++ rest) acc = txParse n rest (acc ++ [t]) := by
  have hlen := length_txBytes t
  have hpad := headed_notPad (rest := t.data ++ List.replicate t.fill 0 ++ rest) h (le_refl 8)
  obtain ⟨hkind, hvc, hdata, htag, hrlen, haddr, hdrop⟩ := headed_fields h (t.data ++ List.replicate t.fill 0 ++ rest)
  have hb : txBytes t ++ rest = t.headed (t.data ++ List.replicate t.fill 0 ++ rest) := by rw [txBytes_eq, headed_append]
  have hskip : (txBytes t ++ rest).drop (ceilDiv (16 + t.data.length) 8 * 8) = rest := List.drop_left' hlen
  have hall : ceilDiv (16 + t.data.length) 8 * 8 ≤ (txBytes t ++ rest).length := by rw [List.length_append, hlen]; omega
  have hf := fill_add t
  rw [List.take_take, Nat.min_self] at hpad
  rw [hb] at hskip hall ⊢
  obtain ⟨h0, htype, hvc4, hst, _, _, _, _, hstream⟩ := h
  have hcpl : t.kindByte % 16 = t.ttype ∧ ((t.kindByte / 16) % 2 == 1) = t.cpl := by
    unfold Tx.kindByte
    cases t.cpl <;> simp <;> omega
  have hdat : (t.data ++ List.replicate t.fill 0 ++ rest).take t.data.length = t.data := by simp
  have hvs : (t.vc + t.status * 16) % 4 = t.vc ∧ (t.vc + t.status * 16) / 16 = t.status := by omega
  rw [txParse, if_neg (by omega), hpad, if_neg Bool.false_ne_true, if_neg (by omega)]
  simp only [hkind, hvc, hdata, htag, hrlen, haddr, hdrop, hcpl.1, hcpl.2, hdat, hvs.1, hvs.2, if_neg (Nat.not_lt.mpr hall), hskip, ← hstream]

/-- The reader waits for the rest of a transaction that is cut. -/
theorem txParse_cutShort (h : t.Fits) {c : Nat} (hc : c < (txBytes t).length) : txParse n ((txBytes t).take c) acc = (acc, (txBytes t).take c) := by
  have hl : ((txBytes t).take c).length = c := by rw [List.length_take]; omega
  rw [length_txBytes] at hc
  cases n with
  | zero => rfl
  | succ n =>
    rw [txParse, hl]
    by_cases h8 : c < 8
    · rw [if_pos h8]
    have hpad := headed_notPad (rest := t.data ++ List.replicate t.fill 0) h (Nat.le_of_not_lt h8)
    rw [← txBytes_eq] at hpad
    rw [if_neg h8, hpad, if_neg Bool.false_ne_true]
    by_cases h16 : c < 16
    · rw [if_pos h16]
    obtain ⟨_, _, hdata, _⟩ := headed_fields h (t.data ++ List.replicate t.fill 0)
    rw [← txBytes_eq] at hdata
    simp only [if_neg h16, numAt_take (show 2 + 2 ≤ c by omega), hdata, if_pos hc]

/-- The reader drops PAD, eight bytes at a time. -/
theorem txParse_pad {m : Nat} (hm : m ≤ 8 * n) : txParse n (List.replicate m 0) acc = (acc, List.replicate (m % 8) 0) := by
  induction n generalizing m with
  | zero =>
    obtain rfl : m = 0 := by omega
    rfl
  | succ n ih =>
    rw [txParse, List.length_replicate]
    by_cases h8 : m < 8
    · rw [if_pos h8, Nat.mod_eq_of_lt h8]
    · have hall : ((List.replicate m (0 : Byte)).take 8).all (· == 0) = true := by simp [List.take_replicate]
      rw [if_neg h8, if_pos hall, List.drop_replicate, ih (by omega), ← Nat.mod_eq_sub_mod (Nat.le_of_not_lt h8)]

/-- The bytes of transactions in order, with so many times eight of PAD behind them. -/
def txStream (l : List Tx) (k : Nat) : Bytes := l.flatMap txBytes ++ List.replicate (8 * k) 0

theorem txStream_nil (k : Nat) : txStream [] k = List.replicate (8 * k) 0 := rfl

theorem txStream_cons (t : Tx) (l : List Tx) (k : Nat) : txStream (t :: l) k = txBytes t ++ txStream l k := by simp [txStream]

theorem length_txBytes_pos (t : Tx) : 16 ≤ (txBytes t).length := by
  rw [length_txBytes, ← fill_add]
  omega

/-- A whole stream is read to its end. -/
theorem txParse_all {l : List Tx} {k : Nat} (hl : ∀ t ∈ l, t.Fits) (hn : (txStream l k).length ≤ 8 * n) :
    txParse n (txStream l k) acc = (acc ++ l, []) := by
  induction l generalizing n acc with
  | nil =>
    rw [txStream_nil, List.length_replicate] at hn
    rw [txStream_nil, txParse_pad hn, Nat.mul_mod_right, List.append_nil, List.replicate_zero]
  | cons t l ih =>
    have hpos := length_txBytes_pos t
    rw [txStream_cons, List.length_append] at hn
    obtain ⟨n, rfl⟩ := Nat.exists_eq_succ_of_ne_zero (show n ≠ 0 by omega)
    rw [txStream_cons, txParse_whole (hl t List.mem_cons_self), ih (fun u hu => hl u (List.mem_cons_of_mem t hu)) (by omega), List.append_assoc]
    rfl

/-- The first part of a stream is read as its whole transactions; what is left, with the second part, is the stream of the others. -/
theorem txParse_take {l : List Tx} {k cut : Nat} (hl : ∀ t ∈ l, t.Fits) (hn : (txStream l k).length ≤ 8 * n) : ∃ done more j left,
    l = done ++ more ∧ txParse n ((txStream l k).take cut) acc = (acc ++ done, left) ∧ left ++ (txStream l k).drop cut = txStream more j ∧
    (txStream more j).length ≤ (txStream l k).length := by
  induction l generalizing n acc cut with
  | nil =>
    rw [txStream_nil, List.length_replicate] at hn
    refine ⟨[], [], k - min cut (8 * k) / 8, List.replicate (min cut (8 * k) % 8) 0, rfl, ?_, ?_, ?_⟩
    · rw [txStream_nil, List.take_replicate, txParse_pad (by omega), List.append_nil]
    · rw [txStream_nil, txStream_nil, List.drop_replicate, List.replicate_append_replicate]
      congr 1
      omega
    · rw [txStream_nil, txStream_nil, List.length_replicate, List.length_replicate]
      omega
  | cons t l ih =>
    have hpos := length_txBytes_pos t
    have ht := hl t List.mem_cons_self
    rw [txStream_cons] at hn ⊢
    by_cases hc : cut < (txBytes t).length
    · refine ⟨[], t :: l, k, (txBytes t).take cut, rfl, ?_, ?_, ?_⟩
      · rw [List.take_append_of_le_length (Nat.le_of_lt hc), txParse_cutShort ht hc, List.append_nil]
      · rw [List.drop_append_of_le_length (Nat.le_of_lt hc), ← List.append_assoc, List.take_append_drop, txStream_cons]
      · rw [txStream_cons]
    · obtain ⟨c, rfl⟩ := Nat.exists_eq_add_of_le (Nat.le_of_not_lt hc)
      rw [List.length_append] at hn
      obtain ⟨n, rfl⟩ := Nat.exists_eq_succ_of_ne_zero (show n ≠ 0 by omega)
      obtain ⟨done, more, j, left, hsplit, hread, hleft, hlen⟩ := ih (n := n) (acc := acc ++ [t]) (cut := c)
        (fun u hu => hl u (List.mem_cons_of_mem t hu)) (by omega)
      refine ⟨t :: done, more, j, left, congrArg (t :: ·) hsplit, ?_, ?_, ?_⟩
      · rw [List.take_length_add_append, txParse_whole ht, hread, List.append_assoc]
        rfl
      · rw [List.drop_length_add_append, hleft]
      · rw [List.length_append]
        omega

/-- Settles O60: the first piece is read as the transactions that it holds whole, and what it leaves goes on in the second. -/
theorem transactionsReadBack : Obligations.TransactionsReadBack := by
  unfold Obligations.TransactionsReadBack
  intro l k cut n hl bytes hn
  obtain ⟨done, more, j, left, rfl, hread, hleft, hlen⟩ := txParse_take (acc := []) (cut := cut) (l := l) (k := k) hl hn
  have hp : txParse n (bytes.take cut) [] = (done, left) := hread
  have hmore : txParse n (left ++ bytes.drop cut) [] = (more, []) := by
    rw [show left ++ bytes.drop cut = txStream more j from hleft]
    exact txParse_all (fun t ht => hl t (List.mem_append_right done ht)) (Nat.le_trans hlen hn)
  simp only [hp, hmore, and_self]

end Sys2Proof.Machine
end

section
/-! The maintenance arbiter's tick (R597 to R599). -/
namespace Sys2Proof.Machine
open Sys2Proof

theorem maint_of_hush {s t : State} (h : s.hush = t.hush) : s.maint = t.maint := by injection h

/-! ### The scan of the queue -/

theorem shares_comm (a b : MaintReq) : shares a b = shares b a := by
  unfold shares
  rw [BitVec.and_comm]

section
variable {held : MaintReq → Bool}

/-- A request waits at a place of a queue: it is held back, or shares with one that runs or stands ahead of it. -/
def Waiting (held : MaintReq → Bool) (running : List MaintReq) (ahead : List MaintReq) (r : MaintReq) : Prop :=
  held r = true ∨ ∃ x ∈ running ++ ahead, shares r x = true

theorem maintScan_pairwise {rs running kept : List MaintReq} (h : running.Pairwise fun a b => shares a b = false) :
    (running ++ (maintScan held rs running kept).1).Pairwise fun a b => shares a b = false := by
  induction rs generalizing running kept with
  | nil => simpa [maintScan] using h
  | cons r rs ih =>
    unfold maintScan
    split
    · exact ih h
    · next hfree =>
      have hr : ∀ x ∈ running, shares x r = false := by
        intro x hx
        rw [shares_comm]
        simp only [Bool.or_eq_true, List.any_eq_true, not_or, not_exists, not_and, List.mem_append] at hfree
        exact Bool.eq_false_iff.mpr (hfree.2 x (.inl hx))
      have hnew : (running ++ [r]).Pairwise fun a b => shares a b = false :=
        List.pairwise_append.mpr ⟨h, List.pairwise_singleton _ _, fun x hx y hy => by rw [List.mem_singleton.mp hy]; exact hr x hx⟩
      simpa using ih hnew

theorem maintScan_waiting {rs running kept : List MaintReq} : ∃ left, (maintScan held rs running kept).2 = kept ++ left ∧
    ∀ ahead r rest, left = ahead ++ r :: rest → Waiting held (running ++ (maintScan held rs running kept).1) (kept ++ ahead) r := by
  induction rs generalizing running kept with
  | nil => exact ⟨[], by simp [maintScan], fun ahead r rest h => by simp at h⟩
  | cons r rs ih =>
    unfold maintScan
    split
    · next hheld =>
      obtain ⟨left, hleft, hwait⟩ := ih (running := running) (kept := kept ++ [r])
      refine ⟨r :: left, by simpa using hleft, fun ahead q rest hq => ?_⟩
      cases ahead with
      | nil =>
        obtain ⟨rfl, _⟩ := List.cons.inj hq
        rcases Bool.or_eq_true_iff.mp hheld with hh | hs
        · exact .inl hh
        · obtain ⟨x, hx, hxs⟩ := List.any_eq_true.mp hs
          exact .inr ⟨x, by simp at hx ⊢; tauto, hxs⟩
      | cons a ahead =>
        obtain ⟨rfl, hl⟩ := List.cons.inj hq
        simpa [Waiting] using hwait ahead q rest hl
    · obtain ⟨left, hleft, hwait⟩ := ih (running := running ++ [r]) (kept := kept)
      exact ⟨left, hleft, fun ahead q rest hq => by simpa [Waiting] using hwait ahead q rest hq⟩

theorem maintScan_length {rs running kept : List MaintReq} :
    (maintScan held rs running kept).1.length + (maintScan held rs running kept).2.length = rs.length + kept.length := by
  induction rs generalizing running kept with
  | nil => simp [maintScan]
  | cons r rs ih =>
    unfold maintScan
    split
    · rw [ih]
      simp
      omega
    · have := ih (running := running ++ [r]) (kept := kept)
      simp only [List.length_cons]
      omega

end

theorem maintNumber_length (l : List MaintReq) (n : Nat) : (maintNumber l n).1.length = l.length := by
  induction l generalizing n with
  | nil => rfl
  | cons r rs ih =>
    unfold maintNumber
    exact congrArg (· + 1) (ih _)

/-! ### What a grant and a deferral leave alone -/

@[simp] theorem evMaint_hush (type : Nat) (r : MaintReq) (s : State) : (evMaint type r s).hush = s.hush := raise_hush ..

@[simp] theorem maintDefer_hush (r : MaintReq) (s : State) : (maintDefer r s).hush = s.hush := by
  unfold maintDefer
  split
  · rfl
  · split
    · rfl
    · split <;> simp

/-- The arbiter and the power states of a state. -/
def State.arbiter (s : State) : MaintSt × PowerSt := (s.maint, s.power)

theorem arbiter_of_hush {s t : State} (h : s.hush = t.hush) : s.arbiter = t.arbiter := Prod.ext (maint_of_hush h) (power_of_hush h)

@[simp] theorem maintStart_arbiter (r : MaintReq) (s : State) : (maintStart r s).arbiter = s.arbiter := by
  unfold maintStart
  split
  · split <;> rfl
  · rfl
  · rfl

/-! ### A tick -/

/-- The group that arrived since the last tick, in order and with its tickets. -/
def tickGroup (s : State) : List MaintReq × Nat := maintNumber (s.maint.arrived.mergeSort maintLe) s.maint.nextTicket

/-- What a tick grants and what it keeps. -/
def tickScan (s : State) : List MaintReq × List MaintReq := maintScan (maintHeld s) (s.maint.queue ++ (tickGroup s).1) s.maint.running []

/-- The arbiter after a tick. -/
def ticked (s : State) : MaintSt :=
  { s.maint with
    arrived := [], lastTick := some (nowUs s), nextTicket := (tickGroup s).2
    queue := (tickScan s).2.map fun r => { r with wasQueued := true }
    running := s.maint.running ++ (tickScan s).1.map fun r => { r with since := s.cyc } }

theorem maintTick_arbiter {s : State} (h : s.maint.lastTick ≠ some (nowUs s)) : (maintTick s).arbiter = (ticked s, s.power) := by
  unfold maintTick
  rw [if_neg (by simpa using h)]
  simp only
  rw [foldl_keeps State.arbiter _ (fun s r => arbiter_of_hush (maintDefer_hush r s)),
    foldl_keeps State.arbiter _ (fun s r => (maintStart_arbiter r _).trans (arbiter_of_hush (hush_ite (evMaint_hush 1 r s))))]
  rfl

theorem reinitsDue_none {s : State} (h : s.maint.reinits = []) : reinitsDue s = s := by
  simp only [reinitsDue, h, List.filter_nil, List.foldl_nil]
  rw [← h]

theorem quietDue_none {s : State} (h : s.power.transition = none) : quietDue s = s := by
  simp only [quietDue, h]

/-- With no re-initialisation and no power transition that waits, a tick is the arbiter's alone (R602). -/
theorem maintStep_arbiter {s : State} (h : s.maint.lastTick ≠ some (nowUs s)) (hr : s.maint.reinits = []) (ht : s.power.transition = none) :
    (maintStep s).maint = ticked s := by
  have ha := maintTick_arbiter h
  have hm : (maintTick s).maint = ticked s := congrArg Prod.fst ha
  have hp : (maintTick s).power = s.power := congrArg Prod.snd ha
  rw [maintStep, reinitsDue_none (by rw [hm]; exact hr), quietDue_none (by rw [hp]; exact ht), hm]

/-- What a request keeps of itself when it is granted or stays: what the arbiter compares. -/
theorem waiting_of_map {s : State} {f g : MaintReq → MaintReq} {running granted ahead : List MaintReq} {r : MaintReq}
    (hf : ∀ x, (f x).resources = x.resources) (hg : ∀ x, (g x).resources = x.resources ∧ (g x).origin = x.origin)
    (h : Waiting (maintHeld s) (running ++ granted) ahead r) : maintHeld s (g r) = true ∨
      ∃ x ∈ (running ++ granted.map f) ++ ahead.map g, shares (g r) x = true := by
  rcases h with h | ⟨x, hx, hs⟩
  · refine .inl ?_
    unfold maintHeld at h ⊢
    rw [(hg r).1, (hg r).2]
    exact h
  · unfold shares at hs ⊢
    simp only [List.mem_append, List.mem_map] at hx ⊢
    rw [(hg r).1]
    rcases hx with (hx | hx) | hx
    · exact .inr ⟨x, .inl (.inl hx), hs⟩
    · exact .inr ⟨f x, .inl (.inr ⟨x, hx, rfl⟩), by rw [hf]; exact hs⟩
    · exact .inr ⟨g x, .inr ⟨x, hx, rfl⟩, by rw [(hg x).1]; exact hs⟩

theorem ticked_pairwise {s : State} (h : s.maint.running.Pairwise fun a b => shares a b = false) :
    (ticked s).running.Pairwise fun a b => shares a b = false := by
  have hscan := maintScan_pairwise (held := maintHeld s) (rs := s.maint.queue ++ (tickGroup s).1) (kept := []) h
  obtain ⟨hrun, hgranted, hcross⟩ := List.pairwise_append.mp hscan
  refine List.pairwise_append.mpr ⟨hrun, List.pairwise_map.mpr hgranted, fun a ha b hb => ?_⟩
  obtain ⟨x, hx, rfl⟩ := List.mem_map.mp hb
  exact hcross a ha x hx

theorem ticked_waiting {s : State} {r : MaintReq} {rest ahead : List MaintReq} (h : (ticked s).queue = ahead ++ r :: rest) :
    maintHeld s r = true ∨ ∃ x ∈ (ticked s).running ++ ahead, shares r x = true := by
  obtain ⟨left, hleft, hwait⟩ := maintScan_waiting (held := maintHeld s) (rs := s.maint.queue ++ (tickGroup s).1) (running := s.maint.running) (kept := [])
  have hqueue : left.map (fun r => { r with wasQueued := true }) = ahead ++ r :: rest := by
    rw [← h, show left = (tickScan s).2 from hleft.symm]
    rfl
  obtain ⟨ahead', tail, hsplit, rfl, htail⟩ := List.map_eq_append_iff.mp hqueue
  obtain ⟨r', rest', rfl, rfl, rfl⟩ := List.map_eq_cons_iff.mp htail
  exact waiting_of_map (f := fun r => { r with since := s.cyc }) (g := fun r => { r with wasQueued := true }) (fun _ => rfl) (fun _ => ⟨rfl, rfl⟩) (hwait ahead' r' rest' hsplit)

theorem ticked_length (s : State) :
    (ticked s).running.length + (ticked s).queue.length = s.maint.running.length + s.maint.queue.length + s.maint.arrived.length := by
  have hscan := maintScan_length (held := maintHeld s) (rs := s.maint.queue ++ (tickGroup s).1) (running := s.maint.running) (kept := [])
  have hgroup : (tickGroup s).1.length = s.maint.arrived.length := (maintNumber_length _ _).trans (List.length_mergeSort _)
  have hrun : (ticked s).running.length = s.maint.running.length + (tickScan s).1.length := by simp [ticked]
  have hqueue : (ticked s).queue.length = (tickScan s).2.length := List.length_map _
  rw [List.length_append, List.length_nil] at hscan
  unfold tickScan at hrun hqueue
  omega

/-- Settles O19: what the scan grants and keeps, and that neither a grant's effects nor the deferrals touch the arbiter. -/
theorem arbiterGrants : Obligations.ArbiterGrants := by
  unfold Obligations.ArbiterGrants
  intro s htick hreinits htrans hrun
  have hm : (settled s (maintStep s)).maint = ticked s :=
    (maint_of_hush (settled_hush ..)).trans (maintStep_arbiter htick hreinits htrans)
  refine ⟨settled s (maintStep s), rfl, ?_⟩
  simp only [hm]
  exact ⟨ticked_pairwise hrun, List.prefix_append _ _, rfl, fun r rest ahead h => ticked_waiting h, ticked_length s⟩

end Sys2Proof.Machine
end

section
/-! EVENT_ENABLE: its reset value, and what no delivery of records touches of it (R460, R609, R610). -/
namespace Sys2Proof.Machine
open Sys2Proof

/-! ### The reset value -/

/-- A number made of the powers of two at the places below n that fit p has its bits there. -/
theorem testBit_powers (p : Nat → Bool) (n : Nat) : ((List.range n).filter p).foldl (fun a k => a + 2 ^ k) 0 < 2 ^ n ∧
    ∀ k, (((List.range n).filter p).foldl (fun a k => a + 2 ^ k) 0).testBit k = (decide (k < n) && p k) := by
  induction n with
  | zero => simp
  | succ n ih =>
    obtain ⟨hlt, hbit⟩ := ih
    rw [List.range_succ, List.filter_append, List.foldl_append]
    generalize ((List.range n).filter p).foldl (fun a k => a + 2 ^ k) 0 = v at hlt hbit ⊢
    cases hp : p n
    · refine ⟨by simp [hp, Nat.pow_succ]; omega, fun k => ?_⟩
      by_cases hk : k = n
      · subst hk
        simp [hp, hbit]
      · simp [hp, hbit, show k < n + 1 ↔ k < n by omega]
    · refine ⟨by simp [hp, Nat.pow_succ]; omega, fun k => ?_⟩
      simp only [List.filter_cons, hp, if_true, List.filter_nil, List.foldl_cons, List.foldl_nil, Nat.add_comm v]
      rcases Nat.lt_trichotomy k n with hk | rfl | hk
      · simp [Nat.testBit_two_pow_add_gt hk, hbit, hk, show k < n + 1 by omega]
      · simp [Nat.testBit_two_pow_add_eq, hbit, hp]
      · rw [Nat.testBit_lt_two_pow (by have := Nat.pow_le_pow_right (show 0 < 2 by decide) hk; rw [Nat.pow_succ] at this; omega)]
        simp [show ¬ k < n + 1 by omega]

/-- A source's bit of the reset value: clear where the source is reserved, absent, or off in the catalogue. -/
theorem bitAt_enableReset (g : Grade) {n : Nat} (hn : n < 256) :
    bitAt (enableReset g) n = !(inRuns reservedSources n || inRuns quietSources n || inRuns (absentSources g) n) := by
  obtain ⟨hlt, hbit⟩ := testBit_powers (fun n => !(inRuns reservedSources n || inRuns quietSources n || inRuns (absentSources g) n)) 256
  rw [enableReset, bitAt, BitVec.getLsbD_ofNat, hbit]
  simp [hn]

/-! ### What a delivery leaves alone -/

@[simp] theorem hostWrite_ev (k vc n off : Nat) (b : Bytes) (s : State) : (hostWrite k vc n off b s).ev = s.ev := by
  induction n generalizing off b s with
  | zero => rfl
  | succ n ih =>
    unfold hostWrite
    split
    · rfl
    · simp only [ih]
      split <;> rfl

@[simp] theorem ringBytesAt_ev (r : RingCtx) (o : Nat) (x : Bytes) (s : State) : (ringBytesAt r o x s).ev = s.ev := by
  unfold ringBytesAt
  split
  · simp
  · rfl
  · rfl

@[simp] theorem ringAppend_ev (r : RingCtx) (l : List Ent) (s : State) : (ringAppend r l s).2.ev = s.ev := by
  induction l generalizing r s with
  | nil => rfl
  | cons e l ih =>
    unfold ringAppend
    simp [ih, ringWrite]

/-- What a publication can make of the state: nothing, a new context of its ring, or that and the bytes of what it appends, which
streams and VITA streams that are behind then lose (R342, R344, R359, R414). -/
theorem ringPut_cases (w : Bool) (id : Nat) (e : Ent) (s : State) : (ringPut w id e s).1 = s ∨ (∃ r, (ringPut w id e s).1 = ringSet r s) ∨
    ∃ r r' b l m, (ringPut w id e s).1 = ringSet r' (vitaLoses id l (ringAppend r b (streamLoses id m s)).2) := by
  generalize hx : (ringPut w id e s).1 = x
  unfold ringPut at hx
  split at hx
  · exact .inl hx.symm
  · next r _ =>
    generalize (if ringPlaceOk s r = true then (r, []) else ringHalt s r) = p0 at hx
    obtain ⟨r, ev0⟩ := p0
    dsimp only at hx
    split at hx
    · exact .inr (.inl ⟨_, hx.symm⟩)
    split at hx
    · exact .inr (.inl ⟨_, hx.symm⟩)
    generalize (!decide (r.producer + _ - r.consumer ≤ ringSize r) || !ringReach s r) = full at hx
    split at hx
    · exact .inr (.inl ⟨_, hx.symm⟩)
    generalize (if (full && r.policy == 1 && ringReach s r) = true then ringPass _ r.entries r [] else (r, [])) = p1 at hx
    generalize (if full = true then ringFullNote s p1.1 else (p1.1, [])) = p2 at hx
    split at hx
    · exact .inr (.inl ⟨_, hx.symm⟩)
    · exact .inr (.inr ⟨_, _, _, _, _, hx.symm⟩)

/-- A publication leaves the event router alone: its records are handed back. -/
@[simp] theorem ringPut_ev (w : Bool) (id : Nat) (e : Ent) (s : State) : (ringPut w id e s).1.ev = s.ev := by
  rcases ringPut_cases w id e s with h | ⟨r, h⟩ | ⟨r, r', b, l, m, h⟩
  · rw [h]
  · rw [h]
    rfl
  · rw [h]
    exact ringAppend_ev r b (streamLoses id m s)

/-- The enable bits that a state's event router has. -/
def State.enabled (s : State) : BitVec 256 := s.ev.enable

theorem enabled_of_ev {s t : State} (h : s.ev = t.ev) : s.enabled = t.enabled := congrArg EventSt.enable h

@[simp] theorem evPut_enabled (k : Nat) (x : EventRec) (p : State × List EventRec) : (evPut k x p).1.enabled = p.1.enabled :=
  enabled_of_ev (ringPut_ev ..)

@[simp] theorem evPutLost_enabled (k : Nat) (s : State) : (evPutLost k s).1.enabled = s.enabled := by
  unfold evPutLost
  dsimp only
  split
  · rfl
  · exact evPut_enabled k _ _

@[simp] theorem evRingDrop_enabled (k : Nat) (e : EventRec) (s : State) : (evRingDrop k e s).1.enabled = s.enabled := by
  unfold evRingDrop
  split <;> rfl

@[simp] theorem evToRing_enabled (k : Nat) (e : EventRec) (s : State) : (evToRing k e s).1.enabled = s.enabled := by
  unfold evToRing
  split
  · simp
  · simp

@[simp] theorem evToBond_enabled (k : Nat) (e : EventRec) (s : State) : (evToBond k e s).enabled = s.enabled := by
  unfold evToBond
  dsimp only
  split
  · split <;> rfl
  · rfl

@[simp] theorem evFan_enabled (e : EventRec) (p : State × List EventRec) (k : Nat) : (evFan e p k).1.enabled = p.1.enabled := by
  unfold evFan
  split
  · simp
  · rfl

@[simp] theorem evDeliver_enabled (e : EventRec) (s : State) : (evDeliver e s).1.enabled = s.enabled := by
  unfold evDeliver
  dsimp only
  rw [foldl_keeps State.enabled _ (fun s k => by split <;> simp), foldl_keeps (fun p : State × List EventRec => p.1.enabled) _ (fun p k => by simp)]
  rfl

@[simp] theorem evOut_enabled (p : State × List EventRec) (e : EventRec) : (evOut p e).1.enabled = p.1.enabled := by
  unfold evOut
  split <;> simp

theorem evRounds_enabled (n : Nat) (l : List EventRec) (s : State) : (evRounds n l s).enabled = s.enabled := by
  induction n generalizing l s with
  | zero => rfl
  | succ n ih =>
    unfold evRounds
    split
    · rfl
    · rw [ih, foldl_keeps State.enabled (fun s e => evInternal e s) (fun _ _ => rfl), foldl_keeps (fun p : State × List EventRec => p.1.enabled) _ (fun p e => by simp)]

/-- The delivery of a command's records leaves the enable bits. -/
@[simp] theorem settled_enabled (s t : State) : (settled s t).enabled = t.enabled := by
  unfold settled
  split
  · rfl
  · exact evRounds_enabled ..

@[simp] theorem raiseRec_enabled (e : EventRec) (s : State) : (raiseRec e s).enabled = s.enabled := by
  unfold raiseRec evHold
  split
  · rfl
  · split
    · rfl
    · split <;> rfl

@[simp] theorem emit_enabled (l : List EventRec) (s : State) : (emit l s).enabled = s.enabled :=
  foldl_keeps State.enabled _ (fun s e => raiseRec_enabled e s) l s

@[simp] theorem raise_enabled (src type unit : Nat) (d : Bytes) (s : State) : (raise src type unit d s).enabled = s.enabled := raiseRec_enabled ..

@[simp] theorem rspPublish_enabled (m : Nat) (d : Bytes) (s : State) : (rspPublish m d s).enabled = s.enabled := by
  unfold rspPublish
  split
  · rfl
  · dsimp only
    split
    · rfl
    · split
      · rw [raise_enabled, emit_enabled]
        exact enabled_of_ev (ringPut_ev ..)
      · rw [emit_enabled]
        exact enabled_of_ev (ringPut_ev ..)

@[simp] theorem rspFlush_enabled (m n : Nat) (s : State) : (rspFlush m n s).enabled = s.enabled := by
  induction n generalizing s with
  | zero => rfl
  | succ n ih =>
    unfold rspFlush
    split
    · split
      · rfl
      · rw [ih]
        exact rspPublish_enabled ..
    · rfl

@[simp] theorem mbxMod_enabled (m : Nat) (f : MailboxSt → MailboxSt) (s : State) : (mbxMod m f s).enabled = s.enabled := rfl
@[simp] theorem ringSet_enabled (r : RingCtx) (s : State) : (ringSet r s).enabled = s.enabled := rfl
theorem kennel_enabled (s : State) (k : KennelSt) : ({ s with kennel := k } : State).enabled = s.enabled := rfl
theorem boot_enabled (s : State) (b : BootState) : ({ s with boot := b } : State).enabled = s.enabled := rfl

@[simp] theorem whistle_enabled (m : Nat) (v : BitVec 32) (s : State) : (whistle m v s).enabled = s.enabled := by
  unfold whistle
  split
  · rfl
  · split
    · simp only [apply_ite State.enabled, raise_enabled, kennel_enabled, rspFlush_enabled, ringSet_enabled, mbxMod_enabled, ite_self]
    · rfl

@[simp] theorem bankedMod_enabled (p : WinPath) (f : BankedSt → BankedSt) (s : State) : (bankedMod p f s).enabled = s.enabled :=
  enabled_of_ev (bankedMod_ev p f s)

@[simp] theorem mjGo_enabled (p : WinPath) (s : State) : (mjGo p s).enabled = s.enabled := by
  unfold mjGo
  split
  · simp
  · rfl

@[simp] theorem devResetWrite_enabled (p : WinPath) (v : BitVec 32) (s : State) : (devResetWrite p v s).enabled = s.enabled := by
  unfold devResetWrite
  split <;> rfl

/-- A window write outside EVENT_ENABLE leaves the enable bits (R436, R460). -/
theorem winWrite_enabled {off : Nat} (h : off < 0x060 ∨ 0x080 ≤ off) (p : WinPath) (v : BitVec 32) (s : State) : (winWrite p off v s).enabled = s.enabled := by
  have hsum : ∀ x, ({ s with ev := { s.ev with summary := x } } : State).enabled = s.enabled := fun _ => rfl
  unfold winWrite
  simp only [apply_ite State.enabled, if_neg (show ¬ (0x060 ≤ off ∧ off < 0x080) by omega), boot_enabled, hsum, whistle_enabled, mjGo_enabled,
    bankedMod_enabled, devResetWrite_enabled, ite_self]

/-- A window write sets no fixed enable bit that is clear (R610, R611). -/
theorem winWrite_fixed {s : State} {n : Nat} (hfix : fixedEnable s.grade n = true) (hclear : bitAt s.ev.enable n = false) (p : WinPath) (off : Nat)
    (v : BitVec 32) : bitAt (winWrite p off v s).enabled n = false := by
  by_cases h : off < 0x060 ∨ 0x080 ≤ off
  · rw [winWrite_enabled h]
    exact hclear
  by_cases hopen : off % 4 ≠ 0 ∨ winOpen s p off = false
  · rw [winWrite_closed hopen]
    exact hclear
  obtain ⟨k, rfl⟩ : ∃ k, off = 0x060 + 4 * k := ⟨(off - 0x060) / 4, by omega⟩
  have hgood : winOpen s p (0x060 + 4 * k) = true := by simpa using fun hc => hopen (.inr hc)
  rw [winWrite_enable (by omega) hgood]
  simp only [State.enabled]
  rw [bitAt_setBits (fixedEnable s.grade) v (32 * k) 32 n s.ev.enable (by omega), hfix, if_neg (by simp)]
  exact hclear

/-- Settles O4: the reset value source by source, and a write of an EVENT_ENABLE word bit by bit; no delivery touches the enable bits. -/
theorem reservedEnablesStay : Obligations.ReservedEnablesStay := by
  unfold Obligations.ReservedEnablesStay
  refine ⟨fun g n hn h => ?_, fun p off v s n hn h hclear => ⟨_, rfl, ?_⟩⟩
  · rw [bitAt_enableReset g hn]
    rcases Bool.or_eq_true_iff.mp h with h | h <;> simp [h]
  · have hfix : fixedEnable s.grade n = true := by
      rw [fixedEnable, Bool.or_assoc, h, Bool.or_true]
    have hsettled := settled_enabled s (winWrite p off.toNat v s)
    rw [← winWrite_fixed hfix hclear p off.toNat v, ← hsettled]
    rfl

end Sys2Proof.Machine
end

section
/-! The response of a mailbox: where its 64 bytes stand, and what they leave alone (R451, R453, R455, R456). -/
namespace Sys2Proof.Machine
open Sys2Proof

/-! ### Sixty-four bytes in a response ring -/

@[simp] theorem length_padTo (n : Nat) (b : Bytes) : (padTo n b).length = n := by
  simp [padTo]

@[simp] theorem length_rspBytes (op st rflags : Nat) (seq : BitVec 32) (unit : Handle) (taken : Nat) (res : Bytes) :
    (rspBytes op st rflags seq unit taken res).length = 64 := by
  simp [rspBytes]

/-- The response ring of mailbox m is a ring of 4 KB in the store that goes on after one more response (R451, R463). -/
structure ResponseRoom (s : State) (m : Nat) (r : RingCtx) : Prop where
  ring : ringOf s (0x40 + m) = some r
  size : r.log2 = 12
  type : r.type = 2
  policy : r.policy = 0
  unmarked : r.watermark = 0
  kept : r.overSince = 0
  goes : r.stopped = false
  aligned : r.producer % 64 = 0
  behind : r.consumer ≤ r.producer
  room : occupancy r + 128 ≤ 4096
  inStore : regionOf s.grade r.base = .store
  nothingHeld : (vget s.kennel.mbx m).held = []

theorem ringOf_of_rings {s t : State} (h : t.rings = s.rings) (id : Nat) : ringOf t id = ringOf s id := by
  rw [ringOf, h, ringOf]

theorem ringOf_id {s : State} {id : Nat} {r : RingCtx} (h : ringOf s id = some r) : r.id = id := by
  rw [ringOf] at h
  simpa using List.find?_some h

@[simp] theorem vitaLoses_rings (id : Nat) (l : List EntryAt) (s : State) : (vitaLoses id l s).rings = s.rings := rfl
@[simp] theorem streamLoses_rings (id : Nat) (l : List EntryAt) (s : State) : (streamLoses id l s).rings = s.rings := rfl
@[simp] theorem storeWrite_rings (a : Nat) (b : Bytes) (s : State) : (storeWrite a b s).rings = s.rings := rfl
@[simp] theorem vitaLoses_mem (id : Nat) (l : List EntryAt) (s : State) : (vitaLoses id l s).mem = s.mem := rfl
@[simp] theorem streamLoses_mem (id : Nat) (l : List EntryAt) (s : State) : (streamLoses id l s).mem = s.mem := rfl
@[simp] theorem storeWrite_mem (a : Nat) (b : Bytes) (s : State) : (storeWrite a b s).mem = memPut s.mem a b := rfl

theorem kennel_of_hushEv {s t : State} (h : s.hushEv = t.hushEv) : s.kennel = t.kennel := by injection h

/-- The context of a ring with one more entry at PRODUCER (R339). -/
def ringGrown (r : RingCtx) (e : Ent) : RingCtx :=
  { r with producer := r.producer + e.bytes.length, entries := r.entries ++ [(⟨r.producer, e.bytes.length, e.kind, e.time, e.index⟩ : EntryAt)] }

/-- The context of a ring that has taken one entry, with nothing to note. -/
def ringTook (r : RingCtx) (e : Ent) : RingCtx :=
  { ringGrown r e with
    full := false, gapPending := false, gapLost := 0, gapStopped := false
    entries := (ringGrown r e).entries.filter fun x => heldStart (ringGrown r e) ≤ x.pos }

/-- The entries that the held span of a ring has just left. -/
def ringLeft (r : RingCtx) (e : Ent) : List EntryAt := (ringGrown r e).entries.filter fun x => decide (x.pos < heldStart (ringGrown r e))

section
variable {s : State} {m : Nat} {r : RingCtx} (h : ResponseRoom s m r)
include h

theorem ResponseRoom.ringSize_eq : ringSize r = 4096 := by
  rw [ringSize, h.size]
  rfl

/-- A response of 64 bytes stands in one piece at PRODUCER. -/
theorem ResponseRoom.ringWrite_eq {d : Bytes} (hd : d.length = 64) (u : State) (hu : u.grade = s.grade) :
    ringWrite r r.producer d u = storeWrite r.base [] (storeWrite (r.base + r.producer % 4096) d u) := by
  have hat : ∀ (o : Nat) (x : Bytes) (v : State), v.grade = s.grade → ringBytesAt r o x v = storeWrite (r.base + o) x v := by
    intro o x v hv
    simp [ringBytesAt, hv, h.inStore]
  have halign := h.aligned
  have hleft : d.length ≤ 4096 - r.producer % 4096 := by omega
  simp only [ringWrite, h.ringSize_eq]
  rw [List.take_of_length_le hleft, List.drop_of_length_le hleft, hat 0, hat _ _ _ hu, Nat.add_zero]
  rw [hat _ _ _ hu]
  exact hu

omit h in
theorem ringOverNote_none {q : RingCtx} (hq : q.overSince = 0) (u : State) : ringOverNote u q = (q, []) := if_pos hq

omit h in
theorem ringMarkNote_none {q : RingCtx} (hq : q.watermark = 0) (u : State) : ringMarkNote u q = (q, []) := if_neg (by simp [hq])

/-- The ring takes a response and raises nothing (R339, R346). -/
theorem ResponseRoom.ringPut_eq {e : Ent} (he : e.bytes.length = 64) : ringPut true (0x40 + m) e s =
    (ringSet (ringTook r e) (vitaLoses (0x40 + m) (ringLeft r e) (ringWrite r r.producer e.bytes (streamLoses (0x40 + m) [] s))), .kept, []) := by
  have hsz := h.ringSize_eq
  obtain ⟨hring, -, htype, -, hmark, hover, hgoes, -, hbehind, hroom, hstore, -⟩ := h
  have hplace : ringPlaceOk s r = true := by simp [ringPlaceOk, hstore]
  have hreach : ringReach s r = true := by simp [ringReach, hstore]
  have hframe : isFrame r.type = false := by rw [htype]; rfl
  have hbatch : ringBatch s r e = [e] := by simp [ringBatch, hframe]
  have hocc : occupancy r = r.producer - r.consumer := rfl
  have hfull : (!decide (r.producer + ([e].map fun x => x.bytes.length).sum - r.consumer ≤ ringSize r) || !ringReach s r) = false := by
    simp [he, hsz, hreach]
    omega
  have hlong : ¬ ringSize r < e.bytes.length := by omega
  unfold ringPut
  simp only [hring, hplace, if_true, hgoes, Bool.false_eq_true, if_false, hlong, hbatch, hfull, Bool.false_and]
  simp only [ringAppend, ringTook, ringGrown, ringLeft, ringOverNote_none, ringMarkNote_none, hover, hmark, List.append_nil]

theorem ResponseRoom.rspPublish_eq (d : Bytes) (hd : d.length = 64) : rspPublish m d s = (ringPut true (0x40 + m) ⟨d, 0, now s, 0⟩ s).1 := by
  have hsz := h.ringSize_eq
  have hroom := h.room
  unfold rspPublish
  simp only [h.ring, h.nothingHeld, hsz]
  rw [if_neg (by simp; omega), if_neg (by simp; omega), h.ringPut_eq hd]
  rfl

/-- A response with room: its bytes stand at PRODUCER, which goes on by 64; no other byte of memory changes, and nothing of the Kennel and the
event router. -/
theorem ResponseRoom.rspPublish_leaves (hwf : Memory.wf s.mem = true) {d : Bytes} (hd : d.length = 64) {t : State} (ht : t = rspPublish m d s) :
    (∀ i (hi : i < d.length), memGet t.mem (r.base + r.producer % 4096 + i) = d[i]) ∧
    (∀ x, x < r.base + r.producer % 4096 ∨ r.base + r.producer % 4096 + 64 ≤ x → memGet t.mem x = memGet s.mem x) ∧
    (ringOf t (0x40 + m)).map (·.producer) = some (r.producer + 64) ∧ t.kennel = s.kennel ∧ t.ev = s.ev := by
  have hput := h.rspPublish_eq d hd
  have heq := hput.trans (congrArg Prod.fst (h.ringPut_eq (e := ⟨d, 0, now s, 0⟩) hd))
  have hwrite := h.ringWrite_eq hd (streamLoses (0x40 + m) [] s) rfl
  have hid := ringOf_id h.ring
  obtain ⟨-, hread, hframe, -⟩ := memoryOperations s.mem (r.base + r.producer % 4096) d hwf
  have hmem : t.mem = memPut s.mem (r.base + r.producer % 4096) d := by
    rw [ht, heq, hwrite, ringSet_mem, vitaLoses_mem, storeWrite_mem, storeWrite_mem, streamLoses_mem, memPut]
  have hring : ringOf t (0x40 + m) = some (ringTook r ⟨d, 0, now s, 0⟩) := by
    rw [ht, heq]
    refine ringOf_ringSet_same (r := r) ?_ hid
    rw [hwrite, ← h.ring]
    exact ringOf_of_rings (by simp) _
  rw [hd] at hframe
  refine ⟨fun i hi => ?bytes, fun x hx => ?frame, ?producer, ?kennel, ?router⟩
  case bytes => rw [hmem, hread i hi]
  case frame => rw [hmem, hframe x hx]
  case producer =>
    rw [hring, Option.map_some, ringTook, ringGrown, hd]
  case kennel => rw [ht, hput, kennel_of_hushEv (ringPut_hushEv ..)]
  case router => rw [ht, hput, ringPut_ev]

end

/-- A response leaves the commands in progress, whether it is published or held. -/
@[simp] theorem rspPublish_inProgress (m : Fin 64) (d : Bytes) (s : State) :
    (vget (rspPublish m d s).kennel.mbx m).inProgress = (vget s.kennel.mbx m).inProgress := by
  have hkeep : ∀ {t : State}, t.hushEv = s.hushEv → (vget t.kennel.mbx m).inProgress = (vget s.kennel.mbx m).inProgress := by
    intro t ht
    rw [kennel_of_hushEv ht]
  unfold rspPublish
  split
  · rfl
  · dsimp only
    split
    · rw [mbxMod, vget_vmod_same _ _ m.isLt]
    · exact hkeep ((hushEv_ite (raise_hushEv ..)).trans ((emit_hushEv ..).trans (ringPut_hushEv ..)))

/-! ### Interim responses -/

section
variable {m : Fin 64} {seq : BitVec 32} {s : State} {y : InProgress}

/-- The mailbox's one command, marked as having its interim response. -/
def interimMarked (m : Fin 64) (y : InProgress) (s : State) : State :=
  mbxMod m (fun x => { x with inProgress := lmod (fun z => z.seq == y.seq && z.taken == y.taken) (fun z => { z with interim := true }) x.inProgress }) s

theorem interimMarked_inProgress (h : (vget s.kennel.mbx m).inProgress = [y]) :
    (vget (interimMarked m y s).kennel.mbx m).inProgress = [{ y with interim := true }] := by
  have hm := vget_vmod_same s.kennel.mbx (i := m) (fun x => { x with
    inProgress := lmod (fun z => z.seq == y.seq && z.taken == y.taken) (fun z => { z with interim := true }) x.inProgress }) m.isLt
  rw [interimMarked, mbxMod, hm, h]
  simp [lmod]

theorem interimDue_notReady (h : isReady s = false) : interimDue m seq s = s := if_pos (by simp [h])

theorem interimDue_marked (hready : isReady s = true) (h : (vget s.kennel.mbx m).inProgress = [y]) (hop : y.opcode ≠ 0x0101) (hi : y.interim = true) :
    interimDue m seq s = s := by
  unfold interimDue
  rw [if_neg (by simp [hready]), h]
  simp only [List.filter_cons, hi, Bool.not_true, Bool.and_false, Bool.false_and, Bool.false_eq_true, if_false, List.filter_nil, List.foldl_nil, h]
  split
  · next z hz =>
    obtain rfl : z = y := by simpa using List.mem_of_find?_eq_some hz
    rw [beq_false_of_ne hop, Bool.false_and, if_neg Bool.false_ne_true]
  · rfl

/-- The interim response that is due: the command is marked, and its bytes go out (R455). -/
theorem interimDue_due (hready : isReady s = true) (h : (vget s.kennel.mbx m).inProgress = [y]) (hseq : y.seq = seq) (hop : y.opcode ≠ 0x0101)
    (hi : y.interim = false) (hdue : fld s.kennel.devCfg 15 0 * msC / 2 ≤ since s y.published) :
    interimDue m seq s = rspPublish m (rspBytes y.opcode.toNat DEFERRED 1 seq y.unit y.taken (interimBytes m seq s)) (interimMarked m y s) := by
  subst hseq
  have hone : (vget (interimOne m y s).kennel.mbx m).inProgress = [{ y with interim := true }] :=
    (rspPublish_inProgress ..).trans (interimMarked_inProgress h)
  have hfilter : (vget s.kennel.mbx m).inProgress.filter (fun z => z.seq == y.seq && !z.interim && decide (fld s.kennel.devCfg 15 0 * msC / 2 ≤ since s z.published)) = [y] := by
    rw [h]
    simp [hi, hdue]
  unfold interimDue
  rw [if_neg (by simp [hready])]
  simp only [hfilter, List.foldl_cons, List.foldl_nil, hone]
  split
  · next z hz =>
    obtain rfl : z = { y with interim := true } := by simpa using List.mem_of_find?_eq_some hz
    rw [beq_false_of_ne hop, Bool.false_and, if_neg Bool.false_ne_true]
    rfl
  · rfl

/-- Settles O17: no response is due, one is due and the command is marked, or it stands in the ring as well. -/
theorem interimResponses : Obligations.InterimResponses := by
  unfold Obligations.InterimResponses
  intro m seq s
  refine ⟨fun h => exec_quiet rfl (interimDue_notReady h) rfl, fun y hready h hop hi => exec_quiet rfl (interimDue_marked hready h hop hi) rfl,
    fun y hready h hseq hop hi hdue => ⟨_, rfl, ?marked, ?frame⟩, ?ring⟩
  case marked =>
    rw [kennel_of_hushEv (settled_hushEv ..), interimDue_due hready h hseq hop hi hdue, rspPublish_inProgress, interimMarked_inProgress h]
  case frame =>
    rw [settled_hush, interimDue_due hready h hseq hop hi hdue, rspPublish_hush]
    rfl
  case ring =>
    intro y r hready h hseq hop hi hdue hqueue hheld hwf hring hsize htype hpolicy hmark hover hgoes halign hbehind hroom hstore
    have hbytes : interimBytes m seq s = [0, 0, 0, 0] := by simp [interimBytes, hqueue, le]
    have hroom : ResponseRoom (interimMarked m y s) m r :=
      ⟨hring, hsize, htype, hpolicy, hmark, hover, hgoes, halign, hbehind, hroom, hstore,
        (congrArg MailboxSt.held (vget_vmod_same _ _ m.isLt)).trans hheld⟩
    obtain ⟨hread, hframe, hproducer, -, hev⟩ := hroom.rspPublish_leaves hwf (length_rspBytes y.opcode.toNat DEFERRED 1 seq y.unit y.taken [0, 0, 0, 0]) rfl
    have hdone := interimDue_due hready h hseq hop hi hdue
    rw [hbytes] at hdone
    exact ⟨_, exec_quiet rfl hdone (congrArg EventSt.raised hev), length_rspBytes .., hread, hframe, hproducer⟩

end

end Sys2Proof.Machine
end

section
/-! A mailbox command that is alone in its mailbox: its start, its end, and its response (R442, R446, R453, R456). -/
namespace Sys2Proof.Machine
open Sys2Proof

theorem forwardShow_frame (s : State) : ∃ j, forwardShow s = { s with junction := j } := by
  unfold forwardShow
  split
  · split
    · split
      · exact ⟨_, rfl⟩
      · exact bankedMod_frame ..
    · exact ⟨_, rfl⟩
  · exact ⟨_, rfl⟩

theorem forwardDone_frame (m : Fin 64) (seq : BitVec 32) (st : Nat) (res : Bytes) (s : State) : ∃ j, forwardDone m seq st res s = { s with junction := j } := by
  unfold forwardDone
  split
  · obtain ⟨j, hj⟩ := bankedMod_frame .kennel (fun b => { b with
      status := BitVec.ofNat 8 st, busy := false, done := true, replayed := false, rseq := seq, result := res.take 48, serving := false, fwd := none }) s
    obtain ⟨j', hj'⟩ := forwardShow_frame { s with junction := j }
    exact ⟨j', by rw [hj, hj']⟩
  · exact ⟨_, rfl⟩

section
variable {m : Fin 64} {c : Cmd} {op : Nat} {s : State}

/-- The entry of a command that has begun alone on one unit (R42, R454). -/
def begunEntry (c : Cmd) (op at_ taken : Nat) : InProgress := ⟨c.seq, BitVec.ofNat 16 op, c.unit, at_, false, false, 1, (0, c.unit), 0, taken, 0⟩

/-- A command that begins in an idle mailbox is the one in progress. -/
theorem begin_alone (hc : c.path = .mailbox m) (h : (vget s.kennel.mbx m).inProgress = []) : ∃ j,
    begin_ c op 1 s = { mbxMod m (fun x => { x with inProgress := [begunEntry c op s.cyc (mbxTaken s m)] }) s with junction := j } := by
  unfold begin_
  rw [hc]
  obtain ⟨j, hj⟩ := forwardLoad_frame m c op (mbxMod m (fun x =>
      if x.inProgress.any fun y => y.seq == c.seq && !y.duplicate then
        { x with inProgress := lmod (fun y => y.seq == c.seq && !y.duplicate) (fun y => { y with remaining := 1, unit := c.unit, worst := (0, c.unit) }) x.inProgress }
      else { x with inProgress := x.inProgress ++ [begunEntry c op s.cyc (mbxTaken s m)] }) s)
  refine ⟨j, hj.trans ?_⟩
  unfold mbxMod
  rw [vmod_congr_at (g := fun x => { x with inProgress := [begunEntry c op s.cyc (mbxTaken s m)] })]
  simp [h]

/-- A status that is no worse than OK leaves a command on one unit as it was. -/
theorem worse_ok (s : State) (u : Handle) : worse s u (0, u) OK u = (0, u) := by
  unfold worse OK
  simp

/-- The one command in progress of a mailbox ends: it leaves the list, for the replay record where its code is marked, and its response
goes out (R446, R453, R456). -/
theorem complete_alone {res : Bytes} {k n : Nat} (hc : c.path = .mailbox m) (hop : op < 2 ^ 16) (hne : op ≠ 0x0101)
    (h : (vget s.kennel.mbx m).inProgress = [begunEntry c op k n]) : ∃ j,
    complete c op OK res s = rspPublish m (rspBytes op OK 0 c.seq c.unit n res) { mbxClose m c.seq op c.unit c.unit OK res s with junction := j } := by
  have hop' : (BitVec.ofNat 16 op).toNat = op := by rw [BitVec.toNat_ofNat, Nat.mod_eq_of_lt hop]
  have hfind : (vget s.kennel.mbx m).inProgress.find? (fun y => y.seq == c.seq && y.opcode.toNat == op && !y.duplicate) = some (begunEntry c op k n) := by
    rw [h]
    simp [begunEntry, hop']
  have hown : inProg s m c.seq = some (begunEntry c op k n) := by
    unfold inProg
    rw [h]
    simp [begunEntry]
  have hdups : (vget s.kennel.mbx m).inProgress.filter (fun x => x.seq == c.seq && x.duplicate) = [] := by
    rw [h]
    simp [begunEntry]
  obtain ⟨j, hj⟩ := forwardDone_frame m c.seq 0 res s
  have hend : ∀ b u, reinitEnd op c.unit c.seq b 0 u = u := fun b u => if_neg (by simp [hne])
  refine ⟨j, ?_⟩
  unfold complete
  simp only [hc, hfind, begunEntry, worse_ok, Nat.sub_self, if_true, beq_self_eq_true]
  unfold finish
  simp only
  unfold finishMbx
  simp only [hown, hdups, hj, hend, List.foldl_nil, Option.map_some, Option.getD_some, begunEntry]
  rfl

end

/-- The state in which DEV.CONFIGURE has acted and its command, alone in the mailbox, is in progress. -/
def configuring (m : Fin 64) (c : Cmd) (s : State) : State :=
  { s with kennel := { s.kennel with
      devCfg := BitVec.ofNat 32 (argN c 0 2)
      mbx := vmod s.kennel.mbx m fun x => { x with inProgress := [begunEntry c 0x1F03 s.cyc (mbxTaken s m)] } } }

/-- The state in which it has ended, but for its response. -/
def configured (m : Fin 64) (c : Cmd) (s : State) : State := mbxClose m c.seq 0x1F03 c.unit c.unit OK [] (configuring m c s)

section
variable {m : Fin 64} {c : Cmd} {s : State}

theorem devConfigure_act (hc : c.path = .mailbox m) (h : (vget s.kennel.mbx m).inProgress = []) : ∃ j,
    vDevConfigure.act c (begun vDevConfigure c s) = ok { configuring m c s with junction := j } := by
  obtain ⟨j, hj⟩ := begin_alone (op := 0x1F03) hc h
  refine ⟨j, ?_⟩
  show vDevConfigure.act c (begin_ c 0x1F03 1 s) = _
  rw [hj]
  rfl

theorem configuring_mbx : vget (configuring m c s).kennel.mbx m =
    { vget s.kennel.mbx m with inProgress := [begunEntry c 0x1F03 s.cyc (mbxTaken s m)] } := vget_vmod_same _ _ m.isLt

/-- What DEV.CONFIGURE makes of its mailbox: the replay record has its entry (R453). -/
theorem configured_mbx : (vget (configured m c s).kennel.mbx m).held = (vget s.kennel.mbx m).held ∧
    (vget (configured m c s).kennel.mbx m).replay = (⟨c.seq, 0x1F03, c.unit, 0, c.unit, []⟩ :: (vget s.kennel.mbx m).replay).take 64 := by
  unfold configured mbxClose mbxMod
  rw [vget_vmod_same _ _ m.isLt, configuring_mbx]
  exact ⟨rfl, rfl⟩

/-- DEV.CONFIGURE from an idle mailbox leaves its response to be published. -/
theorem exec_devConfigure_alone (hc : c.path = .mailbox m) (hacc : Accepts vDevConfigure c s) (h : (vget s.kennel.mbx m).inProgress = []) : ∃ j,
    exec (.devConfigure c) s = settle s (rspPublish m (rspBytes 0x1F03 OK 0 c.seq c.unit (mbxTaken s m) []) { configured m c s with junction := j }) := by
  obtain ⟨j, hact⟩ := devConfigure_act hc h
  obtain ⟨j', hdone⟩ := complete_alone (m := m) (s := { configuring m c s with junction := j }) (op := 0x1F03) (res := []) hc (by decide) (by decide)
    (congrArg MailboxSt.inProgress configuring_mbx)
  refine ⟨j', ?_⟩
  show settle s (runVerb vDevConfigure c s) = _
  rw [runVerb_accepts hacc, hact]
  exact congrArg (settle s) hdone

end

/-- Settles O18: the command is alone in its mailbox from its start to its end, and its response has room. -/
theorem mailboxResponse : Obligations.MailboxResponse := by
  unfold Obligations.MailboxResponse
  intro m c s r hc hacc hwf hring hsize htype hpolicy hmark hover hgoes halign hbehind hroom hstore hheld hprog
  obtain ⟨j, hexec⟩ := exec_devConfigure_alone hc hacc hprog
  obtain ⟨hkeptHeld, hreplay⟩ := configured_mbx (m := m) (c := c) (s := s)
  have hroom : ResponseRoom { configured m c s with junction := j } m r :=
    ⟨hring, hsize, htype, hpolicy, hmark, hover, hgoes, halign, hbehind, hroom, hstore, hkeptHeld.trans hheld⟩
  obtain ⟨hread, hframe, hproducer, hkennel, hev⟩ :=
    hroom.rspPublish_leaves hwf (length_rspBytes 0x1F03 OK 0 c.seq c.unit (mbxTaken s m) []) rfl
  refine ⟨_, exec_quiet hexec rfl (congrArg EventSt.raised hev), ?_, length_rspBytes .., hread, hframe, hproducer, ?_, ?_⟩
  · rw [hkennel]
    rfl
  · rw [hkennel]
    exact hreplay
  · rw [rspPublish_hush]
    rfl

end Sys2Proof.Machine
end

section
/-! The synthesiser verbs (R374 to R394), and O48. -/
namespace Sys2Proof.Machine
open Sys2Proof

/-! ### A realignment of a die (R78, R378) -/

/-- What a realignment does to one input of the die. -/
def restartInput (i : Nat) (s : State) : State :=
  let x := vget s.inputs i
  if x.running && x.ending.isNone || x.switch.isSome then
    stopStream i 2 (inMod i (fun x => { x with switch := match x.switch with
      | some w => some { w with settle := 4096, cause := if w.cause = 1 then 1 else 2 }
      | none => some ⟨2, bitAt x.cfg 3, 4096⟩ }) s)
  else s

/-- The inputs v are those of u but for restarts in the list l: a stream that goes on elsewhere is untouched, and one in l waits for its new start. -/
structure Restarted (l : List Nat) (u v : Vector InSt 8) : Prop where
  others : ∀ k, k ∉ l → vget v k = vget u k
  stays : ∀ k, (vget u k).switch.isSome = true → (vget v k).switch.isSome = true
  waits : ∀ k ∈ l, k < 8 → (vget u k).running = true → (vget u k).ending = none → (vget v k).switch.isSome = true

theorem attenLapse_switch (x : InSt) : (attenLapse x).switch = x.switch := by
  unfold attenLapse
  split <;> rfl

/-- A stream that is to end keeps the start that it waits for (R81). -/
theorem stopStream_inMod (i c : Nat) (s : State) : ∃ g, stopStream i c s = inMod i g s ∧ ∀ x, (g x).switch = x.switch := by
  unfold stopStream endStream
  dsimp only
  split
  · exact ⟨_, rfl, fun _ => rfl⟩
  · split
    · exact ⟨_, rfl, fun _ => attenLapse_switch _⟩
    · exact ⟨_, rfl, fun _ => rfl⟩

/-- A change of input i that leaves it with a start to wait for. -/
theorem Restarted.of_vmod {i : Nat} {u : Vector InSt 8} {g : InSt → InSt} (hg : ∀ x, (g x).switch.isSome = true) : Restarted [i] u (vmod u i g) where
  others k hk := vget_vmod_ne _ _ (by simpa using hk)
  stays k hk := by
    by_cases hki : k = i
    · subst hki
      by_cases h8 : k < 8
      · rw [vget_vmod_same _ _ h8]
        exact hg _
      · rwa [vmod, dif_neg h8]
    · rwa [vget_vmod_ne _ _ hki]
  waits k hk hk8 _ _ := by
    obtain rfl : k = i := by simpa using hk
    rw [vget_vmod_same _ _ hk8]
    exact hg _

theorem restartInput_frame (i : Nat) (s : State) : ∃ v, restartInput i s = { s with inputs := v } ∧ Restarted [i] s.inputs v := by
  unfold restartInput
  dsimp only
  split
  · obtain ⟨g, hstop, hg⟩ := stopStream_inMod i 2 (inMod i (fun x => { x with switch := match x.switch with
      | some w => some { w with settle := 4096, cause := if w.cause = 1 then 1 else 2 }
      | none => some ⟨2, bitAt x.cfg 3, 4096⟩ }) s)
    refine ⟨_, hstop.trans (congrArg (fun v => ({ s with inputs := v } : State)) (vmod_vmod s.inputs i _ g)), .of_vmod fun x => ?_⟩
    rw [hg]
    cases x.switch <;> rfl
  · next hoff =>
    refine ⟨s.inputs, rfl, fun _ _ => rfl, fun _ h => h, fun k hk _ hrun hend => ?_⟩
    obtain rfl : k = i := by simpa using hk
    simp [hrun, hend] at hoff

theorem Restarted.trans {i : Nat} {l : List Nat} {u v w : Vector InSt 8} (h : Restarted [i] u v)
    (h' : Restarted l v w) : Restarted (i :: l) u w where
  others k hk := by
    simp only [List.mem_cons, not_or] at hk
    exact (h'.others k hk.2).trans (h.others k (by simpa using hk.1))
  stays k hk := h'.stays k (h.stays k hk)
  waits k hk hk8 hrun hend := by
    by_cases hki : k = i
    · exact h'.stays k (h.waits k (by simpa using hki) hk8 hrun hend)
    · have hsame := h.others k (by simpa using hki)
      refine h'.waits k ((List.mem_cons.mp hk).resolve_left hki) hk8 ?_ ?_
      · exact (congrArg InSt.running hsame).trans hrun
      · exact (congrArg InSt.ending hsame).trans hend

theorem restartInputs_frame (l : List Nat) (s : State) :
    ∃ v, l.foldl (fun s i => restartInput i s) s = { s with inputs := v } ∧ Restarted l s.inputs v := by
  induction l generalizing s with
  | nil => exact ⟨s.inputs, rfl, fun _ _ => rfl, fun _ h => h, fun _ hk => absurd hk List.not_mem_nil⟩
  | cons i l ih =>
    obtain ⟨v, hv, hstep⟩ := restartInput_frame i s
    obtain ⟨w, hw, hrest⟩ := ih { s with inputs := v }
    exact ⟨w, by rw [List.foldl_cons, hv, hw], hstep.trans hrest⟩

/-- The rate change of a die as a realignment leaves it (R378, R380). -/
def restartChange (cmd : Option Cmd) (op : BitVec 16) (n : BitVec 40) : Option ScsChange → Option ScsChange
  | some c => some { c with resumed := false, newN := if c.resumed then n else c.newN }
  | none => some ⟨cmd, op, n, false⟩

/-- A realignment touches the inputs of its die, what pauses their calibrators, and the rate change of the die. -/
theorem scsRestart_frame (d : Nat) (cmd : Option Cmd) (op : BitVec 16) (n : BitVec 40) (s : State) : ∃ v w,
    scsRestart d cmd op n s = { refMod (fun r => { r with changes := vmod r.changes d (restartChange cmd op n) }) s with inputs := v, cals := w } ∧
    Restarted (dieInputs d) s.inputs v := by
  obtain ⟨v, hv, hres⟩ := restartInputs_frame (dieInputs d) (refMod (fun r => { r with changes := vmod r.changes d (restartChange cmd op n) }) s)
  obtain ⟨w, hw, -⟩ := calRefresh_lasting d ({ refMod (fun r => { r with changes := vmod r.changes d (restartChange cmd op n) }) s with inputs := v } : State)
  refine ⟨v, w, ?_, hres.others, hres.stays, hres.waits⟩
  rw [← hw, ← hv]
  rfl

theorem mem_dieInputs {d k : Nat} : k ∈ dieInputs d ↔ k / 4 = d := by
  simp only [dieInputs, List.mem_cons, List.not_mem_nil, or_false]
  omega

/-- Marks on the blocks of inputs leave which streams run and which are to end (R71, R76). -/
theorem markBlocks_frame (l : List Nat) (suspect warning : Bool) (s : State) : ∃ v, markBlocks l suspect warning s = { s with inputs := v } ∧
    ∀ k, ((vget v k).running, (vget v k).ending) = ((vget s.inputs k).running, (vget s.inputs k).ending) := by
  unfold markBlocks
  induction l generalizing s with
  | nil => exact ⟨s.inputs, rfl, fun _ => rfl⟩
  | cons i l ih =>
    obtain ⟨v, hv, hkeeps⟩ := ih (inMod i (fun x => if x.running && x.nextTime ≤ now s then { x with marks := (x.marks.1 || suspect, x.marks.2 || warning) } else x) s)
    refine ⟨v, hv, fun k => (hkeeps k).trans (vget_vmod_keeps (fun x => (x.running, x.ending)) (fun x => ?_) s.inputs i k)⟩
    split <;> rfl

/-! ### The alignment of a sample clock (R378) -/

section
variable {c : Cmd} {s : State}

theorem freeNo_of_hush {s t : State} (h : s.hush = t.hush) : s.freeNo = t.freeNo := by injection h

theorem isScs_lt {h : Handle} (hfit : isScs s h = true) : idx h < 2 := by
  simp only [isScs, Bool.and_eq_true, decide_eq_true_eq] at hfit
  exact hfit.2

theorem evLoop_hush {l : Nat} (hl : l < 2) (type : Nat) (s : State) : (evLoop l type s).hush = s.hush := by
  unfold evLoop
  dsimp only
  rw [if_pos hl]
  exact raise_hush ..

/-- A loop that is aligned; its suspect span ends where it is locked (R378, R381). -/
def alignedLoop (locked : Bool) (x : SynthSt) : SynthSt := { x with aligned := true, suspect := x.suspect && !locked }

/-- This edge is the phase of a die from here on, and its markers count from it (R376, R378). -/
def phaseHere (d : Nat) (s : State) : State :=
  let s := loopMod d (fun x => { x with phase := some (s.cyc, buildOutNow s) }) s
  { s with synth := { s.synth with markers := vmod s.synth.markers d (fun _ => []), markCount := vmod s.synth.markCount d fun _ => 0 } }

/-- An alignment whose comparison is known: marks and markers where a suspect span ends, then the event, or the new phase (R378). -/
theorem scsAlign_known {d : Nat} {b : Bool} (h : phaseEqual s d = some b) : ∃ v w q t,
    t = ({ s with inputs := v, synth := { s.synth with loop := vmod s.synth.loop d (alignedLoop q), markers := w } } : State) ∧
    (scsAlign d s).2 = (if b then evLoop d 3 t else evLoop d 4 (scsRestart d none 0 (vget s.synth.loop d).n (phaseHere d t))) ∧
    ((vget s.synth.loop d).suspect = false → v = s.inputs) ∧
    ∀ k, ((vget v k).running, (vget v k).ending) = ((vget s.inputs k).running, (vget s.inputs k).ending) := by
  unfold scsAlign
  simp only [h]
  cases hq : (vget s.synth.loop d).suspect && (vget s.synth.loop d).lock == .locked with
  | false => exact ⟨s.inputs, s.synth.markers, _, _, rfl, by cases b <;> rfl, fun _ => rfl, fun _ => rfl⟩
  | true =>
    obtain ⟨v, hv, hkeeps⟩ := markBlocks_frame (dieInputs d) true false s
    simp only [if_true, hv]
    refine ⟨v, _, _, _, rfl, by cases b <;> rfl, fun hsus => ?_, hkeeps⟩
    simp [hsus] at hq

/-- An alignment at once that finds the phase right (R378). -/
theorem does_synthAlign_equal (h : Accepts vSynthAlign c s) (hnow : argN c 0 1 = 0) (heq : phaseEqual s (idx c.unit) = some true) :
    Does (.synthAlign c) s fun t => (vget t.synth.loop (idx c.unit)).aligned = true ∧ (vget t.synth.loop (idx c.unit)).phase = (vget s.synth.loop (idx c.unit)).phase ∧
      (vget t.synth.loop (idx c.unit)).n = (vget s.synth.loop (idx c.unit)).n ∧ ((vget s.synth.loop (idx c.unit)).suspect = false → t.inputs = s.inputs) ∧
      ({ t with synth := s.synth, inputs := s.inputs } : State).hush = s.hush := by
  obtain ⟨-, -, -, -, -, -, -, hfit, -⟩ := h.parts
  have hd : idx c.unit < 2 := isScs_lt hfit
  refine does_of_act h rfl rfl fun k j t ht => ?_
  obtain ⟨v, w, q, u, hu, hact, hclear, -⟩ := scsAlign_known (s := { s with kennel := k, junction := j }) heq
  have hu' : t.hush = u.hush := by
    rw [ht, show vSynthAlign.act c { s with kennel := k, junction := j } =
      okWith (scsAlign (idx c.unit) { s with kennel := k, junction := j }).2 (le 1 (b2n (scsAlign (idx c.unit) { s with kennel := k, junction := j }).1)) from if_pos hnow]
    exact (congrArg State.hush hact).trans (evLoop_hush hd ..)
  have hloop : vget t.synth.loop (idx c.unit) = alignedLoop q (vget s.synth.loop (idx c.unit)) := by
    rw [synth_of_hush hu', hu]
    exact vget_vmod_same _ _ (by omega)
  rw [hloop]
  refine ⟨rfl, rfl, rfl, fun hsus => ?_, ?_⟩
  · rw [inputs_of_hush hu', hu]
    exact hclear hsus
  · rw [hush_update hu' (fun x => { x with synth := s.synth, inputs := s.inputs }) fun _ => rfl, hu]
    rfl

/-- An alignment at once that moves the phase (R378). -/
theorem does_synthAlign_moves (h : Accepts vSynthAlign c s) (hnow : argN c 0 1 = 0) (hne : phaseEqual s (idx c.unit) = some false) :
    Does (.synthAlign c) s fun t => (vget t.synth.loop (idx c.unit)).aligned = true ∧
      (vget t.synth.loop (idx c.unit)).phase = some (s.cyc, buildOutNow s) ∧ (vget t.synth.loop (idx c.unit)).n = (vget s.synth.loop (idx c.unit)).n ∧
      vget t.synth.markers (idx c.unit) = [] ∧
      (∀ i : Fin 8, (vget s.inputs i).running = true → (vget s.inputs i).ending = none → i.val / 4 = idx c.unit → (vget t.inputs i).switch.isSome = true) ∧
      ({ t with synth := s.synth, inputs := s.inputs, cals := s.cals } : State).hush = s.hush := by
  obtain ⟨-, -, -, -, -, -, -, hfit, -⟩ := h.parts
  have hd : idx c.unit < 2 := isScs_lt hfit
  refine does_of_act h rfl rfl fun k j t ht => ?_
  obtain ⟨v, w, q, u, hu, hact, -, hkeeps⟩ := scsAlign_known (s := { s with kennel := k, junction := j }) hne
  obtain ⟨v', cals, hrestart, hres⟩ := scsRestart_frame (idx c.unit) none 0 (vget s.synth.loop (idx c.unit)).n (phaseHere (idx c.unit) u)
  have hu' : t.hush = ({ refMod (fun r => { r with changes := vmod r.changes (idx c.unit) (restartChange none 0 (vget s.synth.loop (idx c.unit)).n) })
      (phaseHere (idx c.unit) u) with inputs := v', cals := cals } : State).hush := by
    rw [ht, show vSynthAlign.act c { s with kennel := k, junction := j } =
      okWith (scsAlign (idx c.unit) { s with kennel := k, junction := j }).2 (le 1 (b2n (scsAlign (idx c.unit) { s with kennel := k, junction := j }).1)) from if_pos hnow,
      ← hrestart]
    exact (congrArg State.hush hact).trans (evLoop_hush hd ..)
  have hloop : vget t.synth.loop (idx c.unit) = { alignedLoop q (vget s.synth.loop (idx c.unit)) with phase := some (s.cyc, buildOutNow s) } := by
    rw [synth_of_hush hu', hu]
    refine (vget_vmod_same _ _ (by omega)).trans ?_
    rw [vget_vmod_same _ _ (by omega)]
    rfl
  rw [hloop]
  refine ⟨rfl, rfl, rfl, ?_, fun i hrun hend hi => ?_, ?_⟩
  · rw [synth_of_hush hu']
    exact vget_vmod_same _ _ hd
  · have hsame := hkeeps i
    rw [inputs_of_hush hu']
    refine hres.waits i (mem_dieInputs.mpr hi) i.isLt ?_ ?_
    · subst hu; exact (congrArg Prod.fst hsame).trans hrun
    · subst hu; exact (congrArg Prod.snd hsame).trans hend
  · rw [hush_update hu' (fun x => { x with synth := s.synth, inputs := s.inputs, cals := s.cals }) fun _ => rfl, hu]
    rfl

/-! ### The other verbs (R374, R383 to R388, R391, R394) -/

/-- A rate change of a die begins: its running streams are to start anew, and the N_WORD in force stays (R380). -/
theorem does_synthSetRate (h : Accepts vSynthSetRate c s) : Does (.synthSetRate c) s fun t =>
    vget t.synth.ref.changes (idx c.unit) = some ⟨some c, 0x1301, argW c 0 40, false⟩ ∧ t.synth.loop = s.synth.loop ∧
      (∀ i : Fin 8, (vget s.inputs i).running = true → (vget s.inputs i).ending = none → i.val / 4 = idx c.unit → (vget t.inputs i).switch.isSome = true) ∧
      (∀ i : Fin 8, i.val / 4 ≠ idx c.unit → vget t.inputs i = vget s.inputs i) ∧
      ({ t with synth := s.synth, inputs := s.inputs, cals := s.cals } : State).hush = s.hush := by
  obtain ⟨-, -, -, -, -, -, -, hfit, -⟩ := h.parts
  have hd : idx c.unit < 2 := isScs_lt hfit
  have hfree : vget s.synth.ref.changes (idx c.unit) = none := by
    simpa [busy, rateOnDie] using h.clear (x := busy (rateOnDie s (idx c.unit))) (by simp [vSynthSetRate]) (by simp [busy, BUSY])
  refine does_of_act h rfl rfl fun k j t ht => ?_
  obtain ⟨v, cals, hrestart, hres⟩ := scsRestart_frame (idx c.unit) (some c) 0x1301 (argW c 0 40) { s with kennel := k, junction := j }
  have hu := ht.trans (congrArg State.hush hrestart)
  refine ⟨?_, ?_, fun i hrun hend hi => ?_, fun i hi => ?_, ?_⟩
  · rw [synth_of_hush hu]
    exact (vget_vmod_same _ _ hd).trans (by rw [hfree]; rfl)
  · rw [synth_of_hush hu]
    rfl
  · rw [inputs_of_hush hu]
    exact hres.waits i (mem_dieInputs.mpr hi) i.isLt hrun hend
  · rw [inputs_of_hush hu]
    exact hres.others i (mt mem_dieInputs.mp hi)
  · rw [hush_update hu (fun x => { x with synth := s.synth, inputs := s.inputs, cals := s.cals }) fun _ => rfl]
    rfl

theorem vget_loopMod {l : Nat} (hl : l < 26) (f : SynthSt → SynthSt) (s : State) : vget (loopMod l f s).synth.loop l = f (vget s.synth.loop l) :=
  vget_vmod_same _ f hl

/-- No search of a band is under way where a command that would clash with one is accepted (R383). -/
theorem not_searching (h : Accepts vSynthAxsSet c s) : axsSearching s = false :=
  h.clear (x := busy (axsSearching s)) (by simp [vSynthAxsSet]) (by simp [busy, BUSY])

/-- The part of a state that AXS_SET reads: what a command that begins leaves as it is. -/
theorem begun_reads (h : v.start = fun _ s => s) : (begun v c s).synth = s.synth ∧ (begun v c s).maint = s.maint := by
  obtain ⟨k, j, hb⟩ := begun_frame (v := v) (c := c) (s := s) h
  rw [hb]
  exact ⟨rfl, rfl⟩

theorem rampStop_idle (h : s.synth.axs.ramp = none) : rampStop s = s := by
  simp [rampStop, h]

/-- An AXS_CFG within 1 % of the searched frequency retunes at once where no ramp runs and no search is under way (R383). -/
theorem axsApply_near {w : BitVec 64} (hramp : s.synth.axs.ramp = none) (hnear : within1 s.synth.axs.bandN.toNat (fld w 39 0) = true)
    (hquiet : axsSearching s = false) : (axsApply c w s).hush = (loopMod 2 (fun x => { x with n := BitVec.ofNat 40 (fld w 39 0) })
      (axsMod (fun a => { a with cfg := w, hopIdx := 0xFF }) s)).hush := by
  rw [axsApply, rampStop_idle hramp]
  simp only [hnear, hquiet, Bool.not_false, Bool.and_self, if_true]
  exact complete_hush ..

theorem vSynthAxsSet_act (hnow : argT0 c 8 = true) : vSynthAxsSet.act c s = later (axsApply c (axsCfgOf c) s) := if_pos hnow

theorem begun_now (h : v.start = fun _ s => s) : now (begun v c s) = now s := by
  obtain ⟨k, j, hb⟩ := begun_frame (v := v) (c := c) (s := s) h
  rw [hb]
  rfl

/-- AXS_HOP waits for its time, and whether that has passed is judged as it begins (R384). -/
theorem vSynthAxsHop_act {u : State} (hu : now u = now s) : vSynthAxsHop.act c u =
    later (axsMod (fun a => { a with hop := a.hop ++ [(c, argN c 0 1, (argT c 4).getD 0, !argT0 c 4 && decide ((argT c 4).getD 0 < now s))] }) u) := by
  rw [← hu]
  rfl

theorem vSynthAxsRampLoad_act {b : Bytes} (hb : kennelRead s (argN c 0 6) (16 * argN c 6 1) = some b) : vSynthAxsRampLoad.act c s =
    ok (axsMod (fun a => { a with profile := rampCut (rampSegs b (argN c 6 1)) }) (kennelNote (argN c 0 6) (16 * argN c 6 1) s)) := by
  simp only [vSynthAxsRampLoad, hb]

theorem vSynthAxsRampRun_act {u : State} (hu : u.synth = s.synth) : vSynthAxsRampRun.act c u =
    ok (axsMod (fun a => { a with ramp := some ⟨(argT c 0).getD 0, false, argN c 12 4, 0, 0, (vget s.synth.loop 2).n.toNat⟩ }) u) := by
  rw [← hu]
  rfl

/-- AXS_SET within 1 % of the searched frequency retunes at once (R383). -/
theorem does_synthAxsSet (h : Accepts vSynthAxsSet c s) (hnow : argT0 c 8 = true) (hramp : s.synth.axs.ramp = none)
    (hnear : within1 s.synth.axs.bandN.toNat (fld (axsCfgOf c) 39 0) = true) : Does (.synthAxsSet c) s fun t =>
      (vget t.synth.loop 2).n = BitVec.ofNat 40 (fld (axsCfgOf c) 39 0) ∧ t.synth.axs = { s.synth.axs with cfg := axsCfgOf c, hopIdx := 0xFF } ∧ t.maint = s.maint ∧
      ({ t with synth := s.synth } : State).hush = s.hush := by
  have hquiet := not_searching h
  refine does_of_act h rfl rfl fun k j t ht => ?_
  have hu : t.hush = (loopMod 2 (fun x => { x with n := BitVec.ofNat 40 (fld (axsCfgOf c) 39 0) })
      (axsMod (fun a => { a with cfg := axsCfgOf c, hopIdx := 0xFF }) s)).hush := by
    rw [ht, vSynthAxsSet_act hnow]
    exact axsApply_near (s := { s with kennel := k, junction := j }) hramp hnear hquiet
  generalize BitVec.ofNat 40 (fld (axsCfgOf c) 39 0) = n at hu ⊢
  generalize axsCfgOf c = w at hu ⊢
  refine ⟨?_, ?_, ?_, ?_⟩
  · have hloop : vget t.synth.loop 2 = { vget s.synth.loop 2 with n := n } := by
      rw [synth_of_hush hu, vget_loopMod (l := 2) (by decide)]
      rfl
    rw [hloop]
  · rw [synth_of_hush hu]
    rfl
  · rw [maint_of_hush hu]
    rfl
  · rw [hush_update hu (fun x => { x with synth := s.synth }) fun _ => rfl]
    rfl

/-- AXS_SET of any other frequency asks for a band search (R383). -/
theorem waits_synthAxsSet (h : Accepts vSynthAxsSet c s) (hnow : argT0 c 8 = true) (hramp : s.synth.axs.ramp = none)
    (hfar : within1 s.synth.axs.bandN.toNat (fld (axsCfgOf c) 39 0) = false) :
    Waits (.synthAxsSet c) vSynthAxsSet c s (maintAsk 6 0x0C02 0 (axsCfgOf c).toNat (some c) 0x1305) := by
  refine waits_of h rfl ?_
  have hb : (begun vSynthAxsSet c s).synth = s.synth := (begun_reads rfl).1
  rw [vSynthAxsSet_act hnow, axsApply, rampStop_idle (by rw [hb]; exact hramp), hb, hfar]
  rfl

/-- A status record takes one free value at most (R394). -/
def DrawsOne (s t : State) : Prop := t.hush = s.hush ∨ t.hush = ({ s with freeNo := s.freeNo + 1 } : State).hush

theorem loopRecord_draws (l : Nat) (h : Handle) (s : State) : DrawsOne s (loopRecord l h s).2 := by
  unfold loopRecord
  dsimp only
  split
  · exact .inr rfl
  · exact .inl rfl

theorem vSynthStatus_draws (hkeep : argBit c 0 0 = false) : DrawsOne s (vSynthStatus.act c s).1 := by
  simp only [vSynthStatus, hkeep, Bool.false_eq_true, if_false]
  split
  · exact .inr rfl
  · exact loopRecord_draws (idx c.unit) c.unit s

theorem does_synthStatus (h : Accepts vSynthStatus c s) (hkeep : argBit c 0 0 = false) : Does (.synthStatus c) s fun t =>
    (t.freeNo = s.freeNo ∨ t.freeNo = s.freeNo + 1) ∧ ({ t with freeNo := s.freeNo } : State).hush = s.hush := by
  refine does_of_act h rfl rfl fun k j t ht => ?_
  rcases vSynthStatus_draws (s := { s with kennel := k, junction := j }) hkeep with hu | hu
  · exact ⟨.inl (freeNo_of_hush (ht.trans hu)), by rw [hush_update (ht.trans hu) (fun x => { x with freeNo := s.freeNo }) fun _ => rfl]; rfl⟩
  · exact ⟨.inr (freeNo_of_hush (ht.trans hu)), by rw [hush_update (ht.trans hu) (fun x => { x with freeNo := s.freeNo }) fun _ => rfl]; rfl⟩

/-- A one-segment profile that passes keeps within 1 % of the frequency that it starts from (R382, R385). -/
theorem rampCheck_near {n m : Nat} {g : Nat × Nat × Nat} (h : (rampCheck n m [g]).1 = true) (hramp : segHold g = false) :
    g.1 ≤ n + n / 100 ∧ n ≤ g.1 + n / 100 := by
  simp only [rampCheck, hramp, within1, Bool.false_eq_true, if_false, Bool.true_and, Bool.and_eq_true, decide_eq_true_eq] at h
  omega

end

/-- Settles O48, verb by verb: what an accepted command's act does to the loops, the conditioner, AXS and the arbiter. -/
theorem synthVerbs : Obligations.SynthVerbs := by
  unfold Obligations.SynthVerbs
  intro c s
  refine ⟨does_synthSetRate, ?_, does_synthAlign_equal, does_synthAlign_moves, ?_, ?_, ?_, does_synthAxsSet, waits_synthAxsSet, ?_, ?_, ?_, ?_, ?_, ?_,
    does_synthStatus, fun n m g => rampCheck_near⟩
  · exact fun h => answers_of h rfl rfl
  · exact fun h h1 => waits_of h rfl (if_neg (by omega))
  · exact fun h hl => waits_of h rfl (if_pos hl)
  · intro h hl hoff
    refine answers_of_act h rfl rfl fun k j => (if_neg (by omega)).trans ?_
    have hoff' : octetBonds { s with kennel := k, junction := j } (idx c.unit - 8) = [] := hoff
    simp only [hoff', List.foldl_nil]
    rfl
  · exact fun h hlater => waits_of h rfl (if_neg (by simp [hlater]))
  · exact fun h => waits_of h rfl rfl
  · exact fun h => waits_of h rfl (vSynthAxsHop_act (begun_now rfl))
  · intro b h hb
    exact answers_of h rfl (vSynthAxsRampLoad_act hb)
  · exact fun h => answers_of h rfl (vSynthAxsRampRun_act (begun_reads rfl).1)
  · exact fun h => answers_of h rfl rfl

end Sys2Proof.Machine
end

section
/-! The rows of the synthesisers (R368 to R389), and O49. -/
namespace Sys2Proof.Machine
open Sys2Proof

/-! ### What the rows' events leave -/

@[simp] theorem evRef_hush (type : Nat) (d : Bytes) (s : State) : (evRef type d s).hush = s.hush := raise_hush ..
@[simp] theorem evAxs_hush (type hop : Nat) (s : State) : (evAxs type hop s).hush = s.hush := raise_hush ..

/-- An event of a loop takes a free value where another block sets the loop's word, and moves nothing else (R392). -/
theorem evLoop_draws (l type : Nat) (s : State) : ∃ n, (evLoop l type s).hush = ({ s with freeNo := n } : State).hush := by
  unfold evLoop
  dsimp only
  split
  · exact ⟨s.freeNo, raise_hush ..⟩
  · split
    · exact ⟨s.freeNo, raise_hush ..⟩
    · exact ⟨s.freeNo + 1, raise_hush ..⟩

theorem evLoop_axs_hush (type : Nat) (s : State) : (evLoop 2 type s).hush = s.hush := raise_hush ..

section
variable {i : Instr} {s t : State} {y : SynthsSt} {P : State → Prop}

/-- A row that State.hush shows to touch the synthesisers alone. -/
theorem does_synth (hi : exec i s = settle s t) (ht : t.hush = ({ s with synth := y } : State).hush)
    (hp : ∀ u : State, u.synth = y → ({ u with synth := s.synth } : State).hush = s.hush → P u) : Does i s P :=
  does_row hi fun u hu => hp u (synth_of_hush (hu.trans ht)) (hush_update (hu.trans ht) (fun x => { x with synth := s.synth }) fun _ => rfl)

/-- The same of one that may take free values. -/
theorem does_synthDraws {n : Nat} (hi : exec i s = settle s t) (ht : t.hush = ({ s with synth := y, freeNo := n } : State).hush)
    (hp : ∀ u : State, u.synth = y → ({ u with synth := s.synth, freeNo := s.freeNo } : State).hush = s.hush → P u) : Does i s P :=
  does_row hi fun u hu => hp u (synth_of_hush (hu.trans ht)) (hush_update (hu.trans ht) (fun x => { x with synth := s.synth, freeNo := s.freeNo }) fun _ => rfl)

end

/-! ### The reference (R368 to R370) -/

section
variable {s : State}

theorem refinLost_coasting (h : s.synth.ref.coasting = true) : refinLost s = s := by
  simp [refinLost, h]

theorem does_refinLost (h : s.synth.ref.coasting = false) (hon : stage s ≠ 0) : Does .refinLost s fun t =>
    t.synth.ref = { s.synth.ref with coasting := true, buildOut := buildOutNow s, realignSince := none, losses := (s.synth.ref.losses + 1) % 2 ^ 32 } ∧
      t.synth.loop = s.synth.loop ∧ ({ t with synth := s.synth } : State).hush = s.hush := by
  refine does_synth (t := refinLost s) rfl (y := { s.synth with ref := { s.synth.ref with
    coasting := true, buildOut := buildOutNow s, realignSince := none, losses := (s.synth.ref.losses + 1) % 2 ^ 32 } }) ?_ fun u hu hrest => ?_
  · rw [refinLost, if_neg (by simp [h, hon])]
    exact evRef_hush ..
  · rw [hu]
    exact ⟨rfl, rfl, hrest⟩

theorem refinQualified_locked (h : s.synth.ref.coasting = false) (j : Int) : refinQualified j s = s := by
  simp [refinQualified, h]

theorem mode_eq_one {m : Nat} (w : BitVec m) : fld w 0 0 = 1 ↔ bitAt w 0 = true := by
  simp [fld, bitAt, BitVec.getLsbD, Nat.testBit_zero]

theorem does_refinQualified {j : Int} (h : s.synth.ref.coasting = true) (hj : j.natAbs ≤ 5000) : Does (.refinQualified j) s fun t =>
    t.synth.ref = { s.synth.ref with coasting := false, buildOut := s.synth.ref.buildOut + j, realignSince := if bitAt s.synth.ref.cfg 0 = true then some s.cyc else none } ∧
      t.synth.loop = s.synth.loop ∧ ({ t with synth := s.synth } : State).hush = s.hush := by
  refine does_synth (t := refinQualified j s) rfl (y := { s.synth with ref := { s.synth.ref with
    coasting := false, buildOut := s.synth.ref.buildOut + j, realignSince := if bitAt s.synth.ref.cfg 0 = true then some s.cyc else none } }) ?_ fun u hu hrest => ?_
  · have hnear : ¬ (if bitAt s.synth.ref.cfg 1 then 5000 else 50000) < j.natAbs := by split <;> omega
    unfold refinQualified
    simp only [h, Bool.not_true, Bool.false_or, decide_eq_true_eq, mode_eq_one]
    rw [if_neg hnear]
    exact evRef_hush ..
  · rw [hu]
    exact ⟨rfl, rfl, hrest⟩

theorem does_refinQualifyFail (s : State) : Does .refinQualifyFail s fun t => t.synth = s.synth ∧ t.hush = s.hush := by
  refine does_row (t := refinQualifyFail s) rfl fun u hu => ?_
  have hsame : u.hush = s.hush := hu.trans (hush_ite (evRef_hush ..))
  exact ⟨synth_of_hush hsame, hsame⟩

theorem does_realignDone (h : s.synth.ref.realignSince ≠ none) (h0 : buildOutNow s = 0) : Does .realignDone s fun t =>
    t.synth.ref = { s.synth.ref with buildOut := 0, realignSince := none } ∧ ({ t with synth := s.synth } : State).hush = s.hush := by
  obtain ⟨c, hc⟩ := Option.ne_none_iff_exists'.mp h
  refine does_synth (t := realignDone s) rfl (y := { s.synth with ref := { s.synth.ref with buildOut := 0, realignSince := none } }) ?_ fun u hu hrest => ?_
  · simp only [realignDone, hc, h0, if_true]
    exact evRef_hush ..
  · rw [hu]
    exact ⟨rfl, hrest⟩

end

/-! ### Lock (R372, R373, R389, R390) -/

section
variable {s : State} {l : Nat}

/-- A loop as it stands once its lock rule is met (R373). -/
def gainedLoop (t : Time) (x : SynthSt) : SynthSt := { x with lock := .locked, lastLock := t, aligned := false, stallSince := none }

theorem loopGain_draws (l : Nat) (s : State) : ∃ n, (loopGain l s).hush = ({ loopMod l (gainedLoop (now s)) s with freeNo := n } : State).hush := by
  obtain ⟨n, hn⟩ := evLoop_draws l 1 (loopMod l (gainedLoop (now s)) s)
  refine ⟨n, hn ▸ ?_⟩
  unfold loopGain
  dsimp only
  split
  · exact raise_hush ..
  · rfl

theorem loopChange_dead (h : (vget s.synth.loop l).lock = .off ∨ (vget s.synth.loop l).lock = .fault) (b : Bool) : loopChange l b s = s := by
  unfold loopChange
  rcases h with h | h <;> simp [h]

theorem loopChange_gain (hon : onGrade s.grade .synth l = true) (h : (vget s.synth.loop l).lock = .acquiring ∨ (vget s.synth.loop l).lock = .unlocked) :
    loopChange l true s = loopGain l s := by
  unfold loopChange
  rcases h with h | h <;> simp [h, hon]

theorem does_loopGain (hl : l < 26) (hon : onGrade s.grade .synth l = true) (h : (vget s.synth.loop l).lock = .acquiring ∨ (vget s.synth.loop l).lock = .unlocked) :
    Does (.loopLockChange ⟨l, hl⟩ true) s fun t =>
      (vget t.synth.loop l).lock = .locked ∧ (vget t.synth.loop l).n = (vget s.synth.loop l).n ∧ (vget t.synth.loop l).lastLock = now s ∧
      (∀ k, k ≠ l → vget t.synth.loop k = vget s.synth.loop k) ∧ t.synth.axs = s.synth.axs ∧ t.synth.ref = s.synth.ref ∧
      ({ t with synth := s.synth, freeNo := s.freeNo } : State).hush = s.hush := by
  obtain ⟨n, hn⟩ := loopGain_draws l s
  refine does_synthDraws (t := loopGain l s) (y := { s.synth with loop := vmod s.synth.loop l (gainedLoop (now s)) }) (n := n)
    (congrArg (settle s) (loopChange_gain hon h)) hn fun u hu hrest => ?_
  have hloop : vget u.synth.loop l = gainedLoop (now s) (vget s.synth.loop l) := by
    rw [hu]
    exact vget_vmod_same _ _ hl
  rw [hloop, hu]
  exact ⟨rfl, rfl, rfl, fun k hk => vget_vmod_ne _ _ hk, rfl, rfl, hrest⟩

/-- A loop as it stands once it is unlocked (R373). -/
def lostLoop (cyc : Nat) (x : SynthSt) : SynthSt := { x with lock := .unlocked, unlockedSince := cyc, retried := cyc, losses := wrapAdd 32 x.losses 1 }

/-- What the loss of loop l of the first eight adds to it: the span that is suspect, or since when the store waits (R381, R389). -/
def lossMark (l cyc : Nat) (x : SynthSt) : SynthSt :=
  if l < 2 then { x with suspect := true, phase := none } else if l < 4 then x else { x with stallSince := some cyc }

theorem vmod_id {α : Type} {n : Nat} (v : Vector α n) (i : Nat) : vmod v i (fun x => x) = v := by
  by_cases h : i < n <;> simp [vmod, h]

/-- A ramp that stops leaves AXS without one (R386). -/
theorem rampStop_hush (s : State) : (rampStop s).hush = ({ s with synth := { s.synth with axs := { s.synth.axs with ramp := none } } } : State).hush := by
  unfold rampStop
  split
  · exact evAxs_hush ..
  · next h =>
    have hnone : s.synth.axs.ramp = none := by simpa using h
    rw [← hnone]

/-- The loss of a loop below 8 touches the loop, the display that it clocks, and a ramp (R381, R389). -/
theorem loopLost_frame (hl : l < 8) (s : State) : ∃ axs d, (loopLost l s).hush =
    ({ s with synth := { s.synth with loop := vmod s.synth.loop l (lossMark l s.cyc), axs := axs }, disp := d } : State).hush ∧ (l = 2 → axs.ramp = none) := by
  unfold loopLost lossMark
  by_cases h2 : l < 2
  · simp only [h2, if_true]
    exact ⟨s.synth.axs, s.disp, rfl, by omega⟩
  simp only [h2, if_false]
  by_cases h4 : l < 4
  · simp only [h4, if_true, vmod_id]
    by_cases hl2 : l = 2
    · simp only [hl2, if_true]
      exact ⟨{ s.synth.axs with ramp := none }, s.disp, rampStop_hush s, fun _ => rfl⟩
    · obtain rfl : l = 3 := by omega
      by_cases hon : s.disp.enabled = true
      · exact ⟨s.synth.axs, { s.disp with stopped := true, modeChanged := true }, by simp [hon, dispMod], by simp⟩
      · exact ⟨s.synth.axs, s.disp, by simp [hon], by simp⟩
  · simp only [h4, if_false, hl, if_true, show l ≠ 2 by omega, show l ≠ 3 by omega]
    exact ⟨s.synth.axs, s.disp, rfl, False.elim⟩

theorem lossMark_lost (l cyc : Nat) (x : SynthSt) : (lossMark l cyc (lostLoop cyc x)).lock = .unlocked ∧ (lossMark l cyc (lostLoop cyc x)).n = x.n ∧
    (lossMark l cyc (lostLoop cyc x)).losses = (x.losses + 1) % 2 ^ 32 ∧ (lossMark l cyc (lostLoop cyc x)).unlockedSince = cyc ∧
    (l < 2 → (lossMark l cyc (lostLoop cyc x)).suspect = true) := by
  unfold lossMark
  split
  · exact ⟨rfl, rfl, rfl, rfl, fun _ => rfl⟩
  · next h =>
    split
    · exact ⟨rfl, rfl, rfl, rfl, fun h' => absurd h' h⟩
    · exact ⟨rfl, rfl, rfl, rfl, fun h' => absurd h' h⟩

theorem does_loopLost (hl : l < 8) (hon : onGrade s.grade .synth l = true) (h : (vget s.synth.loop l).lock = .locked) :
    Does (.loopLockChange ⟨l, by omega⟩ false) s fun t =>
      (vget t.synth.loop l).lock = .unlocked ∧ (vget t.synth.loop l).n = (vget s.synth.loop l).n ∧
      (vget t.synth.loop l).losses = ((vget s.synth.loop l).losses + 1) % 2 ^ 32 ∧ (vget t.synth.loop l).unlockedSince = s.cyc ∧
      (l < 2 → (vget t.synth.loop l).suspect = true) ∧ (l = 2 → t.synth.axs.ramp = none) ∧ (∀ k, k ≠ l → vget t.synth.loop k = vget s.synth.loop k) ∧
      ({ t with synth := s.synth, disp := s.disp, freeNo := s.freeNo } : State).hush = s.hush := by
  have hrow : loopChange l false s = loopLost l (evLoop l 2 (loopMod l (lostLoop s.cyc) s)) := by
    unfold loopChange
    simp only [h, hon]
    rfl
  obtain ⟨axs, d, hlost, hramp⟩ := loopLost_frame hl (evLoop l 2 (loopMod l (lostLoop s.cyc) s))
  obtain ⟨n, hev⟩ := evLoop_draws l 2 (loopMod l (lostLoop s.cyc) s)
  have hall := hlost.trans (hush_update hev (fun x => { x with
    synth := { x.synth with loop := vmod x.synth.loop l (lossMark l x.cyc), axs := axs }, disp := d }) fun _ => rfl)
  refine does_row (congrArg (settle s) hrow) fun u hu => ?_
  have hloop : vget u.synth.loop l = lossMark l s.cyc (lostLoop s.cyc (vget s.synth.loop l)) := by
    rw [synth_of_hush (hu.trans hall)]
    exact (vget_vmod_same _ _ (by omega)).trans (congrArg _ (vget_vmod_same _ _ (by omega)))
  obtain ⟨hlock, hn, hlosses, hsince, hsus⟩ := lossMark_lost l s.cyc (vget s.synth.loop l)
  rw [hloop]
  refine ⟨hlock, hn, hlosses, hsince, hsus, fun h2 => ?_, fun k hk => ?_, ?_⟩
  · rw [synth_of_hush (hu.trans hall)]
    exact hramp h2
  · rw [synth_of_hush (hu.trans hall)]
    exact (vget_vmod_ne _ _ hk).trans (vget_vmod_ne _ _ hk)
  · exact hush_update (hu.trans hall) (fun x => { x with synth := s.synth, disp := s.disp, freeNo := s.freeNo }) fun _ => rfl

/-! ### Retries and faults (R373, R390) -/

theorem does_loopRetry (hl : l < 26) (s : State) : Does (.loopAcquireRetry ⟨l, hl⟩) s fun t =>
    ((vget s.synth.loop l).lock = .unlocked → (vget s.synth.loop l).retried + 10000 ≤ s.cyc → (vget t.synth.loop l).retried = s.cyc) ∧
      (vget t.synth.loop l).lock = (vget s.synth.loop l).lock ∧ ({ t with synth := s.synth } : State) = s := by
  by_cases hdue : (vget s.synth.loop l).lock = .unlocked ∧ (vget s.synth.loop l).retried + 10000 ≤ s.cyc
  · obtain ⟨hlock, hlong⟩ := hdue
    have hrow : loopRetry l s = loopMod l (fun x => { x with retried := s.cyc }) s := by
      have hlate : 10000 ≤ s.cyc - (vget s.synth.loop l).retried := by omega
      simp [loopRetry, hlock, since, usC, hlate]
    refine ⟨_, exec_quiet (t := loopRetry l s) rfl hrow rfl, fun _ _ => ?_, ?_, rfl⟩ <;> rw [vget_loopMod hl]
  · have hrow : loopRetry l s = s := by
      have hnot : (vget s.synth.loop l).lock = .unlocked → s.cyc - (vget s.synth.loop l).retried < 10000 := fun h => by
        by_contra hlong
        exact hdue ⟨h, by omega⟩
      refine if_neg fun h => ?_
      rw [Bool.and_eq_true, beq_iff_eq, decide_eq_true_iff] at h
      have hshort := hnot h.1
      have hlong : 10000 ≤ s.cyc - (vget s.synth.loop l).retried := h.2
      omega
    exact ⟨s, exec_quiet (t := loopRetry l s) rfl hrow rfl, fun h1 h2 => absurd ⟨h1, h2⟩ hdue, rfl, rfl⟩

theorem synthFault_early (h : (vget s.synth.loop l).lock = .locked ∨ s.cyc - (vget s.synth.loop l).unlockedSince < 1000000) : synthFault l s = s := by
  rcases h with h | h
  · simp [synthFault, h]
  · simp [synthFault, since, msC, show ¬ 1000000 ≤ s.cyc - (vget s.synth.loop l).unlockedSince by omega]

theorem does_synthFault (hl : l < 26) (h : (vget s.synth.loop l).lock = .unlocked ∨ (vget s.synth.loop l).lock = .acquiring)
    (hlong : (vget s.synth.loop l).unlockedSince + 1000000 ≤ s.cyc) : Does (.synthFault ⟨l, hl⟩) s fun t => (vget t.synth.loop l).lock = .fault ∧
      (∀ k, k ≠ l → vget t.synth.loop k = vget s.synth.loop k) ∧ ({ t with synth := s.synth, freeNo := s.freeNo } : State).hush = s.hush := by
  obtain ⟨n, hn⟩ := evLoop_draws l (if l < 2 then 5 else if l = 2 then 7 else 3) (loopMod l (fun x => { x with lock := .fault, suspect := x.suspect || l < 2 }) s)
  refine does_synthDraws (t := synthFault l s) (y := { s.synth with loop := vmod s.synth.loop l fun x => { x with lock := .fault, suspect := x.suspect || l < 2 } })
    (n := n) rfl ?_ fun u hu hrest => ?_
  · unfold synthFault
    simp only [since, msC, show ((vget s.synth.loop l).lock == .acquiring || (vget s.synth.loop l).lock == .unlocked) = true by rcases h with h | h <;> simp [h],
      show 10 * 100000 ≤ s.cyc - (vget s.synth.loop l).unlockedSince by omega, decide_true, Bool.and_self, if_true]
    exact (boxNow_hush ..).trans hn
  · rw [hu]
    exact ⟨congrArg SynthSt.lock (vget_vmod_same _ _ hl), fun k hk => vget_vmod_ne _ _ hk, hrest⟩

/-! ### The end of a rate change (R380) -/

/-- The synthesisers when the rate change of die d is over: its new N_WORD in force at a new phase, and nothing left of the change. -/
def changeOver (d : Nat) (n : BitVec 40) (at_ : Nat × Int) (t : Time) (y : SynthsSt) : SynthsSt :=
  { y with
    loop := vmod (vmod y.loop d fun x => { x with n := n, aligned := false, phase := some at_ }) d fun x => { x with lastLock := t }
    ref := { y.ref with changes := vmod y.ref.changes d fun _ => none, joined := vmod y.ref.joined d fun _ => [] }
    markers := vmod y.markers d fun _ => [], markCount := vmod y.markCount d fun _ => 0 }

/-- Channels whose ratio is chosen anew are all that a new rate touches (R119). -/
theorem ddcRefit_frame (s : State) : ∃ m w, ddcRefit s = m ∧ m = { s with ddc := w } := ⟨_, _, rfl, rfl⟩

theorem scsChangeDone_hush {d : Nat} {c : Cmd} {n : BitVec 40} (hd : d < 2) (hc : vget s.synth.ref.changes d = some ⟨some c, 0x1301, n, false⟩)
    (hlock : (vget s.synth.loop d).lock = .locked) (hin : ∀ i ∈ dieInputs d, (vget s.inputs i).switch = none ∧ (vget s.inputs i).rateSpan = none) :
    ∃ v w, (scsChangeDone d s).hush = ({ s with synth := changeOver d n (s.cyc, buildOutNow s) (now s) s.synth, cals := v, ddc := w } : State).hush := by
  have hready : (dieInputs d).any (fun i => switchIs s i 2) = false := by
    simp only [List.any_eq_false, switchIs]
    intro i hi
    simp [(hin i hi).1]
  have hspan : (dieInputs d).any (fun i => (vget s.inputs i).rateSpan.isSome) = false := by
    simp only [List.any_eq_false]
    intro i hi
    simp [(hin i hi).2]
  obtain ⟨m, w, hrefit, hm⟩ := ddcRefit_frame (scsRetuned d n s)
  have hinputs : m.inputs = s.inputs := (congrArg State.inputs hm).trans rfl
  obtain ⟨v, hv, -⟩ := calRefresh_lasting d (refMod (fun r => { r with changes := vmod r.changes d fun _ => none, joined := vmod r.joined d fun _ => [] }) m)
  have hnow : ∀ v, now ({ refMod (fun r => { r with changes := vmod r.changes d fun _ => none, joined := vmod r.joined d fun _ => [] }) m with cals := v } : State) = now s := fun v => by
    rw [hm]
    rfl
  refine ⟨v, w, ?_⟩
  unfold scsChangeDone
  simp only [hc, hlock, hready, hrefit, hinputs, hspan, hv, bne_self_eq_false, Bool.or_false, Bool.false_eq_true, if_false, beq_self_eq_true, Bool.true_or, Bool.not_true, if_true]
  rw [foldl_keeps State.hush _ (fun s r => complete_hush ..), completeO_hush, evLoop_hush hd]
  rw [show now _ = now s from hnow v, hm]
  unfold changeOver scsRetuned refMod loopMod
  dsimp only

theorem does_scsRateChangeDone {d : Nat} {c : Cmd} {n : BitVec 40} (hd : d < 2) (hc : vget s.synth.ref.changes d = some ⟨some c, 0x1301, n, false⟩)
    (hlock : (vget s.synth.loop d).lock = .locked)
    (hin : ∀ i : Fin 8, i.val / 4 = d → (vget s.inputs i).switch = none ∧ (vget s.inputs i).rateSpan = none) :
    Does (.scsRateChangeDone ⟨d, hd⟩) s fun t => (vget t.synth.loop d).n = n ∧ (vget t.synth.loop d).phase = some (s.cyc, buildOutNow s) ∧
      (vget t.synth.loop d).aligned = false ∧ vget t.synth.ref.changes d = none ∧ vget t.synth.markers d = [] ∧
      ({ t with synth := s.synth, cals := s.cals, ddc := s.ddc } : State).hush = s.hush := by
  obtain ⟨v, w, hhush⟩ := scsChangeDone_hush hd hc hlock fun i hi => hin ⟨i, by have := mem_dieInputs.mp hi; omega⟩ (mem_dieInputs.mp hi)
  refine does_row (t := scsChangeDone d s) rfl fun u hu => ?_
  have hsynth : u.synth = changeOver d n (s.cyc, buildOutNow s) (now s) s.synth := synth_of_hush (hu.trans hhush)
  have hloop : vget u.synth.loop d = { vget s.synth.loop d with n := n, aligned := false, phase := some (s.cyc, buildOutNow s), lastLock := now s } := by
    rw [hsynth]
    exact (vget_vmod_same _ _ (by omega)).trans (by rw [vget_vmod_same _ _ (by omega)])
  rw [hloop, hsynth]
  exact ⟨rfl, rfl, rfl, vget_vmod_same _ _ hd, vget_vmod_same _ _ hd,
    hush_update (hu.trans hhush) (fun x => { x with synth := s.synth, cals := s.cals, ddc := s.ddc }) fun _ => rfl⟩

/-! ### Rows with a time (R378, R383, R384) -/

/-- Nothing is due of a list whose times have not come. -/
theorem none_due {α : Type} {time : α → Nat} {l : List α} {t : Nat} (h : ∀ x ∈ l, t < time x) : (l.filter fun x => time x ≤ t) = [] :=
  List.filter_eq_nil_iff.mpr fun x hx => by simpa using h x hx

theorem one_due {α : Type} {time : α → Nat} {a : α} {t : Nat} (h : time a ≤ t) : ([a].filter fun x => time x ≤ t) = [a] := by
  simp [h]

theorem alignApply_early {d : Nat} (h : ∀ x ∈ vget s.synth.ref.aligns d, now s < x.2) : alignApply d s = s := by
  unfold alignApply
  rw [none_due (time := fun x : Cmd × Time => x.2) h]
  rfl

theorem does_alignApply {d : Nat} {c : Cmd} {t0 : Time} (hd : d < 2) (hone : vget s.synth.ref.aligns d = [(c, t0)]) (hdue : t0 ≤ now s)
    (heq : phaseEqual s d = some true) : Does (.synthAlignApply ⟨d, hd⟩) s fun t => vget t.synth.ref.aligns d = [] ∧ (vget t.synth.loop d).aligned = true ∧
      (vget t.synth.loop d).phase = (vget s.synth.loop d).phase ∧ ({ t with synth := s.synth, inputs := s.inputs } : State).hush = s.hush := by
  obtain ⟨v, w, q, u, hu, hact, -, -⟩ := scsAlign_known (s := refMod (fun r => { r with aligns := vmod r.aligns d fun l => l.erase (c, t0) }) s) (d := d) heq
  have hrow : (alignApply d s).hush = u.hush := by
    unfold alignApply
    rw [hone, one_due (time := fun x : Cmd × Time => x.2) hdue]
    exact (complete_hush ..).trans ((congrArg State.hush hact).trans (evLoop_hush hd ..))
  refine does_row (t := alignApply d s) rfl fun t ht => ?_
  have hloop : vget t.synth.loop d = alignedLoop q (vget s.synth.loop d) := by
    rw [synth_of_hush (ht.trans hrow), hu]
    exact vget_vmod_same _ _ (by omega)
  rw [hloop]
  refine ⟨?_, rfl, rfl, ?_⟩
  · rw [synth_of_hush (ht.trans hrow), hu]
    refine (vget_vmod_same _ _ hd).trans ?_
    rw [hone]
    simp
  · rw [hush_update (ht.trans hrow) (fun x => { x with synth := s.synth, inputs := s.inputs }) fun _ => rfl, hu]
    rfl

/-! ### AXS (R383 to R386) -/

theorem axsRetune_early (h : ∀ x ∈ s.synth.axs.retune, now s < x.2.2) : axsRetune s = s := by
  unfold axsRetune
  rw [none_due (time := fun x : Cmd × BitVec 64 × Time => x.2.2) h]
  rfl

/-- The synthesisers with AXS at frequency n and its settings a. -/
def axsAt (n : BitVec 40) (a : AxsSt) (y : SynthsSt) : SynthsSt :=
  { y with loop := vmod y.loop 2 (fun x => { x with n := n }), axs := a }

theorem axsAt_n (n : BitVec 40) (a : AxsSt) (y : SynthsSt) : (vget (axsAt n a y).loop 2).n = n := by
  unfold axsAt
  rw [vget_vmod_same (i := 2) _ _ (by decide)]

theorem does_axsRetune {c : Cmd} {w : BitVec 64} {t0 : Time} (hone : s.synth.axs.retune = [(c, w, t0)]) (hdue : t0 ≤ now s) (hramp : s.synth.axs.ramp = none)
    (hnear : within1 s.synth.axs.bandN.toNat (fld w 39 0) = true) (hquiet : axsSearching s = false) : Does .axsRetuneApply s fun t =>
      (vget t.synth.loop 2).n = BitVec.ofNat 40 (fld w 39 0) ∧ t.synth.axs = { s.synth.axs with cfg := w, hopIdx := 0xFF, retune := [] } ∧
      ({ t with synth := s.synth } : State).hush = s.hush := by
  have hrow : (axsRetune s).hush = ({ s with synth := axsAt (BitVec.ofNat 40 (fld w 39 0)) { s.synth.axs with cfg := w, hopIdx := 0xFF, retune := [] } s.synth } : State).hush := by
    have herase : s.synth.axs.retune.erase (c, w, t0) = [] := by rw [hone]; simp
    unfold axsRetune
    rw [hone, one_due (time := fun x : Cmd × BitVec 64 × Time => x.2.2) hdue]
    refine (axsApply_near (s := axsMod (fun a => { a with retune := a.retune.erase (c, w, t0) }) s) hramp hnear hquiet).trans ?_
    simp only [axsMod, herase]
    rfl
  refine does_synth (t := axsRetune s) rfl hrow fun u hu hrest => ?_
  rw [hu]
  exact ⟨axsAt_n .., rfl, hrest⟩

theorem axsHopApply_early (h : ∀ x ∈ s.synth.axs.hop, now s < x.2.2.1) : axsHopApply s = s := by
  unfold axsHopApply
  rw [none_due (time := fun x : Cmd × Nat × Time × Bool => x.2.2.1) h]
  rfl

theorem does_axsHop {c : Cmd} {i : Nat} {t0 : Time} {late : Bool} {n : BitVec 40} (hone : s.synth.axs.hop = [(c, i, t0, late)]) (hdue : t0 ≤ now s)
    (hentry : s.synth.axs.hops.find? (·.1 == i) = some (i, n)) : Does .axsHopApply s fun t => (vget t.synth.loop 2).n = n ∧ t.synth.axs.bandN = n ∧
      t.synth.axs.hopIdx = i ∧ t.synth.axs.hop = [] ∧ t.synth.axs.ramp = none ∧ t.synth.axs.hops = s.synth.axs.hops ∧
      ({ t with synth := s.synth } : State).hush = s.hush := by
  have hrow : (axsHopApply s).hush = ({ s with synth := axsAt n { s.synth.axs with hop := [], ramp := none, bandN := n, hopIdx := i } s.synth } : State).hush := by
    have herase : s.synth.axs.hop.erase (c, i, t0, late) = [] := by rw [hone]; simp
    have hstop := rampStop_hush (axsMod (fun a => { a with hop := a.hop.erase (c, i, t0, late) }) s)
    have hhops : (rampStop (axsMod (fun a => { a with hop := a.hop.erase (c, i, t0, late) }) s)).synth.axs.hops = s.synth.axs.hops :=
      congrArg (·.axs.hops) (synth_of_hush hstop)
    unfold axsHopApply
    rw [hone, one_due (time := fun x : Cmd × Nat × Time × Bool => x.2.2.1) hdue]
    simp only [List.foldl_cons, List.foldl_nil, hhops, hentry, complete_hush]
    refine (hush_update hstop (fun x => loopMod 2 (fun x => { x with n := n }) (axsMod (fun a => { a with bandN := n, hopIdx := i }) x)) fun _ => rfl).trans ?_
    simp only [axsMod, herase]
    rfl
  refine does_synth (t := axsHopApply s) rfl hrow fun u hu hrest => ?_
  rw [hu]
  exact ⟨axsAt_n .., rfl, rfl, rfl, rfl, rfl, hrest⟩

theorem rampStep_early {p : RampRun} (hp : s.synth.axs.ramp = some p) (hoff : p.started = false) (h : now s < p.startTime) : rampStep s = s := by
  unfold rampStep
  simp only [hp, hoff, Bool.not_false, if_true]
  exact if_neg (Nat.not_le.mpr h)

/-- A whole number of steps of a segment adds up to the segment (R385). -/
theorem roundDivI_mul (a : Int) {b : Nat} (hb : 0 < b) : roundDivI (a * b) b = a := by
  have hdiv : ∀ n : Nat, roundDiv (n * b) b = n := fun n => by
    unfold roundDiv
    exact Nat.div_eq_of_lt_le (by nlinarith) (by nlinarith)
  unfold roundDivI
  rw [Int.natAbs_mul, Int.natAbs_natCast, hdiv]
  split
  · next h =>
    have hneg : a < 0 := by
      by_contra hpos
      exact absurd h (by have := Int.mul_nonneg (not_lt.mp hpos) (Int.natCast_nonneg b); omega)
    omega
  · next h =>
    have hpos : 0 ≤ a := by
      by_contra hneg
      exact h (Int.mul_neg_of_neg_of_pos (by omega) (by omega))
    omega

theorem loopMod_axs (l : Nat) (f : SynthSt → SynthSt) (s : State) : (loopMod l f s).synth.axs = s.synth.axs := rfl

/-- The last step of a profile's last pass leaves the final frequency, and no ramp (R385). -/
theorem does_rampEnd {p : RampRun} {g : Nat × Nat × Nat} (hp : s.synth.axs.ramp = some p) (hon : p.started = true) (hg : s.synth.axs.profile[p.seg]? = some g)
    (hmoves : segHold g = false) (hk : p.k + 1 = g.2.2) (hseg : p.seg + 1 = s.synth.axs.profile.length) (hlast : p.repeats = 1) : Does .axsRampStep s fun t =>
      (vget t.synth.loop 2).n = BitVec.ofNat 40 g.1 ∧ t.synth.axs.ramp = none ∧ ({ t with synth := s.synth } : State).hush = s.hush := by
  have hrow : (rampStep s).hush = ({ s with synth := axsAt (BitVec.ofNat 40 g.1) { s.synth.axs with ramp := none } s.synth } : State).hush := by
    have hn : ((p.nStart : Int) + roundDivI (((g.1 : Int) - p.nStart) * (p.k + 1 : Nat)) g.2.2).toNat = g.1 := by
      rw [hk, roundDivI_mul _ (by omega)]
      omega
    unfold rampStep
    simp only [hp, hon, hg, hmoves, Bool.not_true, Bool.false_eq_true, if_false, hn, loopMod_axs]
    rw [if_neg (by omega), if_neg (by omega), if_pos hlast]
    exact evAxs_hush ..
  refine does_synth (t := rampStep s) rfl hrow fun u hu hrest => ?_
  rw [hu]
  exact ⟨axsAt_n .., rfl, hrest⟩

/-- A step of a segment that holds leaves the frequency that it began with (R385). -/
theorem does_rampHold {p : RampRun} {g : Nat × Nat × Nat} (hp : s.synth.axs.ramp = some p) (hon : p.started = true) (hg : s.synth.axs.profile[p.seg]? = some g)
    (hhold : segHold g = true) (hk : p.k + 1 < g.2.2) : Does .axsRampStep s fun t => (vget t.synth.loop 2).n = BitVec.ofNat 40 p.nStart ∧
      t.synth.axs.ramp = some { p with k := p.k + 1 } ∧ ({ t with synth := s.synth } : State) = s := by
  have hrow : rampStep s = { s with synth := axsAt (BitVec.ofNat 40 p.nStart) { s.synth.axs with ramp := some { p with k := p.k + 1 } } s.synth } := by
    unfold rampStep
    simp only [hp, hon, hg, hhold, Bool.not_true, Bool.false_eq_true, if_false, if_true, if_pos hk]
    rfl
  exact ⟨_, exec_quiet (t := rampStep s) rfl hrow rfl, axsAt_n .., rfl, rfl⟩

/-! ### The end of a band search (R383) -/

theorem axsSearchDone_none (h : maintRunning s 6 0x0C02 = none) (b : Bool) : axsSearchDone b s = s := by
  simp only [axsSearchDone, h]

/-- The state once the activity of a request has ended (R598). -/
def activityOver (q : MaintReq) (s : State) : State :=
  { s with maint := { s.maint with running := s.maint.running.filter fun x => x.ticket != q.ticket } }

theorem maintEnd_over (q : MaintReq) (s : State) : (maintEnd q s).hush = (activityOver q s).hush := evMaint_hush ..

theorem does_searchFails {q : MaintReq} (hq : maintRunning s 6 0x0C02 = some q) : Does (.axsSearchDone false) s fun t => t.synth = s.synth ∧
    t.maint.running = s.maint.running.filter (fun x => x.ticket != q.ticket) ∧ ({ t with maint := s.maint } : State).hush = s.hush := by
  have hrow : (axsSearchDone false s).hush = (activityOver q s).hush := by
    simp only [axsSearchDone, hq, Bool.not_false, if_true]
    exact (completeO_hush ..).trans ((evAxs_hush ..).trans (maintEnd_over q s))
  refine does_row (t := axsSearchDone false s) rfl fun u hu => ⟨(synth_of_hush (hu.trans hrow)).trans rfl, ?_, ?_⟩
  · rw [maint_of_hush (hu.trans hrow)]
    rfl
  · exact hush_update (hu.trans hrow) (fun x => { x with maint := s.maint }) fun _ => rfl

/-- AXS locks, or stays locked, with its frequency as it was (R373). -/
theorem loopGain_axs (s : State) : ∃ g, (if (vget s.synth.loop 2).lock == .locked then s else loopGain 2 s).hush = (loopMod 2 g s).hush ∧ ∀ x, (g x).n = x.n := by
  split
  · exact ⟨fun x => x, by rw [loopMod, vmod_id], fun _ => rfl⟩
  · refine ⟨gainedLoop (now s), ?_, fun _ => rfl⟩
    unfold loopGain
    dsimp only
    split
    · exact (raise_hush ..).trans (evLoop_axs_hush ..)
    · exact evLoop_axs_hush ..

theorem fld_ofNat_low (a : Nat) : BitVec.ofNat 40 (fld (BitVec.ofNat 64 a) 39 0) = BitVec.ofNat 40 a := by
  apply BitVec.eq_of_toNat_eq
  simp only [fld, BitVec.toNat_ofNat, Nat.shiftRight_zero]
  omega

theorem does_searchFinds {q : MaintReq} (hq : maintRunning s 6 0x0C02 = some q) (harg : q.arg < 2 ^ 64) : Does (.axsSearchDone true) s fun t =>
    (vget t.synth.loop 2).n = BitVec.ofNat 40 q.arg ∧ t.synth.axs.bandN = BitVec.ofNat 40 q.arg ∧ t.synth.axs.cfg = BitVec.ofNat 64 q.arg ∧
      ({ t with maint := s.maint, synth := s.synth } : State).hush = s.hush := by
  have hstore : (q.arg / 2 ^ 72 == 1) = false := beq_false_of_ne (by omega)
  obtain ⟨f, g, hf, hg, hrow⟩ : ∃ f g, (∀ x, (f x).n = BitVec.ofNat 40 q.arg) ∧ (∀ x : SynthSt, (g x).n = x.n) ∧ (axsSearchDone true s).hush =
      (loopMod 2 g (loopMod 2 f (axsMod (fun a => { a with cfg := BitVec.ofNat 64 q.arg, bandN := BitVec.ofNat 40 q.arg, hopIdx := 0xFF }) (activityOver q s)))).hush := by
    obtain ⟨g, hgain, hg⟩ := loopGain_axs (loopMod 2 (fun x => { x with n := BitVec.ofNat 40 q.arg, lastLock := now (maintEnd q s) })
      (axsMod (fun a => { a with cfg := BitVec.ofNat 64 q.arg, bandN := BitVec.ofNat 40 q.arg, hopIdx := 0xFF }) (maintEnd q s)))
    refine ⟨fun x => { x with n := BitVec.ofNat 40 q.arg, lastLock := now (maintEnd q s) }, g, fun _ => rfl, hg, ?_⟩
    simp only [axsSearchDone, hq, hstore, Bool.not_true, Bool.false_eq_true, if_false, if_neg (show ¬ 2 ^ 80 ≤ q.arg by omega), fld_ofNat_low]
    refine (completeO_hush ..).trans ((evAxs_hush ..).trans (hgain.trans ?_))
    exact hush_update (maintEnd_over q s) (fun x => loopMod 2 g (loopMod 2 (fun x => { x with n := BitVec.ofNat 40 q.arg, lastLock := now (maintEnd q s) })
      (axsMod (fun a => { a with cfg := BitVec.ofNat 64 q.arg, bandN := BitVec.ofNat 40 q.arg, hopIdx := 0xFF }) x))) fun _ => rfl
  generalize BitVec.ofNat 40 q.arg = n at hf hrow ⊢
  generalize BitVec.ofNat 64 q.arg = w at hrow ⊢
  refine does_row (t := axsSearchDone true s) rfl fun u hu => ?_
  have hloop : (vget u.synth.loop 2).n = n := by
    rw [synth_of_hush (hu.trans hrow), vget_loopMod (l := 2) (by decide), hg, vget_loopMod (l := 2) (by decide), hf]
  refine ⟨hloop, ?_, ?_, ?_⟩
  · rw [synth_of_hush (hu.trans hrow)]
    rfl
  · rw [synth_of_hush (hu.trans hrow)]
    rfl
  · refine (hush_update (hu.trans hrow) (fun x => { x with maint := s.maint, synth := s.synth }) fun _ => rfl).trans ?_
    simp only [loopMod, axsMod, activityOver]

/-! ### SYNC_IN (R132, R377 to R379) -/

/-- Both sample clocks count an edge with its offset (R377). -/
def syncLoops (o : Int) (s : State) : State :=
  [0, 1].foldl (fun s d => if onGrade s.grade .synth d then
    loopMod d (fun x => { x with syncEdges := wrapAdd 32 x.syncEdges 1, syncOffset := o }) s else s) s

/-- The edge's events (R377). -/
def syncEvents (o : Int) (marginal : Bool) (s : State) : State :=
  let s := raise 0x2F 1 0 (le 4 (unsgn 32 o)) s
  if marginal then raise 0x2F 2 0 (le 4 (unsgn 32 o)) s else s

/-- The dies that follow SYNC_IN align at the edge (R378). -/
def syncAligns (s : State) : State :=
  [0, 1].foldl (fun s d =>
    let x := vget s.synth.loop d
    if onGrade s.grade .synth d && bitAt x.cfg 0 && x.lock != .off && x.lock != .fault then (scsAlign d s).2 else s) s

/-- An edge lies too near to an edge of REFIN to tell which one sampled it (R377). -/
def syncMarginal (o : Int) (s : State) : Bool :=
  decide (o.natAbs ≤ 1500) || decide ((if bitAt s.synth.ref.cfg 1 then 10000 else 100000) ≤ o.natAbs + 1500)

/-- The conditioner with an edge of SYNC_IN counted (R377). -/
def edgeCounted (o : Int) (marginal : Bool) (r : RefSt) : RefSt :=
  { r with syncEdges := wrapAdd 32 r.syncEdges 1, syncOffset := o, marginal := marginal }

theorem syncLoops_frame (o : Int) (s : State) : ∃ v, syncLoops o s = { s with synth := { s.synth with loop := v } } ∧
    ∀ k, (vget v k).cfg = (vget s.synth.loop k).cfg := by
  unfold syncLoops
  induction [0, 1] generalizing s with
  | nil => exact ⟨s.synth.loop, rfl, fun _ => rfl⟩
  | cons d l ih =>
    rw [List.foldl_cons]
    split
    · obtain ⟨v, hv, hcfg⟩ := ih (loopMod d (fun x => { x with syncEdges := wrapAdd 32 x.syncEdges 1, syncOffset := o }) s)
      exact ⟨v, hv, fun k => (hcfg k).trans (vget_vmod_keeps SynthSt.cfg (f := fun x => { x with syncEdges := wrapAdd 32 x.syncEdges 1, syncOffset := o }) (fun _ => rfl) s.synth.loop d k)⟩
    · exact ih s

theorem syncEvents_hush (o : Int) (marginal : Bool) (s : State) : (syncEvents o marginal s).hush = s.hush := by
  unfold syncEvents
  dsimp only
  split
  · exact (raise_hush ..).trans (raise_hush ..)
  · exact raise_hush ..

theorem syncAligns_off (h0 : bitAt (vget s.synth.loop 0).cfg 0 = false) (h1 : bitAt (vget s.synth.loop 1).cfg 0 = false) : syncAligns s = s := by
  simp [syncAligns, h0, h1]

theorem syncPins_frame (t : Time) (l : List Nat) (s : State) : ∃ w, l.foldl (fun s e => syncPin t e s) s = { s with ddcEng := w } := by
  induction l generalizing s with
  | nil => exact ⟨s.ddcEng, rfl⟩
  | cons e l ih => exact ih _

theorem syncInEdge_hush {o : Int} (hon : stage s ≠ 0) (h0 : bitAt (vget s.synth.loop 0).cfg 0 = false) (h1 : bitAt (vget s.synth.loop 1).cfg 0 = false) :
    ∃ v w, (syncInEdge o s).hush = ({ s with synth := { s.synth with loop := v, ref := edgeCounted o (syncMarginal o s) s.synth.ref }, ddcEng := w } : State).hush := by
  obtain ⟨v, hv, hcfg⟩ := syncLoops_frame o (refMod (edgeCounted o (syncMarginal o s)) s)
  have hev : (syncEvents o (syncMarginal o s) (syncLoops o (refMod (edgeCounted o (syncMarginal o s)) s))).hush =
      ({ s with synth := { s.synth with loop := v, ref := edgeCounted o (syncMarginal o s) s.synth.ref } } : State).hush := by
    rw [syncEvents_hush, hv]
    rfl
  have hstay : ∀ k, bitAt (vget s.synth.loop k).cfg 0 = false →
      bitAt (vget (syncEvents o (syncMarginal o s) (syncLoops o (refMod (edgeCounted o (syncMarginal o s)) s))).synth.loop k).cfg 0 = false := fun k hk => by
    rw [synth_of_hush hev]
    exact (congrArg (bitAt · 0) (hcfg k)).trans hk
  obtain ⟨w, hw⟩ := syncPins_frame (now (syncEvents o (syncMarginal o s) (syncLoops o (refMod (edgeCounted o (syncMarginal o s)) s))))
    (List.range (nInputs (syncEvents o (syncMarginal o s) (syncLoops o (refMod (edgeCounted o (syncMarginal o s)) s))).grade))
    (syncEvents o (syncMarginal o s) (syncLoops o (refMod (edgeCounted o (syncMarginal o s)) s)))
  refine ⟨v, w, ?_⟩
  have hrow : syncInEdge o s = (List.range (nInputs (syncAligns (syncEvents o (syncMarginal o s) (syncLoops o (refMod (edgeCounted o (syncMarginal o s)) s)))).grade)).foldl
      (fun u e => syncPin (now (syncEvents o (syncMarginal o s) (syncLoops o (refMod (edgeCounted o (syncMarginal o s)) s)))) e u)
      (syncAligns (syncEvents o (syncMarginal o s) (syncLoops o (refMod (edgeCounted o (syncMarginal o s)) s)))) := if_neg hon
  rw [hrow, syncAligns_off (hstay 0 h0) (hstay 1 h1), hw]
  exact hush_update hev (fun x => { x with ddcEng := w }) fun _ => rfl

theorem does_syncInEdge {o : Int} (hon : stage s ≠ 0) (h0 : bitAt (vget s.synth.loop 0).cfg 0 = false) (h1 : bitAt (vget s.synth.loop 1).cfg 0 = false) :
    Does (.syncInEdge o) s fun t => t.synth.ref.syncEdges = (s.synth.ref.syncEdges + 1) % 2 ^ 32 ∧ t.synth.ref.syncOffset = o ∧
      (o.natAbs ≤ 1500 → t.synth.ref.marginal = true) ∧ (1500 < o.natAbs → o.natAbs < 8500 → t.synth.ref.marginal = false) ∧
      ({ t with synth := s.synth, ddcEng := s.ddcEng } : State).hush = s.hush := by
  obtain ⟨v, w, hrow⟩ := syncInEdge_hush (o := o) hon h0 h1
  refine does_row (t := syncInEdge o s) rfl fun u hu => ?_
  have href : u.synth.ref = edgeCounted o (syncMarginal o s) s.synth.ref := by
    rw [synth_of_hush (hu.trans hrow)]
  rw [href]
  refine ⟨rfl, rfl, fun h => ?_, fun hlo hhi => ?_, hush_update (hu.trans hrow) (fun x => { x with synth := s.synth, ddcEng := s.ddcEng }) fun _ => rfl⟩
  · simp [edgeCounted, syncMarginal, h]
  · have hfar : ¬ (if bitAt s.synth.ref.cfg 1 then 10000 else 100000) ≤ o.natAbs + 1500 := by split <;> omega
    simp [edgeCounted, syncMarginal, hfar, Nat.not_le.mpr hlo]

/-! ### Markers of the sample clocks (R375, R405) -/

theorem scsMarker_off {d : Nat} (h : s.boot.mainOn = false ∨ (vget s.synth.loop d).lock = .off) (c f : Nat) : scsMarker d c f s = s := by
  unfold scsMarker
  rcases h with h | h <;> simp [h]

theorem scsMarker_missed {d c f : Nat} {u : State} (hon : s.boot.mainOn = true) (hlock : (vget s.synth.loop d).lock ≠ .off)
    (hx : crossing (6 + d) false c f s = (none, u)) : scsMarker d c f s = u := by
  unfold scsMarker
  rw [if_neg (by simp [hon, hlock]), hx]

theorem scsMarker_taken {d c f : Nat} {e : Edge} {u : State} (hon : s.boot.mainOn = true) (hlock : (vget s.synth.loop d).lock ≠ .off)
    (hx : crossing (6 + d) false c f s = (some e, u)) : scsMarker d c f s = { u with synth := { u.synth with
      markCount := vmod u.synth.markCount d fun k => k + 1
      markers := vmod u.synth.markers d fun l => ((65536 * (vget u.synth.markCount d + 1), edgeStamp u e) :: l).take 16 } } := by
  have hcount : vmod u.synth.markCount d (fun _ => vget u.synth.markCount d + 1) = vmod u.synth.markCount d fun k => k + 1 := vmod_congr_at rfl
  unfold scsMarker
  rw [if_neg (by simp [hon, hlock]), hx, ← hcount]

end

/-- Settles O49, row by row: the reference, the locks, the end of a rate change, what is due of alignments, retunes, hops and ramps, searches, SYNC_IN and markers. -/
theorem synthRows : Obligations.SynthRows := by
  unfold Obligations.SynthRows
  intro s
  have hsame : ∀ {i : Instr} {t : State}, exec i s = settle s t → t = s → exec i s = .next s := fun hi ht => exec_quiet hi ht rfl
  refine ⟨fun h => hsame rfl (refinLost_coasting h), does_refinLost, fun j h => hsame rfl (refinQualified_locked h j), fun j => does_refinQualified,
    does_refinQualifyFail s, fun h => hsame rfl (by simp [realignDone, h]), does_realignDone, fun l h b => hsame rfl (loopChange_dead h b),
    fun l => does_loopGain l.isLt, fun l hon hlock hl => does_loopLost hl hon hlock, fun l => does_loopRetry l.isLt s, fun l h => hsame rfl (synthFault_early h),
    fun l => does_synthFault l.isLt, fun d h => hsame rfl (by simp [scsChangeDone, h]), fun d c n => does_scsRateChangeDone d.isLt,
    fun d h => hsame rfl (alignApply_early h), fun d c t0 => does_alignApply d.isLt, fun h => hsame rfl (axsRetune_early h), fun c w t0 => does_axsRetune,
    fun h => hsame rfl (axsHopApply_early h), fun c i t0 late n => does_axsHop, fun h => hsame rfl (by simp [rampStep, h]),
    fun p hp hoff h => hsame rfl (rampStep_early hp hoff h), fun p g hp hon hg hmoves _ _ => does_rampEnd hp hon hg hmoves, fun p g => does_rampHold,
    fun b h => hsame rfl (axsSearchDone_none h b), fun q => does_searchFails, fun q => does_searchFinds, fun o h => hsame rfl (if_pos h), fun o => does_syncInEdge,
    fun d c f h => hsame rfl (scsMarker_off h c f), fun d c f u hon hlock hx => congrArg (settle s) (scsMarker_missed hon hlock hx),
    fun d c f e u hon hlock hx => congrArg (settle s) (scsMarker_taken hon hlock hx)⟩

end Sys2Proof.Machine
end

section
/-! The time counter (R395 to R397, R415, R417): what its states, steps and servo change, and O50. -/
namespace Sys2Proof.Machine
open Sys2Proof

theorem time_of_hush {s t : State} (h : s.hush = t.hush) : s.time = t.time := by injection h

@[simp] theorem raise_time (src type unit : Nat) (d : Bytes) (s : State) : (raise src type unit d s).time = s.time := time_of_hush (raise_hush ..)

theorem cyc_of_hush {s t : State} (h : s.hush = t.hush) : s.cyc = t.cyc := by injection h

@[simp] theorem raise_cyc (src type unit : Nat) (d : Bytes) (s : State) : (raise src type unit d s).cyc = s.cyc := cyc_of_hush (raise_hush ..)

/-! ### A new INCREMENT, a new state, a step -/

/-- The counter with INCREMENT v from cycle cyc on, its run in LOCKED kept (R399). -/
def incSet (v cyc : Nat) (t : TimeSt) : TimeSt :=
  { t with
    increment := v
    lockedInc := if t.state == .locked then keepMinute (60 * secC) ((t.increment, cyc - t.lockedSince) :: t.lockedInc) else t.lockedInc
    lockedSince := cyc }

theorem setInc_eq (v : Nat) (s : State) : setInc v s = timeMod (incSet v s.cyc) s := rfl

/-- The counter in a new state from cycle cyc on (R396, R399). -/
def wentTo (new : TimeState) (cyc : Nat) (t : TimeSt) : TimeSt :=
  let t := incSet t.increment cyc t
  { t with
    state := new, accepted := 0, outlierRun := 0, lockedSince := cyc
    holdSecs := if t.state == .holdover then wrapAdd 32 t.holdSecs ((cyc - t.holdFrom) / secC) else t.holdSecs
    holdSince := if new == .holdover then cyc else t.holdSince
    holdFrom := if new == .holdover then cyc else t.holdFrom
    increment := if new == .holdover then meanInc t.lockedInc t.increment else t.increment
    slew := if new == .holdover then 0 else t.slew }

theorem timeGo_hush (new : TimeState) (s : State) : (timeGo new s).hush = (timeMod (wentTo new s.cyc) s).hush := raise_hush ..

@[simp] theorem timeGo_time (new : TimeState) (s : State) : (timeGo new s).time = wentTo new s.cyc s.time := time_of_hush (timeGo_hush new s)

section
variable (new : TimeState) (cyc : Nat) (t : TimeSt)

@[simp] theorem wentTo_counter : (wentTo new cyc t).counter = t.counter := rfl
@[simp] theorem wentTo_state : (wentTo new cyc t).state = new := rfl
@[simp] theorem wentTo_steps : (wentTo new cyc t).steps = t.steps := rfl
@[simp] theorem wentTo_outliers : (wentTo new cyc t).outliers = t.outliers := rfl
@[simp] theorem wentTo_cfg : (wentTo new cyc t).cfg = t.cfg := rfl
@[simp] theorem wentTo_ptp : (wentTo new cyc t).ptp = t.ptp := rfl
@[simp] theorem wentTo_ppsLost : (wentTo new cyc t).ppsLost = t.ppsLost := rfl

/-- Only HOLDOVER changes INCREMENT (R396, R399). -/
theorem wentTo_increment {new : TimeState} (h : new ≠ .holdover) : (wentTo new cyc t).increment = t.increment := by
  cases new
  case holdover => exact absurd rfl h
  all_goals rfl

end

/-- The counter at a new value (R397, R398). -/
def steppedTo (v : Nat) (t : TimeSt) : TimeSt :=
  { t with counter := v, steps := wrapAdd 32 t.steps 1, stepsAll := t.stepsAll + 1, steppedTo := some (v / 2 ^ 32) }

/-- A step touches the counter and what depends on it: density periods, marker fits, the records and update periods in progress (R398, R405, R594). -/
theorem timeStep_hush (v : Nat) (s : State) : ∃ dn y e w, (timeStep v s).hush =
    ({ s with time := steppedTo v s.time, dens := dn, synth := y, events := e, cals := w } : State).hush := ⟨_, _, _, _, raise_hush ..⟩

@[simp] theorem timeStep_time (v : Nat) (s : State) : (timeStep v s).time = steppedTo v s.time := by
  obtain ⟨dn, y, e, w, h⟩ := timeStep_hush v s
  exact time_of_hush h

/-! ### The servo (R397) -/

/-- INCREMENT lies within 500 ppm of nominal. -/
def IncFits (v : Nat) : Prop := ((v : Int) - 10 * 2 ^ 48).natAbs ≤ 10 * 2 ^ 48 * 500 / 1000000

theorem incFits_clamp (x : Int) : IncFits ((nominalInc : Int) + clampI (-(ppm 500 : Nat)) (ppm 500 : Nat) x).toNat := by
  have hlo := le_clampI (lo := -((ppm 500 : Nat) : Int)) (hi := (ppm 500 : Nat)) (by omega) x
  have hhi := clampI_le (lo := -((ppm 500 : Nat) : Int)) (hi := (ppm 500 : Nat)) (by omega) x
  have hp : ppm 500 = 10 * 2 ^ 48 * 500 / 1000000 := by decide
  have hn : nominalInc = 10 * 2 ^ 48 := rfl
  unfold IncFits
  omega

/-- The servo sets an INCREMENT within 500 ppm, and takes the offset as the last one (R397). -/
theorem servo_time (off : Int) (s : State) : ∃ v corr slew, IncFits v ∧ (servo off s).time =
    { incSet v s.cyc s.time with integral := corr, slew := slew, measAt := s.cyc, lastOffset := off } :=
  ⟨_, _, _, incFits_clamp _, rfl⟩

/-- What the servo leaves alone of the counter. -/
structure ServoLeaves (s t : State) : Prop where
  counter : t.time.counter = s.time.counter
  state : t.time.state = s.time.state
  outlierRun : t.time.outlierRun = s.time.outlierRun
  accepted : t.time.accepted = s.time.accepted
  increment : IncFits t.time.increment
  cfg : t.time.cfg = s.time.cfg
  ptp : t.time.ptp = s.time.ptp

theorem servo_served (off : Int) (s : State) : ServoLeaves s (servo off s) ∧ (servo off s).time.lastOffset = off := by
  obtain ⟨v, corr, slew, hv, h⟩ := servo_time off s
  exact ⟨⟨by rw [h]; rfl, by rw [h]; rfl, by rw [h]; rfl, by rw [h]; rfl, by rw [h]; exact hv, by rw [h]; rfl, by rw [h]; rfl⟩, by rw [h]⟩

/-! ### Measurements (R396, R397) -/

section
variable {off : Int} {s : State}

theorem measure_idle (h : s.time.state = .free ∨ s.time.state = .holdover) : measure off s = s := by
  rcases h with h | h <;> simp only [measure, h]

/-- A measurement of LOCKED near the prediction goes to the servo (R397). -/
theorem measure_near (h : s.time.state = .locked) (hnear : (off - servoPredict s).natAbs ≤ 8 * tLockPs s) :
    measure off s = servo off (timeMod (fun t => { t with outlierRun := 0 }) s) := by
  simp only [measure, h]
  exact if_neg (by simpa using hnear)

theorem measure_far (h : s.time.state = .locked) (hfar : 8 * tLockPs s < (off - servoPredict s).natAbs) : measure off s = outlier off s := by
  simp only [measure, h]
  exact if_pos (by simpa using hfar)

theorem measure_acquiring (h : s.time.state = .acquiring) : measure off s = acquire off s := by
  simp only [measure, h]

/-- An outlier is counted and discarded; the fourth in a row leads back to ACQUIRING (R396, R397). -/
theorem outlier_time (off : Int) (s : State) : ∃ t, t = { s.time with outliers := wrapAdd 32 s.time.outliers 1, outlierRun := s.time.outlierRun + 1 } ∧
    (outlier off s).time = if 3 ≤ s.time.outlierRun then wentTo .acquiring s.cyc t else t := by
  refine ⟨_, rfl, ?_⟩
  unfold outlier
  simp only [raise_time, timeMod]
  by_cases h : 3 ≤ s.time.outlierRun
  · rw [if_pos h, if_pos (by omega), timeGo_time, raise_time, raise_cyc]
  · rw [if_neg h, if_neg (by omega)]
    simp

/-- What a measurement of LOCKED does (R396, R397). -/
theorem measure_locked (h : s.time.state = .locked) : (measure off s).time.counter = s.time.counter ∧
    ((off - servoPredict s).natAbs ≤ 8 * tLockPs s → (measure off s).time.state = .locked ∧ (measure off s).time.lastOffset = off ∧ (measure off s).time.outlierRun = 0) ∧
    (8 * tLockPs s < (off - servoPredict s).natAbs → (measure off s).time.outliers = (s.time.outliers + 1) % 2 ^ 32 ∧ (measure off s).time.increment = s.time.increment ∧
      (measure off s).time.state = if 3 ≤ s.time.outlierRun then .acquiring else .locked) := by
  obtain ⟨hserved, hoff⟩ := servo_served off (timeMod (fun t => { t with outlierRun := 0 }) s)
  obtain ⟨t, ht, hout⟩ := outlier_time off s
  refine ⟨?_, fun hnear => ?_, fun hfar => ?_⟩
  · rcases Nat.lt_or_ge (8 * tLockPs s) (off - servoPredict s).natAbs with hfar | hnear
    · rw [measure_far h hfar, hout, ht]
      split <;> rfl
    · rw [measure_near h hnear]
      exact hserved.counter
  · rw [measure_near h hnear]
    exact ⟨hserved.state.trans h, hoff, hserved.outlierRun⟩
  · rw [measure_far h hfar, hout, ht]
    split
    · exact ⟨rfl, wentTo_increment _ _ (by decide), rfl⟩
    · exact ⟨rfl, rfl, h⟩

/-- The count of measurements within LOCK_PS once one more is accepted (R396). -/
def acceptedNow (off : Int) (s : State) : Nat := if decide (off.natAbs ≤ tLockPs s) then s.time.accepted + 1 else 0

/-- What follows once the count of a measurement of ACQUIRING is kept: the step or the servo, and perhaps the lock (R396, R397). -/
def acquireCounted (off : Int) (n : Nat) (s : State) : State :=
  let s := if bitAt s.time.cfg 2 && fld s.time.cfg 95 64 * 1000 ≤ off.natAbs then
      timeStep ((s.time.counter : Int) - off * 2 ^ 48 / 1000).toNat (timeMod (fun t => { t with lastOffset := off, measAt := s.cyc, slew := 0 }) s)
    else servo off s
  if 16 ≤ n && (tSource s != 2 || s.time.ptp.l1Up) then timeGo .locked s else s

theorem acquireCounted_serves {n : Nat} (hnear : bitAt s.time.cfg 2 = false ∨ off.natAbs < fld s.time.cfg 95 64 * 1000) : ∃ t, ServoLeaves s t ∧
    acquireCounted off n s = if 16 ≤ n && (tSource t != 2 || t.time.ptp.l1Up) then timeGo .locked t else t := by
  refine ⟨_, (servo_served off s).1, ?_⟩
  unfold acquireCounted
  have hno : ¬ (bitAt s.time.cfg 2 && decide (fld s.time.cfg 95 64 * 1000 ≤ off.natAbs)) = true := by
    rcases hnear with h | h
    · simp [h]
    · simp [Nat.not_le.mpr h]
  rw [if_neg hno]

theorem acquireCounted_steps {n : Nat} (hstep : bitAt s.time.cfg 2 = true) (hfar : fld s.time.cfg 95 64 * 1000 ≤ off.natAbs) : ∃ t,
    t.time = steppedTo ((s.time.counter : Int) - off * 2 ^ 48 / 1000).toNat { s.time with lastOffset := off, measAt := s.cyc, slew := 0 } ∧
    acquireCounted off n s = if 16 ≤ n && (tSource t != 2 || t.time.ptp.l1Up) then timeGo .locked t else t := by
  refine ⟨_, timeStep_time _ (timeMod (fun t => { t with lastOffset := off, measAt := s.cyc, slew := 0 }) s), ?_⟩
  unfold acquireCounted
  have hyes : (bitAt s.time.cfg 2 && decide (fld s.time.cfg 95 64 * 1000 ≤ off.natAbs)) = true := by simp [hstep, hfar]
  rw [if_pos hyes]

/-- A measurement of ACQUIRING that does not step goes to the servo, and locks as the 16th within LOCK_PS does (R396, R397). -/
theorem acquire_serves (hnear : bitAt s.time.cfg 2 = false ∨ off.natAbs < fld s.time.cfg 95 64 * 1000) : ∃ t,
    ServoLeaves (timeMod (fun t => { t with accepted := acceptedNow off s }) s) t ∧
    acquire off s = if 16 ≤ acceptedNow off s && (tSource t != 2 || t.time.ptp.l1Up) then timeGo .locked t else t :=
  acquireCounted_serves (s := timeMod (fun t => { t with accepted := acceptedNow off s }) s) hnear

/-- A measurement of ACQUIRING beyond STEP_NS steps the counter (R397). -/
theorem acquire_steps (hstep : bitAt s.time.cfg 2 = true) (hfar : fld s.time.cfg 95 64 * 1000 ≤ off.natAbs) : ∃ t,
    t.time = steppedTo ((s.time.counter : Int) - off * 2 ^ 48 / 1000).toNat { s.time with accepted := acceptedNow off s, lastOffset := off, measAt := s.cyc, slew := 0 } ∧
    acquire off s = if 16 ≤ acceptedNow off s && (tSource t != 2 || t.time.ptp.l1Up) then timeGo .locked t else t :=
  acquireCounted_steps (s := timeMod (fun t => { t with accepted := acceptedNow off s }) s) hstep hfar

theorem locks_near (h : s.time.state = .acquiring) (hnear : off.natAbs ≤ tLockPs s) (hsmall : off.natAbs < fld s.time.cfg 95 64 * 1000) (hcount : s.time.accepted = 15)
    (hsrc : tSource s ≠ 2) : (measure off s).time.state = .locked ∧ (measure off s).time.counter = s.time.counter := by
  obtain ⟨t, hserved, ht⟩ := acquire_serves (.inr hsmall)
  have hn : acceptedNow off s = 16 := by rw [acceptedNow, if_pos (by simpa using hnear), hcount]
  have hsrc' : tSource t ≠ 2 := by rwa [tSource, hserved.cfg]
  rw [measure_acquiring h, ht, if_pos (by simp [hn, hsrc']), timeGo_time]
  exact ⟨rfl, hserved.counter⟩

theorem steps_far (h : s.time.state = .acquiring) (hstep : bitAt s.time.cfg 2 = true) (hfar : fld s.time.cfg 95 64 * 1000 ≤ off.natAbs) (hout : tLockPs s < off.natAbs) :
    (measure off s).time.state = .acquiring ∧ (measure off s).time.accepted = 0 ∧ (measure off s).time.counter = ((s.time.counter : Int) - off * 2 ^ 48 / 1000).toNat := by
  obtain ⟨t, htime, ht⟩ := acquire_steps hstep hfar
  have hn : acceptedNow off s = 0 := if_neg (by simpa using hout)
  rw [measure_acquiring h, ht, if_neg (by simp [hn]), htime]
  exact ⟨h, hn, rfl⟩

/-- After a measurement INCREMENT is as it was, or within 500 ppm of nominal (R395, R397). -/
theorem measure_increment (off : Int) (s : State) : (measure off s).time.increment = s.time.increment ∨ IncFits (measure off s).time.increment := by
  have hgo : ∀ (q : Bool) (t : State), (if q then timeGo .locked t else t).time.increment = t.time.increment := fun q t => by
    cases q
    · rfl
    · simp only [if_true, timeGo_time]
      exact wentTo_increment _ _ (by decide)
  cases h : s.time.state with
  | free => exact .inl (by rw [measure_idle (.inl h)])
  | holdover => exact .inl (by rw [measure_idle (.inr h)])
  | locked =>
    rcases Nat.lt_or_ge (8 * tLockPs s) (off - servoPredict s).natAbs with hfar | hnear
    · exact .inl ((measure_locked h).2.2 hfar).2.1
    · rw [measure_near h hnear]
      exact .inr (servo_served off _).1.increment
  | acquiring =>
    rw [measure_acquiring h]
    by_cases hstep : bitAt s.time.cfg 2 = true ∧ fld s.time.cfg 95 64 * 1000 ≤ off.natAbs
    · obtain ⟨t, htime, ht⟩ := acquire_steps hstep.1 hstep.2
      refine .inl ?_
      rw [ht, hgo, htime]
      rfl
    · obtain ⟨t, hserved, ht⟩ := acquire_serves (off := off) (s := s) (by
        by_cases hb : bitAt s.time.cfg 2 = true
        · exact .inr (Nat.lt_of_not_le fun hfar => hstep ⟨hb, hfar⟩)
        · exact .inl (Bool.eq_false_iff.mpr hb))
      refine .inr ?_
      rw [ht, hgo]
      exact hserved.increment

end

/-! ### The time verbs (R415, R417) -/

section
variable {c : Cmd} {s : State}

/-- TIME.SET with MODE 0: first to ACQUIRING where PPS locks the counter, then the step. -/
theorem vTimeSet_now (h : argN c 12 1 = 0) : vTimeSet.act c s =
    ok (timeStep ((argT c 0).getD 0 * 2 ^ 32) (if tSource s = 3 && s.time.state == .locked then timeGo .acquiring s else s)) := if_pos h

theorem does_timeSet (h : Accepts vTimeSet c s) (h0 : argN c 12 1 = 0) : Does (.timeSet c) s fun t => t.time.counter = (argT c 0).getD 0 * 2 ^ 32 ∧
    t.time.steps = (s.time.steps + 1) % 2 ^ 32 ∧ t.time.increment = s.time.increment ∧
    (t.time.state = if tSource s = 3 ∧ s.time.state = .locked then .acquiring else s.time.state) ∧
    ({ t with time := s.time, dens := s.dens, synth := s.synth, events := s.events, cals := s.cals } : State).hush = s.hush := by
  obtain ⟨x, hx, hsteps, hinc, hstate⟩ : ∃ x, (∀ k j, (if tSource s = 3 && s.time.state == .locked then timeGo .acquiring { s with kennel := k, junction := j } else { s with kennel := k, junction := j }).hush =
      ({ s with time := x } : State).hush) ∧ x.steps = s.time.steps ∧ x.increment = s.time.increment ∧
      x.state = if tSource s = 3 ∧ s.time.state = .locked then .acquiring else s.time.state := by
    by_cases hpps : tSource s = 3 ∧ s.time.state = .locked
    · have hon : (decide (tSource s = 3) && s.time.state == .locked) = true := by simp [hpps]
      refine ⟨wentTo .acquiring s.cyc s.time, fun k j => ?_, rfl, wentTo_increment _ _ (by decide), by rw [if_pos hpps]; rfl⟩
      rw [if_pos hon]
      exact timeGo_hush ..
    · have hoff : ¬ (decide (tSource s = 3) && s.time.state == .locked) = true := by simpa using hpps
      refine ⟨s.time, fun k j => ?_, rfl, rfl, by rw [if_neg hpps]⟩
      rw [if_neg hoff]
      rfl
  refine does_of_act h rfl rfl fun k j t ht => ?_
  obtain ⟨dn, y, e, w, hstep⟩ := timeStep_hush ((argT c 0).getD 0 * 2 ^ 32)
    (if tSource s = 3 && s.time.state == .locked then timeGo .acquiring { s with kennel := k, junction := j } else { s with kennel := k, junction := j })
  have hu : t.hush = ({ s with time := steppedTo ((argT c 0).getD 0 * 2 ^ 32) x, dens := dn, synth := y, events := e, cals := w } : State).hush := by
    rw [ht, vTimeSet_now h0]
    exact hstep.trans (hush_update (hx k j) (fun u => { u with time := steppedTo ((argT c 0).getD 0 * 2 ^ 32) u.time, dens := dn, synth := y, events := e, cals := w }) fun _ => rfl)
  rw [time_of_hush hu]
  exact ⟨rfl, congrArg (wrapAdd 32 · 1) hsteps, hinc, hstate,
    hush_update hu (fun x => { x with time := s.time, dens := s.dens, synth := s.synth, events := s.events, cals := s.cals }) fun _ => rfl⟩

/-- TIME_CFG as a command carries it, its reserved bits 0 (R415). -/
def timeCfgOf (c : Cmd) : BitVec 256 := setFld (setFld (argW c 0 256) 127 112 0) 239 235 0

theorem timeCfgOf_source (c : Cmd) : fld (timeCfgOf c) 1 0 = fld (argW c 0 256) 1 0 := by
  unfold timeCfgOf
  rw [fld_setFld_of_lt _ _ (by omega) (by omega) (by omega), fld_setFld_of_lt _ _ (by omega) (by omega) (by omega)]

/-- The counter with a new TIME_CFG, its source unheard where that has moved (R396, R415). -/
def reconfigured (moved : Bool) (cfg : BitVec 256) (cyc : Nat) (t : TimeSt) : TimeSt :=
  if moved then { t with cfg := cfg, ptp := {}, ppsLost := false, ppsSince := cyc, accepted := 0 } else { t with cfg := cfg }

theorem reconfigured_keeps (moved : Bool) (cfg : BitVec 256) (cyc : Nat) (t : TimeSt) : (reconfigured moved cfg cyc t).cfg = cfg ∧
    (reconfigured moved cfg cyc t).state = t.state ∧ (reconfigured moved cfg cyc t).counter = t.counter ∧ (reconfigured moved cfg cyc t).increment = t.increment := by
  cases moved <;> exact ⟨rfl, rfl, rfl, rfl⟩

/-- The state that the source of a new TIME_CFG calls for (R396). -/
def sourceChosen (moved : Bool) (t : State) : State :=
  if tSource t = 0 then (if t.time.state == .free then t else timeGo .free t)
  else if t.time.state == .free then timeGo .acquiring t
  else if moved then sourceLost t else t

theorem reconfigured_eq (moved : Bool) (w : BitVec 256) (s : State) :
    (if moved then timeMod (fun t => { t with ptp := {}, ppsLost := false, ppsSince := s.cyc, accepted := 0 }) (timeMod (fun t => { t with cfg := w }) s)
      else timeMod (fun t => { t with cfg := w }) s) = timeMod (reconfigured moved w s.cyc) s := by
  cases moved <;> rfl

/-- A new TIME_CFG w has another source, port or domain (R396, R415). -/
def timeMoved (w : BitVec 256) (s : State) : Bool := tSource s != fld w 1 0 || tPort s != fld w 15 12 || fld s.time.cfg 11 4 != fld w 11 4

/-- TIME.CONFIGURE: the new word, then the state that its source calls for (R396). -/
theorem vTimeConfigure_act (c : Cmd) (s : State) :
    vTimeConfigure.act c s = ok (sourceChosen (timeMoved (timeCfgOf c) s) (timeMod (reconfigured (timeMoved (timeCfgOf c) s) (timeCfgOf c) s.cyc) s)) := by
  rw [← reconfigured_eq]
  unfold vTimeConfigure timeMoved timeCfgOf sourceChosen
  dsimp only
  generalize setFld (setFld (argW c 0 256) 127 112 0) 239 235 0 = w
  rfl

theorem does_timeConfigure_none (h : Accepts vTimeConfigure c s) (h0 : fld (argW c 0 256) 1 0 = 0) : Does (.timeConfigure c) s fun t => t.time.state = .free ∧
    t.time.counter = s.time.counter ∧ fld t.time.cfg 1 0 = 0 ∧ ({ t with time := s.time } : State).hush = s.hush := by
  refine does_of_act h rfl rfl fun k j t ht => ?_
  have hact := vTimeConfigure_act c { s with kennel := k, junction := j }
  generalize timeMoved (timeCfgOf c) { s with kennel := k, junction := j } = moved at hact
  obtain ⟨hcfg, hstate, hcounter, -⟩ := reconfigured_keeps moved (timeCfgOf c) s.cyc s.time
  have hsrc : tSource (timeMod (reconfigured moved (timeCfgOf c) s.cyc) { s with kennel := k, junction := j }) = 0 := by
    show fld (reconfigured moved (timeCfgOf c) s.cyc s.time).cfg 1 0 = 0
    rw [hcfg, timeCfgOf_source, h0]
  obtain ⟨x, hx, hfree, hsame, hword⟩ : ∃ x, t.hush = ({ s with time := x } : State).hush ∧ x.state = .free ∧ x.counter = s.time.counter ∧ x.cfg = timeCfgOf c := by
    rw [ht, hact, sourceChosen, if_pos hsrc]
    by_cases hfree : s.time.state = .free
    · refine ⟨reconfigured moved (timeCfgOf c) s.cyc s.time, ?_, hstate.trans hfree, hcounter, hcfg⟩
      rw [if_pos (by simp [hstate, hfree])]
      rfl
    · refine ⟨wentTo .free s.cyc (reconfigured moved (timeCfgOf c) s.cyc s.time), ?_, rfl, hcounter, hcfg⟩
      rw [if_neg (by simp [hstate, hfree])]
      exact timeGo_hush ..
  rw [time_of_hush hx]
  exact ⟨hfree, hsame, by rw [hword, timeCfgOf_source, h0], hush_update hx (fun x => { x with time := s.time }) fun _ => rfl⟩

theorem does_timeConfigure_first (h : Accepts vTimeConfigure c s) (h0 : fld (argW c 0 256) 1 0 ≠ 0) (hfree : s.time.state = .free) :
    Does (.timeConfigure c) s fun t => t.time.state = .acquiring ∧ t.time.counter = s.time.counter ∧ t.time.increment = s.time.increment ∧
      ({ t with time := s.time } : State).hush = s.hush := by
  refine does_of_act h rfl rfl fun k j t ht => ?_
  have hact := vTimeConfigure_act c { s with kennel := k, junction := j }
  generalize timeMoved (timeCfgOf c) { s with kennel := k, junction := j } = moved at hact
  obtain ⟨hcfg, hstate, hcounter, hinc⟩ := reconfigured_keeps moved (timeCfgOf c) s.cyc s.time
  have hsrc : tSource (timeMod (reconfigured moved (timeCfgOf c) s.cyc) { s with kennel := k, junction := j }) ≠ 0 := by
    show fld (reconfigured moved (timeCfgOf c) s.cyc s.time).cfg 1 0 ≠ 0
    rwa [hcfg, timeCfgOf_source]
  have hx : t.hush = ({ s with time := wentTo .acquiring s.cyc (reconfigured moved (timeCfgOf c) s.cyc s.time) } : State).hush := by
    rw [ht, hact, sourceChosen, if_neg hsrc, if_pos (by simp [hstate, hfree])]
    exact timeGo_hush ..
  rw [time_of_hush hx]
  exact ⟨rfl, hcounter, (wentTo_increment _ _ (by decide)).trans hinc, hush_update hx (fun x => { x with time := s.time }) fun _ => rfl⟩

/-! ### TIME.SET that waits for an edge (R417) -/

theorem timeSetTimeout_due {p : Cmd × Time × Nat} (hone : s.time.setPending = [p]) (h : p.2.2 + 150000000 ≤ s.cyc) :
    timeSetTimeout s = complete p.1 0x1402 TIMEOUT [] { s with time := { s.time with setPending := [] } } := by
  have hlate : ¬ since s p.2.2 < 1500 * msC := by
    have : 1500 * msC = 150000000 := rfl
    unfold since
    omega
  unfold timeSetTimeout
  simp only [timeMod, hone, List.filter_cons, List.filter_nil, decide_eq_true_eq, if_pos (Nat.not_lt.mp hlate), if_neg hlate, List.foldl_cons, List.foldl_nil]

theorem timeSetTimeout_early {p : Cmd × Time × Nat} (hone : s.time.setPending = [p]) (h : s.cyc < p.2.2 + 150000000) : timeSetTimeout s = s := by
  have hearly : since s p.2.2 < 1500 * msC := by
    have : 1500 * msC = 150000000 := rfl
    unfold since
    omega
  unfold timeSetTimeout
  simp only [timeMod, hone, List.filter_cons, List.filter_nil, decide_eq_true_eq, if_neg (Nat.not_le.mpr hearly), if_pos hearly, List.foldl_nil]
  rw [← hone]

end

/-- Settles O50: the verbs by what their acts leave of the counter, a measurement by the state that it meets. -/
theorem timeVerbs : Obligations.TimeVerbs := by
  unfold Obligations.TimeVerbs
  intro c s
  refine ⟨does_timeSet, fun h h1 => waits_of h rfl (if_neg (by omega)), fun h => answers_of h rfl rfl, does_timeConfigure_none,
    fun h h0 hfree _ => does_timeConfigure_first h h0 hfree, fun p hone h => congrArg (settle s) (timeSetTimeout_due hone h),
    fun p hone h => exec_quiet (t := timeSetTimeout s) rfl (timeSetTimeout_early hone h) rfl, fun off => measure_idle, fun off => measure_locked,
    fun off => locks_near, fun off => steps_far, fun off => measure_increment off s⟩

end Sys2Proof.Machine
end

section
/-! The sources of the time counter (R396, R399 to R404), and O51. -/
namespace Sys2Proof.Machine
open Sys2Proof

section
variable {i : Instr} {s t : State} {y : TimeSt} {P : State → Prop}

/-- A row that State.hush shows to touch the time counter alone. -/
theorem does_time (hi : exec i s = settle s t) (ht : t.hush = ({ s with time := y } : State).hush)
    (hp : ∀ u : State, u.time = y → ({ u with time := s.time } : State).hush = s.hush → P u) : Does i s P :=
  does_row hi fun u hu => hp u (time_of_hush (hu.trans ht)) (hush_update (hu.trans ht) (fun x => { x with time := s.time }) fun _ => rfl)

end

section
variable {s : State}

/-! ### The loss of a source (R396) -/

/-- The counter when its source is lost (R396). -/
def lostFrom (cyc : Nat) (t : TimeSt) : TimeSt := if t.state = .locked then wentTo .holdover cyc t else t

theorem sourceLost_hush (s : State) : (sourceLost s).hush = (timeMod (lostFrom s.cyc) s).hush := by
  unfold sourceLost lostFrom
  by_cases h : s.time.state = .locked
  · rw [if_pos (by simp [h])]
    refine (timeGo_hush ..).trans ?_
    simp only [timeMod, if_pos h]
  · rw [if_neg (by simp [h])]
    simp only [timeMod, if_neg h]

theorem lostFrom_counter (cyc : Nat) (t : TimeSt) : (lostFrom cyc t).counter = t.counter := by
  unfold lostFrom
  split <;> rfl

theorem lostFrom_ptp (cyc : Nat) (t : TimeSt) : (lostFrom cyc t).ptp = t.ptp := by
  unfold lostFrom
  split <;> rfl

theorem lostFrom_state (cyc : Nat) (t : TimeSt) : (lostFrom cyc t).state = if t.state = .locked then .holdover else t.state := by
  unfold lostFrom
  split <;> rfl

/-- A PTP that has lost its master (R400). -/
def withoutMaster (p : PtpSt) : PtpSt :=
  { p with lost := true, selected := none, waiting := none, sync := none, delayReq := none, masters := p.masters.filter fun m => some (m.identity, m.port) != p.selected }

theorem ptpLose_hush (s : State) : (ptpLose s).hush = (timeMod (fun t => lostFrom s.cyc { t with ptp := withoutMaster t.ptp }) s).hush := by
  have hlost : ∀ u : State, u.hush = (ptpMod withoutMaster s).hush → (sourceLost u).hush = (timeMod (fun t => lostFrom s.cyc { t with ptp := withoutMaster t.ptp }) s).hush := fun u hu => by
    rw [sourceLost_hush, cyc_of_hush hu]
    exact hush_update hu (timeMod (lostFrom s.cyc)) fun _ => rfl
  unfold ptpLose
  cases h : s.time.ptp.selected with
  | none => exact hlost _ (by simp only [withoutMaster, ptpMod, timeMod, h])
  | some b => exact hlost _ ((raise_hush ..).trans (by simp only [withoutMaster, ptpMod, timeMod, h]))

/-! ### PTP (R400, R401) -/

theorem ptpTake_off (h : ptpOn s = false) (m : PtpMsg) : ptpTake m s = s := by
  simp [ptpTake, h]

/-- PTP with its first master selected (R401). -/
def firstMaster (m : PtpMaster) (p : PtpSt) : PtpSt :=
  { p with masters := [m], selected := some (m.identity, m.port), waiting := none, sync := none, delayReq := none, announceAt := m.heard, syncAt := m.heard, lost := true }

/-- The first Announce of a domain selects its sender (R401). -/
theorem ptpAnnounce_first {id : BitVec 64} {port : Nat} (rank : List Nat) (utc la : Int) (hnone : s.time.ptp.masters = []) (hsel : s.time.ptp.selected = none) :
    (ptpAnnounce id port rank utc la s).hush = (ptpMod (firstMaster ⟨id, port, rank, utc, la, s.cyc⟩) s).hush := by
  unfold ptpAnnounce
  have hnew : ((some (id, port) : Option (BitVec 64 × Nat)) == none) = false := rfl
  simp only [ptpMod, timeMod, hnone, hsel, List.filter_nil, bestMaster, Option.map_some, hnew, Bool.false_eq_true, if_false, raise_time, beq_self_eq_true, if_true]
  exact hush_update (raise_hush ..) (fun u => { u with time := { s.time with ptp := { firstMaster ⟨id, port, rank, utc, la, s.cyc⟩ s.time.ptp with announceAt := u.cyc } } })
    fun _ => rfl

theorem does_firstAnnounce {id : BitVec 64} {port : Nat} {rank : List Nat} {utc la : Int} (hon : ptpOn s = true) (hnone : s.time.ptp.masters = [])
    (hsel : s.time.ptp.selected = none) : Does (.ptpMessage (.announce (fld s.time.cfg 11 4) id port rank utc la)) s fun t =>
      t.time.ptp.selected = some (id, port) ∧ (∃ m, t.time.ptp.masters = [m] ∧ m.identity = id ∧ m.port = port ∧ m.rank = rank) ∧
      t.time.counter = s.time.counter ∧ t.time.state = s.time.state ∧ ({ t with time := s.time } : State).hush = s.hush := by
  refine does_time (y := { s.time with ptp := firstMaster ⟨id, port, rank, utc, la, s.cyc⟩ s.time.ptp })
    (t := ptpTake (.announce (fld s.time.cfg 11 4) id port rank utc la) s) rfl ?_ fun u hu hrest => ?_
  · simp only [ptpTake, hon, Bool.not_true, Bool.false_eq_true, if_false, if_true]
    exact ptpAnnounce_first rank utc la hnone hsel
  · rw [hu]
    exact ⟨rfl, ⟨_, rfl, rfl, rfl, rfl⟩, rfl, rfl, hrest⟩

/-- What PTP and the last path delay hold. -/
def TimeSt.heard (t : TimeSt) : PtpSt × Int := (t.ptp, t.pathDelay)

theorem servo_heard (off : Int) (s : State) : (servo off s).time.heard = s.time.heard := rfl

theorem timeGo_heard (new : TimeState) (s : State) : (timeGo new s).time.heard = s.time.heard := by
  rw [timeGo_time]
  rfl

theorem lockIf_heard (q : Bool) (t : State) : (if q then timeGo .locked t else t).time.heard = t.time.heard := by
  cases q
  · rfl
  · exact timeGo_heard ..

theorem acquireCounted_heard (off : Int) (n : Nat) (s : State) : (acquireCounted off n s).time.heard = s.time.heard := by
  unfold acquireCounted
  dsimp only
  rw [lockIf_heard]
  split
  · rw [timeStep_time]
    rfl
  · rfl

/-- A measurement leaves what PTP heard (R397). -/
theorem measure_heard (off : Int) (s : State) : (measure off s).time.heard = s.time.heard := by
  cases h : s.time.state with
  | free => rw [measure_idle (.inl h)]
  | holdover => rw [measure_idle (.inr h)]
  | locked =>
    rcases Nat.lt_or_ge (8 * tLockPs s) (off - servoPredict s).natAbs with hfar | hnear
    · obtain ⟨t, ht, hout⟩ := outlier_time off s
      rw [measure_far h hfar, hout, ht]
      split <;> rfl
    · rw [measure_near h hnear]
      rfl
  | acquiring =>
    rw [measure_acquiring h]
    exact acquireCounted_heard off (acceptedNow off s) (timeMod (fun t => { t with accepted := acceptedNow off s }) s)

theorem does_delayResp {d : Nat} {id : BitVec 64} {port q : Nat} {ld : Int} {t4 corr t1 t2 t3 : Int} (hon : ptpOn s = true) (hm : fromMaster s d id port = true)
    (hreq : s.time.ptp.delayReq = some (q, t3)) (hsync : s.time.ptp.sync = some (t1, t2)) :
    Does (.ptpMessage (.delayResp d id port q (clockIdentity s) ld t4 corr)) s fun t =>
      t.time.pathDelay = ((t2 - t1) + (t4 - corr - t3)) * 1000 / 131072 ∧ t.time.ptp.delayReq = none := by
  have hrow : (ptpTake (.delayResp d id port q (clockIdentity s) ld t4 corr) s).time.heard =
      ({ s.time.ptp with delayReq := none, logDelay := ld }, ((t2 - t1) + (t4 - corr - t3)) * 1000 / 131072) := by
    simp only [ptpTake, hon, hm, hreq, Bool.not_true, Bool.false_eq_true, if_false, beq_self_eq_true, Bool.and_self, if_true]
    simp only [ptpExchange, ptpMod, timeMod, hsync]
    exact measure_heard ..
  refine does_row (t := ptpTake (.delayResp d id port q (clockIdentity s) ld t4 corr) s) rfl fun u hu => ?_
  have hheard := (congrArg TimeSt.heard (time_of_hush hu)).trans hrow
  exact ⟨congrArg Prod.snd hheard, congrArg (fun x : PtpSt × Int => x.1.delayReq) hheard⟩

theorem ptpTake_followUp {d : Nat} {id : BitVec 64} {port q : Nat} {t1 corr t2 : Int} (hon : ptpOn s = true) (hm : fromMaster s d id port = true)
    (hwait : s.time.ptp.waiting = some (q, t2)) : ptpTake (.followUp d id port q t1 corr) s =
      { s with time := { s.time with ptp := { s.time.ptp with waiting := none, sync := some (t1 + corr, t2) } } } := by
  simp only [ptpTake, hon, hm, hwait, Bool.not_true, Bool.false_eq_true, if_false, if_true, ptpMod, timeMod]

theorem delayReqSend_idle (h : s.time.ptp.selected = none ∨ ptpOn s = false) (t3 : Int) : delayReqSend t3 s = s := by
  rcases h with h | h <;> simp [delayReqSend, h]

theorem tPort_lt (s : State) : tPort s < 16 := Nat.mod_lt _ (by decide)

/-- A Delay_Req goes out at the interval that the master asks for (R401). -/
theorem does_delayReqSend {t3 : Int} (hon : ptpOn s = true) (hsel : s.time.ptp.selected ≠ none) (hsync : s.time.ptp.sync ≠ none)
    (hdue : logSecs s.time.ptp.logDelay ≤ s.cyc - s.time.ptp.delayAt) : Does (.ptpDelayReqSend t3) s fun t =>
      t.time.ptp.delayReq = some (s.time.ptp.delaySeq, t3) ∧ t.time.ptp.delaySeq = (s.time.ptp.delaySeq + 1) % 2 ^ 16 ∧
      (vget t.eth (tPort s)).sent = ((vget s.eth (tPort s)).sent + 1) % 2 ^ 64 ∧ ({ t with time := s.time, eth := s.eth } : State) = s := by
  have hready : ¬ (!ptpOn s || s.time.ptp.selected.isNone || s.time.ptp.sync.isNone || decide (since s s.time.ptp.delayAt < logSecs s.time.ptp.logDelay)) = true := by
    have hlate : ¬ since s s.time.ptp.delayAt < logSecs s.time.ptp.logDelay := Nat.not_lt.mpr hdue
    simp [hon, hsel, hsync, hlate]
  have hrow : delayReqSend t3 s = ethSend (tPort s) 3 (ptpFrame s (delayReqBytes s)) (ptpMod (fun p => { p with
    delayReq := some (p.delaySeq, t3), delaySeq := wrapAdd 16 p.delaySeq 1, delayAt := s.cyc }) s) := if_neg hready
  refine ⟨_, exec_quiet (t := delayReqSend t3 s) rfl hrow rfl, rfl, rfl, ?_, rfl⟩
  exact congrArg EthSt.sent (vget_vmod_same s.eth _ (tPort_lt s))

theorem ptpTimeout_none (h : s.time.ptp.selected = none) : ptpTimeout s = s := by
  simp only [ptpTimeout, selMaster, h, Option.bind_none]

/-- Three Announce intervals of silence lose the master (R400). -/
theorem does_ptpTimeout {m : PtpMaster} (hm : selMaster s = some m) (hsrc : tSource s = 1) (hsilent : 3 * logSecs m.logAnnounce ≤ s.cyc - s.time.ptp.announceAt) :
    Does .ptpSourceTimeout s fun t => t.time.ptp.selected = none ∧ t.time.ptp.lost = true ∧
      t.time.state = (if s.time.state = .locked then .holdover else s.time.state) ∧ t.time.counter = s.time.counter ∧ ({ t with time := s.time } : State).hush = s.hush := by
  have hrow : (ptpTimeout s).hush = ({ s with time := lostFrom s.cyc { s.time with ptp := withoutMaster s.time.ptp } } : State).hush := by
    have hlost : ∀ u : State, u.hush = s.hush → (ptpLose u).hush = ({ s with time := lostFrom s.cyc { s.time with ptp := withoutMaster s.time.ptp } } : State).hush := fun u hu => by
      rw [ptpLose_hush, cyc_of_hush hu]
      exact hush_update hu (timeMod fun t => lostFrom s.cyc { t with ptp := withoutMaster t.ptp }) fun _ => rfl
    have ha : decide (3 * logSecs m.logAnnounce ≤ since s s.time.ptp.announceAt) = true := decide_eq_true hsilent
    unfold ptpTimeout
    simp only [hm, hsrc, ha, beq_self_eq_true, Bool.true_or, Bool.not_true, Bool.false_eq_true, if_false, if_true]
    exact hlost _ ((hush_ite (raise_hush ..)).trans (raise_hush ..))
  refine does_time (t := ptpTimeout s) rfl hrow fun u hu hrest => ?_
  rw [hu]
  exact ⟨congrArg PtpSt.selected (lostFrom_ptp ..), congrArg PtpSt.lost (lostFrom_ptp ..), lostFrom_state .., lostFrom_counter .., hrest⟩

theorem l1Change_other (h : tSource s ≠ 2) (up : Bool) : l1Change up s = s := by
  simp [l1Change, h]

/-- L1_SYNC DOWN in LOCKED loses the source (R402). -/
theorem does_l1Down (hsrc : tSource s = 2) (hup : s.time.ptp.l1Up = true) (hlock : s.time.state = .locked) : Does (.l1SyncChange false) s fun t =>
    t.time.ptp.l1Up = false ∧ t.time.state = .holdover ∧ t.time.counter = s.time.counter ∧ ({ t with time := s.time } : State).hush = s.hush := by
  have hrow : (l1Change false s).hush = ({ s with time := lostFrom s.cyc { s.time with ptp := { s.time.ptp with l1Up := false } } } : State).hush := by
    have hlost : ∀ u : State, u.hush = (ptpMod (fun p => { p with l1Up := false }) s).hush →
        (sourceLost u).hush = ({ s with time := lostFrom s.cyc { s.time with ptp := { s.time.ptp with l1Up := false } } } : State).hush := fun u hu => by
      rw [sourceLost_hush, cyc_of_hush hu]
      exact hush_update hu (timeMod (lostFrom s.cyc)) fun _ => rfl
    unfold l1Change
    simp only [hsrc, hup, bne_self_eq_false, Bool.false_or, show (true == false) = false from rfl, Bool.false_eq_true, if_false]
    exact hlost _ (raise_hush ..)
  refine does_time (t := l1Change false s) rfl hrow fun u hu hrest => ?_
  rw [hu]
  exact ⟨congrArg PtpSt.l1Up (lostFrom_ptp ..), (lostFrom_state ..).trans (if_pos hlock), lostFrom_counter .., hrest⟩

/-! ### PPS_IN (R403) -/

theorem ppsTake_early {c : Nat} (hlast : s.time.ppsLast = some c) (hearly : s.cyc - c < 99000000) (e : Int) :
    ppsTake e s = { s with time := { s.time with ppsIgnored := (s.time.ppsIgnored + 1) % 2 ^ 32 } } := by
  have hany : (s.time.ppsLast.any fun c => decide (since s c < 990 * msC)) = true := by
    rw [hlast]
    exact decide_eq_true hearly
  exact if_pos hany

theorem ppsTake_first (hfirst : s.time.ppsLast = none) (hidle : s.time.setPending = []) (hsrc : tSource s ≠ 3) (e : Int) :
    ppsTake e s = { s with time := { s.time with ppsLast := some s.cyc, ppsSince := s.cyc } } := by
  unfold ppsTake
  simp only [hfirst, Option.any_none, Bool.false_eq_true, if_false, timeMod, hidle]
  exact if_pos (bne_iff_ne.mpr hsrc)

theorem ppsEdge_missed {coarse fine : Nat} {u : State} (h : crossing 8 false coarse fine s = (none, u)) : ppsEdge coarse fine s = u := by
  unfold ppsEdge
  rw [h]

theorem ppsEdge_taken {coarse fine : Nat} {e : Edge} {u : State} (h : crossing 8 false coarse fine s = (some e, u)) :
    ppsEdge coarse fine s = ppsTake (edgeTime u e) u := by
  unfold ppsEdge
  rw [h]

theorem ppsMissing_other (h : tSource s ≠ 3 ∨ s.time.ppsLost = true) : ppsMissing s = s := by
  rcases h with h | h <;> simp [ppsMissing, h]

/-- 1.5 s without an edge lose the source, and hold over at the mean of the last 60 s in LOCKED (R399, R403). -/
theorem does_ppsMissing (hsrc : tSource s = 3) (hheard : s.time.ppsLost = false) (hlock : s.time.state = .locked) (hlate : s.time.ppsSince + 150000000 ≤ s.cyc) :
    Does .ppsInMissing s fun t => t.time.ppsLost = true ∧ t.time.state = .holdover ∧ t.time.counter = s.time.counter ∧
      t.time.increment = meanInc (keepMinute 6000000000 ((s.time.increment, s.cyc - s.time.lockedSince) :: s.time.lockedInc)) s.time.increment ∧
      ({ t with time := s.time } : State).hush = s.hush := by
  have hrow : (ppsMissing s).hush = ({ s with time := lostFrom s.cyc { s.time with ppsLost := true } } : State).hush := by
    have hnot : ¬ since s s.time.ppsSince < 1500 * msC := by
      have : 1500 * msC = 150000000 := rfl
      unfold since
      omega
    have hlost : ∀ u : State, u.hush = (timeMod (fun x => { x with ppsLost := true }) s).hush →
        (sourceLost u).hush = ({ s with time := lostFrom s.cyc { s.time with ppsLost := true } } : State).hush := fun u hu => by
      rw [sourceLost_hush, cyc_of_hush hu]
      exact hush_update hu (timeMod (lostFrom s.cyc)) fun _ => rfl
    unfold ppsMissing
    rw [if_neg (by simp [hsrc, hheard, hnot])]
    exact hlost _ (raise_hush ..)
  refine does_time (t := ppsMissing s) rfl hrow fun u hu hrest => ?_
  have hgone : lostFrom s.cyc { s.time with ppsLost := true } = wentTo .holdover s.cyc { s.time with ppsLost := true } := if_pos hlock
  rw [hu, hgone]
  refine ⟨rfl, rfl, rfl, ?_, hrest⟩
  simp only [wentTo, incSet, hlock, beq_self_eq_true, if_true]
  rfl

/-! ### PPS_OUT (R404) -/

theorem ppsPulse_falls {c : Nat} (hup : s.time.ppsOut = some c) (hfull : fld s.time.cfg 232 224 * 100000 ≤ s.cyc - c) :
    ppsPulse s = { s with time := { s.time with ppsOut := none } } := by
  simp only [ppsPulse, hup]
  exact if_pos hfull

theorem ppsPulse_stays {c : Nat} (hup : s.time.ppsOut = some c) (hshort : s.cyc - c < fld s.time.cfg 232 224 * 100000) : ppsPulse s = s := by
  simp only [ppsPulse, hup]
  exact if_neg (Nat.not_le.mpr hshort)

/-- The second that an undelayed PPS_OUT is in (R404). -/
theorem ppsPulse_low (hlow : s.time.ppsOut = none) (hdelay : fld s.time.cfg 223 192 = 0) : ppsPulse s =
    if s.time.ppsSecond.any fun l => decide (now s / 65536000000000 ≤ l) then s
    else timeMod (fun x => { x with ppsSecond := some (now s / 65536000000000)
                                    ppsOut := if fld s.time.cfg 234 233 == 1 || (fld s.time.cfg 234 233 == 2 && (s.time.state == .locked || s.time.state == .holdover)) then some s.cyc else none }) s := by
  have hsec : (((now s : Int) - ofPs (sgn 32 0)) / (secT : Int)).toNat = now s / 65536000000000 := by
    have h0 : ofPs (sgn 32 0) = 0 := by decide
    have hs : (secT : Int) = 65536000000000 := by decide
    rw [h0, hs]
    omega
  have hpos : ¬ (now s : Int) - ofPs (sgn 32 0) < 0 := by
    have h0 : ofPs (sgn 32 0) = 0 := by decide
    omega
  simp only [ppsPulse, hlow, hdelay, if_neg hpos, hsec]

theorem does_ppsRise (hlow : s.time.ppsOut = none) (hfirst : s.time.ppsSecond = none) (hdelay : fld s.time.cfg 223 192 = 0) : Does .ppsOutPulse s fun t =>
    t.time.ppsSecond = some (now s / 65536000000000) ∧
      (t.time.ppsOut = if fld s.time.cfg 234 233 = 1 ∨ (fld s.time.cfg 234 233 = 2 ∧ (s.time.state = .locked ∨ s.time.state = .holdover)) then some s.cyc else none) ∧
      ({ t with time := s.time } : State) = s := by
  have hrow := ppsPulse_low hlow hdelay
  rw [hfirst, Option.any_none, if_neg (by decide)] at hrow
  refine ⟨_, exec_quiet (t := ppsPulse s) rfl hrow rfl, rfl, ?_, rfl⟩
  simp [timeMod]

/-! ### Hold-over (R396) -/

theorem holdoverExpired_off (h : s.time.state ≠ .holdover ∨ fld s.time.cfg 159 128 = 0) : holdoverExpired s = s := by
  rcases h with h | h <;> simp [holdoverExpired, h]

theorem does_holdoverExpired (hhold : s.time.state = .holdover) (hlim : 0 < fld s.time.cfg 159 128)
    (hlong : s.time.holdSince + fld s.time.cfg 159 128 * 100000000 ≤ s.cyc) : Does .holdoverExpired s fun t => t.time.state = .free ∧
      t.time.counter = s.time.counter ∧ t.time.increment = s.time.increment ∧ ({ t with time := s.time } : State).hush = s.hush := by
  refine does_time (t := holdoverExpired s) rfl (y := wentTo .free s.cyc s.time) ?_ fun u hu hrest => ?_
  · have hnot : ¬ since s s.time.holdSince < fld s.time.cfg 159 128 * secC := by
      have : secC = 100000000 := rfl
      unfold since
      rw [this]
      omega
    unfold holdoverExpired
    rw [if_neg (by simp [hhold, hnot, Nat.pos_iff_ne_zero.mp hlim])]
    exact (raise_hush ..).trans (timeGo_hush ..)
  · rw [hu]
    exact ⟨rfl, rfl, wentTo_increment _ _ (by decide), hrest⟩

end

/-- Settles O51, source by source: PTP, the layer-1 link, PPS_IN, PPS_OUT, hold-over. -/
theorem timeSources : Obligations.TimeSources := by
  unfold Obligations.TimeSources
  intro s
  have hsame : ∀ {i : Instr} {t : State}, exec i s = settle s t → t = s → exec i s = .next s := fun hi ht => exec_quiet hi ht rfl
  refine ⟨fun m h => hsame rfl (ptpTake_off h m), fun h => hsame rfl (by simp [ptpTake]), fun d id port rank utc la hon hd => hsame rfl (by simp [ptpTake, hd]),
    fun d id port rank utc la hon hd hnone hsel => hd ▸ does_firstAnnounce hon hnone hsel, fun d id port q logS t1 t2 corr hon h => hsame rfl (by simp [ptpTake, h]),
    fun d id port q t1 corr t2 hon hm hw => exec_quiet rfl (ptpTake_followUp hon hm hw) rfl, fun d id port q ld t4 corr t1 t2 t3 => does_delayResp,
    fun t3 h => hsame rfl (delayReqSend_idle h t3), fun t3 => does_delayReqSend, fun h => hsame rfl (ptpTimeout_none h), fun m => does_ptpTimeout,
    fun up h => hsame rfl (l1Change_other h up), does_l1Down, fun e c h1 h2 => ppsTake_early h1 h2 e, fun e h1 h2 h3 => ppsTake_first h1 h2 h3 e,
    fun coarse fine u h => congrArg (settle s) (ppsEdge_missed h), fun coarse fine e u h => congrArg (settle s) (ppsEdge_taken h),
    fun h => hsame rfl (ppsMissing_other h), does_ppsMissing, fun c h1 h2 => exec_quiet rfl (ppsPulse_falls h1 h2) rfl, fun c h1 h2 => hsame rfl (ppsPulse_stays h1 h2),
    fun n hlow hn hdelay hle => hsame rfl ?_, does_ppsRise, fun h => hsame rfl (holdoverExpired_off (.inl h)), fun h => hsame rfl (holdoverExpired_off (.inr h)),
    does_holdoverExpired⟩
  rw [ppsPulse_low hlow hdelay, hn]
  exact if_pos (decide_eq_true hle)

end Sys2Proof.Machine
end

section
/-! Ethernet ports and VITA streams (R407 to R417), and O52. -/
namespace Sys2Proof.Machine
open Sys2Proof

theorem eth_of_hush {s t : State} (h : s.hush = t.hush) : s.eth = t.eth := by injection h

section
variable {i : Instr} {s t : State} {y : Vector EthSt 16} {P : State → Prop}

/-- A row that State.hush shows to touch the ports alone. -/
theorem does_eth (hi : exec i s = settle s t) (ht : t.hush = ({ s with eth := y } : State).hush)
    (hp : ∀ u : State, u.eth = y → ({ u with eth := s.eth } : State).hush = s.hush → P u) : Does i s P :=
  does_row hi fun u hu => hp u (eth_of_hush (hu.trans ht)) (hush_update (hu.trans ht) (fun x => { x with eth := s.eth }) fun _ => rfl)

end

/-! ### Bytes in network order (R409) -/

theorem length_le_eq (n v : Nat) : (le n v).length = n := by
  induction n generalizing v with
  | zero => rfl
  | succ n ih => exact congrArg (· + 1) (ih _)

@[simp] theorem length_be (n v : Nat) : (be n v).length = n := by
  rw [be, List.length_reverse, length_le_eq]

theorem leNat_lt (b : Bytes) : leNat b < 256 ^ b.length := by
  induction b with
  | nil => exact Nat.one_pos
  | cons x b ih =>
    have hx := x.isLt
    rw [leNat, List.length_cons, Nat.pow_succ]
    omega

@[simp] theorem length_bytesAt (b : Bytes) (off n : Nat) : (bytesAt b off n).length = n := by
  simp [bytesAt]

theorem beAt_lt (b : Bytes) (off n : Nat) : beAt b off n < 256 ^ n := by
  have h := leNat_lt (bytesAt b off n).reverse
  rwa [List.length_reverse, length_bytesAt] at h

/-- A number written in network order reads back. -/
theorem beAt_be {a r : Bytes} {off n v : Nat} (ho : a.length = off) (hv : v < 256 ^ n) : beAt (a ++ (be n v ++ r)) off n = v := by
  have hbytes : bytesAt (a ++ (be n v ++ r)) off n = be n v := by
    rw [bytesAt, ← ho, List.drop_left, List.take_append_of_le_length (by simp), List.take_of_length_le (by simp), List.take_append_of_le_length (by simp),
      List.take_of_length_le (by simp)]
  rw [beAt, hbytes, be, List.reverse_reverse, leNat_le, Nat.mod_eq_of_lt hv]

/-! ### Links (R400, R416) -/

section
variable {s : State} {p : Nat}

/-- A port's link that goes down may cost the time counter its source, and touches nothing else (R400, R416). -/
theorem ptpPortDown_frame (p : Nat) (s : State) : ∃ y, (ptpPortDown p s).hush = ({ s with time := y } : State).hush ∧ (tSource s ≠ 1 → tSource s ≠ 2 → y = s.time) := by
  unfold ptpPortDown
  split
  · next h =>
    exact ⟨_, ptpLose_hush _, fun h1 h2 => by simp [h1, h2] at h⟩
  · exact ⟨s.time, rfl, fun _ _ => rfl⟩

theorem vmod_of_fixed {α : Type} [Inhabited α] {n i : Nat} {v : Vector α n} {f : α → α} (h : f (vget v i) = vget v i) : vmod v i f = v :=
  (vmod_congr_at (g := fun x => x) h).trans (vmod_id v i)

theorem ethDrop_down (h : (vget s.eth p).up = false) : ethDrop p s = s := by
  simp [ethDrop, h]

/-- The event of a link that drops (R416). -/
def linkDropped (p : Nat) (s : State) : State :=
  raise 0x4A 2 (0x0E00 + p) (le 1 (eRate (vget s.eth p).cfg) ++ le 1 (eFec (vget s.eth p).cfg)) (ethMod p (fun x => { x with up := false }) s)

theorem ethDrop_up (h : (vget s.eth p).up = true) : ethDrop p s = ptpPortDown p (linkDropped p s) := if_pos h

theorem linkDropped_hush (p : Nat) (s : State) : (linkDropped p s).hush = (ethMod p (fun x => { x with up := false }) s).hush := raise_hush ..

theorem ethDrop_frame (p : Nat) (s : State) : ∃ y, (ethDrop p s).hush = ({ s with eth := vmod s.eth p fun x => { x with up := false }, time := y } : State).hush ∧
    (tSource s ≠ 1 → tSource s ≠ 2 → y = s.time) := by
  cases hup : (vget s.eth p).up with
  | false =>
    refine ⟨s.time, ?_, fun _ _ => rfl⟩
    rw [ethDrop_down hup, vmod_of_fixed (by rw [← hup])]
  | true =>
    obtain ⟨y, hy, hkeep⟩ := ptpPortDown_frame p (linkDropped p s)
    have htime : (linkDropped p s).time = s.time := (time_of_hush (linkDropped_hush p s)).trans rfl
    have hsrc : tSource (linkDropped p s) = tSource s := congrArg (fun t : TimeSt => fld t.cfg 1 0) htime
    refine ⟨y, ?_, fun h1 h2 => (hkeep (hsrc ▸ h1) (hsrc ▸ h2)).trans htime⟩
    rw [ethDrop_up hup, hy]
    exact hush_update (linkDropped_hush p s) (fun x => { x with time := y }) fun _ => rfl

theorem ethLink_idle {up : Bool} (h : s.boot.mainOn = false ∨ bitAt (vget s.eth p).cfg 0 = false ∨ (vget s.eth p).up = up) : ethLink p up s = s := by
  rcases h with h | h | h <;> simp [ethLink, eOn, h]

/-- A link that comes up answers the commands that wait (R417). -/
theorem does_ethLink_up (hp : p < 16) (hon : s.boot.mainOn = true) (hen : bitAt (vget s.eth p).cfg 0 = true) (hdown : (vget s.eth p).up = false) :
    Does (.ethLinkChange ⟨p, hp⟩ true) s fun t => (vget t.eth p).up = true ∧ (vget t.eth p).wait = [] ∧ (vget t.eth p).cfg = (vget s.eth p).cfg ∧
      (∀ k, k ≠ p → vget t.eth k = vget s.eth k) ∧ ({ t with eth := s.eth } : State).hush = s.hush := by
  refine does_eth (t := ethLink p true s) rfl (y := vmod s.eth p fun x => { x with up := true, wait := [] }) ?_ fun u hu hrest => ?_
  · unfold ethLink
    simp only [hon, eOn, hen, hdown, Bool.not_true, Bool.false_or, show (false == true) = false from rfl, Bool.false_eq_true, if_false, if_true]
    rw [foldl_keeps State.hush _ (fun _ _ => complete_hush ..), raise_hush]
    rfl
  · have hport : vget u.eth p = { vget s.eth p with up := true, wait := [] } := by
      rw [hu, vget_vmod_same _ _ hp]
    rw [hport, hu]
    exact ⟨rfl, rfl, rfl, fun k hk => vget_vmod_ne _ _ hk, hrest⟩

theorem does_ethLink_down (hp : p < 16) (hon : s.boot.mainOn = true) (hen : bitAt (vget s.eth p).cfg 0 = true) (hup : (vget s.eth p).up = true) (h1 : tSource s ≠ 1)
    (h2 : tSource s ≠ 2) : Does (.ethLinkChange ⟨p, hp⟩ false) s fun t => (vget t.eth p).up = false ∧ (vget t.eth p).cfg = (vget s.eth p).cfg ∧
      ({ t with eth := s.eth } : State).hush = s.hush := by
  obtain ⟨y, hy, hkeep⟩ := ethDrop_frame p s
  rw [hkeep h1 h2] at hy
  refine does_eth (t := ethLink p false s) rfl (y := vmod s.eth p fun x => { x with up := false }) ?_ fun u hu hrest => ?_
  · unfold ethLink
    simp only [hon, eOn, hen, hup, Bool.not_true, Bool.false_or, show (true == false) = false from rfl, Bool.false_eq_true, if_false]
    exact hy
  · have hport : vget u.eth p = { vget s.eth p with up := false } := by
      rw [hu, vget_vmod_same _ _ hp]
    rw [hport]
    exact ⟨rfl, rfl, hrest⟩

/-! ### Received frames (R408) -/

/-- The frame as port p counts it. -/
def receivedAt (p : Nat) (s : State) : State := ethMod p (fun x => { x with received := wrapAdd 64 x.received 1 }) s

/-- A dropped frame is counted, and moves nothing else of its port but when it last said so (R408, R416). -/
theorem ethRxDrop_frame (hp : p < 16) (s : State) : ∃ y, (ethRxDrop p s).hush = ({ s with eth := y } : State).hush ∧ (∀ k, k ≠ p → vget y k = vget s.eth k) ∧
    ∃ ev, vget y p = { vget s.eth p with dropped := wrapAdd 32 (vget s.eth p).dropped 1, dropEv := ev } := by
  unfold ethRxDrop
  dsimp only
  split
  · exact ⟨_, rfl, fun k hk => vget_vmod_ne _ _ hk, _, vget_vmod_same _ _ hp⟩
  · refine ⟨_, raise_hush .., fun k hk => (vget_vmod_ne _ _ hk).trans (vget_vmod_ne _ _ hk), (some s.cyc, 0), ?_⟩
    simp only [ethMod, vmod_vmod, vget_vmod_same _ _ hp]

/-- An untagged frame on a port that is up goes by its length and its type (R408). -/
theorem ethReceive_untagged {f : Bytes} (hup : (vget s.eth p).up = true) (htag : beAt f 12 2 ≠ 0x8100) : ethReceive p f s =
    if eMtu (vget s.eth p).cfg < (f.drop 14).length || (0 : Nat) != eVlan (vget s.eth p).cfg then ethRxDrop p (receivedAt p s)
    else if beAt f 12 2 == 0x0806 then
      (if beAt (f.drop 14) 6 2 == 1 && eIp4 (vget s.eth p).cfg != 0 && beAt (f.drop 14) 24 4 == eIp4 (vget s.eth p).cfg then
        ethSend p 0 (ethFrame (receivedAt p s) p (beAt f 6 6) 0x0806 ([0, 1, 8, 0, 6, 4, 0, 2] ++ be 6 (ethMac (receivedAt p s) p) ++ be 4 (eIp4 (vget s.eth p).cfg) ++ bytesAt (f.drop 14) 8 10))
          (receivedAt p s)
       else ethRxDrop p (receivedAt p s))
    else if beAt f 12 2 == 0x0800 then ethIp4 p (beAt f 6 6) (f.drop 14) (receivedAt p s)
    else if beAt f 12 2 == 0x86DD then ethIp6 p (beAt f 6 6) (f.drop 14) (receivedAt p s)
    else if beAt f 12 2 == 0x88F7 && p == tPort (receivedAt p s) && fld (receivedAt p s).time.cfg 3 3 == 1 then receivedAt p s
    else ethRxDrop p (receivedAt p s) := by
  unfold ethReceive receivedAt
  simp only [hup, beq_false_of_ne htag, Bool.not_true, Bool.false_eq_true, if_false]

/-- The MTU of a port (R415). -/
theorem eMtu_cases (w : BitVec 256) : eMtu w = 9000 ∨ eMtu w = 1500 := by
  unfold eMtu
  split
  · exact .inl rfl
  · exact .inr rfl

theorem ethReceive_drops {f : Bytes} (hup : (vget s.eth p).up = true) (htag : beAt f 12 2 ≠ 0x8100)
    (hbad : fld (vget s.eth p).cfg 27 16 ≠ 0 ∨ 9014 < f.length ∨ (beAt f 12 2 ≠ 0x0806 ∧ beAt f 12 2 ≠ 0x0800 ∧ beAt f 12 2 ≠ 0x86DD ∧ beAt f 12 2 ≠ 0x88F7)) :
    ethReceive p f s = ethRxDrop p (receivedAt p s) := by
  rw [ethReceive_untagged hup htag]
  rcases hbad with h | h | ⟨h1, h2, h3, h4⟩
  · have hvlan : ((0 : Nat) != eVlan (vget s.eth p).cfg) = true := bne_iff_ne.mpr fun h0 => h h0.symm
    rw [hvlan, Bool.or_true, if_pos rfl]
  · have hlong : eMtu (vget s.eth p).cfg < (f.drop 14).length := by
      rw [List.length_drop]
      rcases eMtu_cases (vget s.eth p).cfg with h' | h' <;> omega
    rw [decide_eq_true hlong, Bool.true_or, if_pos rfl]
  · simp only [beq_false_of_ne h1, beq_false_of_ne h2, beq_false_of_ne h3, beq_false_of_ne h4, Bool.false_and, Bool.false_eq_true, if_false, ite_self]

theorem does_ethDrops {f : Bytes} (hp : p < 16) (hup : (vget s.eth p).up = true) (htag : beAt f 12 2 ≠ 0x8100)
    (hbad : fld (vget s.eth p).cfg 27 16 ≠ 0 ∨ 9014 < f.length ∨ (beAt f 12 2 ≠ 0x0806 ∧ beAt f 12 2 ≠ 0x0800 ∧ beAt f 12 2 ≠ 0x86DD ∧ beAt f 12 2 ≠ 0x88F7)) :
    Does (.ethFrameReceived ⟨p, hp⟩ f) s fun t => (vget t.eth p).received = ((vget s.eth p).received + 1) % 2 ^ 64 ∧ (vget t.eth p).dropped = ((vget s.eth p).dropped + 1) % 2 ^ 32 ∧
      (vget t.eth p).out = (vget s.eth p).out ∧ (vget t.eth p).sent = (vget s.eth p).sent ∧ (∀ k, k ≠ p → vget t.eth k = vget s.eth k) ∧ ({ t with eth := s.eth } : State).hush = s.hush := by
  obtain ⟨y, hy, hothers, ev, hport⟩ := ethRxDrop_frame hp (receivedAt p s)
  have hcount : vget (receivedAt p s).eth p = { vget s.eth p with received := wrapAdd 64 (vget s.eth p).received 1 } := vget_vmod_same _ _ hp
  refine does_eth (t := ethReceive p f s) rfl (y := y) ?_ fun u hu hrest => ?_
  · rw [ethReceive_drops hup htag hbad]
    exact hy
  · rw [hu, hport, hcount]
    exact ⟨rfl, rfl, rfl, rfl, fun k hk => (hothers k hk).trans (vget_vmod_ne _ _ hk), hrest⟩

/-- An ARP request for the port's address is answered to its sender (R408). -/
theorem ethReceive_arp {f : Bytes} (hup : (vget s.eth p).up = true) (hvlan : fld (vget s.eth p).cfg 27 16 = 0) (hlen : f.length ≤ 1514) (htype : beAt f 12 2 = 0x0806)
    (hreq : beAt (f.drop 14) 6 2 = 1) (hip : fld (vget s.eth p).cfg 111 80 ≠ 0) (hfor : beAt (f.drop 14) 24 4 = fld (vget s.eth p).cfg 111 80) :
    ethReceive p f s = ethSend p 0 (ethFrame (receivedAt p s) p (beAt f 6 6) 0x0806
      ([0, 1, 8, 0, 6, 4, 0, 2] ++ be 6 (ethMac (receivedAt p s) p) ++ be 4 (eIp4 (vget s.eth p).cfg) ++ bytesAt (f.drop 14) 8 10)) (receivedAt p s) := by
  have hshort : ¬ eMtu (vget s.eth p).cfg < (f.drop 14).length := by
    rw [List.length_drop]
    rcases eMtu_cases (vget s.eth p).cfg with h | h <;> omega
  have hmine : eIp4 (vget s.eth p).cfg ≠ 0 := hip
  rw [ethReceive_untagged hup (by rw [htype]; decide)]
  simp only [decide_eq_false hshort, eVlan, hvlan, bne_self_eq_false, Bool.or_self, Bool.false_eq_true, if_false, htype, beq_self_eq_true, if_true, hreq, hfor, Bool.true_and]
  exact if_pos (by simpa [eIp4] using hip)

/-- The bytes of an answer to an ARP request, in their places (R408). -/
def arpAnswer (dst mac ip : Nat) (target : Bytes) : Bytes :=
  be 6 dst ++ (be 6 mac ++ (be 2 0x0806 ++ ([0, 1, 8, 0, 6, 4] ++ (be 2 2 ++ (be 6 mac ++ (be 4 ip ++ target))))))

theorem arpAnswer_fields {dst mac ip : Nat} (target : Bytes) (hdst : dst < 256 ^ 6) (hmac : mac < 256 ^ 6) (hip : ip < 256 ^ 4) :
    beAt (arpAnswer dst mac ip target) 0 6 = dst ∧ beAt (arpAnswer dst mac ip target) 6 6 = mac ∧ beAt (arpAnswer dst mac ip target) 12 2 = 0x0806 ∧
    beAt (arpAnswer dst mac ip target) 20 2 = 2 ∧ beAt (arpAnswer dst mac ip target) 28 4 = ip := by
  refine ⟨beAt_be (a := []) rfl hdst, beAt_be (a := be 6 dst) (by simp) hmac, ?_, ?_, ?_⟩
  · have h := beAt_be (a := be 6 dst ++ be 6 mac) (r := [0, 1, 8, 0, 6, 4] ++ (be 2 2 ++ (be 6 mac ++ (be 4 ip ++ target)))) (off := 12) (n := 2) (v := 0x0806) (by simp) (by decide)
    rwa [List.append_assoc] at h
  · have h := beAt_be (a := be 6 dst ++ be 6 mac ++ be 2 0x0806 ++ [0, 1, 8, 0, 6, 4]) (r := be 6 mac ++ (be 4 ip ++ target)) (off := 20) (n := 2) (v := 2) (by simp) (by decide)
    simpa only [arpAnswer, List.append_assoc] using h
  · have h := beAt_be (a := be 6 dst ++ be 6 mac ++ be 2 0x0806 ++ [0, 1, 8, 0, 6, 4] ++ be 2 2 ++ be 6 mac) (r := target) (off := 28) (n := 4) (by simp) hip
    simpa only [arpAnswer, List.append_assoc] using h

theorem does_ethArp {f : Bytes} (hp : p < 16) (hup : (vget s.eth p).up = true) (hvlan : fld (vget s.eth p).cfg 27 16 = 0) (hlen : f.length ≤ 1514) (htype : beAt f 12 2 = 0x0806)
    (hreq : beAt (f.drop 14) 6 2 = 1) (hip : fld (vget s.eth p).cfg 111 80 ≠ 0) (hfor : beAt (f.drop 14) 24 4 = fld (vget s.eth p).cfg 111 80) :
    Does (.ethFrameReceived ⟨p, hp⟩ f) s fun t => (vget t.eth p).sent = ((vget s.eth p).sent + 1) % 2 ^ 64 ∧ (vget t.eth p).dropped = (vget s.eth p).dropped ∧
      (∃ g, (vget t.eth p).out = ((0, g) :: (vget s.eth p).out).take 16 ∧ beAt g 0 6 = beAt f 6 6 ∧ beAt g 6 6 = ethMac s p ∧ beAt g 12 2 = 0x0806 ∧ beAt g 20 2 = 2 ∧
        beAt g 28 4 = fld (vget s.eth p).cfg 111 80) ∧ ({ t with eth := s.eth } : State) = s := by
  have hcount : vget (receivedAt p s).eth p = { vget s.eth p with received := wrapAdd 64 (vget s.eth p).received 1 } := vget_vmod_same _ _ hp
  have hframe : ethFrame (receivedAt p s) p (beAt f 6 6) 0x0806
      ([0, 1, 8, 0, 6, 4, 0, 2] ++ be 6 (ethMac (receivedAt p s) p) ++ be 4 (eIp4 (vget s.eth p).cfg) ++ bytesAt (f.drop 14) 8 10) =
      arpAnswer (beAt f 6 6) (ethMac s p) (eIp4 (vget s.eth p).cfg) (bytesAt (f.drop 14) 8 10) := by
    have hmac : ethMac (receivedAt p s) p = ethMac s p := rfl
    have htag : eVlan (vget (receivedAt p s).eth p).cfg = 0 := by rw [hcount]; exact hvlan
    have hop : ([0, 1, 8, 0, 6, 4, 0, 2] : Bytes) = [0, 1, 8, 0, 6, 4] ++ be 2 2 := rfl
    unfold ethFrame arpAnswer
    simp only [hmac, htag, if_true, hop, List.append_assoc, List.nil_append]
  have hrow := ethReceive_arp (p := p) hup hvlan hlen htype hreq hip hfor
  rw [hframe] at hrow
  obtain ⟨h1, h2, h3, h4, h5⟩ := arpAnswer_fields (bytesAt (f.drop 14) 8 10) (beAt_lt f 6 6) (show ethMac s p < 256 ^ 6 from Nat.mod_lt _ (by decide))
    (show eIp4 (vget s.eth p).cfg < 256 ^ 4 from Nat.mod_lt _ (by decide))
  generalize arpAnswer (beAt f 6 6) (ethMac s p) (eIp4 (vget s.eth p).cfg) (bytesAt (f.drop 14) 8 10) = g at *
  have hport : vget (ethSend p 0 g (receivedAt p s)).eth p = { vget s.eth p with
      received := wrapAdd 64 (vget s.eth p).received 1, sent := wrapAdd 64 (vget s.eth p).sent 1, out := ((0, g) :: (vget s.eth p).out).take 16 } := by
    rw [ethSend, vget_vmod_same _ _ hp, hcount]
  refine ⟨_, exec_quiet (t := ethReceive p f s) rfl hrow rfl, ?_, ?_, ⟨g, ?_, h1, h2, h3, h4, h5⟩, rfl⟩
  · exact congrArg EthSt.sent hport
  · exact (congrArg EthSt.dropped hport).trans rfl
  · exact congrArg EthSt.out hport

/-! ### The port's configuration (R407, R415, R417) -/

section
variable {c : Cmd}

/-- ETH_PORT_CFG as a command carries it (R415). -/
def ethCfgOf (c : Cmd) : BitVec 256 := setFld (setFld (setFld (setFld (argW c 0 256) 7 5 0) 31 31 0) 79 32 0) 127 112 0

/-- ETH.CONFIGURE that disables a port drops its link and refuses what waits for it (R417). -/
def ethDisabled (c : Cmd) (s : State) : State :=
  (vget s.eth (idx c.unit)).wait.foldl (fun s q => complete q.1 q.2 REFUSED_STATE [] s) (ethMod (idx c.unit) (fun x => { x with cfg := ethCfgOf c, wait := [] }) (ethDrop (idx c.unit) s))

theorem vEthConfigure_off (h : bitAt (ethCfgOf c) 0 = false) : vEthConfigure.act c s = ok (ethDisabled c s) := if_pos (by
  unfold ethCfgOf at h
  simp [eOn, h])

theorem vEthConfigure_waits (h : bitAt (ethCfgOf c) 0 = true) (hdown : (vget s.eth (idx c.unit)).up = false) : vEthConfigure.act c s =
    later (ethMod (idx c.unit) (fun x => { x with cfg := ethCfgOf c, wait := x.wait ++ [(c, 0x1601)] }) s) := by
  unfold ethCfgOf at h
  have hon : ¬ (!eOn (setFld (setFld (setFld (setFld (argW c 0 256) 7 5 0) 31 31 0) 79 32 0) 127 112 0)) = true := by simp [eOn, h]
  refine (if_neg hon).trans ((if_neg (by simp [hdown])).trans ?_)
  rw [ethDrop_down hdown]
  rfl

theorem isEth_lt {h : Handle} (hunit : isA s .eth h = true) : idx h < 16 := idx_lt_of_runs (by decide) (by decide) hunit

theorem does_ethConfigure_off (h : Accepts vEthConfigure c s) (hoff : bitAt (ethCfgOf c) 0 = false) : Does (.ethConfigure c) s fun t =>
    (vget t.eth (idx c.unit)).cfg = ethCfgOf c ∧ (vget t.eth (idx c.unit)).up = false ∧ (∀ k, k ≠ idx c.unit → vget t.eth k = vget s.eth k) ∧
      ({ t with eth := s.eth, time := s.time } : State).hush = s.hush := by
  obtain ⟨-, -, -, -, -, -, -, hfit, -⟩ := h.parts
  have hp : idx c.unit < 16 := isEth_lt hfit
  refine does_of_act h rfl rfl fun k j t ht => ?_
  obtain ⟨y, hy, -⟩ := ethDrop_frame (idx c.unit) { s with kennel := k, junction := j }
  have hx : t.hush = ({ s with eth := vmod (vmod s.eth (idx c.unit) fun x => { x with up := false }) (idx c.unit) fun x => { x with cfg := ethCfgOf c, wait := [] }, time := y } : State).hush := by
    rw [ht, vEthConfigure_off hoff]
    refine (foldl_keeps State.hush _ (fun _ _ => complete_hush ..) _ _).trans ?_
    exact hush_update hy (ethMod (idx c.unit) fun x => { x with cfg := ethCfgOf c, wait := [] }) fun _ => rfl
  have hport : vget t.eth (idx c.unit) = { vget s.eth (idx c.unit) with up := false, cfg := ethCfgOf c, wait := [] } := by
    rw [eth_of_hush hx, vget_vmod_same _ _ hp, vget_vmod_same _ _ hp]
  rw [hport]
  refine ⟨rfl, rfl, fun q hq => ?_, hush_update hx (fun x => { x with eth := s.eth, time := s.time }) fun _ => rfl⟩
  rw [eth_of_hush hx]
  exact (vget_vmod_ne _ _ hq).trans (vget_vmod_ne _ _ hq)

end

/-! ### VITA streams (R410 to R414) -/

section
variable {k : Nat} {v : VitaSt} {r : RingCtx} {e : EntryAt} {es : List EntryAt}

/-- A changed stream is found where it was. -/
theorem vitaMod_find (f : VitaSt → VitaSt) (h : s.vita.find? (fun v => v.1 == k) = some (k, v)) : (vitaMod k f s).vita.find? (fun v => v.1 == k) = some (k, f v) := by
  have hkey : ((fun v : Nat × VitaSt => v.1 == k) ∘ fun q : Nat × VitaSt => if q.1 == k then (q.1, f q.2) else (q.1, q.2)) = fun v => v.1 == k := by
    funext q
    simp only [Function.comp]
    split <;> rfl
  show (s.vita.map fun q => if q.1 == k then (q.1, f q.2) else (q.1, q.2)).find? (fun v => v.1 == k) = some (k, f v)
  rw [List.find?_map, hkey, h]
  simp

theorem ethSend_head (hp : p < 16) (kind : Nat) (b : Bytes) (s : State) : (vget (ethSend p kind b s).eth p).out.head? = some (kind, b) := by
  rw [ethSend, vget_vmod_same _ _ hp]
  rfl

/-- A stream with its last context packet. -/
def contextSent (f : List Int) (cyc : Nat) (v : VitaSt) : VitaSt := { v with context := some f, contextAt := cyc }

theorem vitaContext_idle (h : s.vita.find? (fun v => v.1 == k) = none) : vitaContext k s = s := by
  simp only [vitaContext, h, Option.map_none]

theorem vitaContext_unready (h : s.vita.find? (fun v => v.1 == k) = some (k, v)) (hready : vitaReady s v = none) : vitaContext k s = s := by
  simp only [vitaContext, h, Option.map_some, hready]

/-- A context packet, if one goes out, moves the port and the stream's last context alone (R413). -/
theorem vitaContext_cases (h : s.vita.find? (fun v => v.1 == k) = some (k, v)) :
    vitaContext k s = s ∨ ∃ b f, vitaContext k s = ethSend (vPort v.defn) 5 b (vitaMod k (contextSent f s.cyc) s) := by
  unfold vitaContext
  simp only [h, Option.map_some]
  split
  · exact .inl rfl
  · split
    · split
      · exact .inr ⟨_, _, rfl⟩
      · exact .inl rfl
    · split
      · split
        · exact .inr ⟨_, _, rfl⟩
        · exact .inl rfl
      · exact .inl rfl

/-- The first block of a stream sends a context packet (R413). -/
theorem vitaContext_first (h : s.vita.find? (fun v => v.1 == k) = some (k, v)) (hready : vitaReady s v = some r) (hheld : heldStart r ≤ v.pos)
    (hnext : vitaNext s r v = ([], e :: es)) (hfirst : v.context = none) :
    ∃ b f, vitaContext k s = ethSend (vPort v.defn) 5 b (vitaMod k (contextSent f s.cyc) s) := by
  have hdue : ∀ f : List Int, ((none : Option (List Int)) != some f) = true := fun f => rfl
  unfold vitaContext
  simp only [h, Option.map_some, hready, hnext, hfirst, hdue, hheld, decide_true, List.isEmpty_cons, Bool.not_false, Bool.and_self, Bool.true_or, if_true]
  exact ⟨_, _, rfl⟩

theorem does_vitaContext (hk : k < 64) (h : s.vita.find? (fun v => v.1 == k) = some (k, v)) (hready : vitaReady s v = some r) (hheld : heldStart r ≤ v.pos)
    (hport : numAt v.defn 1 1 < 16) (hnext : vitaNext s r v = ([], e :: es)) (hfirst : v.context = none) : Does (.vitaContext ⟨k, hk⟩) s fun t =>
      (∃ g, (vget t.eth (numAt v.defn 1 1)).out.head? = some (5, g)) ∧
      (∃ u, t.vita.find? (fun v => v.1 == k) = some (k, u) ∧ u.context ≠ none ∧ u.contextAt = s.cyc ∧ u.pos = v.pos ∧ u.count = v.count) ∧
      ({ t with eth := s.eth, vita := s.vita } : State) = s := by
  obtain ⟨b, f, hrow⟩ := vitaContext_first h hready hheld hnext hfirst
  exact ⟨_, exec_quiet (t := vitaContext k s) rfl hrow rfl, ⟨b, ethSend_head hport ..⟩,
    ⟨contextSent f s.cyc v, vitaMod_find _ h, Option.some_ne_none _, rfl, rfl, rfl⟩, rfl⟩

/-- The entries that a stream sends next do not depend on ports and streams. -/
theorem vitaNext_congr {u : VitaSt} (y : Vector EthSt 16) (w : List (Nat × VitaSt)) (hpos : u.pos = v.pos) (hdefn : u.defn = v.defn) :
    vitaNext { s with eth := y, vita := w } r u = vitaNext s r v := by
  unfold vitaNext
  rw [hpos, hdefn]
  rfl

/-- A stream after a data packet of whole blocks (R411). -/
def packetSent (pos count : Nat) (v : VitaSt) : VitaSt := { v with pos := pos, part := 0, count := (count + 1) % 16, skipped := false }

/-- A stream's next data packet, where the context is in order: what goes out, and where the stream then stands (R411, R412). -/
theorem vitaSend_blocks {s' : State} {u : VitaSt} (h : s.vita.find? (fun v => v.1 == k) = some (k, v)) (hready : vitaReady s v = some r) (hheld : heldStart r ≤ v.pos)
    (hctx : vitaContext k s = s') (h' : s'.vita.find? (fun v => v.1 == k) = some (k, u)) (hnext : vitaNext s' r u = ([], e :: es)) (hkind : e.kind = 1) :
    ∃ b, vitaSend k s = ethSend (vPort u.defn) 4 b (vitaMod k
      (packetSent (((e :: es).getLast?.getD e).pos + ((e :: es).getLast?.getD e).len) u.count) s') := by
  have hskip : vitaSkip k r v s = s := if_pos hheld
  unfold vitaSend
  simp only [h, Option.map_some, hready, hskip, hctx, h', hnext, hkind]
  exact ⟨_, rfl⟩

/-- A data packet goes out, behind a context packet where one is due, and the stream stands past its blocks (R411, R413). -/
theorem does_vitaSend (hk : k < 64) (h : s.vita.find? (fun v => v.1 == k) = some (k, v)) (hready : vitaReady s v = some r) (hheld : heldStart r ≤ v.pos)
    (hport : numAt v.defn 1 1 < 16) (hnext : vitaNext s r v = ([], e :: es)) (hkind : e.kind = 1) : Does (.vitaSend ⟨k, hk⟩) s fun t =>
      (∃ g, (vget t.eth (numAt v.defn 1 1)).out.head? = some (4, g)) ∧ (∃ u, t.vita.find? (fun v => v.1 == k) = some (k, u) ∧
        u.pos = ((e :: es).getLast (by simp)).pos + ((e :: es).getLast (by simp)).len ∧ u.count = (v.count + 1) % 16 ∧ u.skipped = false ∧ u.part = 0) ∧
      ({ t with eth := s.eth, vita := s.vita } : State) = s := by
  obtain ⟨s', u, hctx, h', hpos, hdefn, hcount, hs'⟩ : ∃ s' u, vitaContext k s = s' ∧ s'.vita.find? (fun v => v.1 == k) = some (k, u) ∧ u.pos = v.pos ∧ u.defn = v.defn ∧
      u.count = v.count ∧ s' = { s with eth := s'.eth, vita := s'.vita } := by
    rcases vitaContext_cases h with hsame | ⟨b, f, hsent⟩
    · exact ⟨s, v, hsame, h, rfl, rfl, rfl, rfl⟩
    · exact ⟨_, _, hsent, vitaMod_find _ h, rfl, rfl, rfl, rfl⟩
  have hnext' : vitaNext s' r u = ([], e :: es) := by
    rw [hs', vitaNext_congr _ _ hpos hdefn, hnext]
  obtain ⟨b, hrow⟩ := vitaSend_blocks h hready hheld hctx h' hnext' hkind
  have hlast : (e :: es).getLast?.getD e = (e :: es).getLast (by simp) := by
    rw [List.getLast?_eq_some_getLast (by simp), Option.getD_some]
  have hport' : vPort u.defn < 16 := by rw [hdefn]; exact hport
  have hev : s'.ev.raised = s.ev.raised := by rw [hs']
  refine ⟨_, exec_quiet (t := vitaSend k s) rfl hrow hev, ⟨b, ?_⟩, ⟨packetSent _ _ u, vitaMod_find _ h', ?_, ?_, rfl, rfl⟩, ?_⟩
  · have hhead := ethSend_head hport' 4 b (vitaMod k
      (packetSent (((e :: es).getLast?.getD e).pos + ((e :: es).getLast?.getD e).len) u.count) s')
    rwa [hdefn] at hhead ⊢
  · rw [hlast]
    rfl
  · exact congrArg (fun n => (n + 1) % 16) hcount
  · rw [hs']
    rfl

end

end

/-- Settles O52: the port's configuration and links, received frames, and what a stream's packets move. -/
theorem ethernetOperations : Obligations.EthernetOperations := by
  unfold Obligations.EthernetOperations
  intro c s
  have hsame : ∀ {i : Instr} {t : State}, exec i s = settle s t → t = s → exec i s = .next s := fun hi ht => exec_quiet hi ht rfl
  refine ⟨fun h hoff _ => does_ethConfigure_off h hoff, fun h hon hdown => ?_, fun h => answers_of h rfl rfl, fun h => answers_of h rfl rfl,
    fun p f h => hsame rfl (by simp [ethReceive, h]), fun p f => does_ethDrops p.isLt, fun p f => does_ethArp p.isLt, fun p up h => hsame rfl (ethLink_idle h),
    fun p => does_ethLink_up p.isLt, fun p => does_ethLink_down p.isLt,
    fun k h => ⟨hsame rfl (by simp [vitaSend, h]), hsame rfl (vitaContext_idle h)⟩,
    fun k v h hr => ⟨hsame rfl (by simp [vitaSend, h, hr]), hsame rfl (vitaContext_unready h hr)⟩,
    fun k v r e es h hr hheld hp hn hc => does_vitaContext k.isLt h hr hheld hp hn hc, fun k v r e es h hr hheld hp hn hk => does_vitaSend k.isLt h hr hheld hp hn hk⟩
  obtain ⟨k, j, hb⟩ := begun_frame (v := vEthConfigure) (c := c) (s := s) rfl
  exact waits_of h rfl (vEthConfigure_waits hon (by rw [hb]; exact hdown))

end Sys2Proof.Machine
end

section
/-! What publications and event records leave of the rings' item counts (R339, R353). -/
namespace Sys2Proof.Machine
open Sys2Proof

/-- Items that each ring's frames have counted; none of a ring that is not there. -/
def State.counted (s : State) (id : Nat) : Option Nat := (ringOf s id).map (·.items)

/-- What a publication leaves of a ring's context: its identity and its count. -/
def RingCtx.key (r : RingCtx) : Nat × Nat := (r.id, r.items)

theorem counted_of_rings {s t : State} (h : t.rings = s.rings) : t.counted = s.counted := by
  funext id
  rw [State.counted, State.counted, ringOf_of_rings h]

/-- A ring's new context with the same count leaves every ring's. -/
theorem counted_ringSet {s : State} {id : Nat} {r r' : RingCtx} (h : ringOf s id = some r) (hkey : r'.key = r.key) : (ringSet r' s).counted = s.counted := by
  obtain ⟨hid, hitems⟩ : r'.id = r.id ∧ r'.items = r.items := by simpa [RingCtx.key] using hkey
  funext k
  have hfind : (fun x : RingCtx => x.id == k) ∘ (fun x => if x.id == r'.id then r' else x) = fun x => x.id == k := by
    funext x
    by_cases hx : x.id = r'.id <;> simp [hx]
  simp only [State.counted, ringOf, ringSet, lmod, List.find?_map, hfind]
  cases hk : s.rings.find? fun x => x.id == k with
  | none => rfl
  | some x =>
    by_cases hx : x.id = r'.id
    · have hr : r = x := by
        have hkid : k = id := by rw [← ringOf_id (s := s) hk, hx, hid, ringOf_id h]
        exact Option.some.inj ((hkid ▸ h : ringOf s k = some r).symm.trans hk)
      simp [hx, hitems, hr]
    · simp [hx]

@[simp] theorem ringDrop_key (r : RingCtx) (e : Ent) (b : Bool) : (ringDrop r e b).key = r.key := by
  unfold ringDrop
  dsimp only
  split
  · split <;> rfl
  · rfl

@[simp] theorem ringHalt_key (s : State) (r : RingCtx) : (ringHalt s r).1.key = r.key := by
  unfold ringHalt
  split <;> rfl

@[simp] theorem ringFullNote_key (s : State) (r : RingCtx) : (ringFullNote s r).1.key = r.key := rfl

@[simp] theorem ringPass_key (need : Nat) (l : List EntryAt) (r : RingCtx) (acc : List EntryAt) : (ringPass need l r acc).1.key = r.key := by
  induction l generalizing r acc with
  | nil => rfl
  | cons e l ih =>
    unfold ringPass
    split
    · rfl
    · split
      · exact ih ..
      · exact ih ..

@[simp] theorem ringAppend_key (r : RingCtx) (l : List Ent) (s : State) : (ringAppend r l s).1.key = r.key := by
  induction l generalizing r s with
  | nil => rfl
  | cons e l ih => exact ih ..

theorem hostWrite_rings (k vc n off : Nat) (b : Bytes) (s : State) : (hostWrite k vc n off b s).rings = s.rings := by
  induction n generalizing off b s with
  | zero => rfl
  | succ n ih =>
    unfold hostWrite
    split
    · rfl
    · rw [ih]
      split <;> rfl

theorem ringBytesAt_rings (r : RingCtx) (o : Nat) (b : Bytes) (s : State) : (ringBytesAt r o b s).rings = s.rings := by
  unfold ringBytesAt
  split
  · exact hostWrite_rings ..
  · rfl
  · rfl

@[simp] theorem ringWrite_rings (r : RingCtx) (pos : Nat) (b : Bytes) (s : State) : (ringWrite r pos b s).rings = s.rings :=
  (ringBytesAt_rings ..).trans (ringBytesAt_rings ..)

@[simp] theorem ringAppend_rings (r : RingCtx) (l : List Ent) (s : State) : (ringAppend r l s).2.rings = s.rings := by
  induction l generalizing r s with
  | nil => rfl
  | cons e l ih => exact (ih ..).trans (ringWrite_rings ..)

@[simp] theorem ringOverNote_key (s : State) (r : RingCtx) : (ringOverNote s r).1.key = r.key := by
  unfold ringOverNote
  split
  · rfl
  · split
    · split <;> rfl
    · rfl

@[simp] theorem ringMarkNote_key (s : State) (r : RingCtx) : (ringMarkNote s r).1.key = r.key := by
  unfold ringMarkNote
  split <;> rfl

/-- A publication gives its ring a new context with the count that it had, or none (R339, R342 to R346). -/
theorem ringPut_ring (w : Bool) (id : Nat) (e : Ent) (s : State) : (ringPut w id e s).1.rings = s.rings ∨
    ∃ r r', ringOf s id = some r ∧ r'.key = r.key ∧ (ringPut w id e s).1.rings = (ringSet r' s).rings := by
  generalize hx : (ringPut w id e s).1 = x
  unfold ringPut at hx
  split at hx
  · exact .inl (congrArg State.rings hx).symm
  · next r hr =>
    have h0 : (if ringPlaceOk s r = true then (r, []) else ringHalt s r).1.key = r.key := by split <;> simp
    generalize (if ringPlaceOk s r = true then (r, []) else ringHalt s r) = p0 at hx h0
    obtain ⟨r0, ev0⟩ := p0
    dsimp only at hx h0
    have hset : ∀ {q : RingCtx} {u : State}, q.key = r.key → u.rings = s.rings → ringSet q u = x → ∃ r r', ringOf s id = some r ∧ r'.key = r.key ∧ x.rings = (ringSet r' s).rings :=
      fun {q u} hq hu hxq => ⟨r, q, hr, hq, by rw [← hxq, ringSet, ringSet, hu]⟩
    split at hx
    · exact .inr (hset (by simpa using h0) rfl hx)
    split at hx
    · exact .inr (hset (by simpa using h0) rfl hx)
    generalize (!decide (r0.producer + _ - r0.consumer ≤ ringSize r0) || !ringReach s r0) = full at hx
    split at hx
    · refine .inr (hset ?_ rfl hx)
      exact h0
    have h1 : (if (full && r0.policy == 1 && ringReach s r0) = true then ringPass (List.map (fun x => x.bytes.length) (ringBatch s r0 e)).sum r0.entries r0 [] else (r0, [])).1.key = r.key := by
      split <;> simp [h0]
    generalize (if (full && r0.policy == 1 && ringReach s r0) = true then ringPass _ r0.entries r0 [] else (r0, [])) = p1 at hx h1
    have h2 : (if full = true then ringFullNote s p1.1 else (p1.1, [])).1.key = r.key := by
      split <;> simp [h1]
    generalize (if full = true then ringFullNote s p1.1 else (p1.1, [])) = p2 at hx h2
    split at hx
    · exact .inr (hset (by simpa using h2) rfl hx)
    · refine .inr (hset ?_ ?_ hx)
      · rw [ringMarkNote_key, ringOverNote_key]
        exact (ringAppend_key ..).trans h2
      · rw [vitaLoses_rings, ringAppend_rings, streamLoses_rings]

/-- A publication leaves every ring's count (R353): its producer counts the items of what it publishes. -/
@[simp] theorem ringPut_counted (w : Bool) (id : Nat) (e : Ent) (s : State) : (ringPut w id e s).1.counted = s.counted := by
  rcases ringPut_ring w id e s with h | ⟨r, r', hr, hkey, h⟩
  · exact counted_of_rings h
  · exact (counted_of_rings h).trans (counted_ringSet hr hkey)

/-! ### The delivery of event records (R460, R461) -/

@[simp] theorem evInternal_counted (e : EventRec) (s : State) : (evInternal e s).counted = s.counted := rfl

@[simp] theorem raiseRec_counted (e : EventRec) (s : State) : (raiseRec e s).counted = s.counted := by
  unfold raiseRec evHold
  split
  · rfl
  · split
    · rfl
    · split <;> rfl

@[simp] theorem emit_counted (l : List EventRec) (s : State) : (emit l s).counted = s.counted := foldl_keeps State.counted _ (fun _ _ => raiseRec_counted ..) l s

@[simp] theorem raise_counted (src type unit : Nat) (d : Bytes) (s : State) : (raise src type unit d s).counted = s.counted := raiseRec_counted ..

@[simp] theorem evPut_counted (k : Nat) (x : EventRec) (p : State × List EventRec) : (evPut k x p).1.counted = p.1.counted := ringPut_counted ..

@[simp] theorem evPutLost_counted (k : Nat) (s : State) : (evPutLost k s).1.counted = s.counted := by
  unfold evPutLost
  dsimp only
  split
  · rfl
  · exact evPut_counted k _ _

@[simp] theorem evRingDrop_counted (k : Nat) (e : EventRec) (s : State) : (evRingDrop k e s).1.counted = s.counted := by
  unfold evRingDrop
  split
  · next r hr => exact counted_ringSet hr ((ringFullNote_key ..).trans (ringDrop_key ..))
  · rfl

@[simp] theorem evToRing_counted (k : Nat) (e : EventRec) (s : State) : (evToRing k e s).1.counted = s.counted := by
  unfold evToRing
  split
  · exact (evPut_counted ..).trans (evPutLost_counted ..)
  · exact evRingDrop_counted ..

@[simp] theorem evToBond_counted (k : Nat) (e : EventRec) (s : State) : (evToBond k e s).counted = s.counted := by
  unfold evToBond
  dsimp only
  split
  · split <;> rfl
  · rfl

@[simp] theorem evFan_counted (e : EventRec) (p : State × List EventRec) (k : Nat) : (evFan e p k).1.counted = p.1.counted := by
  unfold evFan
  split
  · exact evToRing_counted ..
  · rfl

@[simp] theorem evDeliver_counted (e : EventRec) (s : State) : (evDeliver e s).1.counted = s.counted := by
  unfold evDeliver
  dsimp only
  rw [foldl_keeps State.counted _ (fun s k => by split <;> simp), foldl_keeps (fun p : State × List EventRec => p.1.counted) _ (fun p k => by simp)]
  rfl

@[simp] theorem evOut_counted (p : State × List EventRec) (e : EventRec) : (evOut p e).1.counted = p.1.counted := by
  unfold evOut
  split
  · exact evDeliver_counted ..
  · rfl

theorem evRounds_counted (n : Nat) (l : List EventRec) (s : State) : (evRounds n l s).counted = s.counted := by
  induction n generalizing l s with
  | zero => rfl
  | succ n ih =>
    unfold evRounds
    split
    · rfl
    · rw [ih, foldl_keeps State.counted (fun s e => evInternal e s) (fun _ _ => rfl), foldl_keeps (fun p : State × List EventRec => p.1.counted) _ (fun p e => by simp)]

@[simp] theorem settled_counted (s t : State) : (settled s t).counted = t.counted := by
  unfold settled
  split
  · rfl
  · exact evRounds_counted ..

/-! ### Publications with the pins that they overrun (R210) -/

@[simp] theorem offer_counted (w : Bool) (id : Nat) (e : Ent) (s : State) : (offer w id e s).1.counted = s.counted := by
  unfold offer
  exact (emit_counted ..).trans (ringPut_counted ..)

@[simp] theorem offerAll_counted (w : Bool) (id : Nat) (l : List Ent) (s : State) : (offerAll w id l s).1.counted = s.counted := by
  induction l generalizing s with
  | nil => rfl
  | cons e l ih =>
    have hone := offer_counted w id e s
    unfold offerAll
    split
    · next h => rwa [h] at hone
    · next h =>
      rw [h] at hone
      exact (ih _).trans hone

theorem pinCopyOut_counted {w : Bool} {p : PinSt} {s u : State} {n : Nat} (h : pinCopyOut w p s = some (u, n)) : u.counted = s.counted := by
  unfold pinCopyOut at h
  dsimp only at h
  split at h
  · next hall =>
    cases h
    exact (congrArg (fun x => x.1.counted) hall).symm.trans (offerAll_counted ..)
  · cases h

@[simp] theorem pinCut_counted (p : PinSt) (s : State) : (pinCut p s).1.counted = s.counted := by
  unfold pinCut
  dsimp only
  split
  · next h =>
    split at h
    · cases h
    · exact pinCopyOut_counted h
  · rfl

@[simp] theorem pinReport_counted (p : PinSt) (s : State) : (pinReport p s).counted = s.counted := by
  unfold pinReport
  split
  · rfl
  · exact offer_counted ..

@[simp] theorem pinOverrun_counted (p : PinSt) (s : State) : (pinOverrun p s).counted = s.counted := by
  unfold pinOverrun
  dsimp only
  rw [raise_counted]
  exact (pinReport_counted ..).trans (pinCut_counted p s)

@[simp] theorem publishNow_counted (id : Nat) (e : Ent) (s : State) : (publishNow id e s).counted = s.counted := by
  unfold publishNow publish pinsOverrun
  dsimp only
  split
  · exact offer_counted ..
  · exact (foldl_keeps State.counted _ (fun _ _ => pinOverrun_counted ..) _ _).trans (offer_counted ..)

/-- The items of a publication are counted in its ring alone (R353). -/
theorem ringCount_counted (id n : Nat) (s : State) : (ringCount id n s).counted id = (s.counted id).map (· + n) := by
  have hfind : (fun x : RingCtx => x.id == id) ∘ (fun x => if x.id == id then { x with items := x.items + n } else x) = fun x => x.id == id := by
    funext x
    by_cases hx : x.id = id <;> simp [hx]
  simp only [State.counted, ringOf, ringCount, lmod, List.find?_map, hfind]
  cases hk : s.rings.find? fun x => x.id == id with
  | none => rfl
  | some x => simp [ringOf_id (s := s) hk]

end Sys2Proof.Machine
end

section
/-! Interval measurement (R419 to R434), and O53. -/
namespace Sys2Proof.Machine
open Sys2Proof

theorem tdc_of_hush {s t : State} (h : s.hush = t.hush) : s.tdc = t.tdc := by injection h

section
variable {i : Instr} {s t : State} {y : TdcsSt} {P : State → Prop}

/-- A row that State.hush shows to touch the interval measurement alone. -/
theorem does_tdc (hi : exec i s = settle s t) (ht : t.hush = ({ s with tdc := y } : State).hush)
    (hp : ∀ u : State, u.tdc = y → ({ u with tdc := s.tdc } : State).hush = s.hush → P u) : Does i s P :=
  does_row hi fun u hu => hp u (tdc_of_hush (hu.trans ht)) (hush_update (hu.trans ht) (fun x => { x with tdc := s.tdc }) fun _ => rfl)

end

theorem vget_tdcMod {i : Nat} (hi : i < 4) (f : TdcSt → TdcSt) (s : State) : vget (tdcMod i f s).tdc.ch i = f (vget s.tdc.ch i) := vget_vmod_same _ f hi

theorem vget_tdcMod_ne {i j : Nat} (hj : j ≠ i) (f : TdcSt → TdcSt) (s : State) : vget (tdcMod i f s).tdc.ch j = vget s.tdc.ch j := vget_vmod_ne _ f hj

theorem vget_tinMod {k : Nat} (hk : k < 10) (f : TdcIn → TdcIn) (s : State) : vget (tinMod k f s).tdc.inp k = f (vget s.tdc.inp k) := vget_vmod_same _ f hk

/-! ### The verbs (R425, R434) -/

section
variable {c : Cmd} {s : State}

theorem vTdcArm_now (h : argT0 c 0 = true) (u : State) : vTdcArm.act c u = okWith (tdcArmNow (idx c.unit) u) [0] := if_pos h

theorem vTdcArm_later {u : State} {t0 : Time} (h : argT0 c 0 = false) (ht : argT c 0 = some t0) (hlater : now u < t0) :
    vTdcArm.act c u = okWith (tdcMod (idx c.unit) (fun x => { x with armAt := some t0 }) u) [0] := by
  simp [vTdcArm, h, ht, Nat.not_le.mpr hlater]

theorem vTdcArm_past {u : State} {t0 : Time} (h : argT0 c 0 = false) (ht : argT c 0 = some t0) (hpast : t0 ≤ now u) :
    vTdcArm.act c u = okWith (tdcArmNow (idx c.unit) u) (le 1 (b2n (decide (t0 < now u)))) := by
  simp [vTdcArm, h, ht, hpast]

end

/-! ### Results (R426, R427, R429) -/

/-- The flags of a result record (R429): its first three bits are the result's own. -/
theorem resultFlags_bits (below order late coasting unlocked step : Bool) :
    let w := BitVec.ofNat 8 (b2n below + 2 * b2n order + 4 * b2n late + 8 * b2n coasting + 16 * b2n unlocked + 32 * b2n step)
    bitAt w 0 = below ∧ bitAt w 1 = order ∧ bitAt w 2 = late := by
  revert below order late coasting unlocked step
  decide

/-- A channel of the one state ends a measurement in the other: its record, and how it stands then (R425, R426, R429). -/
def HasResult (i kind : Nat) (below : Bool) (value : Int) (count : Nat) (t : Time) (s u : State) : Prop :=
  let x := vget s.tdc.ch i
  let y := vget u.tdc.ch i
  y.armed = !tSingle x.cfg ∧ y.start = none ∧ y.orders = (if kind = 1 then wrapAdd 32 x.orders 1 else x.orders) ∧
  y.overflows = (if kind = 2 then wrapAdd 32 x.overflows 1 else x.overflows) ∧
  ∃ r, y.result = some r ∧ r.time = t ∧ r.mode = tMode x.cfg ∧ r.count = count ∧ r.value = value ∧
    bitAt r.flags 0 = below ∧ bitAt r.flags 1 = (kind == 1) ∧ bitAt r.flags 2 = (kind == 2)

section
variable {i : Nat} {s : State} (hi : i < 4)
include hi

theorem tdcResult_has (kind : Nat) (below : Bool) (value : Int) (count freq : Nat) (t : Time) (s : State) :
    HasResult i kind below value count t s (tdcResult i kind below value count freq t s) := by
  have hrow := congrArg (fun y => vget y.ch i) (tdc_of_hush (raise_hush (0xE0 + i) (kind + 1) (0x0D10 + i) _ _) : (tdcResult i kind below value count freq t s).tdc = _)
  rw [vget_tdcMod hi] at hrow
  obtain ⟨hbelow, horder, hover⟩ := resultFlags_bits below (kind == 1) (kind == 2) s.synth.ref.coasting (s.time.state != .locked) (stepped s i)
  unfold HasResult
  rw [hrow]
  exact ⟨rfl, rfl, rfl, rfl, _, rfl, rfl, rfl, rfl, rfl, hbelow, horder, hover⟩

theorem tdcPlain_has (kind : Nat) (below : Bool) (value : Int) (t : Time) (s : State) :
    HasResult i kind below value ((vget s.tdc.ch i).number + 1) t s (tdcPlain i kind below value t s) :=
  tdcResult_has hi kind below value _ _ t (draw s).2

end

theorem tdcResult_frame (i kind : Nat) (below : Bool) (value : Int) (count freq : Nat) (t : Time) (s : State) :
    ∃ y, (tdcResult i kind below value count freq t s).hush = ({ s with tdc := y } : State).hush := ⟨_, raise_hush ..⟩

theorem edgeAt_sub (a b : Edge) : edgeAt b - edgeAt a = ((b.coarse : Int) - a.coarse) * 2500000 - (b.fine - a.fine) := by
  unfold edgeAt
  ring

/-- An interval with both its edges (R426): below the resolution, in range, or its stop first. -/
theorem intervalEnd_result {i : Nat} (hi : i < 4) (s : State) (a b : Edge) (t0 : Time) :
    let x := vget s.tdc.ch i
    let v := ((b.coarse : Int) - a.coarse) * 2500000 - (b.fine - a.fine)
    let t := intervalEnd i a t0 b s
    ∃ r, (vget t.tdc.ch i).result = some r ∧ r.time = t0 ∧ r.mode = fld x.cfg 18 17 ∧ r.count = x.number + 1 ∧ (vget t.tdc.ch i).armed = !bitAt x.cfg 19 ∧ (vget t.tdc.ch i).start = none ∧
      (v.natAbs < a.lsb → r.value = 0 ∧ bitAt r.flags 0 = true ∧ bitAt r.flags 1 = false) ∧
      (a.lsb ≤ v.natAbs → 0 ≤ v → r.value = roundDivI (v * 65536) 1000000 ∧ bitAt r.flags 0 = false ∧ bitAt r.flags 1 = false) ∧
      (a.lsb ≤ v.natAbs → v < 0 → bitAt x.cfg 16 = true → v.natAbs < 2500000 → r.value = roundDivI (v * 65536) 1000000 ∧ bitAt r.flags 1 = false) ∧
      (a.lsb ≤ v.natAbs → v < 0 → bitAt x.cfg 16 = false ∨ 2500000 ≤ v.natAbs → r.value = 0 ∧ bitAt r.flags 1 = true ∧ (vget t.tdc.ch i).orders = (x.orders + 1) % 2 ^ 32) := by
  dsimp only
  unfold intervalEnd
  rw [edgeAt_sub]
  generalize ((b.coarse : Int) - a.coarse) * 2500000 - (b.fine - a.fine) = v
  dsimp only
  by_cases hbelow : v.natAbs < a.lsb
  · rw [if_pos hbelow]
    obtain ⟨harmed, hstart, -, -, r, hr, ht, hm, hc, hv, h0, h1, -⟩ := tdcPlain_has hi 0 true 0 t0 s
    exact ⟨r, hr, ht, hm, hc, harmed, hstart, fun _ => ⟨hv, h0, h1⟩, fun h => absurd h (by omega), fun h => absurd h (by omega), fun h => absurd h (by omega)⟩
  rw [if_neg hbelow]
  by_cases hin : (decide (0 ≤ v) || (tSigned (vget s.tdc.ch i).cfg && decide (v.natAbs < 2500000))) = true
  · rw [if_pos hin]
    obtain ⟨harmed, hstart, -, -, r, hr, ht, hm, hc, hv, h0, h1, -⟩ := tdcPlain_has hi 0 false (roundDivI (v * 65536) 1000000) t0 s
    refine ⟨r, hr, ht, hm, hc, harmed, hstart, fun h => absurd h hbelow, fun _ _ => ⟨hv, h0, h1⟩, fun _ _ _ _ => ⟨hv, h1⟩, fun _ hneg hout => absurd hin ?_⟩
    rcases hout with hout | hout <;> simp [tSigned, hout, hneg]
  · rw [if_neg hin]
    obtain ⟨harmed, hstart, horders, -, r, hr, ht, hm, hc, hv, -, h1, -⟩ := tdcPlain_has hi 1 false 0 t0 s
    refine ⟨r, hr, ht, hm, hc, harmed, hstart, fun h => absurd h hbelow, fun _ hpos => absurd (by simp [hpos]) hin,
      fun _ _ hsigned hfine => absurd (by simp [tSigned, hsigned, hfine]) hin, fun _ _ _ => ⟨hv, h1, horders⟩⟩

section
variable {s : State} {i : Nat}

theorem intervalLate_idle (h : (vget s.tdc.ch i).start = none) (c : Nat) : intervalLate i c s = s := by
  simp [intervalLate, h]

theorem intervalLate_unarmed (h : (vget s.tdc.ch i).armed = false) (c : Nat) : intervalLate i c s = s := by
  unfold intervalLate
  dsimp only
  split
  · rw [if_neg (by simp [h])]
  · rfl

/-- No stop edge in 2^24 coarse periods: the interval overflows (R426). -/
theorem intervalLate_over {a : Edge} {t0 : Time} {c : Nat} (harmed : (vget s.tdc.ch i).armed = true) (hmode : fld (vget s.tdc.ch i).cfg 18 17 = 0)
    (hstart : (vget s.tdc.ch i).start = some (a, t0)) (hstop : (vget s.tdc.ch i).stop = none) (hlate : a.coarse + 2 ^ 24 < c) :
    intervalLate i c s = tdcPlain i 2 false 0 t0 s := by
  unfold intervalLate
  simp only [hstart]
  exact if_pos (by simpa [tMode, harmed, hmode, hstop] using hlate)

theorem tdcGateEnd_unarmed (h : (vget s.tdc.ch i).armed = false) : tdcGateEnd i s = s := by
  simp [tdcGateEnd, h]

/-- A gate with its first edge alone overflows (R427). -/
theorem tdcGateEnd_single {a : Edge} {t0 : Time} (harmed : (vget s.tdc.ch i).armed = true) (hmode : fld (vget s.tdc.ch i).cfg 18 17 = 2)
    (hstart : (vget s.tdc.ch i).start = some (a, t0)) (hgate : (vget s.tdc.ch i).gate = some (a, 1)) (hover : a.coarse + fld (vget s.tdc.ch i).cfg 39 24 * 400 ≤ 4 * s.cyc) :
    tdcGateEnd i s = tdcResult i 2 false 0 1 0 t0 s := by
  have hend : gateOver (vget s.tdc.ch i) (4 * s.cyc) = true := by
    unfold gateOver
    rw [hstart]
    exact decide_eq_true hover
  unfold tdcGateEnd
  rw [if_pos (by simp [harmed, tMode, hmode, hend])]
  unfold gateClose
  rw [hstart, hgate]
  exact if_pos rfl

theorem does_tdcGateEnd {a : Edge} {t0 : Time} (hi : i < 4) (harmed : (vget s.tdc.ch i).armed = true) (hmode : fld (vget s.tdc.ch i).cfg 18 17 = 2)
    (hstart : (vget s.tdc.ch i).start = some (a, t0)) (hgate : (vget s.tdc.ch i).gate = some (a, 1)) (hover : a.coarse + fld (vget s.tdc.ch i).cfg 39 24 * 400 ≤ 4 * s.cyc) :
    Does (.tdcGateEnd ⟨i, hi⟩) s fun t => ∃ r, (vget t.tdc.ch i).result = some r ∧ r.value = 0 ∧ r.count = 1 ∧ bitAt r.flags 2 = true ∧
      (vget t.tdc.ch i).overflows = ((vget s.tdc.ch i).overflows + 1) % 2 ^ 32 ∧ ({ t with tdc := s.tdc } : State).hush = s.hush := by
  have hrow := tdcGateEnd_single harmed hmode hstart hgate hover
  obtain ⟨y, hy⟩ := tdcResult_frame i 2 false 0 1 0 t0 s
  obtain ⟨-, -, -, hoverflows, r, hr, -, -, hc, hv, -, -, h2⟩ := tdcResult_has hi 2 false 0 1 0 t0 s
  rw [tdc_of_hush hy] at hr hoverflows
  refine does_tdc (t := tdcGateEnd i s) rfl (by rw [hrow]; exact hy) fun u hu hrest => ?_
  rw [hu]
  exact ⟨r, hr, hv, hc, h2, hoverflows, hrest⟩

theorem does_tdcIntervalOverflow {a : Edge} {t0 : Time} (hi : i < 4) (harmed : (vget s.tdc.ch i).armed = true) (hmode : fld (vget s.tdc.ch i).cfg 18 17 = 0)
    (hstart : (vget s.tdc.ch i).start = some (a, t0)) (hstop : (vget s.tdc.ch i).stop = none) (hlate : a.coarse + 2 ^ 24 < 4 * s.cyc) :
    Does (.tdcIntervalOverflow ⟨i, hi⟩) s fun t => ∃ r, (vget t.tdc.ch i).result = some r ∧ r.value = 0 ∧ r.time = t0 ∧ bitAt r.flags 2 = true := by
  obtain ⟨-, -, -, -, r, hr, ht, -, -, hv, -, -, h2⟩ := tdcPlain_has hi 2 false 0 t0 s
  refine does_row (t := intervalLate i (4 * s.cyc) s) rfl fun u hu => ⟨r, ?_, hv, ht, h2⟩
  rw [tdc_of_hush hu, intervalLate_over harmed hmode hstart hstop hlate]
  exact hr

end

/-! ### The FIFO (R353, R428) -/

section
variable {s : State} {i : Nat}

theorem fifoTake_room (hi : i < 4) (e : Edge) (h : (vget s.tdc.ch i).fifo.length < 1024) :
    (vget (fifoTake i e s).tdc.ch i).fifo = (vget s.tdc.ch i).fifo ++ [(s.cyc, intervalEntry s i e ((vget s.tdc.ch i).lostNow != 0))] := by
  unfold fifoTake
  dsimp only
  rw [if_pos h, vget_tdcMod hi]

/-- A full FIFO counts the loss (R428). -/
theorem fifoTake_full (hi : i < 4) (e : Edge) (h : (vget s.tdc.ch i).fifo.length = 1024) :
    (vget (fifoTake i e s).tdc.ch i).fifo = (vget s.tdc.ch i).fifo ∧ (vget (fifoTake i e s).tdc.ch i).fifoLost = ((vget s.tdc.ch i).fifoLost + 1) % 2 ^ 32 ∧
    (vget (fifoTake i e s).tdc.ch i).lostNow = (vget s.tdc.ch i).lostNow + 1 := by
  have hkeep : ∀ (b : Prop) [Decidable b] (src type unit : Nat) (d : Bytes) (u : State), (if b then raise src type unit d u else u).tdc = u.tdc := by
    intro b _ src type unit d u
    split
    · exact tdc_of_hush (raise_hush ..)
    · rfl
  unfold fifoTake
  dsimp only
  rw [if_neg (by omega), hkeep, vget_tdcMod hi]
  exact ⟨rfl, rfl, rfl⟩

theorem tdc_of_unrecorded {s t : State} (h : s.unrecorded = t.unrecorded) : s.tdc = t.tdc := by
  have htdc := tdc_of_hush (hush_of_unrecorded h {} {})
  exact htdc

@[simp] theorem tdcMod_counted (i : Nat) (f : TdcSt → TdcSt) (s : State) : (tdcMod i f s).counted = s.counted := rfl

theorem fifoDrain_empty (h : (vget s.tdc.ch i).fifo = []) : fifoDrain i s = s := by
  simp only [fifoDrain, h]

/-- A frame that is due goes out whole, though not full, its items counted in its ring (R353, R428). -/
theorem fifoDrain_due (h : (vget s.tdc.ch i).fifo ≠ []) (hready : isReady s = true) (hshort : (vget s.tdc.ch i).fifo.length < 512)
    (hold : ∀ e ∈ (vget s.tdc.ch i).fifo, e.1 + 100000 ≤ s.cyc) (hkept : (vget s.tdc.ch i).mainOffLost = none) :
    ∃ e, fifoDrain i s = ringCount (tRing (vget s.tdc.ch i).cfg) (vget s.tdc.ch i).fifo.length
      (tdcMod i (fun x => { x with fifo := x.fifo.drop 512 }) (publishNow (tRing (vget s.tdc.ch i).cfg) e s)) := by
  obtain ⟨⟨c, b⟩, l, hl⟩ := List.exists_cons_of_ne_nil h
  have hc : c + 100000 ≤ s.cyc := hold (c, b) (by simp [hl])
  have hwait : ((!isReady s) || (decide ((vget s.tdc.ch i).fifo.length < 512) && decide (since s c < msC))) = false := by
    rw [hready, decide_eq_false (p := since s c < msC) (by unfold since msC; omega)]
    simp
  have htake : ((vget s.tdc.ch i).fifo.take 512).length = (vget s.tdc.ch i).fifo.length := by
    rw [List.length_take, Nat.min_eq_right (Nat.le_of_lt hshort)]
  unfold fifoDrain
  dsimp only
  split
  · next hnil => exact absurd hnil h
  · next c' b' l' hl' =>
    obtain ⟨⟨rfl, rfl⟩, rfl⟩ : (c = c' ∧ b = b') ∧ l = l' := by
      have := hl.symm.trans hl'
      simpa using this
    rw [if_neg (by rw [hwait]; exact Bool.false_ne_true), htake]
    simp only [hkept]
    exact ⟨_, rfl⟩

theorem does_fifoDrain (hi : i < 4) (h : (vget s.tdc.ch i).fifo ≠ []) (hready : isReady s = true) (hshort : (vget s.tdc.ch i).fifo.length < 512)
    (hold : ∀ e ∈ (vget s.tdc.ch i).fifo, e.1 + 100000 ≤ s.cyc) (hkept : (vget s.tdc.ch i).mainOffLost = none) :
    Does (.tdcFifoDrain ⟨i, hi⟩) s fun t => (vget t.tdc.ch i).fifo = [] ∧
      (∀ r, 0x90 ≤ fld (vget s.tdc.ch i).cfg 59 40 → ringOf s (fld (vget s.tdc.ch i).cfg 59 40) = some r →
        ringItems t (fld (vget s.tdc.ch i).cfg 59 40) = r.items + (vget s.tdc.ch i).fifo.length) := by
  obtain ⟨e, hrow⟩ := fifoDrain_due h hready hshort hold hkept
  refine ⟨settled s (fifoDrain i s), rfl, ?_, fun r _ hr => ?_⟩
  · have htdc : (publishNow (tRing (vget s.tdc.ch i).cfg) e s).tdc = s.tdc := tdc_of_unrecorded (publish_unrecorded ..)
    rw [tdc_of_hush (settled_hush ..), hrow]
    refine (congrArg TdcSt.fifo (vget_tdcMod hi _ _)).trans ?_
    rw [htdc]
    exact List.drop_eq_nil_of_le (by omega)
  · have hcount : (settled s (fifoDrain i s)).counted (tRing (vget s.tdc.ch i).cfg) = some (r.items + (vget s.tdc.ch i).fifo.length) := by
      rw [settled_counted, hrow, ringCount_counted, tdcMod_counted, publishNow_counted]
      simp only [State.counted, tRing, hr, Option.map_some]
    exact congrArg (·.getD 0) hcount

end

/-! ### Edges (R419 to R424, R430) -/

section
variable {s : State} {c : Nat}

theorem crossing_off (h : stage s = 0) (k : Nat) (d : Bool) (co f : Nat) : (crossing k d co f s).2 = s := by
  unfold crossing
  rw [if_pos (by simp [h])]

/-- An edge whose direction the channel does not take is nothing (R419). -/
theorem crossing_against {d : Bool} (h : slopeTakes s c d = false) (co f : Nat) : (crossing c d co f s).2 = s := by
  unfold crossing
  rw [if_pos (by simp [h])]

theorem slopeTakes_internal (h : 4 ≤ c) (s : State) (d : Bool) : slopeTakes s c d = !d := if_neg (by omega)

theorem slopeTakes_rising (hc : c < 4) (h : fld (vget s.tdc.ch c).cfg 14 13 = 0) : slopeTakes s c true = false := by
  simp [slopeTakes, hc, tSlope, h]

theorem slopeTakes_falling (hc : c < 4) (h : fld (vget s.tdc.ch c).cfg 14 13 = 1) : slopeTakes s c false = false := by
  simp [slopeTakes, hc, tSlope, h]

theorem slopeTakes_not_falling (h : fld (vget s.tdc.ch c).cfg 14 13 ≠ 1) : slopeTakes s c false = true := by
  unfold slopeTakes
  split
  · split
    · rfl
    · next h1 => exact absurd h1 h
    · rfl
  · rfl

/-- The edge of a rising crossing, timed by the pair whose turn it is (R420). -/
def risingEdge (s : State) (k p co f : Nat) : Edge :=
  ⟨co, (f * (vget (vget s.tdc.inp k).pairs p).lsb : Nat) + (vget (vget s.tdc.inp k).pairs p).ofs, (vget (vget s.tdc.inp k).pairs p).lsb, false⟩

/-- An edge within the dead time is counted and ignored (R419). -/
theorem takeEdge_dead {k p co f : Nat} {t0 : Int} (hp : pairFor s k = some p) (hlast : (vget s.tdc.inp k).lastAt = some t0)
    (hdead : edgeAt (risingEdge s k p co f) < t0 + deadTime (vget s.tdc.inp k)) :
    takeEdge k false co f s = (none, tinMod k (fun x => { x with missed := wrapAdd 32 x.missed 1 }) s) := by
  unfold takeEdge
  simp only [hp, hlast]
  exact if_pos (decide_eq_true hdead)

/-- The first edge of an input is taken (R419, R420). -/
theorem takeEdge_first {k p co f : Nat} (hp : pairFor s k = some p) (hlast : (vget s.tdc.inp k).lastAt = none) :
    takeEdge k false co f s = (some (risingEdge s k p co f), tinMod k (fun x => { x with next := (p + 1) % 18, lastAt := some (edgeAt (risingEdge s k p co f)) }) s) := by
  unfold takeEdge
  simp only [hp, hlast]
  rfl

/-- What an edge of channel c does to the external channel j (R425 to R428). -/
def feedOne (c : Nat) (e : Edge) (s : State) (j : Nat) : State :=
  let s := intervalLate j e.coarse s
  let x := vget s.tdc.ch j
  if c = j then startEdge j e s
  else if x.armed && tMode x.cfg == 0 && tStop x.cfg == c then stopEdge j e s
  else s

theorem edgeFeed_eq (c : Nat) (e : Edge) (s : State) : edgeFeed c e s = (List.range 4).foldl (feedOne c e) s := rfl

theorem feedOne_unarmed {j : Nat} (h : (vget s.tdc.ch j).armed = false) (c : Nat) (e : Edge) : feedOne c e s j = s := by
  unfold feedOne
  simp only [intervalLate_unarmed h]
  split
  · simp [startEdge, h]
  · rw [if_neg (by simp [h])]

/-- A fold in which one element alone acts. -/
theorem foldl_only {α β : Type} {f : β → α → β} {l : List α} {a : α} {b : β} (hnd : l.Nodup) (ha : a ∈ l) (hbefore : ∀ x ∈ l, x ≠ a → f b x = b)
    (hafter : ∀ x ∈ l, x ≠ a → f (f b a) x = f b a) : l.foldl f b = f b a := by
  have hrest : ∀ l : List α, (∀ x ∈ l, f (f b a) x = f b a) → l.foldl f (f b a) = f b a := by
    intro l hl
    induction l with
    | nil => rfl
    | cons x l ih => rw [List.foldl_cons, hl x (by simp), ih fun y hy => hl y (by simp [hy])]
  induction l with
  | nil => simp at ha
  | cons x l ih =>
    obtain ⟨hx, hnd⟩ := List.nodup_cons.mp hnd
    by_cases hxa : x = a
    · subst hxa
      exact hrest l fun y hy => hafter y (by simp [hy]) fun h => hx (h ▸ hy)
    · rw [List.foldl_cons, hbefore x (by simp) hxa]
      exact ih hnd ((List.mem_cons.mp ha).resolve_left (Ne.symm hxa)) (fun y hy => hbefore y (by simp [hy])) fun y hy => hafter y (by simp [hy])

theorem edgeFeed_unarmed (h : ∀ j : Fin 4, (vget s.tdc.ch j).armed = false) (c : Nat) (e : Edge) : edgeFeed c e s = s := by
  have hsame : feedOne c e s 0 = s := feedOne_unarmed (h 0) ..
  rw [edgeFeed_eq, foldl_only (a := 0) (by decide) (by decide) (fun j hj _ => feedOne_unarmed (h ⟨j, List.mem_range.mp hj⟩) ..)]
  · exact hsame
  · rw [hsame]
    exact fun j hj _ => feedOne_unarmed (h ⟨j, List.mem_range.mp hj⟩) ..

/-- A channel that measures alone takes an edge of its own. -/
theorem edgeFeed_own {i : Nat} (hi : i < 4) (hothers : ∀ j : Fin 4, j ≠ i → (vget s.tdc.ch j).armed = false) {e : Edge} {f : TdcSt → TdcSt}
    (howns : feedOne i e s i = tdcMod i f s) : edgeFeed i e s = tdcMod i f s := by
  have hidle : ∀ j ∈ List.range 4, j ≠ i → (vget s.tdc.ch j).armed = false := fun j hj hne => hothers ⟨j, List.mem_range.mp hj⟩ hne
  rw [edgeFeed_eq, ← howns]
  refine foldl_only (by decide) (List.mem_range.mpr hi) (fun j hj hne => feedOne_unarmed (hidle j hj hne) ..) fun j hj hne => ?_
  rw [howns]
  exact feedOne_unarmed (by rw [vget_tdcMod_ne hne]; exact hidle j hj hne) ..

/-- The first edge of an armed interval starts it (R426). -/
theorem feedOne_starts {i : Nat} (harmed : (vget s.tdc.ch i).armed = true) (hmode : fld (vget s.tdc.ch i).cfg 18 17 = 0) (hstart : (vget s.tdc.ch i).start = none)
    (hstop : (vget s.tdc.ch i).stop = none) (e : Edge) : feedOne i e s i = tdcMod i (fun x => { x with start := some (e, edgeStamp s e) }) s := by
  unfold feedOne
  simp only [intervalLate_idle hstart, if_true]
  unfold startEdge
  simp only [harmed, tMode, hmode, hstart, hstop]
  rfl

/-- What the event engines' share of an edge leaves (R430). -/
theorem edgeTrig_frame (i : Nat) (e : Edge) (s : State) : ∃ f ev, edgeTrig i e s = { tdcMod i f s with events := ev } ∧
    ∀ x : TdcSt, (f x).start = x.start ∧ (f x).armed = x.armed ∧ (f x).result = x.result := by
  unfold edgeTrig
  dsimp only
  generalize (if (vget s.tdc.ch i).trigRate.1 = _ then _ else 0) = n
  split
  · exact ⟨fun x => { x with trigDrops := wrapAdd 32 x.trigDrops 1 }, s.events, rfl, fun _ => ⟨rfl, rfl, rfl⟩⟩
  · exact ⟨fun x => { x with trigRate := (e.coarse / 400, n + 1) }, _, rfl, fun _ => ⟨rfl, rfl, rfl⟩⟩

/-- What a rising crossing on a channel in use does, once its direction is taken (R419 to R430). -/
theorem crossing_none {k co f : Nat} {u : State} (hon : stage s ≠ 0) (hslope : slopeTakes s k false = true) (hk : k ≠ 7) (h : takeEdge k false co f s = (none, u)) :
    (crossing k false co f s).2 = u := by
  unfold crossing
  rw [if_neg (by simp [hon, hslope, hk]), h]

theorem crossing_some {k co f : Nat} {e : Edge} {u : State} (hon : stage s ≠ 0) (hslope : slopeTakes s k false = true) (hk : k ≠ 7)
    (h : takeEdge k false co f s = (some e, u)) : (crossing k false co f s).2 = if k < 4 then edgeTrig k e (edgeFeed k e u) else edgeFeed k e u := by
  unfold crossing
  rw [if_neg (by simp [hon, hslope, hk]), h]

theorem does_deadEdge {k co f p : Nat} {t0 : Int} (hk : k < 10) (hon : stage s ≠ 0) (hin : 4 ≤ k) (h7 : k ≠ 7) (hp : pairFor s k = some p)
    (hlast : (vget s.tdc.inp k).lastAt = some t0) (hall : pairsOk (vget s.tdc.inp k) = 18)
    (hdead : (co : Int) * 2500000 - ((f * (vget (vget s.tdc.inp k).pairs p).lsb : Nat) + (vget (vget s.tdc.inp k).pairs p).ofs) < t0 + 10000000) :
    Does (.tinEdge ⟨k, hk⟩ false co f) s fun t => (vget t.tdc.inp k).missed = ((vget s.tdc.inp k).missed + 1) % 2 ^ 32 ∧
      (vget t.tdc.inp k).next = (vget s.tdc.inp k).next ∧ t.tdc.ch = s.tdc.ch ∧ ({ t with tdc := s.tdc } : State) = s := by
  have hdt : deadTime (vget s.tdc.inp k) = 10000000 := by simp [deadTime, hall]
  have hrow := crossing_none hon (slopeTakes_internal hin s false) h7 (takeEdge_dead (co := co) (f := f) hp hlast (by rw [hdt]; exact hdead))
  refine ⟨_, exec_quiet (t := (crossing k false co f s).2) rfl hrow rfl, ?_⟩
  dsimp only
  rw [vget_tinMod hk]
  exact ⟨rfl, rfl, rfl, rfl⟩

theorem does_idleEdge {k co f p : Nat} (hk : k < 10) (hon : stage s ≠ 0) (hin : 4 ≤ k) (h7 : k ≠ 7) (hp : pairFor s k = some p)
    (hlast : (vget s.tdc.inp k).lastAt = none) (hidle : ∀ j : Fin 4, (vget s.tdc.ch j).armed = false) :
    Does (.tinEdge ⟨k, hk⟩ false co f) s fun t => (vget t.tdc.inp k).next = (p + 1) % 18 ∧ (vget t.tdc.inp k).missed = (vget s.tdc.inp k).missed ∧
      t.tdc.ch = s.tdc.ch ∧ ({ t with tdc := s.tdc } : State) = s := by
  have hrow := crossing_some hon (slopeTakes_internal hin s false) h7 (takeEdge_first (co := co) (f := f) hp hlast)
  rw [if_neg (by omega), edgeFeed_unarmed (by exact hidle)] at hrow
  refine ⟨_, exec_quiet (t := (crossing k false co f s).2) rfl hrow rfl, ?_⟩
  dsimp only
  rw [vget_tinMod hk]
  exact ⟨rfl, rfl, rfl, rfl⟩

theorem does_startEdge {i : Fin 4} {co f p : Nat} (hon : stage s ≠ 0) (hslope : fld (vget s.tdc.ch i).cfg 14 13 ≠ 1) (hp : pairFor s i = some p)
    (hlast : (vget s.tdc.inp i).lastAt = none) (harmed : (vget s.tdc.ch i).armed = true) (hmode : fld (vget s.tdc.ch i).cfg 18 17 = 0)
    (hstart : (vget s.tdc.ch i).start = none) (hstop : (vget s.tdc.ch i).stop = none) (hothers : ∀ j : Fin 4, j ≠ i → (vget s.tdc.ch j).armed = false) :
    Does (.tinEdge (Fin.castLE (by decide) i) false co f) s fun t => (vget t.tdc.ch i).start = some (risingEdge s i p co f, edgeStamp s (risingEdge s i p co f)) ∧
      (vget t.tdc.ch i).armed = true ∧ (vget t.tdc.ch i).result = (vget s.tdc.ch i).result ∧ (vget t.tdc.inp i).next = (p + 1) % 18 ∧
      (∀ j : Fin 4, j ≠ i → vget t.tdc.ch j = vget s.tdc.ch j) ∧ ({ t with tdc := s.tdc, events := s.events } : State) = s := by
  have hrow := crossing_some hon (slopeTakes_not_falling hslope) (by omega) (takeEdge_first (co := co) (f := f) hp hlast)
  generalize hu : tinMod i _ s = u at hrow
  have hch : u.tdc.ch = s.tdc.ch := by rw [← hu]; rfl
  have hstamp : edgeStamp u (risingEdge s i p co f) = edgeStamp s (risingEdge s i p co f) := by rw [← hu]; rfl
  have hfeed := edgeFeed_own (s := u) i.isLt (by rw [hch]; exact fun j hj => hothers j fun h => hj (congrArg Fin.val h)) (feedOne_starts (by rw [hch]; exact harmed) (by rw [hch]; exact hmode)
    (by rw [hch]; exact hstart) (by rw [hch]; exact hstop) (risingEdge s i p co f))
  rw [if_pos i.isLt, hfeed, hstamp] at hrow
  obtain ⟨g, ev, htrig, hkeep⟩ := edgeTrig_frame i (risingEdge s i p co f) (tdcMod i (fun x => { x with start := some (risingEdge s i p co f, edgeStamp s (risingEdge s i p co f)) }) u)
  rw [htrig] at hrow
  refine ⟨_, exec_quiet (t := (crossing i false co f s).2) rfl hrow (by rw [← hu]; rfl), ?_⟩
  have hchan : vget (tdcMod i g (tdcMod i (fun x => { x with start := some (risingEdge s i p co f, edgeStamp s (risingEdge s i p co f)) }) u)).tdc.ch i =
      g { vget s.tdc.ch i with start := some (risingEdge s i p co f, edgeStamp s (risingEdge s i p co f)) } := by
    rw [vget_tdcMod i.isLt, vget_tdcMod i.isLt, hch]
  obtain ⟨hs, ha, hr⟩ := hkeep { vget s.tdc.ch i with start := some (risingEdge s i p co f, edgeStamp s (risingEdge s i p co f)) }
  dsimp only
  rw [hchan]
  refine ⟨hs, ha.trans harmed, hr, ?_, fun j hj => ?_, ?_⟩
  · rw [← hu]
    exact congrArg TdcIn.next (vget_tinMod (by omega) _ s)
  · have hne : j.val ≠ i.val := fun h => hj (Fin.ext h)
    rw [vget_tdcMod_ne hne, vget_tdcMod_ne hne, hch]
  · rw [← hu]
    simp only [tdcMod, tinMod]

end

/-! ### Self-calibration (R431, R432, R600, R603) -/

section
variable {s : State}

theorem maintAsk_raised (activity : Nat) (unit : Handle) (origin arg : Nat) (cmd : Option Cmd) (op : Nat) (s : State) :
    (maintAsk activity unit origin arg cmd op s).ev.raised = s.ev.raised := by
  unfold maintAsk
  split <;> rfl

theorem tdcAuto_asked (h : calAsked s = true) (b : Bool) : tdcAuto b s = s := by
  simp [tdcAuto, h]

/-- Where no channel asks for a calibration in time, only a change of temperature does (R431). -/
theorem tdcAuto_off (h : ∀ j : Fin 4, fld (vget s.tdc.ch j).cfg 79 64 = 0) (hidle : calAsked s = false) (b : Bool) :
    tdcAuto b s = if b then maintAsk 5 0x0D10 1 0 none 0 s else s := by
  have hnone : (List.range 4).find? (fun i => tAutoCal (vget s.tdc.ch i).cfg != 0 && decide (tAutoCal (vget s.tdc.ch i).cfg * secC ≤ since s (vget s.tdc.ch i).lastCalCyc)) = none := by
    refine List.find?_eq_none.mpr fun j hj => ?_
    have hj0 : tAutoCal (vget s.tdc.ch j).cfg = 0 := h ⟨j, List.mem_range.mp hj⟩
    simp [hj0]
  unfold tdcAuto
  dsimp only
  rw [if_neg (by simp [hidle]), hnone]

theorem tdcAuto_still (h : ∀ j : Fin 4, fld (vget s.tdc.ch j).cfg 79 64 = 0) : tdcAuto false s = s := by
  cases hasked : calAsked s with
  | true => exact tdcAuto_asked hasked false
  | false => exact tdcAuto_off h hasked false

/-- A pair of an input with what its calibration found (R432). -/
def pairMeasured (lsb : Nat) (ofs : Int) (k : PairSt) : PairSt := if 1450 ≤ lsb ∧ lsb ≤ 1550 then ⟨lsb, ofs, true⟩ else { k with ok := false }

/-- The pair that follows in a calibration: the grade G480 has no input 7 (R431, R432). -/
def pairAfter (g : Grade) (c p : Nat) : Nat × Nat := (if p < 17 then c else if c = 6 && g == .g480 then 8 else c + 1, if p < 17 then p + 1 else 0)

/-- The measurement with pair p of input c done. -/
def pairPassed (g : Grade) (c p lsb : Nat) (ofs : Int) (y : TdcsSt) : TdcsSt :=
  { y with inp := vmod y.inp c fun x => { x with pairs := vmod x.pairs p (pairMeasured lsb ofs) }, cal := some (pairAfter g c p) }

theorem pairDone_hush {c p : Nat} (hcal : s.tdc.cal = some (c, p)) (hc : c < 10) (lsb : Nat) (ofs : Int) :
    (pairDone lsb ofs s).hush = ({ s with tdc := pairPassed s.grade c p lsb ofs s.tdc } : State).hush := by
  have hgood : (fun k : PairSt => if (decide (1450 ≤ lsb) && decide (lsb ≤ 1550)) = true then (⟨lsb, ofs, true⟩ : PairSt) else { k with ok := false }) = pairMeasured lsb ofs := by
    funext k
    simp [pairMeasured]
  unfold pairDone
  simp only [hcal]
  rw [if_neg (by omega)]
  simp only [hgood]
  split
  · rfl
  · exact (raise_hush ..).trans rfl

theorem does_pairDone {k p : Nat} (hk : k < 10) (hp : p < 18) (l : Nat) (o : Int) (hcal : s.tdc.cal = some (k, p)) : Does (.tdcSelfcalPairDone l o) s fun t =>
    vget (vget t.tdc.inp k).pairs p = (if 1450 ≤ l ∧ l ≤ 1550 then ⟨l, o, true⟩ else { vget (vget s.tdc.inp k).pairs p with ok := false }) ∧
    (∀ q, q ≠ p → vget (vget t.tdc.inp k).pairs q = vget (vget s.tdc.inp k).pairs q) ∧ (p < 17 → t.tdc.cal = some (k, p + 1)) ∧
    (p = 17 → t.tdc.cal = some (if k = 6 ∧ s.grade = .g480 then 8 else k + 1, 0)) ∧ ({ t with tdc := s.tdc } : State).hush = s.hush := by
  refine does_tdc (t := pairDone l o s) rfl (pairDone_hush hcal hk l o) fun u hu hrest => ?_
  have hinp : vget u.tdc.inp k = { vget s.tdc.inp k with pairs := vmod (vget s.tdc.inp k).pairs p (pairMeasured l o) } := by
    rw [hu]
    exact vget_vmod_same _ _ hk
  have hnext : u.tdc.cal = some (pairAfter s.grade k p) := by rw [hu]; rfl
  rw [hinp, hnext]
  refine ⟨vget_vmod_same _ _ hp, fun q hq => vget_vmod_ne _ _ hq, fun h => ?_, fun h => ?_, hrest⟩
  · simp [pairAfter, h]
  · simp [pairAfter, h]

/-- Every channel has been calibrated (R431). -/
def calibrated (t : Time) (cyc : Nat) (y : TdcsSt) : TdcsSt := { y with cal := none, ch := y.ch.map fun x => { x with lastCal := t, lastCalCyc := cyc } }

theorem selfcalDone_idle (h : s.tdc.cal = none) : selfcalDone s = s := by
  simp only [selfcalDone, h]

theorem selfcalDone_hush {q : MaintReq} (hcal : s.tdc.cal = some (10, 0)) (hq : (s.maint.running.find? fun r => r.activity == 5) = some q) :
    (selfcalDone s).hush = (activityOver q { s with tdc := calibrated (now s) s.cyc s.tdc }).hush := by
  unfold selfcalDone
  simp only [hcal, hq]
  rw [if_neg (by decide)]
  refine (completeO_hush ..).trans ((maintEnd_over ..).trans ?_)
  exact hush_update (raise_hush ..) (activityOver q) fun _ => rfl

theorem does_selfcalDone {q : MaintReq} (hcal : s.tdc.cal = some (10, 0)) (hq : (s.maint.running.find? fun r => r.activity == 5) = some q) :
    Does .tdcSelfcalDone s fun t => t.tdc.cal = none ∧ (∀ j : Fin 4, (vget t.tdc.ch j).lastCal = now s ∧ (vget t.tdc.ch j).lastCalCyc = s.cyc) ∧
      t.tdc.inp = s.tdc.inp ∧ t.maint.running = s.maint.running.filter (fun r => r.ticket != q.ticket) ∧ ({ t with tdc := s.tdc, maint := s.maint } : State).hush = s.hush := by
  have hrow := selfcalDone_hush hcal hq
  refine does_row (t := selfcalDone s) rfl fun u hu => ?_
  have htdc : u.tdc = calibrated (now s) s.cyc s.tdc := tdc_of_hush (hu.trans hrow)
  have hrun := congrArg (·.running) (maint_of_hush (hu.trans hrow))
  refine ⟨by rw [htdc]; rfl, fun j => ?_, by rw [htdc]; rfl, hrun, hush_update (hu.trans hrow) (fun x => { x with tdc := s.tdc, maint := s.maint }) fun _ => rfl⟩
  have hj : vget u.tdc.ch j = { vget s.tdc.ch j with lastCal := now s, lastCalCyc := s.cyc } := by
    rw [htdc]
    simp [calibrated, vget]
  rw [hj]
  exact ⟨rfl, rfl⟩

end

/-- Settles O53: arms, edges, results, the FIFO, gates and the self-calibration of interval measurement. -/
theorem intervalMeasurement : Obligations.IntervalMeasurement := by
  unfold Obligations.IntervalMeasurement
  intro c s i
  have hsame : ∀ {i : Instr} {t : State}, exec i s = settle s t → t = s → exec i s = .next s := fun hi ht => exec_quiet hi ht rfl
  refine ⟨fun h => answers_of h rfl rfl, fun h h0 => answers_of h rfl (vTdcArm_now h0 _), fun t0 h h0 ht hlater => ?_, fun t0 h h0 ht hpast => ?_, fun h => answers_of h rfl rfl,
    fun r h hr => ?_, fun h => waits_of h rfl rfl, fun h => hsame rfl (by simp only [tdcArmTime, h]), fun t0 h hlater => hsame rfl ?_, fun t0 h hdue => ?_,
    fun h k d co f => hsame rfl (crossing_off h k d co f), fun k co f hk => hsame rfl (crossing_against (slopeTakes_internal hk s true) co f),
    fun co f h => hsame rfl (crossing_against (slopeTakes_rising i.isLt h) co f), fun co f h => hsame rfl (crossing_against (slopeTakes_falling i.isLt h) co f),
    fun k co f p t0 hon hin h7 hp hlast hall hdead => does_deadEdge k.isLt hon hin h7 hp hlast hall hdead,
    fun k co f p hon hin h7 hp hlast hidle => does_idleEdge k.isLt hon hin h7 hp hlast hidle,
    fun co f p hon hslope hp hlast harmed hmode hstart hstop hothers => does_startEdge hon hslope hp hlast harmed hmode hstart hstop hothers,
    fun a b t0 => intervalEnd_result i.isLt s a b t0, fun e => fifoTake_room i.isLt e, fun e => fifoTake_full i.isLt e,
    fun h => hsame rfl (tdcGateEnd_unarmed h), fun a t0 => does_tdcGateEnd i.isLt, fun h => hsame rfl (intervalLate_idle h _),
    fun a t0 => does_tdcIntervalOverflow i.isLt, fun h => hsame rfl (fifoDrain_empty h), does_fifoDrain i.isLt,
    fun b h => hsame rfl (tdcAuto_asked h b), fun h => hsame rfl (tdcAuto_still h), fun h hidle => exec_quiet rfl (tdcAuto_off h hidle true) (maintAsk_raised ..),
    fun l o h => hsame rfl (by simp only [pairDone, h]), fun k p l o => does_pairDone k.isLt p.isLt l o, fun h => hsame rfl (selfcalDone_idle h), fun q => does_selfcalDone⟩
  · exact answers_of h rfl (vTdcArm_later h0 ht (by rwa [begun_now rfl]))
  · exact answers_of h rfl (by rw [← begun_now (v := vTdcArm) (c := c) (s := s) rfl] at hpast ⊢; exact vTdcArm_past h0 ht hpast)
  · obtain ⟨k, j, hb⟩ := begun_frame (v := vTdcRead) (c := c) (s := s) rfl
    exact answers_of h rfl (by rw [hb]; simp [vTdcRead, hr])
  · simp only [tdcArmTime, h]
    exact if_neg (Nat.not_le.mpr hlater)
  · exact exec_quiet rfl (by simp only [tdcArmTime, h]; exact if_pos hdue) rfl

end Sys2Proof.Machine
end

section
/-! The control outputs (R547 to R555, R568), and O54. -/
namespace Sys2Proof.Machine
open Sys2Proof

theorem vget_map {α β : Type} [Inhabited α] [Inhabited β] {n k : Nat} (h : k < n) (f : α → β) (v : Vector α n) : vget (v.map f) k = f (vget v k) := by
  simp [vget, h]

theorem vget_ofFn {α : Type} [Inhabited α] {n k : Nat} (h : k < n) (f : Fin n → α) : vget (Vector.ofFn f) k = f ⟨k, h⟩ := by
  simp [vget, h]

section
variable {i : Instr} {s t : State} {y : DacsSt} {P : State → Prop}

/-- A row that State.hush shows to touch the control outputs alone. -/
theorem does_dacs (hi : exec i s = settle s t) (ht : t.hush = ({ s with dacs := y } : State).hush)
    (hp : ∀ u : State, u.dacs = y → ({ u with dacs := s.dacs } : State).hush = s.hush → P u) : Does i s P :=
  does_row hi fun u hu => hp u (dacs_of_hush (hu.trans ht)) (hush_update (hu.trans ht) (fun x => { x with dacs := s.dacs }) fun _ => rfl)

end

theorem vget_dacMod {i : Nat} (hi : i < 12) (f : DacSt → DacSt) (s : State) : vget (dacMod i f s).dacs.ch i = f (vget s.dacs.ch i) := vget_vmod_same _ f hi

theorem isDac_lt {s : State} {h : Handle} (hunit : isA s .dac h = true) : idx h < 12 := idx_lt_of_runs (by decide) (by decide) hunit

/-! ### What the operations at a tick leave of a channel -/

/-- The settings of a channel, and the clear causes that act on it alone. -/
def DacSt.settings (x : DacSt) : BitVec 16 × BitVec 64 × BitVec 16 × BitVec 16 × Bool × Bool := (x.inReg, x.cfg, x.clearCode, x.nvmCode, x.refClear, x.overcurrent)

/-- What waits for a later part of the tick. -/
def DacSt.due (x : DacSt) : Bool × Bool × Bool := (x.newRange, x.leaveClamp, x.clearDue)

section
variable {s : State} {u : Nat} {x y : DacSt}

theorem settings_reads (h : y.settings = x.settings) (s : State) : y.inReg = x.inReg ∧ y.cfg = x.cfg ∧ clearOf s y = clearOf s x ∧ cleared s y = cleared s x := by
  simp only [DacSt.settings, Prod.mk.injEq] at h
  obtain ⟨hin, hcfg, hcode, hnvm, href, hover⟩ := h
  exact ⟨hin, hcfg, by rw [clearOf, clearOf, hcode, hnvm], by rw [cleared, cleared, href, hover]⟩

@[simp] theorem leashMove_settings (x : DacSt) : (leashMove x).settings = x.settings := rfl
@[simp] theorem leashMove_due (x : DacSt) : (leashMove x).due = x.due := rfl
@[simp] theorem leashMove_dacReg (x : DacSt) : (leashMove x).dacReg = x.dacReg := rfl
@[simp] theorem leashMove_lastLoad (x : DacSt) : (leashMove x).lastLoad = x.lastLoad := rfl

theorem leashMove_moves (x : DacSt) : (leashMove x).ch = .normal ∨ (leashMove x).ch = .slewing := ite_eq_or_eq ..

@[simp] theorem moveStart_settings (u : Nat) (x : DacSt) : (moveStart u x).settings = x.settings := by unfold moveStart; split <;> rfl
@[simp] theorem moveStart_due (u : Nat) (x : DacSt) : (moveStart u x).due = x.due := by unfold moveStart; split <;> rfl
@[simp] theorem moveStart_dacReg (u : Nat) (x : DacSt) : (moveStart u x).dacReg = x.dacReg := by unfold moveStart; split <;> rfl
@[simp] theorem moveStart_lastLoad (u : Nat) (x : DacSt) : (moveStart u x).lastLoad = x.lastLoad := by unfold moveStart; split <;> rfl

theorem moveStart_moves (u : Nat) (x : DacSt) : (moveStart u x).ch = .normal ∨ (moveStart u x).ch = .slewing := by
  unfold moveStart
  split
  · exact leashMove_moves _
  · exact .inl rfl

/-- A channel's registers as a load takes them (R548). -/
def loaded (s : State) (x : DacSt) : DacSt := { x with dacReg := x.inReg, loadPending := false, loads := wrapAdd 32 x.loads 1, lastLoad := now s }

/-- What a load can make of its channel (R548, R550 to R552): the registers alone, a move begun, or an end of its slew or of its clamp's clear. -/
theorem loadNow_cases (s : State) (u : Nat) (x : DacSt) : loadNow s u x = loaded s x ∨ loadNow s u x = moveStart u (loaded s x) ∨
    loadNow s u x = { loaded s x with out := x.inReg, ch := .normal } ∨ loadNow s u x = { loaded s x with ch := .normal } ∨
    (x.ch = .clamped ∧ loadNow s u x = { loaded s x with clampCleared := false }) := by
  unfold loadNow
  dsimp only
  split
  · split
    · exact .inl rfl
    · exact .inr (.inl rfl)
  · split
    · exact .inr (.inr (.inl rfl))
    · split
      · exact .inr (.inr (.inr (.inl rfl)))
      · exact .inl rfl
  · exact .inr (.inl rfl)
  · next hc =>
    split
    · exact .inr (.inr (.inr (.inr ⟨hc, rfl⟩)))
    · exact .inl rfl
  · exact .inl rfl

/-- A view of a channel that a load leaves as its registers' step does. -/
theorem loadNow_view {β : Type} (g : DacSt → β) (hmove : ∀ u y, g (moveStart u y) = g y) (hout : ∀ (y : DacSt) o, g { y with out := o, ch := .normal } = g y)
    (hch : ∀ y : DacSt, g { y with ch := .normal } = g y) (hclamp : ∀ y : DacSt, g { y with clampCleared := false } = g y) (s : State) (u : Nat) (x : DacSt) :
    g (loadNow s u x) = g (loaded s x) := by
  rcases loadNow_cases s u x with h | h | h | h | ⟨-, h⟩ <;> rw [h]
  · exact hmove ..
  · exact hout (loaded s x) _
  · exact hch (loaded s x)
  · exact hclamp (loaded s x)

@[simp] theorem loadNow_settings (s : State) (u : Nat) (x : DacSt) : (loadNow s u x).settings = x.settings :=
  loadNow_view DacSt.settings moveStart_settings (fun _ _ => rfl) (fun _ => rfl) (fun _ => rfl) s u x
@[simp] theorem loadNow_due (s : State) (u : Nat) (x : DacSt) : (loadNow s u x).due = x.due :=
  loadNow_view DacSt.due moveStart_due (fun _ _ => rfl) (fun _ => rfl) (fun _ => rfl) s u x
theorem loadNow_dacReg (s : State) (u : Nat) (x : DacSt) : (loadNow s u x).dacReg = x.inReg :=
  loadNow_view DacSt.dacReg moveStart_dacReg (fun _ _ => rfl) (fun _ => rfl) (fun _ => rfl) s u x
theorem loadNow_lastLoad (s : State) (u : Nat) (x : DacSt) : (loadNow s u x).lastLoad = now s :=
  loadNow_view DacSt.lastLoad moveStart_lastLoad (fun _ _ => rfl) (fun _ => rfl) (fun _ => rfl) s u x

theorem loadNow_unclamped (h : x.ch ≠ .clamped) : (loadNow s u x).ch ≠ .clamped := by
  rcases loadNow_cases s u x with h' | h' | h' | h' | ⟨hc, -⟩
  · rwa [h']
  · rw [h']
    rcases moveStart_moves u (loaded s x) with hm | hm <;> rw [hm] <;> decide
  · rw [h']
    nofun
  · rw [h']
    nofun
  · exact absurd hc h

theorem loadNow_cleared (h : x.ch = .cleared) : loadNow s u x = loaded s x := by
  simp only [loadNow, loaded, h]

/-- Without the Leash a load takes the output to its target at once (R548, R550). -/
theorem loadNow_direct (h : x.ch = .normal) (hleash : bitAt x.cfg 2 = false) : (loadNow s u x).out = x.inReg ∧ (loadNow s u x).ch = .normal := by
  have hmove : moveStart u (loaded s x) = { loaded s x with out := x.inReg, ch := .normal } := if_neg (by rw [dLeash, loaded, hleash]; exact Bool.false_ne_true)
  rw [loaded, h] at hmove
  simp only [loadNow, h]
  split
  · next heq => exact ⟨heq, rfl⟩
  · rw [hmove]
    exact ⟨rfl, rfl⟩

@[simp] theorem clearNow_settings (s : State) (x : DacSt) : (clearNow s x).settings = x.settings := by
  unfold clearNow
  dsimp only
  split
  · split <;> rfl
  · rfl

/-- A clear takes the output to the clear code (R552). -/
theorem clearNow_takes (h : x.ch ≠ .clamped) : (clearNow s x).out = clearOf s x ∧ (clearNow s x).ch = if cleared s x then .cleared else .held := by
  unfold clearNow
  dsimp only
  split
  · next hc => exact absurd hc h
  · exact ⟨rfl, rfl⟩

@[simp] theorem powerUpNow_settings (s : State) (x : DacSt) : (powerUpNow s x).settings = x.settings := by unfold powerUpNow; split <;> rfl

/-! ### The tick (R549) -/

/-- The load of a tick (R548, R551). -/
def chanLoad (s : State) (u : Nat) (groups : BitVec 3) (i : Nat) (x : DacSt) : DacSt :=
  if x.loadPending || (bitAt groups (i / 4) && (!dUpdate x.cfg || x.ch == .held)) then loadNow s u x else x

@[simp] theorem chanLoad_settings (s : State) (u : Nat) (groups : BitVec 3) (i : Nat) (x : DacSt) : (chanLoad s u groups i x).settings = x.settings := by
  unfold chanLoad
  split
  · exact loadNow_settings ..
  · rfl

theorem chanLoad_due (s : State) (u : Nat) (groups : BitVec 3) (i : Nat) (x : DacSt) : (chanLoad s u groups i x).due = x.due := by
  unfold chanLoad
  split
  · exact loadNow_due ..
  · rfl

theorem chanLoad_unclamped {groups : BitVec 3} {i : Nat} (h : x.ch ≠ .clamped) : (chanLoad s u groups i x).ch ≠ .clamped := by
  unfold chanLoad
  split
  · exact loadNow_unclamped h
  · exact h

theorem chanLoad_none (i : Nat) (h : x.loadPending = false) : chanLoad s u 0 i x = x := by
  have hbit : bitAt 0#3 (i / 4) = false := by simp [bitAt]
  exact if_neg (by simp [h, hbit])

theorem chanLoad_own (groups : BitVec 3) (i : Nat) (h : x.loadPending = true) : chanLoad s u groups i x = loadNow s u x := if_pos (by simp [h])

/-- The changes of range of a tick (R555). -/
def chanRange (u : Nat) (x : DacSt) : DacSt :=
  if x.newRange then clampNow u x else if x.leaveClamp then moveStart u { x with leaveClamp := false, clampStart := none } else x

theorem chanRange_none (hrange : x.newRange = false) (hclamp : x.leaveClamp = false) : chanRange u x = x := by
  rw [chanRange, hrange, hclamp]
  rfl

theorem chanRange_settings (u : Nat) (x : DacSt) : (chanRange u x).settings = x.settings := by
  unfold chanRange
  split
  · rfl
  · split
    · exact moveStart_settings ..
    · rfl

/-- The clear of a tick (R552). -/
def chanClear (s : State) (x : DacSt) : DacSt := if x.clearDue then clearNow s x else x

theorem chanTick_eq (s : State) (u : Nat) (groups : BitVec 3) (i : Nat) (x : DacSt) :
    chanTick s u groups i x = chanClear s (chanRange u (chanLoad s u groups i (if s.dacs.powerUpPending then powerUpNow s x else x))) := rfl

/-- A tick of a channel with no change of range under way: its power-up, its load, and its clear (R549 to R554). -/
theorem chanTick_plain {groups : BitVec 3} {i : Nat} (hy : (if s.dacs.powerUpPending then powerUpNow s x else x) = y) (hrange : y.newRange = false) (hclamp : y.leaveClamp = false) :
    chanTick s u groups i x = if y.clearDue then clearNow s (chanLoad s u groups i y) else chanLoad s u groups i y := by
  have hdue := chanLoad_due s u groups i y
  simp only [DacSt.due, Prod.mk.injEq] at hdue
  obtain ⟨hrange', hclamp', hclear⟩ := hdue
  rw [chanTick_eq, hy, chanRange_none (hrange'.trans hrange) (hclamp'.trans hclamp), chanClear, hclear]

/-- A tick leaves a channel's settings (R549). -/
theorem chanTick_settings (s : State) (u : Nat) (groups : BitVec 3) (i : Nat) (x : DacSt) : (chanTick s u groups i x).settings = x.settings := by
  have hpower : (if s.dacs.powerUpPending then powerUpNow s x else x).settings = x.settings := by split <;> simp
  have hclear : ∀ y, (chanClear s y).settings = y.settings := fun y => by
    unfold chanClear
    split <;> simp
  rw [chanTick_eq, hclear, chanRange_settings, chanLoad_settings, hpower]

end

section
variable {s : State}

/-- Groups whose strobes act at the present tick (R549). -/
def groupsDue (s : State) : BitVec 3 :=
  (s.dacs.scheduled.filter fun p => p.2 ≤ nowUs s * 65536000).foldl (fun g p => g ||| BitVec.ofNat 3 p.1) s.dacs.strobes

/-- The control outputs after a tick (R549). -/
def dacsTicked (s : State) : DacsSt :=
  { s.dacs with
    ch := Vector.ofFn fun i => chanTick s (nowUs s) (groupsDue s) i.val (vget s.dacs.ch i.val)
    scheduled := s.dacs.scheduled.filter fun p => !decide (p.2 ≤ nowUs s * 65536000), strobes := 0, strobeCmds := [], powerUpPending := false, lastTick := some (nowUs s) }

theorem dacTick_taken (h : s.dacs.lastTick = some (nowUs s)) : dacTick s = s := by
  unfold dacTick
  exact if_pos (by simp [h])

theorem dacTick_hush (h : s.dacs.lastTick ≠ some (nowUs s)) : (dacTick s).hush = ({ s with dacs := dacsTicked s } : State).hush := by
  unfold dacTick
  dsimp only
  rw [if_neg (by simpa using h)]
  refine (foldl_keeps State.hush _ (fun _ _ => complete_hush ..) _ _).trans ?_
  exact (foldl_keeps State.hush _ (fun _ _ => raise_hush ..) _ _).trans rfl

theorem vget_dacsTicked {k : Nat} (hk : k < 12) : vget (dacsTicked s).ch k = chanTick s (nowUs s) (groupsDue s) k (vget s.dacs.ch k) := vget_ofFn hk _

theorem dacsTicked_scheduled (p : Nat × Time) (hp : p ∈ (dacsTicked s).scheduled) : nowUs s * 65536000 < p.2 := by
  have := (List.mem_filter.mp hp).2
  simpa using this

theorem groupsDue_none (hstrobes : s.dacs.strobes = 0) (hsched : s.dacs.scheduled = []) : groupsDue s = 0 := by
  simp [groupsDue, hstrobes, hsched]

/-- A channel with nothing due stays as it is. -/
theorem dacsTicked_idle {k : Nat} (hk : k < 12) (hpower : s.dacs.powerUpPending = false) (hload : (vget s.dacs.ch k).loadPending = false) (hrange : (vget s.dacs.ch k).newRange = false)
    (hclamp : (vget s.dacs.ch k).leaveClamp = false) (hclear : (vget s.dacs.ch k).clearDue = false) (hstrobes : s.dacs.strobes = 0) (hsched : s.dacs.scheduled = []) :
    vget (dacsTicked s).ch k = vget s.dacs.ch k := by
  rw [vget_dacsTicked hk, chanTick_plain (by rw [hpower]; rfl) hrange hclamp, hclear, groupsDue_none hstrobes hsched, chanLoad_none k hload]
  rfl

/-- A clear that is due takes the output to the clear code, whatever was loaded (R552). -/
theorem dacsTicked_clears {k : Nat} (hk : k < 12) (hpower : s.dacs.powerUpPending = false) (hclear : (vget s.dacs.ch k).clearDue = true) (hch : (vget s.dacs.ch k).ch ≠ .clamped)
    (hrange : (vget s.dacs.ch k).newRange = false) (hclamp : (vget s.dacs.ch k).leaveClamp = false) : (vget (dacsTicked s).ch k).out = clearOf s (vget s.dacs.ch k) ∧
      (cleared s (vget s.dacs.ch k) = true → (vget (dacsTicked s).ch k).ch = .cleared) := by
  obtain ⟨-, -, hcode, hcause⟩ := settings_reads (chanLoad_settings s (nowUs s) (groupsDue s) k (vget s.dacs.ch k)) s
  obtain ⟨hout, hstate⟩ := clearNow_takes (s := s) (chanLoad_unclamped (s := s) (u := nowUs s) (groups := groupsDue s) (i := k) hch)
  rw [vget_dacsTicked hk, chanTick_plain (by rw [hpower]; rfl) hrange hclamp, hclear]
  refine ⟨hout.trans hcode, fun hc => hstate.trans ?_⟩
  rw [hcause, hc]
  rfl

/-- A load that is due (R548, R551, R552). -/
theorem dacsTicked_loads {k : Nat} (hk : k < 12) (hpower : s.dacs.powerUpPending = false) (hload : (vget s.dacs.ch k).loadPending = true) (hclear : (vget s.dacs.ch k).clearDue = false)
    (hrange : (vget s.dacs.ch k).newRange = false) (hclamp : (vget s.dacs.ch k).leaveClamp = false) : (vget (dacsTicked s).ch k).dacReg = (vget s.dacs.ch k).inReg ∧
      (vget (dacsTicked s).ch k).lastLoad = now s ∧ ((vget s.dacs.ch k).ch = .cleared → (vget (dacsTicked s).ch k).out = (vget s.dacs.ch k).out ∧ (vget (dacsTicked s).ch k).ch = .cleared) ∧
      ((vget s.dacs.ch k).ch = .normal → bitAt (vget s.dacs.ch k).cfg 2 = false → (vget (dacsTicked s).ch k).out = (vget s.dacs.ch k).inReg ∧ (vget (dacsTicked s).ch k).ch = .normal) := by
  rw [vget_dacsTicked hk, chanTick_plain (by rw [hpower]; rfl) hrange hclamp, hclear, chanLoad_own _ _ hload]
  refine ⟨loadNow_dacReg .., loadNow_lastLoad .., fun hc => ?_, loadNow_direct⟩
  rw [if_neg Bool.false_ne_true, loadNow_cleared hc]
  exact ⟨rfl, hc⟩

/-- The tick at which the outputs come up (R554). -/
theorem dacsTicked_powersUp {k : Nat} (hk : k < 12) (hpower : s.dacs.powerUpPending = true) (hstrobes : s.dacs.strobes = 0) (hsched : s.dacs.scheduled = [])
    (hload : (vget s.dacs.ch k).loadPending = false) (hrange : (vget s.dacs.ch k).newRange = false) (hclamp : (vget s.dacs.ch k).leaveClamp = false) :
    (cleared s (vget s.dacs.ch k) = true → (vget (dacsTicked s).ch k).out = clearOf s (vget s.dacs.ch k) ∧ (vget (dacsTicked s).ch k).ch = .cleared) ∧
    (cleared s (vget s.dacs.ch k) = false → (vget s.dacs.ch k).clearDue = false → (vget (dacsTicked s).ch k).out = (vget s.dacs.ch k).dacReg ∧ (vget (dacsTicked s).ch k).ch = .normal) := by
  rw [vget_dacsTicked hk, groupsDue_none hstrobes hsched]
  generalize vget s.dacs.ch k = x at hload hrange hclamp
  refine ⟨fun hc => ?_, fun hc hclear => ?_⟩
  · have hup : (if s.dacs.powerUpPending then powerUpNow s x else x) = { x with out := clearOf s x, ch := .cleared, clearDue := false } := by
      rw [hpower]
      exact if_pos hc
    rw [chanTick_plain hup hrange hclamp, if_neg Bool.false_ne_true, chanLoad_none k (x := { x with out := clearOf s x, ch := .cleared, clearDue := false }) hload]
    exact ⟨rfl, rfl⟩
  · have hup : (if s.dacs.powerUpPending then powerUpNow s x else x) = { x with out := x.dacReg, ch := .normal } := by
      rw [hpower]
      exact if_neg (Bool.eq_false_iff.mp hc)
    rw [chanTick_plain hup hrange hclamp, chanLoad_none k (x := { x with out := x.dacReg, ch := .normal }) hload]
    simp [hclear]

theorem does_tick (hnew : s.dacs.lastTick ≠ some (nowUs s)) (hpower : s.dacs.powerUpPending = false) : Does .dacUpdateTick s fun t => t.dacs.lastTick = some (nowUs s) ∧
    t.dacs.strobes = 0 ∧ t.dacs.strobeCmds = [] ∧ (∀ p ∈ t.dacs.scheduled, nowUs s * 65536000 < p.2) ∧
    (∀ k : Fin 12, (vget t.dacs.ch k).inReg = (vget s.dacs.ch k).inReg ∧ (vget t.dacs.ch k).cfg = (vget s.dacs.ch k).cfg) ∧
    (∀ k : Fin 12, (vget s.dacs.ch k).loadPending = false → (vget s.dacs.ch k).newRange = false → (vget s.dacs.ch k).leaveClamp = false → (vget s.dacs.ch k).clearDue = false →
      s.dacs.strobes = 0 → s.dacs.scheduled = [] → vget t.dacs.ch k = vget s.dacs.ch k) ∧
    (∀ k : Fin 12, (vget s.dacs.ch k).clearDue = true → (vget s.dacs.ch k).ch ≠ .clamped → (vget s.dacs.ch k).newRange = false → (vget s.dacs.ch k).leaveClamp = false →
      (vget t.dacs.ch k).out = clearOf s (vget s.dacs.ch k) ∧ (cleared s (vget s.dacs.ch k) = true → (vget t.dacs.ch k).ch = .cleared)) ∧
    (∀ k : Fin 12, (vget s.dacs.ch k).loadPending = true → (vget s.dacs.ch k).clearDue = false → (vget s.dacs.ch k).newRange = false → (vget s.dacs.ch k).leaveClamp = false →
      (vget t.dacs.ch k).dacReg = (vget s.dacs.ch k).inReg ∧ (vget t.dacs.ch k).lastLoad = now s ∧
      ((vget s.dacs.ch k).ch = .cleared → (vget t.dacs.ch k).out = (vget s.dacs.ch k).out ∧ (vget t.dacs.ch k).ch = .cleared) ∧
      ((vget s.dacs.ch k).ch = .normal → bitAt (vget s.dacs.ch k).cfg 2 = false → (vget t.dacs.ch k).out = (vget s.dacs.ch k).inReg ∧ (vget t.dacs.ch k).ch = .normal)) ∧
    ({ t with dacs := s.dacs } : State).hush = s.hush := by
  refine does_dacs (t := dacTick s) rfl (dacTick_hush hnew) fun u hu hrest => ?_
  rw [hu]
  refine ⟨rfl, rfl, rfl, dacsTicked_scheduled, fun k => ?_, fun k => dacsTicked_idle k.isLt hpower, fun k => dacsTicked_clears k.isLt hpower, fun k => dacsTicked_loads k.isLt hpower, hrest⟩
  obtain ⟨hin, hcfg, -, -⟩ := settings_reads (chanTick_settings s (nowUs s) (groupsDue s) k (vget s.dacs.ch k)) s
  rw [vget_dacsTicked k.isLt]
  exact ⟨hin, hcfg⟩

theorem does_powerUpTick (hnew : s.dacs.lastTick ≠ some (nowUs s)) (hpower : s.dacs.powerUpPending = true) (hstrobes : s.dacs.strobes = 0) (hsched : s.dacs.scheduled = []) :
    Does .dacUpdateTick s fun t => t.dacs.powerUpPending = false ∧
      ∀ k : Fin 12, (vget s.dacs.ch k).loadPending = false → (vget s.dacs.ch k).newRange = false → (vget s.dacs.ch k).leaveClamp = false →
        (cleared s (vget s.dacs.ch k) = true → (vget t.dacs.ch k).out = clearOf s (vget s.dacs.ch k) ∧ (vget t.dacs.ch k).ch = .cleared) ∧
        (cleared s (vget s.dacs.ch k) = false → (vget s.dacs.ch k).clearDue = false → (vget t.dacs.ch k).out = (vget s.dacs.ch k).dacReg ∧ (vget t.dacs.ch k).ch = .normal) := by
  refine does_dacs (t := dacTick s) rfl (dacTick_hush hnew) fun u hu _ => ?_
  rw [hu]
  exact ⟨rfl, fun k => dacsTicked_powersUp k.isLt hpower hstrobes hsched⟩

end

/-! ### The Leash and the clamp (R550, R555) -/

section
variable {s : State} {i : Nat}

theorem leashStep_idle (h : (vget s.dacs.ch i).ch ≠ .slewing ∨ nowUs s < (vget s.dacs.ch i).slewAt + fld (vget s.dacs.ch i).cfg 47 32) : leashStep i s = s := by
  unfold leashStep
  refine if_pos ?_
  rw [Bool.or_eq_true, bne_iff_ne, decide_eq_true_iff]
  exact h

theorem leashStep_due (hch : (vget s.dacs.ch i).ch = .slewing) (hdue : (vget s.dacs.ch i).slewAt + fld (vget s.dacs.ch i).cfg 47 32 ≤ nowUs s) :
    leashStep i s = dacMod i (fun x => leashMove { x with slewAt := x.slewAt + dEvery x.cfg }) s := by
  unfold leashStep
  refine if_neg ?_
  rw [Bool.or_eq_true, bne_iff_ne, decide_eq_true_iff]
  exact fun h => h.elim (fun hne => hne hch) (Nat.not_lt.mpr hdue)

/-- A step of the Leash is toward the target, no longer than LEASH_STEP, and never past it (R550). -/
theorem leashMove_steps (x : DacSt) :
    (((leashMove x).out.toNat : Int) - x.out.toNat).natAbs = min (dStep x.cfg) ((x.dacReg.toNat : Int) - x.out.toNat).natAbs ∧
    ((x.dacReg.toNat : Int) - (leashMove x).out.toNat).natAbs = ((x.dacReg.toNat : Int) - x.out.toNat).natAbs - dStep x.cfg ∧
    ((leashMove x).ch = .normal ↔ (leashMove x).out = x.dacReg) := by
  have ho := x.out.isLt
  have hg := x.dacReg.isLt
  obtain ⟨o, hout, hch, hlt, hmoved, hleft⟩ : ∃ o, (leashMove x).out = BitVec.ofNat 16 o ∧ (leashMove x).ch = (if o = x.dacReg.toNat then DacCh.normal else .slewing) ∧ o < 2 ^ 16 ∧
      ((o : Int) - x.out.toNat).natAbs = min (dStep x.cfg) ((x.dacReg.toNat : Int) - x.out.toNat).natAbs ∧
      ((x.dacReg.toNat : Int) - o).natAbs = ((x.dacReg.toNat : Int) - x.out.toNat).natAbs - dStep x.cfg := by
    refine ⟨_, rfl, rfl, ?_⟩
    generalize x.out.toNat = o at ho
    generalize x.dacReg.toNat = g at hg
    split <;> omega
  have hval : (BitVec.ofNat 16 o).toNat = o := by rw [BitVec.toNat_ofNat, Nat.mod_eq_of_lt hlt]
  rw [hout, hch, hval]
  refine ⟨hmoved, hleft, ?_⟩
  rw [← BitVec.toNat_inj, hval]
  split
  · next h => simp [h]
  · next h => simp [h]

theorem does_leashStep (hi : i < 12) (hch : (vget s.dacs.ch i).ch = .slewing) (hdue : (vget s.dacs.ch i).slewAt + fld (vget s.dacs.ch i).cfg 47 32 ≤ nowUs s) :
    Does (.leashStep ⟨i, hi⟩) s fun t => (vget t.dacs.ch i).slewAt = (vget s.dacs.ch i).slewAt + fld (vget s.dacs.ch i).cfg 47 32 ∧ (vget t.dacs.ch i).dacReg = (vget s.dacs.ch i).dacReg ∧
      (((vget t.dacs.ch i).out.toNat : Int) - (vget s.dacs.ch i).out.toNat).natAbs = min (fld (vget s.dacs.ch i).cfg 31 16) (((vget s.dacs.ch i).dacReg.toNat : Int) - (vget s.dacs.ch i).out.toNat).natAbs ∧
      (((vget s.dacs.ch i).dacReg.toNat : Int) - (vget t.dacs.ch i).out.toNat).natAbs = (((vget s.dacs.ch i).dacReg.toNat : Int) - (vget s.dacs.ch i).out.toNat).natAbs - fld (vget s.dacs.ch i).cfg 31 16 ∧
      ((vget t.dacs.ch i).ch = .normal ↔ (vget t.dacs.ch i).out = (vget s.dacs.ch i).dacReg) ∧
      (∀ k, k ≠ i → vget t.dacs.ch k = vget s.dacs.ch k) ∧ ({ t with dacs := s.dacs } : State) = s := by
  obtain ⟨hmoved, hleft, hend⟩ := leashMove_steps { vget s.dacs.ch i with slewAt := (vget s.dacs.ch i).slewAt + dEvery (vget s.dacs.ch i).cfg }
  refine ⟨_, exec_quiet (t := leashStep i s) rfl (leashStep_due hch hdue) rfl, ?_⟩
  dsimp only
  rw [vget_dacMod hi]
  exact ⟨rfl, rfl, hmoved, hleft, hend, fun k hk => vget_vmod_ne _ _ hk, rfl⟩

theorem clampEnd_early {u : Nat} (h : (vget s.dacs.ch i).clampStart = some u) (hearly : nowUs s < u + 25) : clampEnd i s = s := by
  unfold clampEnd
  simp only [h]
  exact if_pos (by simp [hearly])

/-- The end of a clamp (R555): the move to the target waits for a tick, or CLEARED or HELD stands. -/
theorem does_clampEnd {u : Nat} (hi : i < 12) (h : (vget s.dacs.ch i).clampStart = some u) (hch : (vget s.dacs.ch i).ch = .clamped) (hstays : (vget s.dacs.ch i).leaveClamp = false)
    (hdue : u + 25 ≤ nowUs s) : Does (.dacClampEnd ⟨i, hi⟩) s fun t =>
      ((vget s.dacs.ch i).clampCleared = false → (vget t.dacs.ch i).leaveClamp = true ∧ (vget t.dacs.ch i).out = (vget s.dacs.ch i).out) ∧
      ((vget s.dacs.ch i).clampCleared = true → (vget t.dacs.ch i).out = clearOf s (vget s.dacs.ch i) ∧ (vget t.dacs.ch i).ch = if cleared s (vget s.dacs.ch i) = true then .cleared else .held) ∧
      ({ t with dacs := s.dacs } : State) = s := by
  have hwaits : ((vget s.dacs.ch i).ch != .clamped || (vget s.dacs.ch i).leaveClamp || decide (nowUs s < u + 25)) = false := by
    rw [hch, hstays, decide_eq_false (Nat.not_lt.mpr hdue)]
    rfl
  have hrow : clampEnd i s = if (vget s.dacs.ch i).clampCleared then
      dacMod i (fun x => { x with out := clearOf s x, ch := if cleared s x then .cleared else .held, clampStart := none, clampCleared := false }) s
      else dacMod i (fun x => { x with leaveClamp := true }) s := by
    unfold clampEnd
    simp only [h]
    exact if_neg (by rw [hwaits]; exact Bool.false_ne_true)
  cases hc : (vget s.dacs.ch i).clampCleared with
  | true =>
    rw [hc, if_pos rfl] at hrow
    refine ⟨_, exec_quiet (t := clampEnd i s) rfl hrow rfl, nofun, fun _ => ?_, rfl⟩
    rw [vget_dacMod hi]
    exact ⟨rfl, rfl⟩
  | false =>
    rw [hc, if_neg Bool.false_ne_true] at hrow
    refine ⟨_, exec_quiet (t := clampEnd i s) rfl hrow rfl, fun _ => ?_, nofun, rfl⟩
    rw [vget_dacMod hi]
    exact ⟨rfl, rfl⟩

end

/-! ### Clears (R552) -/

section
variable {s : State} {c : Cmd}

@[simp] theorem evClear_hush (type cause mask : Nat) (s : State) : (evClear type cause mask s).hush = s.hush := raise_hush ..

@[simp] theorem evDacFault_hush (type unit : Nat) (cur : Int) (s : State) : (evDacFault type unit cur s).hush = s.hush := raise_hush ..

theorem clrChange_same (s : State) : clrChange s.dacs.clrLow s = s := if_pos (by simp)

theorem refFault_same (s : State) : refFault s.dacs.refBad s = s := if_pos (by simp)

theorem clrChange_low (h : s.dacs.clrLow = false) :
    (clrChange true s).hush = ({ s with dacs := { s.dacs with clrLow := true, ch := s.dacs.ch.map fun x => { x with clearDue := true } } } : State).hush := by
  unfold clrChange
  rw [if_neg (by simp [h]), if_pos rfl]
  exact (evClear_hush ..).trans rfl

/-- The control outputs with DAC_CLR_N high again (R552). -/
def clrReleased (s : State) : DacsSt := (clearOver (dacsMod (fun d => { d with clrLow := false }) s)).dacs

theorem clrChange_high (h : s.dacs.clrLow = true) : (clrChange false s).hush = ({ s with dacs := clrReleased s } : State).hush := by
  unfold clrChange
  rw [if_neg (by simp [h]), if_neg Bool.false_ne_true]
  exact (evClear_hush ..).trans rfl

theorem refFault_out (h : s.dacs.refBad = false) :
    (refFault true s).hush = ({ s with dacs := { s.dacs with refBad := true, ch := s.dacs.ch.map fun x => { x with refClear := true, clearDue := true } } } : State).hush := by
  unfold refFault
  rw [if_neg (by simp [h]), if_pos rfl]
  exact (evClear_hush ..).trans ((evDacFault_hush ..).trans rfl)

theorem does_clrLow (h : s.dacs.clrLow = false) : Does (.dacClrNChange true) s fun t => t.dacs.clrLow = true ∧
    (∀ k : Fin 12, vget t.dacs.ch k = { vget s.dacs.ch k with clearDue := true }) ∧ ({ t with dacs := s.dacs } : State).hush = s.hush := by
  refine does_dacs (t := clrChange true s) rfl (clrChange_low h) fun u hu hrest => ?_
  rw [hu]
  exact ⟨rfl, fun k => vget_map k.isLt _ _, hrest⟩

theorem does_refOut (h : s.dacs.refBad = false) : Does (.dacReferenceFault true) s fun t => t.dacs.refBad = true ∧
    (∀ k : Fin 12, vget t.dacs.ch k = { vget s.dacs.ch k with refClear := true, clearDue := true }) ∧ ({ t with dacs := s.dacs } : State).hush = s.hush := by
  refine does_dacs (t := refFault true s) rfl (refFault_out h) fun u hu hrest => ?_
  rw [hu]
  exact ⟨rfl, fun k => vget_map k.isLt _ _, hrest⟩

/-- A channel once its last clear cause may be over (R551). -/
theorem vget_clearOver {k : Nat} (hk : k < 12) (u : State) : (vget (clearOver u).dacs.ch k).out = (vget u.dacs.ch k).out ∧
    (vget (clearOver u).dacs.ch k).refClear = (vget u.dacs.ch k).refClear ∧ (vget (clearOver u).dacs.ch k).overcurrent = (vget u.dacs.ch k).overcurrent ∧
    (vget (clearOver u).dacs.ch k).ch =
      if (vget u.dacs.ch k).ch = .cleared ∧ (vget u.dacs.ch k).clearDue = false ∧ cleared u (vget u.dacs.ch k) = false then .held else (vget u.dacs.ch k).ch := by
  have hchan : vget (clearOver u).dacs.ch k = _ := vget_map hk _ _
  rw [hchan]
  generalize vget u.dacs.ch k = x
  have hcond : (x.ch == .cleared && !x.clearDue && !cleared u x) = true ↔ x.ch = .cleared ∧ x.clearDue = false ∧ cleared u x = false := by simp [and_assoc]
  by_cases h : x.ch = .cleared ∧ x.clearDue = false ∧ cleared u x = false
  · rw [if_pos (hcond.mpr h), if_pos h]
    exact ⟨rfl, rfl, rfl, rfl⟩
  · rw [if_neg fun hb => h (hcond.mp hb), if_neg h]
    exact ⟨rfl, rfl, rfl, rfl⟩

theorem does_clrHigh (h : s.dacs.clrLow = true) : Does (.dacClrNChange false) s fun t => t.dacs.clrLow = false ∧ (∀ k : Fin 12, (vget t.dacs.ch k).out = (vget s.dacs.ch k).out ∧
    (vget t.dacs.ch k).ch = (if (vget s.dacs.ch k).ch = .cleared ∧ (vget s.dacs.ch k).clearDue = false ∧ (vget s.dacs.ch k).refClear = false ∧ (vget s.dacs.ch k).overcurrent = false then .held
      else (vget s.dacs.ch k).ch)) ∧ ({ t with dacs := s.dacs } : State).hush = s.hush := by
  refine does_dacs (t := clrChange false s) rfl (clrChange_high h) fun u hu hrest => ?_
  rw [hu]
  refine ⟨rfl, fun k => ?_, hrest⟩
  obtain ⟨hout, -, -, hch⟩ := vget_clearOver k.isLt (dacsMod (fun d => { d with clrLow := false }) s)
  refine ⟨hout, hch.trans (if_congr ?_ rfl rfl)⟩
  simp [cleared, dacsMod]

/-- The control outputs with every clear of a channel's own released (R552). -/
def clearsReleased (s : State) : DacsSt := (clearOver (dacsMod (fun d => { d with ch := d.ch.map fun x => { x with refClear := false, overcurrent := false } }) s)).dacs

theorem vDacRelease_hush (s : State) : (vDacRelease.act c s).1.hush = ({ s with dacs := clearsReleased s } : State).hush := by
  have hkeep : ∀ (b : Prop) [Decidable b] (type cause mask : Nat) (u : State), (if b then u else evClear type cause mask u).hush = u.hush := by
    intro b _ type cause mask u
    split
    · rfl
    · exact evClear_hush ..
  unfold vDacRelease
  dsimp only [ok]
  rw [hkeep, hkeep]
  rfl

theorem does_release (h : Accepts vDacRelease c s) : Does (.dacRelease c) s fun t => (∀ k : Fin 12, (vget t.dacs.ch k).refClear = false ∧ (vget t.dacs.ch k).overcurrent = false ∧
    (vget t.dacs.ch k).out = (vget s.dacs.ch k).out ∧
    (vget t.dacs.ch k).ch = (if (vget s.dacs.ch k).ch = .cleared ∧ (vget s.dacs.ch k).clearDue = false ∧ s.dacs.clrLow = false then .held else (vget s.dacs.ch k).ch)) ∧
    ({ t with dacs := s.dacs } : State).hush = s.hush := by
  refine does_of_act h rfl rfl fun k j t ht => ?_
  have hrow : t.hush = ({ s with dacs := clearsReleased s } : State).hush := ht.trans ((vDacRelease_hush _).trans rfl)
  refine ⟨fun k => ?_, hush_update hrow (fun x => { x with dacs := s.dacs }) fun _ => rfl⟩
  obtain ⟨hout, href, hover, hch⟩ := vget_clearOver k.isLt (dacsMod (fun d => { d with ch := d.ch.map fun x => { x with refClear := false, overcurrent := false } }) s)
  have hchan : vget (dacsMod (fun d => { d with ch := d.ch.map fun x => { x with refClear := false, overcurrent := false } }) s).dacs.ch k =
      { vget s.dacs.ch k with refClear := false, overcurrent := false } := vget_map k.isLt _ _
  rw [hchan] at hout href hover hch
  rw [dacs_of_hush hrow]
  refine ⟨href, hover, hout, hch.trans (if_congr ?_ rfl rfl)⟩
  simp [cleared, dacsMod]

theorem overcurrent_hush (i : Nat) (cur : Int) (s : State) : (overcurrent i cur s).hush = (dacMod i (fun x => { x with
    current := cur, ocPersists := decide (1500 < cur.natAbs), overcurrent := x.overcurrent || decide (1500 < cur.natAbs)
    clearDue := x.clearDue || (decide (1500 < cur.natAbs) && !x.overcurrent) }) s).hush := by
  unfold overcurrent
  dsimp only
  split
  · exact (evClear_hush ..).trans (evDacFault_hush ..)
  · rfl

theorem dacHeadroom_hush (i mv : Nat) (s : State) :
    (dacHeadroom i mv s).hush = (dacMod i (fun x => { x with headroom := decide (mv < 2800) && dRange (vget s.dacs.ch i).cfg }) s).hush := by
  unfold dacHeadroom
  dsimp only
  split
  · exact raise_hush ..
  · rfl

end

/-! ### The verbs, the strobe pins and power-up (R547, R548, R553, R554, R568) -/

section
variable {s : State} {c : Cmd}

/-- The CDAC_CFG that DAC.CONFIGURE asks for (R555). -/
def dacCfgOf (c : Cmd) : BitVec 64 := setFld (setFld (argW c 0 64) 15 3 0) 63 48 0

/-- A channel with a new CDAC_CFG (R555). -/
def dacConfigured (w : BitVec 64) (x : DacSt) : DacSt := { x with cfg := w, newRange := x.newRange || dRange w != dRange x.cfg, headroom := x.headroom && dRange w }

theorem dRange_dacCfgOf (c : Cmd) : dRange (dacCfgOf c) = bitAt (argW c 0 64) 0 := by
  unfold dRange dacCfgOf
  rw [bitAt_setFld_of_lt _ _ (by decide) (by decide) (by decide), bitAt_setFld_of_lt _ _ (by decide) (by decide) (by decide)]

theorem vDacConfigure_hush (s : State) : (vDacConfigure.act c s).1.hush = (dacMod (idx c.unit) (dacConfigured (dacCfgOf c)) s).hush := rfl

theorem dacConfigured_cfg (w : BitVec 64) (x : DacSt) : (dacConfigured w x).cfg = w := rfl
theorem dacConfigured_out (w : BitVec 64) (x : DacSt) : (dacConfigured w x).out = x.out := rfl

theorem dacs_restored {t : State} {y : DacsSt} (h : t.hush = ({ s with dacs := y } : State).hush) : ({ t with dacs := s.dacs } : State).hush = s.hush :=
  hush_update h (fun x => { x with dacs := s.dacs }) fun _ => rfl

theorem does_dacConfigure (h : Accepts vDacConfigure c s) (hrange : bitAt (argW c 0 64) 0 = bitAt (vget s.dacs.ch (idx c.unit)).cfg 0) : Does (.dacConfigure c) s fun t =>
    (vget t.dacs.ch (idx c.unit)).cfg = dacCfgOf c ∧ (vget t.dacs.ch (idx c.unit)).out = (vget s.dacs.ch (idx c.unit)).out ∧
    (vget t.dacs.ch (idx c.unit)).newRange = (vget s.dacs.ch (idx c.unit)).newRange ∧ (∀ k, k ≠ idx c.unit → vget t.dacs.ch k = vget s.dacs.ch k) ∧
    ({ t with dacs := s.dacs } : State).hush = s.hush := by
  obtain ⟨-, -, -, -, -, -, -, hfit, -⟩ := h.parts
  have hn : idx c.unit < 12 := isDac_lt hfit
  have hsame : dRange (dacCfgOf c) = dRange (vget s.dacs.ch (idx c.unit)).cfg := (dRange_dacCfgOf c).trans hrange
  refine does_of_act h rfl rfl fun k j t ht => ?_
  have hrow : t.hush = (dacMod (idx c.unit) (dacConfigured (dacCfgOf c)) s).hush := by
    rw [ht, vDacConfigure_hush]
    generalize dacCfgOf c = w
    rfl
  have hchan : vget t.dacs.ch (idx c.unit) = dacConfigured (dacCfgOf c) (vget s.dacs.ch (idx c.unit)) := by
    rw [dacs_of_hush hrow, vget_dacMod hn]
  have hcfg : (vget t.dacs.ch (idx c.unit)).cfg = dacCfgOf c := by rw [hchan, dacConfigured_cfg]
  have hout : (vget t.dacs.ch (idx c.unit)).out = (vget s.dacs.ch (idx c.unit)).out := by rw [hchan, dacConfigured_out]
  have hnew : (vget t.dacs.ch (idx c.unit)).newRange = (vget s.dacs.ch (idx c.unit)).newRange := by
    rw [hchan, dacConfigured, hsame, bne_self_eq_false, Bool.or_false]
  refine ⟨hcfg, hout, hnew, fun q hq => ?_, dacs_restored hrow⟩
  rw [dacs_of_hush hrow]
  exact vget_vmod_ne _ _ hq

theorem loadFall_short {ns : Nat} (h : ns < 100) (g : Nat) : loadFall g ns s = s := if_pos h

/-- A long enough low period of a load pin strobes its group (R548). -/
theorem strobe_bits (w : BitVec 3) (g k : Fin 3) : bitAt (w ||| BitVec.ofNat 3 (2 ^ g.val)) k = if k = g then true else bitAt w k := by
  revert w g k
  decide

theorem does_loadFall {ns : Nat} (h : 100 ≤ ns) (g : Fin 3) : Does (.loadGFall g ns) s fun t => bitAt t.dacs.strobes g = true ∧
    (∀ k : Fin 3, k ≠ g → bitAt t.dacs.strobes k = bitAt s.dacs.strobes k) ∧ t.dacs.ch = s.dacs.ch ∧ ({ t with dacs := s.dacs } : State) = s := by
  refine ⟨_, exec_quiet (t := loadFall g ns s) rfl (if_neg (Nat.not_lt.mpr h)) rfl, ?_, fun k hk => ?_, rfl, rfl⟩
  · exact (strobe_bits s.dacs.strobes g g).trans (if_pos rfl)
  · exact (strobe_bits s.dacs.strobes g k).trans (if_neg hk)

/-- A channel that powers up (R553, R554). -/
def dacPowered (s : State) (c : DacSt) : DacSt :=
  let x := s.grade == .g880x
  { c with inReg := clearOf s c, dacReg := clearOf s c, cfg := setBit c.cfg 0 (x && c.nvmRange && !auxLow s), headroom := x && c.nvmRange && auxLow s }

theorem dacPowerUp_idle (h : s.dacs.powered = true ∨ stage s = 0) : dacPowerUp s = s := if_pos (by simpa using h)

theorem dacPowerUp_hush (hoff : s.dacs.powered = false) (hon : stage s ≠ 0) :
    (dacPowerUp s).hush = ({ s with dacs := { s.dacs with powered := true, powerUpPending := true, ch := s.dacs.ch.map (dacPowered s) } } : State).hush := by
  unfold dacPowerUp
  rw [if_neg (by simp [hoff, hon])]
  refine (foldl_keeps State.hush _ (fun u k => ?_) _ _).trans rfl
  split
  · exact evDacFault_hush ..
  · rfl

theorem does_dacPowerUp (hoff : s.dacs.powered = false) (hon : stage s ≠ 0) : Does .dacPowerUp s fun t => t.dacs.powered = true ∧ t.dacs.powerUpPending = true ∧
    (∀ k : Fin 12, (vget t.dacs.ch k).inReg = clearOf s (vget s.dacs.ch k) ∧ (vget t.dacs.ch k).dacReg = clearOf s (vget s.dacs.ch k) ∧
      (vget t.dacs.ch k).out = (vget s.dacs.ch k).out ∧ (s.grade ≠ .g880x → bitAt (vget t.dacs.ch k).cfg 0 = false)) ∧ ({ t with dacs := s.dacs } : State).hush = s.hush := by
  refine does_dacs (t := dacPowerUp s) rfl (dacPowerUp_hush hoff hon) fun u hu hrest => ?_
  rw [hu]
  refine ⟨rfl, rfl, fun k => ?_, hrest⟩
  dsimp only
  rw [vget_map k.isLt]
  refine ⟨rfl, rfl, rfl, fun hg => ?_⟩
  have hx : (s.grade == .g880x) = false := by simpa using hg
  dsimp only [dacPowered]
  rw [bitAt_setBit _ (by decide), hx]
  rfl

end

/-- Settles O54: writes, strobes, ticks, the Leash, clamps, clears and power-up of the control outputs. -/
theorem controlOutputs : Obligations.ControlOutputs := by
  unfold Obligations.ControlOutputs
  intro c s i
  have hsame : ∀ {i : Instr} {t : State}, exec i s = settle s t → t = s → exec i s = .next s := fun hi ht => exec_quiet hi ht rfl
  refine ⟨does_dacConfigure, fun h => answers_of h rfl rfl, fun h => waits_of h rfl rfl, fun t0 h ht => ?_, fun h hg => ?_, fun h hg => ?_, does_release,
    fun g ns h => hsame rfl (loadFall_short h g), fun g ns h => does_loadFall h g, fun h => hsame rfl (dacTick_taken h), does_tick, does_powerUpTick,
    fun h => hsame rfl (leashStep_idle h), does_leashStep i.isLt, fun h => hsame rfl (by simp only [clampEnd, h]), fun u h hearly => hsame rfl (clampEnd_early h hearly),
    fun u h hch hstays hdue => does_clampEnd i.isLt h hch hstays hdue, hsame rfl (clrChange_same s), does_clrLow, does_clrHigh, hsame rfl (refFault_same s), does_refOut,
    fun h => exec_quiet (t := refFault false s) rfl (if_neg (by simp [h])) rfl, fun cur => ?_, fun mv => ?_, fun h => hsame rfl (dacPowerUp_idle h), does_dacPowerUp⟩
  · exact answers_of h rfl (by simp [vDacSchedule, ht, begun_now, dacsMod])
  · obtain ⟨k, j, hb⟩ := begun_frame (v := vDacSetClear) (c := c) (s := s) rfl
    exact answers_of h rfl (by rw [hb]; simp [vDacSetClear, hg, dacMod, ok, okWith])
  · obtain ⟨k, j, hb⟩ := begun_frame (v := vDacSetClear) (c := c) (s := s) rfl
    exact answers_of h rfl (by rw [hb]; simp [vDacSetClear, hg, dacMod, ok, okWith, dRange])
  · refine does_dacs (t := overcurrent i cur s) rfl (overcurrent_hush ..) fun u hu hrest => ?_
    rw [hu]
    exact ⟨vget_vmod_same _ _ i.isLt, fun k hk => vget_vmod_ne _ _ hk, hrest⟩
  · refine does_dacs (t := dacHeadroom i mv s) rfl (dacHeadroom_hush ..) fun u hu hrest => ?_
    rw [hu]
    exact ⟨vget_vmod_same _ _ i.isLt, fun k hk => vget_vmod_ne _ _ hk, hrest⟩

end Sys2Proof.Machine
end

section
/-! The removal of the main rails (R508, R512, R514, R517, R526). -/
namespace Sys2Proof.Machine
open Sys2Proof

theorem sec_of_hush {s t : State} (h : s.hush = t.hush) : s.sec = t.sec := by injection h

/-! ### Records outside READY, and commands that raised none -/

@[simp] theorem raise_mem (src type unit : Nat) (d : Bytes) (s : State) : (raise src type unit d s).mem = s.mem := by
  unfold raise raiseAt raiseRec evHold
  split
  · rfl
  · split
    · rfl
    · split <;> rfl

@[simp] theorem raise_rings (src type unit : Nat) (d : Bytes) (s : State) : (raise src type unit d s).rings = s.rings := by
  unfold raise raiseAt raiseRec evHold
  split
  · rfl
  · split
    · rfl
    · split <;> rfl

theorem not_ready_of_stage {s : State} {n : Nat} (h : stage s = n) (hn : n ≠ 7 ∧ n ≠ 14) : isReady s = false := by
  simp [isReady, h, hn]

/-- Outside READY a record does not join those of the command in progress (R28). -/
theorem raise_held {s : State} (h : isReady s = false) (src type unit : Nat) (d : Bytes) : (raise src type unit d s).ev.raised = s.ev.raised := by
  unfold raise raiseAt raiseRec evHold
  rw [if_neg (by simp [h])]
  split
  · rfl
  · split <;> rfl

/-- Where no record waits, the end of a command leaves memory and rings. -/
theorem settled_norecords {t : State} (h : t.ev.raised = []) (s : State) : (settled s t).mem = t.mem ∧ (settled s t).rings = t.rings := by
  have hrounds : ∀ (n : Nat) (u : State), evRounds n [] u = u := fun n u => by cases n <;> rfl
  unfold settled evFlush
  rw [h, hrounds]
  split <;> exact ⟨rfl, rfl⟩

/-- Nothing that a state holds of memory, rings and waiting records. -/
def Bare (s : State) : Prop := s.mem = [] ∧ s.rings = [] ∧ s.ev.raised = []

theorem Bare.settled {s t : State} (h : Bare t) : (settled s t).mem = [] := by
  obtain ⟨hmem, -, hraised⟩ := h
  rw [(settled_norecords hraised s).1, hmem]

theorem Bare.raise {s : State} (h : Bare s) (hoff : isReady s = false) (src type unit : Nat) (d : Bytes) : Bare (raise src type unit d s) := by
  obtain ⟨hmem, hrings, hraised⟩ := h
  exact ⟨(raise_mem ..).trans hmem, (raise_rings ..).trans hrings, (raise_held hoff ..).trans hraised⟩

theorem Bare.bankedMod {s : State} (h : Bare s) (p : WinPath) (f : BankedSt → BankedSt) : Bare (bankedMod p f s) := by
  cases p <;> exact h

theorem Bare.devResetDone {s : State} (h : Bare s) (st : Nat) : Bare (devResetDone st s) := by
  have hone : ∀ (u : State) (p : WinPath), Bare u → Bare (if (bankOf u p).serving && (bankOf u p).opcode == 0x1F01 && (bankOf u p).fwd.isNone
      then finish (.junction p) (bankOf u p).seq 0x1F01 (bankOf u p).unit (bankOf u p).unit st [] u else u) := by
    intro u p hu
    split
    · exact hu.bankedMod p _
    · exact hu
  exact hone _ .kennel (hone _ .cozor (hone s .smbus h))

theorem Bare.setStage {s : State} (h : Bare s) {n : Nat} (hn : n ≠ 7 ∧ n ≠ 14 ∧ n < 16) : Bare (setStage n s) := by
  have hstage : stage ({ s with boot := { s.boot with stage := BitVec.ofNat 4 n } } : State) = n := Nat.mod_eq_of_lt hn.2.2
  exact Bare.raise (s := { s with boot := { s.boot with stage := BitVec.ofNat 4 n } }) h (not_ready_of_stage hstage ⟨hn.1, hn.2.1⟩) ..

theorem Bare.powerChanged {s : State} (h : Bare s) (hoff : isReady s = false) (old : State) : Bare (powerChanged old s) := by
  unfold Machine.powerChanged
  split
  · exact h.raise hoff ..
  · exact h

/-! ### The planes stop -/

theorem maintAbandon_hush (s : State) : (maintAbandon s).hush = ({ s with maint := {}, tdc := { s.tdc with cal := none } } : State).hush :=
  hush_update (foldl_keeps State.hush (fun u r => evMaint 5 r u) (fun _ _ => evMaint_hush ..) _ s) (fun x => { x with maint := {}, tdc := { x.tdc with cal := none } }) fun _ => rfl

theorem abandonPower_hush (s : State) : (abandonPower s).hush = (powerMod (fun p => { p with transition := none }) s).hush := by
  unfold abandonPower
  split
  · next h =>
    have hsame : ({ s.power with transition := none } : PowerSt) = s.power := by rw [← h]
    rw [powerMod, hsame]
  · exact foldl_keeps State.hush _ (fun _ _ => complete_hush ..) _ _

theorem stopPlanes_hush (n : Nat) (s : State) : (stopPlanes n s).hush = ({ s with
    boot := { s.boot with stage := BitVec.ofNat 4 n }, maint := {}, tdc := { s.tdc with cal := none }, power := { s.power with transition := none } } : State).hush :=
  (abandonPower_hush _).trans (hush_update (maintAbandon_hush _) (powerMod fun p => { p with transition := none }) fun _ => rfl)

theorem portsDown_hush (s : State) : ∃ y, (portsDown s).hush = ({ s with time := y } : State).hush := by
  unfold portsDown
  split
  · obtain ⟨y, hy, -⟩ := ptpPortDown_frame (tPort s) s
    exact ⟨y, hy⟩
  · exact ⟨s.time, rfl⟩

/-! ### The rails off -/

/-- Bring-up with the main rails off (R512, R526). -/
def railsOffBoot (cyc : Nat) (b : BootState) : BootState :=
  { b with
    xinumVersion := 0, storeKept := false, degraded := false, linkTaken := false, b0WasUp := false, tePassed := 0, vFabModel := false
    slotsTried := [], onlyRollback := true, pendingReset := none
    mainOn := false, railsOffAt := if b.mainOn then cyc else b.railsOffAt, reentry3 := false, forceLink := false, linkBoot := false }

/-- The supervision with the main rails off. -/
def railsOffPower (p : PowerSt) : PowerSt := { p with state := .active, transition := none, railMv := Vector.replicate 10 0, railOut := 0 }

/-- What the removal of the main rails makes of a state whose STAGE takes the code n: bring-up with them off; the security core, the
control outputs and the loops as they were; memory, rings and waiting records gone (R10, R12, R300, R526). -/
structure RailsOff (n : Nat) (s t : State) : Prop where
  boot : t.boot = railsOffBoot s.cyc { s.boot with stage := BitVec.ofNat 4 n }
  power : t.power = railsOffPower s.power
  sec : t.sec = s.sec
  dacs : t.dacs = s.dacs
  loops : t.loops = s.loops
  bare : Bare t

theorem planesOff_stopPlanes (n : Nat) (s : State) : RailsOff n s (planesOff (stopPlanes n s)) := by
  obtain ⟨y, hy⟩ := portsDown_hush (stopPlanes n s)
  have hfrom : (forwardDrop (portsDown (stopPlanes n s))).hush = ({ s with
      boot := { s.boot with stage := BitVec.ofNat 4 n }, maint := {}, tdc := { s.tdc with cal := none }, power := { s.power with transition := none }, time := y } : State).hush :=
    (forwardDrop_hush _).trans (hy.trans (hush_update (stopPlanes_hush n s) (fun x => { x with time := y }) fun _ => rfl))
  have hboot := boot_of_hush hfrom
  have hcyc := cyc_of_hush hfrom
  have hpower := power_of_hush hfrom
  have hsec := sec_of_hush hfrom
  have hdacs := dacs_of_hush hfrom
  have hloops := loops_of_hush hfrom
  exact {
    boot := by
      show railsOffBoot (forwardDrop (portsDown (stopPlanes n s))).cyc (forwardDrop (portsDown (stopPlanes n s))).boot = _
      rw [hboot, hcyc]
    power := by
      show railsOffPower (forwardDrop (portsDown (stopPlanes n s))).power = _
      rw [hpower]
      rfl
    sec := hsec
    dacs := hdacs
    loops := hloops
    bare := ⟨rfl, rfl, rfl⟩ }

theorem RailsOff.stage_eq {n : Nat} {s t : State} (h : RailsOff n s t) (hn : n < 16) : stage t = n := by
  rw [stage, h.boot]
  exact Nat.mod_eq_of_lt hn

/-! ### An M (R512, R515, R526) -/

/-- What an M for `off` reference cycles makes of a state. -/
structure MBegun (off : Nat) (s t : State) : Prop where
  boot : t.boot = { railsOffBoot s.cyc s.boot with lastReset := 1, mHeld := true, offFor := max (10 * msC) off, stage := 8 }
  power : t.power = railsOffPower s.power
  sec : t.sec = s.sec
  dacs : t.dacs = s.dacs
  loops : t.loops = s.loops

theorem beginM_begun (origin mailbox : Nat) (seq : BitVec 32) (off : Nat) (s : State) :
    MBegun off s (beginM origin mailbox seq off s) ∧ Bare (beginM origin mailbox seq off s) := by
  have hread : (resetEntry 1 origin mailbox seq s).hush = s.hush := boxNow_hush ..
  unfold beginM
  dsimp only
  generalize resetEntry 1 origin mailbox seq s = r at hread
  have hoff := planesOff_stopPlanes 8 r
  generalize planesOff (stopPlanes 8 r) = t at hoff
  have hready : isReady (bootMod (fun b => { b with lastReset := 1, mHeld := true, offFor := max (10 * msC) off }) t) = false :=
    not_ready_of_stage (n := 8) (hoff.stage_eq (by decide)) (by decide)
  have hend : (devResetDone REFUSED_STATE (setStage 8 (powerChanged r (bootMod (fun b => { b with lastReset := 1, mHeld := true, offFor := max (10 * msC) off }) t)))).hush =
      (bootMod (fun b => { b with lastReset := 1, mHeld := true, offFor := max (10 * msC) off, stage := 8 }) t).hush :=
    (devResetDone_hush ..).trans ((setStage_hush ..).trans (hush_update (powerChanged_hush ..) (bootMod fun b => { b with stage := BitVec.ofNat 4 8 }) fun _ => rfl))
  refine ⟨?_, Bare.devResetDone (Bare.setStage (Bare.powerChanged (s := bootMod _ t) hoff.bare hready r) (by decide)) _⟩
  exact {
    boot := by
      rw [boot_of_hush hend, bootMod, hoff.boot, boot_of_hush hread, cyc_of_hush hread]
      rfl
    power := by rw [power_of_hush hend, bootMod, hoff.power, power_of_hush hread]
    sec := by rw [sec_of_hush hend, bootMod, hoff.sec, sec_of_hush hread]
    dacs := by rw [dacs_of_hush hend, bootMod, hoff.dacs, dacs_of_hush hread]
    loops := by rw [loops_of_hush hend, bootMod, hoff.loops, loops_of_hush hread] }

theorem MBegun.of_hush {off : Nat} {s t u : State} (h : MBegun off s t) (hu : u.hush = t.hush) : MBegun off s u where
  boot := (boot_of_hush hu).trans h.boot
  power := (power_of_hush hu).trans h.power
  sec := (sec_of_hush hu).trans h.sec
  dacs := (dacs_of_hush hu).trans h.dacs
  loops := (loops_of_hush hu).trans h.loops

theorem MBegun.reads {off : Nat} {s t : State} (h : MBegun off s t) : stage t = 8 ∧ t.boot.lastReset = 1 ∧ t.boot.mainOn = false ∧ t.boot.mHeld = true ∧
    t.boot.offFor = max (10 * msC) off ∧ t.boot.cause = s.boot.cause ∧ t.boot.vinMainLow = s.boot.vinMainLow := by
  rw [stage, h.boot]
  exact ⟨rfl, rfl, rfl, rfl, rfl, rfl, rfl⟩

end Sys2Proof.Machine
end

section
/-! The watchdog and the power states (R516, R517, R542, R543), and O11. -/
namespace Sys2Proof.Machine
open Sys2Proof

section
variable {s : State} {c : Cmd}

/-! ### The watchdog (R516) -/

/-- Resets for want of a report within the last hour. -/
def recentHangs (s : State) : List Nat := s.boot.hangResets.filter fun c => since s c < 3600 * secC

theorem kennelHang_due (hready : isReady s = true) (hlate : secC ≤ since s s.boot.lastReport) (hnone : s.boot.pendingReset = none) :
    ∃ b, kennelHang s = if 3 < (recentHangs s).length + 1 then enterFault 10 0x0010 false (bootMod (fun b => { b with hangResets := recentHangs s }) { s with box := b })
      else bootMod (fun b => { b with hangResets := s.cyc :: recentHangs s, pendingReset := some { origin := 6, mailbox := 0, seq := 0, due := s.cyc } }) { s with box := b } := by
  have hwait : ((!isReady s) || decide (since s s.boot.lastReport < secC) || s.boot.pendingReset.isSome) = false := by
    rw [hready, hnone, decide_eq_false (Nat.not_lt.mpr hlate)]
    rfl
  unfold kennelHang
  rw [if_neg (by rw [hwait]; exact Bool.false_ne_true)]
  dsimp only
  obtain ⟨b, hb⟩ := boxNow_frame 1 0x0106 0x0010 (le 1 (min ((recentHangs s).length + 1) 4)) s
  refine ⟨b, ?_⟩
  rw [← hb]
  have hcyc : (boxNow 1 0x0106 0x0010 (le 1 (min ((recentHangs s).length + 1) 4)) s).cyc = s.cyc := by rw [hb]
  rw [← hcyc]
  rfl

theorem does_hangReset (hready : isReady s = true) (hlate : secC ≤ since s s.boot.lastReport) (hnone : s.boot.pendingReset = none) (hfew : (recentHangs s).length < 3) :
    Does .kennelHang s fun t => t.boot.pendingReset = some { origin := 6, mailbox := 0, seq := 0, due := s.cyc } ∧ ({ t with boot := s.boot, box := s.box } : State) = s := by
  obtain ⟨b, hrow⟩ := kennelHang_due hready hlate hnone
  rw [if_neg (by omega)] at hrow
  exact ⟨_, exec_quiet (t := kennelHang s) rfl hrow rfl, rfl, rfl⟩

theorem does_hangFault (hready : isReady s = true) (hlate : secC ≤ since s s.boot.lastReport) (hnone : s.boot.pendingReset = none) (hmany : 3 ≤ (recentHangs s).length) :
    Does .kennelHang s fun t => stage t = 15 ∧ t.boot.cause = 10 ∧ t.boot.mainOn = s.boot.mainOn ∧ ({ t with boot := s.boot, box := s.box } : State).hushEv = s.hushEv := by
  obtain ⟨b, hrow⟩ := kennelHang_due hready hlate hnone
  rw [if_pos (by omega)] at hrow
  refine does_rowEv (t := kennelHang s) (x := { s with
    box := b, boot := { s.boot with hangResets := recentHangs s, cause := 10, causeUnit := 0x0010, causeStage := s.boot.stage, stage := 15 } }) rfl ?_ fun u hu => ?_
  · rw [hrow, enterFault, if_neg Bool.false_ne_true]
    exact setStage_hushEv ..
  · have hboot := boot_of_hush (hush_of_hushEv hu)
    rw [stage, hboot]
    exact ⟨rfl, rfl, rfl, congrArg (fun x : State => ({ x with boot := s.boot, box := s.box } : State)) hu⟩

/-! ### Transitions (R517) -/

theorem transitionEnd_hush (cs : List Cmd) (s : State) : (transitionEnd cs s).hush = (powerMod (fun p => { p with transition := none }) s).hush :=
  foldl_keeps State.hush _ (fun _ _ => complete_hush ..) _ _

theorem does_transitionEnd {cs : List Cmd} (h : transitionDone s = transitionEnd cs s) : Does .powerTransitionDone s fun t =>
    t.power.transition = none ∧ t.power.state = s.power.state ∧ ({ t with power := s.power } : State).hush = s.hush := by
  refine does_row (t := transitionDone s) rfl fun u hu => ?_
  have hrow := hu.trans ((congrArg State.hush h).trans (transitionEnd_hush cs s))
  rw [power_of_hush hrow]
  exact ⟨rfl, rfl, hush_update hrow (fun x => { x with power := s.power }) fun _ => rfl⟩

theorem transitionDone_standby {cs : List Cmd} (h : s.power.transition = some (.standby, cs)) : transitionDone s = transitionEnd cs s := by
  simp only [transitionDone, h]

/-- A transition to QUIET in which inputs stand and no rate change is left ends (R517). -/
theorem transitionDone_quiet {cs : List Cmd} (h : s.power.transition = some (.quiet, cs)) (hquiet : s.power.state = .quiet) (hrate : quietRate s = false) :
    transitionDone s = transitionEnd cs s := by
  have hdue : quietDue s = s := by simp [quietDue, h, hquiet]
  unfold transitionDone
  simp only [h, hdue]
  exact if_pos (by simp [hquiet, hrate])

/-! ### The verbs (R543) -/

/-- The first argument byte, as a command's form sets it. -/
theorem argN_withByte (c : Cmd) (v : Nat) : argN (withByte c 0 v) 0 1 = v % 256 := by
  have hlen : (padTo (max c.args.length 1) c.args).length = max c.args.length 1 := length_padTo ..
  unfold argN numAt withByte
  cases hl : padTo (max c.args.length 1) c.args with
  | nil =>
    rw [hl, List.length_nil] at hlen
    omega
  | cons a l => simp [leNat]

/-- The power state that each SET_STATE row asks for. -/
theorem stateAsked_withByte (c : Cmd) : stateAsked (withByte c 0 0) = .active ∧ stateAsked (withByte c 0 1) = .quiet ∧ stateAsked (withByte c 0 2) = .standby := by
  unfold stateAsked
  rw [argN_withByte, argN_withByte, argN_withByte]
  exact ⟨rfl, rfl, rfl⟩

theorem vPwrSetState_same {u : State} (h : u.power.transition = none) (hsame : stateAsked c = u.power.state) : vPwrSetState.act c u = ok u := by
  simp [vPwrSetState, h, hsame]

theorem vPwrSetState_quiet {u : State} (h : u.power.transition = none) (hactive : u.power.state = .active) (hasked : stateAsked c = .quiet) (hheld : quietHeld u = true) :
    vPwrSetState.act c u = later (powerMod (fun p => { p with transition := some (.quiet, [c]) }) u) := by
  have hdue : quietDue (powerMod (fun p => { p with transition := some (.quiet, [c]) }) u) = powerMod (fun p => { p with transition := some (.quiet, [c]) }) u := by
    have hheld' : quietHeld (powerMod (fun p => { p with transition := some (.quiet, [c]) }) u) = true := hheld
    unfold quietDue
    exact if_pos (by rw [hheld', Bool.or_true])
  simp [vPwrSetState, h, hactive, hasked, hdue]

theorem vPwrSetState_standby {u : State} (h : u.power.transition = none) (hactive : u.power.state = .active) (hasked : stateAsked c = .standby) :
    vPwrSetState.act c u = later (standbyBegin c u) := by
  simp [vPwrSetState, h, hactive, hasked]

/-- The planes stop and the rails are removed for STANDBY (R517). -/
theorem standbyBegin_leaves (c : Cmd) (s : State) : stage (standbyBegin c s) = 8 ∧ (standbyBegin c s).power.state = .standby ∧ (standbyBegin c s).boot.mainOn = false ∧
    (standbyBegin c s).power.transition = some (.standby, [c]) ∧ (standbyBegin c s).dacs = s.dacs := by
  have hoff := planesOff_stopPlanes 8 s
  have hrow : (standbyBegin c s).hush = ({ planesOff (stopPlanes 8 s) with
      power := { (planesOff (stopPlanes 8 s)).power with state := .standby, transition := some (.standby, [c]) }
      boot := { (planesOff (stopPlanes 8 s)).boot with stage := 8 } } : State).hush :=
    (devResetDone_hush ..).trans ((setStage_hush ..).trans (hush_update (evPower_hush _) (bootMod fun b => { b with stage := BitVec.ofNat 4 8 }) fun _ => rfl))
  rw [stage, boot_of_hush hrow, power_of_hush hrow, dacs_of_hush hrow, hoff.boot]
  exact ⟨rfl, rfl, rfl, rfl, hoff.dacs⟩

theorem does_cycleMain (h : Accepts vPwrCycleMain c s) : Does (.pwrCycleMain c) s fun t => stage t = 8 ∧ t.boot.lastReset = 1 ∧ t.boot.mainOn = false ∧ t.boot.mHeld = true ∧
    t.boot.offFor = max (10 * msC) (argN c 0 4 * msC) ∧ t.power.tripped = false ∧ t.dacs = s.dacs ∧ t.loops = s.loops := by
  refine does_of_act h rfl rfl fun k j t ht => ?_
  obtain ⟨hm, -⟩ := beginM_begun (originOf c.path).1 (originOf c.path).2 c.seq (argN c 0 4 * msC)
    (powerMod (fun p => { p with tripped := false, cooled := false }) { s with kennel := k, junction := j })
  have hend := hm.of_hush ht
  obtain ⟨hstage, hreset, hon, hheld, hofffor, -, -⟩ := hend.reads
  refine ⟨hstage, hreset, hon, hheld, hofffor, ?_, hend.dacs, hend.loops⟩
  rw [hend.power]
  rfl

end

/-- Settles O11: the watchdog's D and FAULT, the ends of transitions, and the PWR verbs. -/
theorem watchdogAndPowerStates : Obligations.WatchdogAndPowerStates := by
  unfold Obligations.WatchdogAndPowerStates
  intro s
  have hpower : ∀ (v : Verb) (c : Cmd), v.start = (fun _ s => s) → (begun v c s).power = s.power ∧ (begun v c s).maint = s.maint := fun v c hv => by
    obtain ⟨k, j, hb⟩ := begun_frame (v := v) (c := c) (s := s) hv
    rw [hb]
    exact ⟨rfl, rfl⟩
  refine ⟨fun h => exec_quiet (t := kennelReport s) rfl (if_pos h) rfl, does_hangReset, does_hangFault, fun cs h => ?_, fun cs h hquiet hrate => ?_, fun c h => answers_of h rfl rfl,
    fun c => does_cycleMain, fun c h hnone hactive => ?_, fun c h hnone hactive hheld => ?_, fun c h hnone hactive => ?_⟩
  · obtain ⟨t, hexec, hnone, -, hrest⟩ := does_transitionEnd (transitionDone_standby h)
    exact ⟨t, hexec, hnone, hrest⟩
  · obtain ⟨t, hexec, hnone, hstate, hrest⟩ := does_transitionEnd (transitionDone_quiet h hquiet hrate)
    exact ⟨t, hexec, hnone, hstate.trans hquiet, hrest⟩
  · obtain ⟨hp, -⟩ := hpower vPwrSetState (withByte c 0 0) rfl
    exact answers_of h rfl (vPwrSetState_same (by rw [hp, hnone]) (by rw [hp, hactive, (stateAsked_withByte c).1]))
  · obtain ⟨hp, hm⟩ := hpower vPwrSetState (withByte c 0 1) rfl
    exact waits_of h rfl (vPwrSetState_quiet (by rw [hp, hnone]) (by rw [hp, hactive]) (stateAsked_withByte c).2.1 (by rw [quietHeld, hm]; exact hheld))
  · refine does_of_act h rfl rfl fun k j t ht => ?_
    rw [vPwrSetState_standby (by exact hnone) (by exact hactive) (stateAsked_withByte c).2.2] at ht
    obtain ⟨hstage, hstate, hon, htrans, hdacs⟩ := standbyBegin_leaves (withByte c 0 2) { s with kennel := k, junction := j }
    rw [stage, boot_of_hush ht, power_of_hush ht, dacs_of_hush ht]
    exact ⟨hstage, hstate, hon, htrans, hdacs⟩

end Sys2Proof.Machine
end

section
/-! The supervisor: supply samples, dips and rails (R508, R527 to R530), and O9. -/
namespace Sys2Proof.Machine
open Sys2Proof

/-! ### One supply (R528, R529) -/

section
variable {s t : State} {k : Supply} {mv : Nat} {judged : Bool}

@[simp] theorem supplyOf_supplyMod (k : Supply) (f : SupplySt → SupplySt) (s : State) : supplyOf k (supplyMod k f s) = f (supplyOf k s) := by
  cases k <;> rfl

theorem supplyMod_supplyMod (k : Supply) (f g : SupplySt → SupplySt) (s : State) : supplyMod k g (supplyMod k f s) = supplyMod k (fun x => g (f x)) s := by
  cases k <;> rfl

theorem supplyMod_power (k : Supply) (f : SupplySt → SupplySt) (s : State) : supplyMod k f s = { s with power := (supplyMod k f s).power } := by
  cases k <;> rfl

/-- The counts of a supply are read off its readings and the cycle counter (R528). -/
theorem supplyCount_congr (h : supplyOf k t = supplyOf k s) (hcyc : t.cyc = s.cyc) (mv : Nat) (judged : Bool) : supplyCount k mv judged t = supplyCount k mv judged s := by
  simp only [supplyCount, h, hcyc]

theorem supplyCount_above (h : (supplyLimits k).1 ≤ mv) (judged : Bool) (s : State) : (supplyCount k mv judged s).belowWarn = 0 := by
  unfold supplyCount
  dsimp only
  rw [decide_eq_false (Nat.not_lt.mpr h), Bool.and_false]
  rfl

theorem supplyCount_notReset (h : (supplyLimits k).2.1 ≤ mv) (judged : Bool) (s : State) : (supplyCount k mv judged s).belowReset = 0 := by
  unfold supplyCount
  dsimp only
  rw [decide_eq_false (Nat.not_lt.mpr h), Bool.and_false]
  rfl

theorem supplyCount_below (h : mv < (supplyLimits k).1) (s : State) : (supplyCount k mv true s).belowWarn = (supplyOf k s).belowWarn + 1 := by
  unfold supplyCount
  dsimp only
  rw [decide_eq_true h]
  rfl

theorem supplyCount_reset (h : mv < (supplyLimits k).2.1) (s : State) : (supplyCount k mv true s).belowReset = (supplyOf k s).belowReset + 1 := by
  unfold supplyCount
  dsimp only
  rw [decide_eq_true h]
  rfl

/-- A sample outside a dip that is not the second in a row below the warning only records itself. -/
theorem supplyTake_calm (hdip : (supplyOf k s).dip = none) (hwarn : (supplyCount k mv judged s).belowWarn < 2) :
    supplyTake k mv judged s = supplyMod k (fun _ => supplyCount k mv judged s) s := by
  have hdip' : (supplyCount k mv judged s).dip = none := hdip
  unfold supplyTake
  simp only [supplyOf_supplyMod, hdip']
  exact if_pos hwarn

/-- The dip that begins at a sample (R529). -/
def dipBegun (k : Supply) (mv : Nat) (judged : Bool) (s : State) : SupplySt :=
  { supplyCount k mv judged s with dip := some { tw := now s, lowest := min (supplyOf k s).mv mv }, dips := wrapAdd 32 (supplyOf k s).dips 1 }

/-- The second sample in a row below the warning begins a dip (R529). -/
theorem supplyTake_begins (hdip : (supplyOf k s).dip = none) (hwarn : 2 ≤ (supplyCount k mv judged s).belowWarn) :
    (supplyTake k mv judged s).hushEv = (supplyMod k (fun _ => dipBegun k mv judged s) s).hushEv := by
  have hdip' : (supplyCount k mv judged s).dip = none := hdip
  unfold supplyTake
  simp only [supplyOf_supplyMod, hdip']
  rw [if_neg (by omega)]
  refine (raise_hushEv ..).trans ?_
  rw [supplyMod_supplyMod]
  have hnow : now (supplyMod k (fun _ => supplyCount k mv judged s) s) = now s := by cases k <;> rfl
  rw [hnow]
  rfl

/-- A sample moves its supply alone, and counts what is below the reset limit (R528). -/
theorem supplyTake_frame (k : Supply) (mv : Nat) (judged : Bool) (s : State) : ∃ x, (supplyTake k mv judged s).hushEv = (supplyMod k (fun _ => x) s).hushEv ∧
    x.belowReset = (supplyCount k mv judged s).belowReset := by
  cases hdip : (supplyOf k s).dip with
  | none =>
    by_cases hwarn : (supplyCount k mv judged s).belowWarn < 2
    · exact ⟨_, congrArg State.hushEv (supplyTake_calm hdip hwarn), rfl⟩
    · exact ⟨_, supplyTake_begins hdip (by omega), rfl⟩
  | some d =>
    have hdip' : (supplyCount k mv judged s).dip = some d := hdip
    unfold supplyTake
    simp only [supplyOf_supplyMod, hdip', supplyMod_supplyMod]
    split
    · exact ⟨_, rfl, rfl⟩
    · exact ⟨_, rfl, rfl⟩

end

/-! ### A sample of both (R528 to R530) -/

section
variable {s t : State} {main aux : Nat}

theorem warnEnds_none (h : supplyWarn s = false) (t : State) : warnEnds s t = t := if_neg (by simp [h])

theorem warnEnds_frame (s t : State) : ∃ v, warnEnds s t = { t with inputs := v } := by
  unfold warnEnds
  split
  · obtain ⟨v, hv, -⟩ := markBlocks_frame (List.range 8) false true t
    exact ⟨v, hv⟩
  · exact ⟨t.inputs, rfl⟩

/-- The state once both samples are recorded. -/
def sampled (main aux : Nat) (s : State) : State := warnEnds s (supplyTake .aux aux true (supplyTake .main main s.boot.mainOn s))

theorem supplySample_eq (hon : stage s ≠ 0) : supplySample main aux s =
    if 6 ≤ (sampled main aux s).power.vinAux.belowReset then pReset (sampled main aux s)
    else if 6 ≤ (sampled main aux s).power.vinMain.belowReset && (sampled main aux s).boot.mainOn then
      beginM 5 0 0 0 (bootMod (fun b => { b with vinMainLow := true }) (setCause 6 0xFFFF (dipClose .main (sampled main aux s))))
    else sampled main aux s := if_neg hon

/-- Both samples move the supplies and the marks of blocks alone (R71, R528). -/
theorem sampled_frame (main aux : Nat) (s : State) : ∃ x y v, (sampled main aux s).hushEv =
      ({ s with power := { s.power with vinMain := x, vinAux := y }, inputs := v } : State).hushEv ∧
    x.belowReset = (supplyCount .main main s.boot.mainOn s).belowReset ∧ y.belowReset = (supplyCount .aux aux true s).belowReset := by
  obtain ⟨x, hx, hxr⟩ := supplyTake_frame .main main s.boot.mainOn s
  obtain ⟨y, hy, hyr⟩ := supplyTake_frame .aux aux true (supplyTake .main main s.boot.mainOn s)
  obtain ⟨v, hv⟩ := warnEnds_frame s (supplyTake .aux aux true (supplyTake .main main s.boot.mainOn s))
  have hpower := power_of_hushEv hx
  have haux := congrArg PowerSt.vinAux hpower
  have hcyc := cyc_of_hush (hush_of_hushEv hx)
  have hcount := supplyCount_congr (k := .aux) (s := s) (t := supplyTake .main main s.boot.mainOn s) haux hcyc aux true
  refine ⟨x, y, v, ?_, hxr, hyr.trans (by rw [hcount])⟩
  have hboth : (supplyTake .aux aux true (supplyTake .main main s.boot.mainOn s)).hushEv = ({ s with power := { s.power with vinMain := x, vinAux := y } } : State).hushEv := by
    refine hy.trans ((hushEv_withPower hx _).trans ?_)
    rw [hpower]
    rfl
  rw [sampled, hv]
  exact congrArg (fun u : State => { u with inputs := v }) hboth

theorem sampled_reads (main aux : Nat) (s : State) : (sampled main aux s).boot = s.boot ∧
    (sampled main aux s).power.vinMain.belowReset = (supplyCount .main main s.boot.mainOn s).belowReset ∧
    (sampled main aux s).power.vinAux.belowReset = (supplyCount .aux aux true s).belowReset := by
  obtain ⟨x, y, v, h, hx, hy⟩ := sampled_frame main aux s
  rw [boot_of_hush (hush_of_hushEv h), power_of_hushEv h]
  exact ⟨rfl, hx, hy⟩

/-- With neither supply at its reset limit, a sample only records itself and may begin, deepen or end nothing but dips. -/
theorem supplySample_recorded (hon : stage s ≠ 0) (hmain : 9800 ≤ main) (haux : 1550 ≤ aux) : supplySample main aux s = sampled main aux s := by
  obtain ⟨-, hm, ha⟩ := sampled_reads main aux s
  rw [supplyCount_notReset (k := .main) hmain] at hm
  rw [supplyCount_notReset (k := .aux) haux] at ha
  rw [supplySample_eq hon, hm, ha]
  rfl

theorem sampled_unwarned (hwarn : supplyWarn s = false) (main aux : Nat) :
    (sampled main aux s) = supplyTake .aux aux true (supplyTake .main main s.boot.mainOn s) := warnEnds_none hwarn _

theorem supplyWarn_none (hm : s.power.vinMain.dip = none) (ha : s.power.vinAux.dip = none) : supplyWarn s = false := by
  simp [supplyWarn, hm, ha]

theorem exec_calmSample (hon : stage s ≠ 0) (hmain : 10600 ≤ main) (haux : 1650 ≤ aux) (hm : s.power.vinMain.dip = none) (ha : s.power.vinAux.dip = none) :
    exec (.supplySample main aux) s = .next { s with power := { s.power with
      vinMain := supplyCount .main main s.boot.mainOn s, vinAux := supplyCount .aux aux true s } } := by
  have hmain' : supplyTake .main main s.boot.mainOn s = supplyMod .main (fun _ => supplyCount .main main s.boot.mainOn s) s :=
    supplyTake_calm hm (by rw [supplyCount_above (k := .main) hmain]; decide)
  have hcount : supplyCount .aux aux true (supplyMod .main (fun _ => supplyCount .main main s.boot.mainOn s) s) = supplyCount .aux aux true s := supplyCount_congr rfl rfl aux true
  have haux' : supplyTake .aux aux true (supplyMod .main (fun _ => supplyCount .main main s.boot.mainOn s) s) = _ :=
    supplyTake_calm ha (by rw [supplyCount_above (k := .aux) haux]; decide)
  have hrow : supplySample main aux s = _ := (supplySample_recorded hon (by omega) (by omega)).trans (sampled_unwarned (supplyWarn_none hm ha) main aux)
  rw [hmain', haux', hcount] at hrow
  exact exec_quiet (t := supplySample main aux s) rfl hrow rfl

theorem does_dipBegins (hon : stage s ≠ 0) (hlow : main < 10600) (hmain : 9800 ≤ main) (haux : 1650 ≤ aux) (hup : s.boot.mainOn = true) (hm : s.power.vinMain.dip = none)
    (ha : s.power.vinAux.dip = none) (hfirst : s.power.vinMain.belowWarn = 1) : Does (.supplySample main aux) s fun t =>
      t.power.vinMain.dip = some { tw := now s, lowest := min s.power.vinMain.mv main } ∧ t.power.vinMain.dips = wrapAdd 32 s.power.vinMain.dips 1 ∧
      ({ t with power := s.power } : State).hushEv = s.hushEv := by
  have hcount : (supplyCount .main main s.boot.mainOn s).belowWarn = 2 := by
    rw [hup, supplyCount_below (k := .main) hlow]
    exact congrArg (· + 1) hfirst
  have hx := supplyTake_begins (k := .main) (mv := main) (judged := s.boot.mainOn) hm (by rw [hcount])
  have hpower := power_of_hushEv hx
  have haux' := supplyTake_calm (k := .aux) (mv := aux) (judged := true) (s := supplyTake .main main s.boot.mainOn s)
    (by rw [supplyOf, hpower]; exact ha) (by rw [supplyCount_above (k := .aux) haux]; decide)
  have hrow : (supplySample main aux s).hushEv = ({ s with power := { s.power with
      vinMain := dipBegun .main main s.boot.mainOn s, vinAux := supplyCount .aux aux true (supplyTake .main main s.boot.mainOn s) } } : State).hushEv := by
    rw [supplySample_recorded hon hmain (by omega), sampled_unwarned (supplyWarn_none hm ha), haux', supplyMod_power]
    refine (hushEv_withPower hx _).trans ?_
    simp only [supplyMod, powerMod, hpower]
  refine does_rowEv (t := supplySample main aux s) rfl hrow fun u hu => ?_
  rw [power_of_hushEv hu]
  exact ⟨rfl, rfl, hushEv_withPower hu s.power⟩

/-! ### Resets by a supply (R529, R530) -/

theorem dipEntry_frame (k : Supply) (d : Dip) (r : Time) (s : State) : ∃ a n b, dipEntry k d r s =
    { s with power := { s.power with dipEntries := a, dipsSuppressed := n }, box := b } := by
  unfold dipEntry
  dsimp only
  generalize (if s.power.dipEntries.1 = _ then _ else 0) = n
  split
  · exact ⟨s.power.dipEntries, s.power.dipsSuppressed + 1, s.box, rfl⟩
  · obtain ⟨b, hb⟩ := boxNow_frame 1 0x0103 0x1000 (le 1 (supplyCode k) ++ le 3 0 ++ timeB d.tw ++ timeB r ++ le 2 d.lowest ++ le 2 (min 0xFFFF s.power.dipsSuppressed))
      (powerMod (fun p => { p with dipEntries := (s.cyc / secC, n + 1), dipsSuppressed := 0 }) s)
    exact ⟨(s.cyc / secC, n + 1), 0, b, hb⟩

theorem dipClose_boot (k : Supply) (s : State) : (dipClose k s).boot = s.boot := by
  unfold dipClose
  split
  · next d _ =>
    obtain ⟨a, n, b, hb⟩ := dipEntry_frame k d 0 s
    rw [hb]
    cases k <;> rfl
  · rfl

theorem boxWrite_bootCount (s : State) : (boxWrite s).boot.bootCount = s.boot.bootCount := by
  unfold boxWrite
  dsimp only
  split
  · rfl
  · split
    · exact congrArg (·.bootCount) (boot_of_hush (raise_hush ..))
    · exact congrArg (·.bootCount) (boot_of_hush (completeO_hush ..))
    · rfl

theorem boxDrain_bootCount (n : Nat) (s : State) : (boxDrain n s).boot.bootCount = s.boot.bootCount := by
  induction n generalizing s with
  | zero => rfl
  | succ n ih =>
    unfold boxDrain
    split
    · rfl
    · rw [ih, boxWrite_bootCount]

/-- What a P leaves (R10, R512). -/
theorem pReset_leaves (s : State) : stage (pReset s) = 0 ∧ (pReset s).boot.mainOn = false ∧ Bare (pReset s) ∧ (pReset s).boot.bootCount = s.boot.bootCount := by
  refine ⟨rfl, rfl, ⟨rfl, rfl, rfl⟩, ?_⟩
  show (if s.power.vinAux.dip.isSome then boxDrain 300 (dipClose .aux s) else s).boot.bootCount = _
  split
  · rw [boxDrain_bootCount, dipClose_boot]
  · rfl

theorem does_supplyP (hon : stage s ≠ 0) (haux : aux < 1550) (hsixth : s.power.vinAux.belowReset = 5) : Does (.supplySample main aux) s fun t =>
    stage t = 0 ∧ t.boot.mainOn = false ∧ t.mem = [] ∧ t.boot.bootCount = s.boot.bootCount := by
  obtain ⟨hb, -, ha⟩ := sampled_reads main aux s
  rw [supplyCount_reset (k := .aux) haux] at ha
  have hsix : (sampled main aux s).power.vinAux.belowReset = 6 := ha.trans (congrArg (· + 1) hsixth)
  have hrow : supplySample main aux s = pReset (sampled main aux s) := by
    rw [supplySample_eq hon, hsix]
    rfl
  obtain ⟨hstage, hoff, hbare, hcount⟩ := pReset_leaves (sampled main aux s)
  have hboot := boot_of_hush (settled_hush s (pReset (sampled main aux s)))
  refine ⟨settled s (supplySample main aux s), rfl, ?_⟩
  rw [hrow]
  exact ⟨(congrArg (·.stage.toNat) hboot).trans hstage, (congrArg (·.mainOn) hboot).trans hoff, hbare.settled,
    (congrArg (·.bootCount) hboot).trans (hcount.trans (by rw [hb]))⟩

theorem does_supplyM (hon : stage s ≠ 0) (hmain : main < 9800) (haux : 1650 ≤ aux) (hup : s.boot.mainOn = true) (hsixth : s.power.vinMain.belowReset = 5) :
    Does (.supplySample main aux) s fun t => stage t = 8 ∧ t.boot.cause = 6 ∧ t.boot.vinMainLow = true ∧ t.boot.mainOn = false ∧ t.boot.lastReset = 1 := by
  obtain ⟨hb, hm, ha⟩ := sampled_reads main aux s
  rw [hup, supplyCount_reset (k := .main) hmain] at hm
  rw [supplyCount_notReset (k := .aux) (by show 1550 ≤ aux; omega)] at ha
  have hsix : (sampled main aux s).power.vinMain.belowReset = 6 := hm.trans (congrArg (· + 1) hsixth)
  have hrow : supplySample main aux s = _ := supplySample_eq hon
  rw [hsix, ha, hb, hup] at hrow
  obtain ⟨hbegun, -⟩ := beginM_begun 5 0 0 0 (bootMod (fun b => { b with vinMainLow := true }) (setCause 6 0xFFFF (dipClose .main (sampled main aux s))))
  refine does_row (t := supplySample main aux s) rfl fun u hu => ?_
  rw [hrow] at hu
  obtain ⟨hstage, hreset, hoff, -, -, hcause, hlow⟩ := (hbegun.of_hush hu).reads
  exact ⟨hstage, hcause, hlow, hoff, hreset⟩

end

/-! ### The end of a dip, and the rails (R508, R527, R529) -/

section
variable {s : State}

theorem does_supplyRecover {k : Supply} {d : Dip} {c : Nat} (hdip : (supplyOf k s).dip = some d) (habove : (supplyOf k s).aboveSince = some c) (hlong : msC ≤ since s c) :
    Does (.supplyRecover k) s fun t => (supplyOf k t).dip = none ∧ ({ t with power := s.power, box := s.box, inputs := s.inputs } : State).hushEv = s.hushEv := by
  have hstood : (!(supplyOf k s).aboveSince.any fun c => decide (msC ≤ since s c)) = false := by
    rw [habove, Option.any_some, decide_eq_true hlong]
    rfl
  obtain ⟨v, hv⟩ := warnEnds_frame s (supplyMod k (fun x => { x with dip := none }) s)
  have hrow : ∃ a n b, (supplyRecover k s).hushEv = ({ supplyMod k (fun x => { x with dip := none }) s with
      power := { (supplyMod k (fun x => { x with dip := none }) s).power with dipEntries := a, dipsSuppressed := n }, box := b, inputs := v } : State).hushEv := by
    unfold supplyRecover
    simp only [hdip]
    rw [if_neg (by rw [hstood]; exact Bool.false_ne_true), hv]
    have hraise := raise_hushEv 0x08 2 0x1000 (le 1 (supplyCode k) ++ [0] ++ le 2 d.lowest ++ timeB d.tw) ({ supplyMod k (fun x => { x with dip := none }) s with inputs := v } : State)
    generalize raise 0x08 2 0x1000 (le 1 (supplyCode k) ++ [0] ++ le 2 d.lowest ++ timeB d.tw) ({ supplyMod k (fun x => { x with dip := none }) s with inputs := v } : State) = u at hraise
    obtain ⟨a, n, b, hb⟩ := dipEntry_frame k d (now ({ supplyMod k (fun x => { x with dip := none }) s with inputs := v } : State)) u
    refine ⟨a, n, b, ?_⟩
    rw [hb, power_of_hushEv hraise]
    exact congrArg (fun x : State => { x with
      power := { (supplyMod k (fun x => { x with dip := none }) s).power with dipEntries := a, dipsSuppressed := n }, box := b }) hraise
  obtain ⟨a, n, b, hrow⟩ := hrow
  refine does_rowEv (t := supplyRecover k s) rfl hrow fun u hu => ⟨?_, ?_⟩
  · cases k
    · exact congrArg (fun p : PowerSt => p.vinMain.dip) (power_of_hushEv hu)
    · exact congrArg (fun p : PowerSt => p.vinAux.dip) (power_of_hushEv hu)
  · have hrest := congrArg (fun x : State => ({ x with power := s.power, box := s.box, inputs := s.inputs } : State)) hu
    cases k <;> exact hrest

theorem vinMainReturn_due {c : Nat} (hlow : s.boot.vinMainLow = true) (habove : s.power.vinMain.aboveSince = some c) (hlong : 100 * msC ≤ since s c) :
    vinMainReturn s = { s with boot := { s.boot with vinMainLow := false, mHeld := false, stepStart := s.cyc } } := by
  unfold vinMainReturn
  rw [if_pos (by rw [hlow, habove, Option.any_some, decide_eq_true hlong]; rfl)]
  rfl

theorem does_railOut {r : Nat} (hr : r < 10) {mv : Nat} (hthere : railThere s r = true) (hin : bitAt s.power.railOut r = false) (hbad : railIn s.fab.vfab r mv = false) :
    Does (.railOut ⟨r, hr⟩ mv) s fun t => t.power.railOut = setBit s.power.railOut r true ∧ vget t.power.railMv r = mv ∧ vget t.power.railOutAt r = s.cyc ∧
      ({ t with power := s.power, box := s.box } : State).hushEv = s.hushEv := by
  have hrow : railOut r mv s = _ := if_neg (by rw [hthere, hin, hbad]; exact Bool.false_ne_true)
  obtain ⟨b, hb⟩ := boxNow_hushEv 1 0x0104 0x1000 (le 1 r ++ [0] ++ le 2 mv) (raise_hushEv 0x0A 1 0x1000 (le 1 r ++ [0] ++ le 2 mv) (powerMod (fun p => { p with
    railOut := setBit p.railOut r true, railOutAt := vmod p.railOutAt r fun _ => s.cyc, railMv := vmod p.railMv r fun _ => mv }) s))
  refine does_rowEv (t := railOut r mv s) rfl ((congrArg State.hushEv hrow).trans hb) fun u hu => ?_
  rw [power_of_hushEv hu]
  exact ⟨rfl, vget_vmod_same _ _ hr, vget_vmod_same _ _ hr, congrArg (fun x : State => ({ x with power := s.power, box := s.box } : State)) hu⟩

theorem does_railOutRemove {r : Nat} (hr : r < 10) (hthere : railThere s r = true) (hout : bitAt s.power.railOut r = true) (hlong : 90 * usC ≤ since s (vget s.power.railOutAt r)) :
    Does (.railOutRemove ⟨r, hr⟩) s fun t => stage t = 8 ∧ t.boot.lastReset = 1 ∧ t.boot.mainOn = false ∧ t.boot.mHeld = true ∧ t.mem = [] ∧ t.dacs = s.dacs ∧ t.sec = s.sec := by
  have hrow : railOutRemove r s = _ := if_neg (by rw [hthere, hout, decide_eq_false (Nat.not_lt.mpr hlong)]; exact Bool.false_ne_true)
  obtain ⟨b, hb⟩ := boxNow_frame 1 0x0104 0x1000 (le 1 r ++ [0] ++ le 2 (vget s.power.railMv r) ++ [1]) s
  rw [hb] at hrow
  obtain ⟨hbegun, hbare⟩ := beginM_begun 5 0 0 0 { s with box := b }
  have hend := hbegun.of_hush (settled_hush s _)
  obtain ⟨hstage, hreset, hoff, hheld, -, -, -⟩ := hend.reads
  refine ⟨settled s (railOutRemove r s), rfl, ?_⟩
  rw [hrow]
  exact ⟨hstage, hreset, hoff, hheld, hbare.settled, hend.dacs, hend.sec⟩

end

/-- Settles O9: samples, dips, the resets by a supply, and the rails. -/
theorem suppliesAndRails : Obligations.SuppliesAndRails := by
  unfold Obligations.SuppliesAndRails
  intro s
  refine ⟨fun main aux hon hmain haux hm ha => ⟨exec_calmSample hon hmain haux hm ha, rfl, rfl, supplyCount_above (k := .main) hmain _ s,
      supplyCount_notReset (k := .aux) (by show 1550 ≤ aux; omega) true s⟩,
    fun main aux => does_dipBegins, fun main aux => does_supplyM, fun main aux => does_supplyP, fun k d c => does_supplyRecover, fun c hlow habove hlong =>
      exec_quiet (t := vinMainReturn s) rfl (vinMainReturn_due hlow habove hlong) rfl,
    fun r mv => does_railOut r.isLt, fun r => does_railOutRemove r.isLt⟩

end Sys2Proof.Machine
end

section
/-! The steps of bring-up (R504, R507, R510, R535), and O6. -/
namespace Sys2Proof.Machine
open Sys2Proof

theorem packs_of_hush {s t : State} (h : s.hush = t.hush) : s.packs = t.packs := by injection h

theorem stage_of_hush {s t : State} (h : s.hush = t.hush) : stage s = stage t := congrArg (·.stage.toNat) (boot_of_hush h)

theorem stage_setStage {n : Nat} (hn : n < 16) (s : State) : stage (setStage n s) = n :=
  (stage_of_hush (setStage_hush n s)).trans (Nat.mod_eq_of_lt hn)

section
variable {s : State}

/-! ### Step 1 (R504, R515, R535) -/

/-- The state that VIN_AUX_RISE makes, but for its entry and its event. -/
def strapped (straps : BitVec 8) (mv : Nat) (s : State) : State := { s with
  power := { s.power with straps := straps &&& 0x3F, vinAux := { s.power.vinAux with mv := mv } }
  boot := { s.boot with step1Start := s.cyc, stepStart := s.cyc }
  dacs := { s.dacs with ch := s.dacs.ch.map fun d => { d with clearCode := clrselCode s.grade (straps &&& 0x3F) } }
  synth := { s.synth with ref := { s.synth.ref with cfg := setBit s.synth.ref.cfg 1 (bitAt (straps &&& 0x3F) 5) } } }

theorem boxNow_queues (o c u : Nat) (d : Bytes) (s : State) (h : s.box.queue.length < 256) :
    ∃ e, (boxNow o c u d s).box.queue = s.box.queue ++ [e] ∧ e.code = BitVec.ofNat 16 c := by
  unfold boxNow boxAt boxPut
  rw [if_pos h]
  exact ⟨_, rfl, rfl⟩

theorem does_vinAuxRise {straps : BitVec 8} {mv : Nat} (hoff : stage s = 0) (hmv : 1580 < mv) : Does (.vinAuxRise straps mv) s fun t =>
    stage t = 1 ∧ t.power.straps = straps &&& 0x3F ∧ t.boot.step1Start = s.cyc ∧
    (s.box.queue.length < 256 → ∃ e, t.box.queue = s.box.queue ++ [e] ∧ e.code = 0x0101) ∧
    ({ t with power := s.power, boot := s.boot, dacs := s.dacs, synth := s.synth } : State).hush = s.hush := by
  have hrow : vinAuxRise straps mv s = setStage 1 (boxNow 0 0x0101 0xFFFF (le 1 (strapped straps mv s).boot.lastReset.toNat ++ le 1 (straps &&& 0x3F).toNat ++ le 2 mv) (strapped straps mv s)) :=
    if_neg (by simp [hoff, Nat.not_le.mpr hmv])
  have hqueue := boxNow_queues 0 0x0101 0xFFFF (le 1 (strapped straps mv s).boot.lastReset.toNat ++ le 1 (straps &&& 0x3F).toNat ++ le 2 mv) (strapped straps mv s)
  obtain ⟨b, hb⟩ := boxNow_frame 0 0x0101 0xFFFF (le 1 (strapped straps mv s).boot.lastReset.toNat ++ le 1 (straps &&& 0x3F).toNat ++ le 2 mv) (strapped straps mv s)
  rw [hb] at hrow hqueue
  have hend : (vinAuxRise straps mv s).hushEv = ({ strapped straps mv s with box := b, boot := { (strapped straps mv s).boot with stage := 1 } } : State).hushEv :=
    (congrArg State.hushEv hrow).trans (setStage_hushEv ..)
  refine does_rowEv (t := vinAuxRise straps mv s) rfl hend fun u hu => ?_
  have hhush := hush_of_hushEv hu
  have hbox : u.box = b := (congrArg State.box hu : u.hushEv.box = _)
  rw [power_of_hush hhush, boot_of_hush hhush, hbox]
  exact ⟨stage_of_hush hhush, rfl, rfl, hqueue,
    hush_update hhush (fun x => { x with power := s.power, boot := s.boot, dacs := s.dacs, synth := s.synth }) fun _ => rfl⟩

/-! ### Step 2 (R510) -/

/-- What an image's verification reads is the flash, the OTP and the counters (R574, R575). -/
theorem slotReason_congr {t : State} (h : t.sec = s.sec) (k n : Nat) : slotReason t k n = slotReason s k n := by
  have hread : flashRead t = flashRead s := by
    funext a n
    rw [flashRead, flashRead, h]
  have hhead : slotHeader t = slotHeader s := by
    funext k
    rw [slotHeader, slotHeader, hread]
  have hroll : rollbackOf t = rollbackOf s := by
    funext n
    rw [rollbackOf, rollbackOf, h]
  unfold slotReason imageReason
  rw [hread, hhead, hroll, h]

/-- A failed image leaves the boot state but for what the failures were. -/
theorem imageFailed_hush (n source reason version : Nat) (s : State) :
    (imageFailed n source reason version s).hush = (bootMod (fun b => { b with onlyRollback := b.onlyRollback && reason = 5 }) s).hush :=
  (raise_hush ..).trans (boxNow_hush ..)

theorem tryMgmt_verified {k : Nat} {ks : List Nat} (h : slotReason s k 1 = 0) : ∃ b, tryMgmt (k :: ks) s = (true, { s with boot := b }) ∧
    b.bootSlot = k ∧ b.linkMgmt = s.boot.linkMgmt := by
  unfold tryMgmt
  simp only [h, if_true]
  exact ⟨_, rfl, rfl, rfl⟩

/-- Where no candidate verifies, bring-up keeps its stage. -/
theorem tryMgmt_fails (l : List Nat) (hall : ∀ k ∈ l, slotReason s k 1 ≠ 0) : ∃ t, tryMgmt l s = (false, t) ∧ stage t = stage s := by
  induction l generalizing s with
  | nil => exact ⟨s, rfl, rfl⟩
  | cons k ks ih =>
    have hk := hall k (by simp)
    unfold tryMgmt
    simp only [if_neg hk]
    generalize hu : imageFailed 1 k (slotReason s k 1) _ _ = u
    have hhush := (congrArg State.hush hu).symm.trans (imageFailed_hush ..)
    have hsec := sec_of_hush hhush
    obtain ⟨t, ht, hstage⟩ := ih (s := u) fun q hq => by
      rw [slotReason_congr (s := s) hsec]
      exact hall q (by simp [hq])
    have hkept := stage_of_hush hhush
    exact ⟨t, ht, hstage.trans hkept⟩

theorem slotOrder_cases (s : State) : slotOrder s = [1, 0] ∨ slotOrder s = [0, 1] := ite_eq_or_eq ..

theorem mgmtFwVerified_first (hone : stage s = 1) (hlink : s.boot.linkMgmt = false) (hfirst : s.boot.slotsTried = []) :
    (∀ u, tryMgmt (slotOrder s) s = (true, u) → mgmtFwVerified s = setStage 2 u) ∧
    (∀ u, tryMgmt (slotOrder s) s = (false, u) → mgmtFwVerified s = setCause 1 0xFFFF (bootMod (fun b => { b with linkMgmt := true, stepStart := u.cyc }) u)) := by
  have hrow : mgmtFwVerified s = _ := if_neg (by simp [hone, hlink])
  have hfilter : ((slotOrder s).filter fun k => !s.boot.slotsTried.contains k) = slotOrder s := List.filter_eq_self.mpr (by simp [hfirst])
  rw [hfilter] at hrow
  refine ⟨fun u hu => ?_, fun u hu => ?_⟩
  · rw [hrow, hu]
  · rw [hrow, hu]
    exact if_neg (by simp [hfirst])

theorem does_mgmtFwVerified {k : Nat} (hone : stage s = 1) (hlink : s.boot.linkMgmt = false) (hfirst : s.boot.slotsTried = []) (hhead : (slotOrder s).head? = some k)
    (hok : slotReason s k 1 = 0) : Does .mgmtFwVerified s fun t => stage t = 2 ∧ t.boot.bootSlot = k ∧ t.boot.linkMgmt = false := by
  obtain ⟨ks, hks⟩ : ∃ ks, slotOrder s = k :: ks := by
    cases hl : slotOrder s with
    | nil =>
      rw [hl] at hhead
      cases hhead
    | cons x xs =>
      rw [hl] at hhead
      exact ⟨xs, by rw [Option.some.inj hhead]⟩
  obtain ⟨b, htry, hslot, hmgmt⟩ := tryMgmt_verified (ks := ks) hok
  have hrow := (mgmtFwVerified_first hone hlink hfirst).1 _ (by rw [hks]; exact htry)
  refine does_row (t := mgmtFwVerified s) rfl fun u hu => ?_
  rw [hrow] at hu
  have hboot := boot_of_hush (hu.trans (setStage_hush ..))
  exact ⟨(stage_of_hush hu).trans (stage_setStage (by decide) _), (congrArg (·.bootSlot) hboot).trans hslot, (congrArg (·.linkMgmt) hboot).trans (hmgmt.trans hlink)⟩

theorem does_mgmtFwFails (hone : stage s = 1) (hlink : s.boot.linkMgmt = false) (hfirst : s.boot.slotsTried = []) (h0 : slotReason s 0 1 ≠ 0) (h1 : slotReason s 1 1 ≠ 0) :
    Does .mgmtFwVerified s fun t => stage t = 1 ∧ t.boot.linkMgmt = true ∧ t.boot.cause = 1 := by
  obtain ⟨v, htry, hstage⟩ := tryMgmt_fails (s := s) (slotOrder s) fun k hk => by
    have hslot : k = 0 ∨ k = 1 := by rcases slotOrder_cases s with h | h <;> simpa [h, or_comm] using hk
    rcases hslot with rfl | rfl
    · exact h0
    · exact h1
  have hrow := (mgmtFwVerified_first hone hlink hfirst).2 _ htry
  refine does_row (t := mgmtFwVerified s) rfl fun u hu => ?_
  rw [hrow] at hu
  have hboot := boot_of_hush hu
  exact ⟨(stage_of_hush hu).trans (hstage.trans hone), congrArg (·.linkMgmt) hboot, congrArg (·.cause) hboot⟩

/-! ### Step 3 (R504, R525) -/

theorem wakeDone_frame (s : State) : ∃ p, (wakeDone s).hush = ({ s with power := p } : State).hush := by
  unfold wakeDone
  split
  · exact ⟨_, foldl_keeps State.hush _ (fun _ _ => complete_hush ..) _ _⟩
  · exact ⟨s.power, rfl⟩

theorem bondTrain_frame (b : Nat) (s : State) : ∃ l, bondTrain b s = { s with link := l } := by
  unfold bondTrain
  dsimp only
  split
  · exact ⟨_, rfl⟩
  · exact ⟨_, rfl⟩

/-- The link boots the device: a strap, a failed slot, or no management firmware (R511). -/
def linkBoots (s : State) : Bool := bitAt s.power.straps 4 || s.boot.forceLink || s.boot.linkMgmt || s.boot.mgmtSlot == 2

/-- Bring-up with the main rails in regulation. -/
def railsUp (cyc : Nat) (link : Bool) (b : BootState) : BootState :=
  { b with mainOn := true, reentry3 := false, mHeld := false, linkBoot := link, linkTaken := false, b0WasUp := false, linkWaitStart := cyc, stepStart := cyc }

theorem mainRailsUp_leaves (hdue : step3Due s = true) : (mainRailsUp 0x3FF s).boot = { railsUp s.cyc (linkBoots s) s.boot with stage := 3 } ∧
    (mainRailsUp 0x3FF s).banks = Vector.ofFn fun i => if linkBoots s && i.val < 16 then { owner := 0x0F00 } else {} := by
  have hall : ∀ r ∈ List.range 10, bitAt (0x3FF : BitVec 10) r = true := by decide
  have hgood : ((List.range 10).any fun r => !bitAt (0x3FF : BitVec 10) r && !(r == 7 && s.grade == .g480)) = false :=
    List.any_eq_false.mpr fun r hr => by
      rw [hall r hr]
      exact Bool.false_ne_true
  have hrise : ∀ (q : Bool) (u : State), ∃ p, (if q then wakeDone (evPower u) else u).hush = ({ u with power := p } : State).hush := fun q u => by
    cases q
    · exact ⟨u.power, rfl⟩
    · obtain ⟨p, hp⟩ := wakeDone_frame (evPower u)
      exact ⟨p, hp.trans (hush_update (evPower_hush u) (fun x => { x with power := p }) fun _ => rfl)⟩
  obtain ⟨p, hp⟩ := hrise (!s.boot.mainOn) (bootMod (railsUp s.cyc (linkBoots s)) s)
  have hrow : mainRailsUp 0x3FF s = setStage 3 (bondTrain 0 (loopPower (banksFresh (linkBoots s) (if !s.boot.mainOn then wakeDone (evPower (bootMod (railsUp s.cyc (linkBoots s)) s))
      else bootMod (railsUp s.cyc (linkBoots s)) s)))) := by
    unfold mainRailsUp
    rw [if_neg (by simp [hdue]), hgood, Bool.and_false, if_neg Bool.false_ne_true]
    rfl
  generalize (if !s.boot.mainOn then wakeDone (evPower (bootMod (railsUp s.cyc (linkBoots s)) s)) else bootMod (railsUp s.cyc (linkBoots s)) s) = u at hp hrow
  obtain ⟨l, hl⟩ := bondTrain_frame 0 (loopPower (banksFresh (linkBoots s) u))
  have hboot := boot_of_hush hp
  have hend := setStage_hush 3 (bondTrain 0 (loopPower (banksFresh (linkBoots s) u)))
  rw [hrow, boot_of_hush hend, banks_of_hush hend, hl]
  exact ⟨congrArg (fun b : BootState => { b with stage := 3 }) hboot, rfl⟩

theorem does_mainRailsUp (hdue : step3Due s = true) : Does (.mainRailsUp 0x3FF) s fun t =>
    stage t = 3 ∧ t.boot.mainOn = true ∧ t.boot.reentry3 = false ∧ (t.boot.linkBoot = false → t.banks = Vector.replicate 32 {}) := by
  obtain ⟨hboot, hbanks⟩ := mainRailsUp_leaves hdue
  refine does_row (t := mainRailsUp 0x3FF s) rfl fun u hu => ?_
  have hend := (boot_of_hush hu).trans hboot
  refine ⟨congrArg (·.stage.toNat) hend, congrArg (·.mainOn) hend, congrArg (·.reentry3) hend, fun hlink => ?_⟩
  have hnone : linkBoots s = false := (congrArg (·.linkBoot) hend).symm.trans hlink
  rw [banks_of_hush hu, hbanks, hnone]
  rfl

/-! ### Step 4 (R504, R511) -/

theorem verifyMain_slot (hlink : s.boot.linkBoot = false) (hmgmt : s.boot.linkMgmt = false) (h2 : slotReason s s.boot.bootSlot 2 = 0) (h3 : slotReason s s.boot.bootSlot 3 = 0) :
    ∃ b, verifyMain s = (true, { s with boot := b }) ∧ b.bootCount = s.boot.bootCount := by
  have h3' : ∀ h, slotReason (imageRuns 2 h s) s.boot.bootSlot 3 = 0 := fun h => (slotReason_congr rfl ..).trans h3
  unfold verifyMain stepTypes
  simp only [hlink, hmgmt, Bool.false_eq_true, if_false, verifyAll, h2, h3', if_true]
  exact ⟨_, rfl, rfl⟩

theorem does_kennelBoot (hthree : stage s = 3) (hre : s.boot.reentry3 = false) (hlink : s.boot.linkBoot = false) (hmgmt : s.boot.linkMgmt = false)
    (h2 : slotReason s s.boot.bootSlot 2 = 0) (h3 : slotReason s s.boot.bootSlot 3 = 0) :
    Does .kennelBoot s fun t => stage t = 4 ∧ t.boot.bootCount.toNat = min 0xFFFFFFFF (s.boot.bootCount.toNat + 1) := by
  obtain ⟨b, hb, hcount⟩ := verifyMain_slot hlink hmgmt h2 h3
  have hrow : kennelBoot s = _ := if_neg (by simp [hthree, hre, hlink])
  rw [hb] at hrow
  refine does_row (t := kennelBoot s) rfl fun u hu => ?_
  rw [hrow] at hu
  have hboot := boot_of_hush (hu.trans (setStage_hush ..))
  have hnew : u.boot.bootCount = BitVec.ofNat 32 (min 0xFFFFFFFF (b.bootCount.toNat + 1)) :=
    (congrArg (·.bootCount) hboot).trans (congrArg (·.bootCount) (boot_of_hush (boxNow_hush ..)))
  refine ⟨(stage_of_hush hu).trans (stage_setStage (by decide) _), ?_⟩
  rw [hnew, hcount, BitVec.toNat_ofNat, Nat.mod_eq_of_lt (by omega)]

/-! ### Steps 5 to 7 (R102, R299, R448) -/

/-- The state with its stacks trained, but for STAGE (R299, R448). -/
def storeUp (s : State) : State := pauseRestart { s with
  rings := fixedRings s.grade ++ s.rings.filter fun r => 0x90 ≤ r.id
  mem := memZero s.mem (mbxBase s.grade) (mbxBase s.grade + 0x180000)
  store := { s.store with selfRefresh := false, kept := s.store.selfRefresh, lastAccess := s.cyc }
  boot := { s.boot with storeKept := s.store.selfRefresh, stepStart := s.cyc } }

theorem does_storeTrained (hfour : stage s = 4) : Does (.storeTrained 0xF) s fun t =>
    stage t = 5 ∧ t.rings = fixedRings s.grade ++ s.rings.filter (fun r => 0x90 ≤ r.id) ∧ t.boot.storeKept = s.store.selfRefresh ∧ t.store.selfRefresh = false := by
  have hall : ∀ k < 4, bitAt (0xF : BitVec 4) k = true := by decide
  have hstacks : nStacks s.grade ≤ 4 := by cases s.grade <;> decide
  have hnone : ((List.range (nStacks s.grade)).find? fun k => !bitAt (0xF : BitVec 4) k) = none :=
    List.find?_eq_none.mpr fun k hk => by
      rw [hall k (Nat.lt_of_lt_of_le (List.mem_range.mp hk) hstacks)]
      exact Bool.false_ne_true
  have hrow : trainStore 0xF s = setStage 5 (storeUp s) := by
    unfold trainStore
    rw [if_neg (by simp [hfour]), hnone]
    rfl
  have hraised : (setStage 5 (storeUp s)).ev.raised = s.ev.raised :=
    raise_held (s := { storeUp s with boot := { (storeUp s).boot with stage := BitVec.ofNat 4 5 } }) (not_ready_of_stage (n := 5) rfl (by decide)) ..
  have hstore := setStage_hushEv 5 (storeUp s)
  have hboot := boot_of_hush (setStage_hush 5 (storeUp s))
  refine ⟨setStage 5 (storeUp s), exec_quiet (t := trainStore 0xF s) rfl hrow hraised, stage_setStage (by decide) _, raise_rings .., congrArg (·.storeKept) hboot,
    congrArg (fun x : State => x.store.selfRefresh) hstore⟩

theorem evLoop_boot (l type : Nat) (s : State) : (evLoop l type s).boot = s.boot := by
  obtain ⟨n, hn⟩ := evLoop_draws l type s
  exact (boot_of_hush hn).trans rfl

theorem maintAsk_boot (activity : Nat) (unit : Handle) (origin arg : Nat) (cmd : Option Cmd) (op : Nat) (s : State) : (maintAsk activity unit origin arg cmd op s).boot = s.boot := by
  unfold maintAsk
  split <;> rfl

theorem loopUp_boot (lock : BitVec 2) (s : State) (l : Nat) : (loopUp lock s l).boot = s.boot := by
  have hgain : ∀ u : State, (loopGain l u).boot = u.boot := fun u => by
    unfold loopGain
    dsimp only
    split
    · exact (boot_of_hush (raise_hush ..)).trans ((evLoop_boot ..).trans rfl)
    · exact (evLoop_boot ..).trans rfl
  unfold loopUp
  split
  · rfl
  · split
    · exact (boot_of_hush (boxNow_hush ..)).trans ((evLoop_boot ..).trans rfl)
    · exact hgain s

/-- Step 6 takes STAGE on and records the engines' tests; the loops, the sample clocks and the calibrations asked for leave bring-up (R49, R102, R504). -/
theorem convertersCal_boot (pass : BitVec 72) (lock : BitVec 2) (hfive : stage s = 5) : ∃ b : BootState, (convertersCal pass lock s).boot = { b with stage := 6 } ∧ b.tePassed = pass := by
  unfold convertersCal
  rw [if_neg (by simp [hfive])]
  generalize (if s.store.kept = true then s else _) = u
  dsimp only
  rw [foldl_keeps State.boot, foldl_keeps State.boot]
  · refine ⟨_, boot_of_hush (setStage_hush ..), ?_⟩
    rw [foldl_keeps State.boot (loopUp lock) (loopUp_boot lock), foldl_keeps State.boot]
    · rfl
    · intro u e
      split
      · rfl
      · exact (boot_of_hush (raise_hush ..)).trans rfl
  · intro u d
    split <;> rfl
  · intro u i
    split
    · exact maintAsk_boot ..
    · rfl

theorem does_convertersCal {pass : BitVec 72} {lock : BitVec 2} (hfive : stage s = 5) : Does (.convertersCal pass lock) s fun t => stage t = 6 ∧ t.boot.tePassed = pass := by
  obtain ⟨b, hb, hpass⟩ := convertersCal_boot pass lock hfive
  refine does_row (t := convertersCal pass lock s) rfl fun u hu => ?_
  have hboot := (boot_of_hush hu).trans hb
  exact ⟨congrArg (·.stage.toNat) hboot, (congrArg (·.tePassed) hboot).trans hpass⟩

/-! ### Step 8 (R507) -/

/-- A loss that goes out alone moves nothing that State.hush shows. -/
theorem lossAlone_hush (s : State) : (lossAlone s).hush = s.hush := by
  have hring : ∀ (w : Bool) (id : Nat) (e : Ent) (u : State), (ringPut w id e (summarise 0x0F u)).1.hush = u.hush := fun w id e u => ringPut_hush ..
  unfold lossAlone
  refine (foldl_keeps State.hush _ (fun u k => ?_) _ _).trans (foldl_keeps State.hush _ (fun u k => ?_) _ _)
  · dsimp only
    split
    · rfl
    · exact hush_of_hushEv ((ev_hushEv _ _).trans (linkSend_hushEv ..))
  · dsimp only
    split
    · rfl
    · split
      · next s' ev h =>
        exact (emit_hush ..).trans ((congrArg (fun p => p.1.hush) h).symm.trans (hring ..))
      · rfl

theorem deliverQueue_hush (s : State) : (deliverQueue s).hush = s.hush := by
  unfold deliverQueue
  refine (lossAlone_hush _).trans ((foldl_keeps State.hush _ (fun u e => hush_ite ((emit_hush ..).trans (hush_of_hushEv (evDeliver_hushEv ..)))) _ _).trans ?_)
  refine (foldl_keeps State.hush chargeLoss (fun u e => ?_) s.ev.dropped s)
  unfold chargeLoss
  split <;> rfl

/-- STAGE at the end of bring-up, and the packs built (R507). -/
theorem bringupReady_leaves (hsix : stage s = 6) (hnone : fgLeft s = false) : (bringupReady s).packs = defaultPacks s.boot.tePassed ∧
    stage (bringupReady s) = if (degradeCause { s with packs := defaultPacks s.boot.tePassed }).isSome then 14 else 7 := by
  have hstage : ∀ (d : Option (Nat × Handle × Nat)) (u : State), stage (stageEnd (setStage (if d.isSome then 14 else 7) u)) = if d.isSome then 14 else 7 := fun d u =>
    (stage_of_hush (boxNow_hush ..)).trans (stage_setStage (by split <;> decide) u)
  have hend : ∀ (n : Nat) (u : State), (stageEnd (setStage n u)).packs = u.packs := fun n u => by
    have hbox : (stageEnd (setStage n u)).hush = (setStage n u).hush := boxNow_hush ..
    exact (packs_of_hush (hbox.trans (setStage_hush n u))).trans rfl
  have hpacks : ∀ (n : Nat) (u : State), (stageEnd (setStage n (deliverQueue u))).packs = u.packs := fun n u =>
    (hend n (deliverQueue u)).trans (packs_of_hush (deliverQueue_hush u))
  unfold bringupReady
  rw [if_neg (by simp [hsix, hnone])]
  refine ⟨(hpacks ..).trans ?_, hstage ..⟩
  dsimp only [bootMod]
  split <;> rfl

theorem does_bringupReady (hsix : stage s = 6) (hnone : fgLeft s = false) : Does .bringupReady s fun t => t.packs = defaultPacks s.boot.tePassed ∧
    stage t = if (degradeCause { s with packs := defaultPacks s.boot.tePassed }).isSome then 14 else 7 := by
  obtain ⟨hpacks, hstage⟩ := bringupReady_leaves hsix hnone
  refine does_row (t := bringupReady s) rfl fun u hu => ?_
  rw [packs_of_hush hu, stage_of_hush hu]
  exact ⟨hpacks, hstage⟩

end

/-- Settles O6: each step of bring-up from the state in which its condition holds. -/
theorem bringUpSteps : Obligations.BringUpSteps := by
  unfold Obligations.BringUpSteps
  intro s
  exact ⟨fun straps mv => does_vinAuxRise, fun k => does_mgmtFwVerified, does_mgmtFwFails, does_mainRailsUp, does_kennelBoot, does_storeTrained, fun pass lock => does_convertersCal,
    does_bringupReady⟩

end Sys2Proof.Machine
end

section
/-! The security core (R571 to R590), and O56. -/
namespace Sys2Proof.Machine
open Sys2Proof

section
variable {i : Instr} {s t : State} {y : SecSt} {P : State → Prop}

/-- A row that State.hush shows to touch the security core alone. -/
theorem does_sec (hi : exec i s = settle s t) (ht : t.hush = ({ s with sec := y } : State).hush)
    (hp : ∀ u : State, u.sec = y → ({ u with sec := s.sec } : State).hush = s.hush → P u) : Does i s P :=
  does_row hi fun u hu => hp u (sec_of_hush (hu.trans ht)) (hush_update (hu.trans ht) (fun x => { x with sec := s.sec }) fun _ => rfl)

variable {v : Verb} {c : Cmd}

/-- A verb that State.hush shows to touch the security core alone. -/
theorem does_secVerb (h : Accepts v c s) (hs : v.start = fun _ s => s) (hi : exec i s = settle s (runVerb v c s))
    (ht : ∀ u : State, u.sec = s.sec → (v.act c u).1.hush = ({ u with sec := y } : State).hush)
    (hp : ∀ u : State, u.sec = y → ({ u with sec := s.sec } : State).hush = s.hush → P u) : Does i s P := by
  refine does_of_act h hs hi fun k j t hact => ?_
  have hsec := hact.trans (ht _ rfl)
  exact hp t (sec_of_hush hsec) (hush_update hsec (fun x => { x with sec := s.sec }) fun _ => rfl)

/-- What a verb that reads n bytes of memory from a acts on once the banks have counted the read (R311). -/
def noted (v : Verb) (c : Cmd) (s : State) (a n : Nat) : State := kennelNote a n (begun v c s)

theorem noted_frame (hs : v.start = fun _ s => s) (a n : Nat) : ({ noted v c s a n with banks := s.banks } : State).hush = s.hush := by
  obtain ⟨k, j, hbegun⟩ := begun_frame (v := v) (c := c) (s := s) hs
  rw [noted, kennelNote_frame, hbegun]
  rfl

theorem noted_reads (hs : v.start = fun _ s => s) (a n : Nat) :
    (noted v c s a n).sec = s.sec ∧ (noted v c s a n).boot = s.boot ∧ (noted v c s a n).cyc = s.cyc := by
  have h := noted_frame (c := c) (s := s) hs a n
  have hsec := sec_of_hush h
  have hboot := boot_of_hush h
  have hcyc := cyc_of_hush h
  exact ⟨hsec, hboot, hcyc⟩

/-- A verb that reads memory and then touches the security core alone. -/
theorem does_secNoted {a n : Nat} (h : Accepts v c s) (hs : v.start = fun _ s => s) (hi : exec i s = settle s (runVerb v c s))
    (ht : (v.act c (begun v c s)).1.hush = ({ noted v c s a n with sec := y } : State).hush)
    (hp : ∀ u : State, u.sec = y → ({ u with sec := s.sec, banks := s.banks } : State).hush = s.hush → P u) : Does i s P := by
  refine does_of_begun h hi fun t hact => ?_
  have hsec := hact.trans ht
  refine hp t (sec_of_hush hsec) ((hush_update hsec (fun x => { x with sec := s.sec, banks := s.banks }) fun _ => rfl).trans ?_)
  exact hush_update (noted_frame hs a n) (fun x => { x with sec := s.sec }) fun _ => rfl

end

@[simp] theorem secNote_hush (type code : Nat) (d : Bytes) (s : State) : (secNote type code d s).hush = s.hush :=
  (raise_hush ..).trans (boxNow_hush ..)

/-- The security core with one more failure of AUTH (R588). -/
def SecSt.denied (x : SecSt) : SecSt := { x with authFails := (x.authFails + 1) % 2 ^ 32 }

theorem authFail_hush (op r : Nat) (s : State) : (authFail op r s).hush = ({ s with sec := s.sec.denied } : State).hush := secNote_hush ..

theorem imageFail_hush (type source reason version : Nat) (s : State) : (imageFail type source reason version s).hush = s.hush := secNote_hush ..

/-- A failure of AUTH behind what only raises records and entries. -/
theorem authFail_hush_of {op r : Nat} {s t : State} (h : s.hush = t.hush) : (authFail op r s).hush = ({ t with sec := t.sec.denied } : State).hush :=
  (authFail_hush op r s).trans (hush_update h (fun x => { x with sec := x.sec.denied }) fun _ => rfl)

/-! ### The report and the certificates (R579, R580) -/

theorem numAt_padTo {b : Bytes} {off k n : Nat} (h : off + k ≤ n) (hb : off + k ≤ b.length) : numAt (padTo n b) off k = numAt b off k := by
  rw [padTo, numAt_take h, ← numAt_take (c := b.length) hb, List.take_left]

theorem bytesAt_padTo {b : Bytes} {off k n : Nat} (h : off + k ≤ n) (hb : off + k ≤ b.length) : bytesAt (padTo n b) off k = (b.drop off).take k := by
  have hcut : ((padTo n b).drop off).take k = (b.drop off).take k := by
    rw [padTo, List.drop_take, List.take_take, Nat.min_eq_left (by omega), List.drop_append_of_le_length (by omega),
      List.take_append_of_le_length (by simp; omega)]
  rw [bytesAt, hcut, List.take_append_of_le_length (by simp; omega), List.take_take, Nat.min_self]

/-- Bytes 4 to 7 of the report. -/
def reportFlags (s : State) : Bytes :=
  [0x01] ++ le 1 s.boot.bootSlot ++ le 1 s.power.straps.toNat ++ le 1 (b2n s.sec.unlocked + 2 * b2n s.sec.otp.ownerEnforce)

/-- Bytes 64 to 207 of the report. -/
def reportHashes (s : State) : Bytes := (List.range 3).flatMap fun i => padTo 48 (s.boot.runHash.getD i [])

/-- Bytes 208 to 214 of the report. -/
def reportVersions (s : State) : Bytes :=
  ((List.range 3).flatMap fun i => le 1 (s.boot.runSecVersion.getD i 0)) ++ ([1, 2, 3].flatMap fun t => le 1 (rollbackOf s t)) ++
    le 1 (s.sec.otp.vendorRevoked.toNat + 16 * s.sec.otp.ownerRevoked.toNat + 64 * b2n (filled (s.sec.otp.ownerHash.getD 0 [])) +
      128 * b2n (filled (s.sec.otp.ownerHash.getD 1 [])))

/-- The hash at the report's end. -/
def reportKeys (s : State) : Bytes :=
  sha384 ((List.range 4).flatMap (fun i => padTo 48 (s.sec.otp.vendorHash.getD i [])) ++ (List.range 2).flatMap fun i => padTo 48 (s.sec.otp.ownerHash.getD i []))

/-- Bytes 0 to 215 of the report, field by field, and the rest. -/
def reportFields (s : State) (nonce rest : Bytes) : Bytes :=
  le 4 0x4F415454 ++ (reportFlags s ++ (le 8 s.sec.otp.serial.toNat ++ (le 4 s.boot.bootCount.toNat ++ (timeB (now s) ++ (padTo 32 nonce ++
    (reportHashes s ++ (reportVersions s ++ (le 1 s.sec.scope.toNat ++ rest))))))))

@[simp] theorem length_reportFlags (s : State) : (reportFlags s).length = 4 := rfl
@[simp] theorem length_reportHashes (s : State) : (reportHashes s).length = 144 := by simp [reportHashes, List.range_succ]
@[simp] theorem length_reportVersions (s : State) : (reportVersions s).length = 7 := rfl

theorem padTo_of_length {n : Nat} {b : Bytes} (h : b.length = n) : padTo n b = b := by
  rw [padTo, List.take_append_of_le_length (Nat.le_of_eq h.symm), List.take_of_length_le (Nat.le_of_eq h)]

theorem report_eq (s : State) (nonce : Bytes) : report s nonce = padTo 416 (reportFields s nonce (reportKeys s)) := by
  have hword : padTo 8 (secWord s) = reportVersions s ++ le 1 s.sec.scope.toNat := padTo_of_length rfl
  rw [report, hword]
  simp only [reportFields, reportFlags, reportHashes, reportKeys, List.append_assoc]

theorem length_reportFields (s : State) (nonce rest : Bytes) : (reportFields s nonce rest).length = 216 + rest.length := by
  simp [reportFields]
  omega

/-- The fields of the report that say whose it is and whom it answers (R580). -/
theorem report_fields (s : State) (nonce : Bytes) (hn : nonce.length = 32) : numAt (report s nonce) 0 4 = 0x4F415454 ∧
    numAt (report s nonce) 8 8 = s.sec.otp.serial.toNat ∧ numAt (report s nonce) 16 4 = s.boot.bootCount.toNat ∧ bytesAt (report s nonce) 32 32 = nonce ∧
    numAt (report s nonce) 215 1 = s.sec.scope.toNat := by
  have hlen := length_reportFields s nonce (reportKeys s)
  have hnum : ∀ off k, off + k ≤ 216 → numAt (report s nonce) off k = numAt (reportFields s nonce (reportKeys s)) off k := fun off k h => by
    rw [report_eq, numAt_padTo (by omega) (by omega)]
  rw [hnum 0 4 (by decide), hnum 8 8 (by decide), hnum 16 4 (by decide), hnum 215 1 (by decide), report_eq, bytesAt_padTo (by decide) (by omega)]
  unfold reportFields
  refine ⟨numAt_append [] _ 4 _ rfl (by decide), ?_, ?_, ?_, ?_⟩
  · rw [← List.append_assoc (le 4 _)]
    exact numAt_append _ _ 8 _ (by simp) s.sec.otp.serial.isLt
  · rw [← List.append_assoc (le 4 _), ← List.append_assoc (le 4 _ ++ _)]
    exact numAt_append _ _ 4 _ (by simp) s.boot.bootCount.isLt
  · rw [padTo_of_length hn, ← List.append_assoc (le 4 _), ← List.append_assoc (le 4 _ ++ _), ← List.append_assoc ((le 4 _ ++ _) ++ _),
      ← List.append_assoc (((le 4 _ ++ _) ++ _) ++ _), List.drop_left' (by simp), List.take_left' hn]
  · rw [← List.append_assoc (le 4 _), ← List.append_assoc (le 4 _ ++ _), ← List.append_assoc ((le 4 _ ++ _) ++ _),
      ← List.append_assoc (((le 4 _ ++ _) ++ _) ++ _), ← List.append_assoc ((((le 4 _ ++ _) ++ _) ++ _) ++ _),
      ← List.append_assoc (((((le 4 _ ++ _) ++ _) ++ _) ++ _) ++ _), ← List.append_assoc ((((((le 4 _ ++ _) ++ _) ++ _) ++ _) ++ _) ++ _)]
    exact numAt_append _ _ 1 _ (by simp) s.sec.scope.isLt

section
variable {c : Cmd} {s : State}

theorem answers_secAttest (h : Accepts vSecAttest c s) : Answers (.secAttest c) vSecAttest c s [] fun u =>
    destWrite (argN c 32 6) (report s (bytesAt c.args 0 32) ++ padTo 96 (Config.sign s.sec.signNo (report s (bytesAt c.args 0 32))))
      { u with sec := { u.sec with signNo := u.sec.signNo + 1 } } :=
  answers_of_act h rfl rfl fun _ _ => rfl

theorem answers_secCert (h : Accepts vSecCert c s) :
    Answers (.secCert c) vSecCert c s (le 4 s.sec.certs.length) (destWrite (argN c 0 6) s.sec.certs) :=
  answers_of_act h rfl rfl fun _ _ => rfl

end

/-! ### Slot updates (R575, R577, R588) -/

theorem updateFails_congr {s t : State} (h : s.sec = t.sec) (b : Bytes) : updateFails s b = updateFails t b := by
  unfold updateFails imageReason rollbackOf
  rw [h]

section
variable {c : Cmd} {s : State} {h b : Bytes}

/-- The condition that stands against an update that passes every check (R588). -/
def updateRefusal (c : Cmd) (s : State) : Nat :=
  if s.boot.bootSlot = argN c 6 1 then REFUSED_STATE else if 1 < argN c 6 1 then BAD_ARG else if s.sec.update.isSome then BUSY else 0

theorem updateRefusal_eq_zero (c : Cmd) (s : State) : updateRefusal c s = 0 ↔ argN c 6 1 ≤ 1 ∧ argN c 6 1 ≠ s.boot.bootSlot ∧ s.sec.update = none := by
  unfold updateRefusal
  split
  case isTrue hboot => exact ⟨nofun, fun ⟨_, hne, _⟩ => (hne hboot.symm).elim⟩
  case isFalse hboot =>
    split
    case isTrue hslot => exact ⟨nofun, fun ⟨hle, _⟩ => by omega⟩
    case isFalse hslot =>
      cases hup : s.sec.update with
      | some u => exact ⟨nofun, fun ⟨_, _, hnone⟩ => nomatch hnone⟩
      | none => exact ⟨fun _ => ⟨by omega, fun he => hboot he.symm, rfl⟩, fun _ => rfl⟩

/-- The security core with the update of a slot waiting and the slot blank (R577). -/
def SecSt.updating (x : SecSt) (c : Cmd) (seq : Nat) (b : Bytes) : SecSt :=
  { x with update := some ⟨c, argN c 6 1, BitVec.ofNat 32 seq, b⟩, flash := memZero x.flash (argN c 6 1 * 0x2000000) (argN c 6 1 * 0x2000000 + 0x2000000) }

section
variable {u : State} (hsrc : srcBad u (argN c 0 6) 64 = false) (hh : kennelRead u (argN c 0 6) 64 = some h)
  (hb : kennelRead u (argN c 0 6) (min 0x2000000 (slotSpan h)) = some b)
include hsrc hh hb

theorem vSecUpdate_denied {p : Nat × Nat} (hf : updateFails (kennelNote (argN c 0 6) (min 0x2000000 (slotSpan b)) u) b = some p) :
    (vSecUpdate.act c u).1.hush = ({ kennelNote (argN c 0 6) (min 0x2000000 (slotSpan b)) u with
      sec := (kennelNote (argN c 0 6) (min 0x2000000 (slotSpan b)) u).sec.denied } : State).hush := by
  obtain ⟨t, r⟩ := p
  simp only [vSecUpdate, hsrc, hh, hb, hf, Option.bind_some, Bool.false_eq_true, if_false]
  generalize kennelNote (argN c 0 6) (min 0x2000000 (slotSpan b)) u = w
  exact authFail_hush_of (imageFail_hush ..)

theorem vSecUpdate_refused (hf : updateFails (kennelNote (argN c 0 6) (min 0x2000000 (slotSpan b)) u) b = none) (hr : updateRefusal c u ≠ 0) :
    (vSecUpdate.act c u).1 = kennelNote (argN c 0 6) (min 0x2000000 (slotSpan b)) u := by
  simp only [updateRefusal] at hr
  simp [vSecUpdate, hsrc, hh, hb, hf, hr, answer]

theorem vSecUpdate_taken (hf : updateFails (kennelNote (argN c 0 6) (min 0x2000000 (slotSpan b)) u) b = none) (hr : updateRefusal c u = 0) :
    (vSecUpdate.act c u).1 = secMod (fun x => x.updating c (slotSeq (kennelNote (argN c 0 6) (min 0x2000000 (slotSpan b)) u) (1 - argN c 6 1) + 1) b)
      (kennelNote (argN c 0 6) (min 0x2000000 (slotSpan b)) u) := by
  simp only [updateRefusal] at hr
  simp only [vSecUpdate, hsrc, hh, hb, hf, hr, Option.bind_some, Bool.false_eq_true, if_false]
  rfl

end

theorem slotSeq_congr {s t : State} (h : s.sec = t.sec) (k : Nat) : slotSeq s k = slotSeq t k := by
  unfold slotSeq slotHeader flashRead
  rw [h]

theorem updateRefusal_congr {s t : State} (h : s.sec = t.sec) (hb : s.boot = t.boot) : updateRefusal c s = updateRefusal c t := by
  unfold updateRefusal
  rw [h, hb]

/-- SEC.UPDATE of a slot image that was read (R577, R588). -/
theorem does_secUpdate (hacc : Accepts vSecUpdate c s) (hsrc : srcBad (begun vSecUpdate c s) (argN c 0 6) 64 = false)
    (hh : kennelRead (begun vSecUpdate c s) (argN c 0 6) 64 = some h)
    (hb : kennelRead (begun vSecUpdate c s) (argN c 0 6) (min 0x2000000 (slotSpan h)) = some b) : Does (.secUpdate c) s fun t =>
      t.sec = (if updateFails s b = none then (if updateRefusal c s = 0 then s.sec.updating c (slotSeq s (1 - argN c 6 1) + 1) b else s.sec) else s.sec.denied) ∧
      ({ t with sec := s.sec, banks := s.banks } : State).hush = s.hush := by
  obtain ⟨hsec, -, -⟩ := noted_reads (v := vSecUpdate) (c := c) (s := s) rfl (argN c 0 6) (min 0x2000000 (slotSpan b))
  have hrefusal : updateRefusal c (begun vSecUpdate c s) = updateRefusal c s := by
    obtain ⟨k, j, hbegun⟩ := begun_frame (v := vSecUpdate) (c := c) (s := s) rfl
    rw [hbegun]
    rfl
  cases hf : updateFails s b with
  | some p =>
    refine does_secNoted hacc rfl rfl (vSecUpdate_denied hsrc hh hb ((updateFails_congr hsec b).trans hf)) fun t hu hframe => ⟨?_, hframe⟩
    rw [if_neg nofun, hu]
    exact congrArg SecSt.denied hsec
  | none =>
    have hf' := (updateFails_congr hsec b).trans hf
    rw [if_pos rfl]
    by_cases hr : updateRefusal c s = 0
    · refine does_secNoted hacc rfl rfl (congrArg State.hush (vSecUpdate_taken hsrc hh hb hf' (hrefusal.trans hr))) fun t hu hframe => ⟨?_, hframe⟩
      rw [if_pos hr, hu, ← slotSeq_congr hsec]
      exact congrArg (fun x : SecSt => x.updating c _ b) hsec
    · refine does_secNoted (y := s.sec) (a := argN c 0 6) (n := min 0x2000000 (slotSpan b)) hacc rfl rfl ?_ fun t hu hframe => ⟨hu.trans (if_neg hr).symm, hframe⟩
      rw [vSecUpdate_refused hsrc hh hb hf' (fun h0 => hr (hrefusal.symm.trans h0)), ← hsec]
      rfl

end

/-! ### The end of an update (R577) -/

/-- The header of an updated slot. -/
def updateHead (u : UpdateSt) : Bytes := withCrc (u.image.take 4 ++ le 4 u.newSeq.toNat ++ (u.image.drop 8).take 52)

/-- The boot flash with an update written: the images, then the header. -/
def updatedFlash (m : List Host.Cell) (u : UpdateSt) : List Host.Cell :=
  memPut (memPut (memZero m (u.slot * 0x2000000) (u.slot * 0x2000000 + 0x2000000)) (u.slot * 0x2000000 + 64) (u.image.drop 64)) (u.slot * 0x2000000) (updateHead u)

section
variable {u : UpdateSt} {m : List Host.Cell} (hlen : 64 ≤ u.image.length)
include hlen

theorem length_updateHead : (updateHead u).length = 64 := by
  simp [updateHead, withCrc]
  omega

/-- The header of an updated slot is valid and holds the new SLOT_SEQ. -/
theorem updateHead_ok (hmagic : numAt u.image 0 4 = 0x4F534C54) : slotHeaderOk (updateHead u) = true ∧ numAt (updateHead u) 4 4 = u.newSeq.toNat := by
  have hbody : (u.image.take 4 ++ le 4 u.newSeq.toNat ++ (u.image.drop 8).take 52).length = 60 := by
    simp
    omega
  have hfront : numAt (updateHead u) 0 4 = numAt u.image 0 4 := by
    rw [updateHead, withCrc, ← numAt_take (c := 4) (by omega), List.append_assoc, List.append_assoc, List.take_left' (by simp; omega), numAt_take (by omega)]
  have hcrc : numAt (updateHead u) 60 4 = (crc32 ((updateHead u).take 60)).toNat := by
    rw [updateHead, withCrc, List.take_left' hbody]
    have happ := numAt_append (u.image.take 4 ++ le 4 u.newSeq.toNat ++ (u.image.drop 8).take 52) [] 4
      (crc32 (u.image.take 4 ++ le 4 u.newSeq.toNat ++ (u.image.drop 8).take 52)).toNat hbody.symm (BitVec.isLt _)
    rwa [List.append_nil] at happ
  constructor
  · rw [slotHeaderOk, hfront, hmagic, hcrc, beq_self_eq_true, beq_self_eq_true]
    rfl
  · rw [updateHead, withCrc, List.append_assoc, List.append_assoc]
    exact numAt_append _ _ 4 _ (by simp; omega) u.newSeq.isLt

theorem updatedFlash_other (hmax : u.image.length ≤ 0x2000000) {a : Nat} (ha : a < u.slot * 0x2000000 ∨ u.slot * 0x2000000 + 0x2000000 ≤ a) :
    memGet (updatedFlash m u) a = memGet m a := by
  have hhead := length_updateHead hlen
  have hdrop : (u.image.drop 64).length = u.image.length - 64 := List.length_drop
  rw [updatedFlash]
  generalize u.slot * 0x2000000 = base at ha ⊢
  rw [memGet_memPut_other _ (by omega), memGet_memPut_other _ (by omega), memGet_memZero, if_neg (by omega)]

theorem updatedFlash_image (hwf : Memory.wf m = true) {n : Nat} (hn : 64 ≤ n) (hend : n < 0x2000000) :
    memGet (updatedFlash m u) (u.slot * 0x2000000 + n) = u.image.getD n 0 := by
  have hhead := length_updateHead hlen
  have hdrop : (u.image.drop 64).length = u.image.length - 64 := List.length_drop
  rw [updatedFlash, memGet_memPut_other _ (by omega)]
  by_cases hin : n < u.image.length
  · have hsame := memGet_memPut_same (u.slot * 0x2000000 + 64) (u.image.drop 64)
      (memZero_wf (u.slot * 0x2000000) (u.slot * 0x2000000 + 0x2000000) hwf) (i := n - 64) (by omega)
    rw [show u.slot * 0x2000000 + n = u.slot * 0x2000000 + 64 + (n - 64) by omega, hsame, List.getElem_drop, List.getD_eq_getElem _ _ hin]
    exact getElem_congr_idx (by omega)
  · rw [memGet_memPut_other _ (by omega), memGet_memZero, if_pos (by omega), List.getD_eq_default _ _ (by omega)]

end

theorem memTake_eq {m : List Host.Cell} {a : Nat} {b : Bytes} (h : ∀ i (hi : i < b.length), memGet m (a + i) = b[i]) : memTake m a b.length = b := by
  induction b generalizing a with
  | nil => rfl
  | cons x b ih =>
    have hfirst : memGet m a = x := h 0 (by simp)
    rw [List.length_cons, memTake, ih fun i hi => ?_, hfirst]
    · rw [Nat.add_assoc, Nat.add_comm 1 i, h (i + 1) (by simpa using hi)]
      rfl

theorem memTake_memPut {m : List Host.Cell} (a : Nat) (b : Bytes) (hwf : Memory.wf m = true) : memTake (memPut m a b) a b.length = b :=
  memTake_eq fun _ hi => memGet_memPut_same a b hwf hi

section
variable {s : State} {u : UpdateSt}

theorem slotSeq_updated {t : State} (hlen : 64 ≤ u.image.length) (hwf : Memory.wf s.sec.flash = true) (hmagic : numAt u.image 0 4 = 0x4F534C54)
    (ht : t.sec.flash = updatedFlash s.sec.flash u) : slotSeq t u.slot = u.newSeq.toNat := by
  obtain ⟨hok, hseq⟩ := updateHead_ok hlen hmagic
  have hread : slotHeader t u.slot = updateHead u := by
    have htake := memTake_memPut (m := memPut (memZero s.sec.flash (u.slot * 0x2000000) (u.slot * 0x2000000 + 0x2000000)) (u.slot * 0x2000000 + 64)
      (u.image.drop 64)) (u.slot * 0x2000000) (updateHead u) (memPut_wf _ _ (memZero_wf _ _ hwf))
    rw [length_updateHead hlen] at htake
    rw [slotHeader, flashRead, ht]
    exact htake
  rw [slotSeq, hread, hok, if_pos rfl, hseq]

theorem updateDone_hush (h : s.sec.update = some u) :
    (updateDone s).hush = ({ s with sec := { s.sec with update := none, flash := updatedFlash s.sec.flash u } } : State).hush := by
  simp only [updateDone, h]
  rw [complete_hush, secNote_hush]
  rfl

/-- SEC_UPDATE_DONE (R577, R588). -/
theorem does_secUpdateDone (h : s.sec.update = some u) : Does .secUpdateDone s fun t =>
    t.sec = { s.sec with update := none, flash := updatedFlash s.sec.flash u } ∧ ({ t with sec := s.sec } : State).hush = s.hush :=
  does_sec rfl (updateDone_hush h) fun _ hsec hframe => ⟨hsec, hframe⟩

end

/-! ### Rollback counters (R571, R572, R576) -/

theorem popcount_eq_card {n : Nat} (w : BitVec n) : popcount w = ((Finset.range n).filter fun i => bitAt w i = true).card := by
  simp [popcount, Finset.card, Finset.filter, Finset.range, Multiset.range]

theorem popcount_le {n : Nat} (w : BitVec n) : popcount w ≤ n :=
  (List.length_filter_le _ _).trans (Nat.le_of_eq List.length_range)

/-- One more bit counts one more. -/
theorem popcount_setBit {n i : Nat} {w : BitVec n} (hi : i < n) (h : bitAt w i = false) : popcount (setBit w i true) = popcount w + 1 := by
  have hset : ((Finset.range n).filter fun k => bitAt (setBit w i true) k = true) = insert i ((Finset.range n).filter fun k => bitAt w k = true) := by
    ext k
    rw [Finset.mem_insert, Finset.mem_filter, Finset.mem_filter, bitAt_setBit w hi, Finset.mem_range]
    by_cases hk : k = i
    · simp [hk, hi]
    · simp [hk]
  have hnew : i ∉ (Finset.range n).filter fun k => bitAt w k = true := by simp [h]
  rw [popcount_eq_card, popcount_eq_card, hset, Finset.card_insert_of_notMem hnew]

/-- Setting a bit keeps every bit. -/
theorem bitAt_setBit_true {n i k : Nat} {w : BitVec n} (hi : i < n) (h : bitAt w k = true) : bitAt (setBit w i true) k = true := by
  rw [bitAt_setBit w hi]
  split
  · rfl
  · exact h

/-- The lowest bit of a counter that is 0, where there is one. -/
def freeBit (w : BitVec 128) : Option Nat := (List.range 128).find? fun i => !bitAt w i

theorem freeBit_some {w : BitVec 128} {i : Nat} (h : freeBit w = some i) : i < 128 ∧ bitAt w i = false := by
  have hfree := List.find?_some h
  have hmem := List.mem_of_find?_eq_some h
  exact ⟨List.mem_range.mp hmem, by simpa using hfree⟩

theorem freeBit_none {w : BitVec 128} (h : freeBit w = none) : popcount w = 128 := by
  rw [freeBit, List.find?_eq_none] at h
  rw [popcount, List.filter_eq_self.mpr fun i hi => by simpa using h i hi, List.length_range]

/-- Which bit a raise sets. -/
theorem freeBit_lt (w : BitVec 128) : (freeBit w).getD 0 < 128 := by
  cases h : freeBit w with
  | none => decide
  | some i => exact (freeBit_some h).1

theorem raiseCounter_keeps (v : Nat) (n : Nat) (w : BitVec 128) {k : Nat} (h : bitAt w k = true) : bitAt (raiseCounter v n w) k = true := by
  induction n generalizing w with
  | zero => exact h
  | succ n ih =>
    rw [raiseCounter]
    split
    · exact h
    · exact ih _ (bitAt_setBit_true (freeBit_lt w) h)

theorem setBit_full {w : BitVec 128} (h : popcount w = 128) (i : Nat) (hi : i < 128) : popcount (setBit w i true) = 128 := by
  have hset : bitAt w i = true := by
    by_contra hclear
    have hmore := popcount_setBit hi (Bool.eq_false_iff.mpr hclear)
    have hmax := popcount_le (setBit w i true)
    omega
  have hsame : ((List.range 128).filter fun k => bitAt (setBit w i true) k) = (List.range 128).filter fun k => bitAt w k :=
    List.filter_congr fun k _ => by
      rw [bitAt_setBit w hi]
      split
      case isTrue hk => rw [hk, hset]
      case isFalse => rfl
  rw [popcount, hsame]
  exact h

/-- A raise of at most n bits counts to the number asked for, as far as the bits reach. -/
theorem popcount_raiseCounter (v n : Nat) (w : BitVec 128) : popcount (raiseCounter v n w) = max (popcount w) (min (min 128 (popcount w + n)) v) := by
  have hmax := popcount_le w
  induction n generalizing w with
  | zero =>
    rw [raiseCounter]
    omega
  | succ n ih =>
    rw [raiseCounter]
    split
    case isTrue hdone => omega
    case isFalse hmore =>
      change popcount (raiseCounter v n (setBit w ((freeBit w).getD 0) true)) = _
      rw [ih _ (popcount_le _)]
      cases hfree : freeBit w with
      | none =>
        have hfull := freeBit_none hfree
        rw [Option.getD_none, setBit_full hfull 0 (by decide)]
        omega
      | some i =>
        obtain ⟨hi, hclear⟩ := freeBit_some hfree
        have hroom := popcount_le (setBit w i true)
        rw [popcount_setBit hi hclear] at hroom
        rw [Option.getD_some, popcount_setBit hi hclear]
        omega

/-- A write leaves a field that asks for nothing new. -/
theorem bitsReach_self {n : Nat} (dead : List (Nat × Nat)) (field off : Nat) (w : BitVec n) : bitsReach dead field off w w = w :=
  List.foldlRecOn (motive := fun x => x = w) _ _ rfl fun x hx i _ => by simp [hx]

/-- A write keeps the bits that were 1 (R572). -/
theorem bitsReach_keeps {n : Nat} {dead : List (Nat × Nat)} {field off k : Nat} {old new : BitVec n} (hold : bitAt old k = true) (hnew : bitAt new k = true) :
    bitAt (bitsReach dead field off old new) k = true := by
  refine List.foldlRecOn (motive := fun x => bitAt x k = true) _ _ hnew fun x hx i hi => ?_
  split
  case isFalse => exact hx
  case isTrue hdead =>
    rw [bitAt_setBit x (List.mem_range.mp hi)]
    split
    case isTrue hk => simp [← hk, hold] at hdead
    case isFalse => exact hx

theorem map_zipIdx_self {α : Type} {g : Nat → α → α → α} (hg : ∀ k a, g k a a = a) (d : α) (l : List α) :
    l.zipIdx.map (fun x => g x.2 (l.getD x.2 d) x.1) = l := by
  refine List.ext_getElem (by simp) fun i h1 h2 => ?_
  simp [hg, List.getElem?_eq_getElem h2]

theorem hashReach_self (dead : List (Nat × Nat)) (field : Nat) (h : Bytes) : hashReach dead field h h = h :=
  map_zipIdx_self (g := fun k a b => bitsReach dead field (8 * k) a b) (fun _ _ => bitsReach_self ..) 0 h

/-- The counters after a write that asks for others. -/
def rollbackReach (o : OtpSt) (r : List (BitVec 128)) : List (BitVec 128) :=
  if o.dead.isEmpty then r else r.zipIdx.map fun x => bitsReach o.dead (5 + x.2) 0 (o.rollback.getD x.2 0) x.1

/-- A write of the counters leaves every other field of OTP. -/
theorem otpReach_rollback (o : OtpSt) (r : List (BitVec 128)) : otpReach o { o with rollback := r } = { o with rollback := rollbackReach o r } := by
  have hhash : o.ownerHash.zipIdx.map (fun x => hashReach o.dead (3 + x.2) (o.ownerHash.getD x.2 []) x.1) = o.ownerHash :=
    map_zipIdx_self (g := fun k a b => hashReach o.dead (3 + k) a b) (fun _ _ => hashReach_self ..) [] o.ownerHash
  have henforce : (o.ownerEnforce || (o.ownerEnforce && !o.dead.contains (2, 0))) = o.ownerEnforce := by cases o.ownerEnforce <;> rfl
  unfold otpReach rollbackReach
  split
  · rfl
  · simp only [bitsReach_self, hhash, henforce]

/-- The counters after a raise of one of them. -/
theorem rollbackReach_set_ne {o : OtpSt} {i j : Nat} (hj : j ≠ i) (w : BitVec 128) : (rollbackReach o (o.rollback.set i w)).getD j 0 = o.rollback.getD j 0 := by
  have hset : (o.rollback.set i w)[j]? = o.rollback[j]? := List.getElem?_set_ne (Ne.symm hj)
  unfold rollbackReach
  split
  · rw [List.getD_eq_getElem?_getD, hset, ← List.getD_eq_getElem?_getD]
  · rw [List.getD_eq_getElem?_getD, List.getElem?_map, List.getElem?_zipIdx, hset, List.getD_eq_getElem?_getD]
    cases hget : o.rollback[j]? with
    | none => rfl
    | some x => simp [hget, bitsReach_self]

theorem rollbackReach_set_keeps {o : OtpSt} {i k : Nat} (hi : i < o.rollback.length) {w : BitVec 128} (hold : bitAt (o.rollback.getD i 0) k = true)
    (hw : bitAt w k = true) : bitAt ((rollbackReach o (o.rollback.set i w)).getD i 0) k = true := by
  have hset : (o.rollback.set i w)[i]? = some w := List.getElem?_set_self hi
  unfold rollbackReach
  split
  · rw [List.getD_eq_getElem?_getD, hset]
    exact hw
  · rw [List.getD_eq_getElem?_getD, List.getElem?_map, List.getElem?_zipIdx, hset]
    simp only [Option.map_some, Option.getD_some, Nat.zero_add]
    exact bitsReach_keeps hold hw

section
variable {c : Cmd} {s : State}

/-- The counter of image type k, raised to the running version as far as its bits reach. -/
def raisedCounter (s : State) (k : Nat) : BitVec 128 := raiseCounter (s.boot.runSecVersion.getD (k - 1) 0) 128 (s.sec.otp.rollback.getD (k - 1) 0)

/-- OTP after SEC.ROLLBACK_COMMIT of image type k. -/
def committedOtp (s : State) (k : Nat) : OtpSt := { s.sec.otp with rollback := rollbackReach s.sec.otp (s.sec.otp.rollback.set (k - 1) (raisedCounter s k)) }

theorem vSecRollback_hush (u : State) : (vSecRollback.act c u).1.hush = ({ u with sec := { u.sec with otp := committedOtp u (argN c 0 1) } } : State).hush := by
  have hwrite : (otpWrite { u.sec.otp with rollback := u.sec.otp.rollback.set (argN c 0 1 - 1) (raisedCounter u (argN c 0 1)) } u).2 =
      { u with sec := { u.sec with otp := committedOtp u (argN c 0 1) } } := by
    rw [committedOtp, ← otpReach_rollback]
    rfl
  have hact : ∀ p : Bool × State, otpWrite { u.sec.otp with rollback := u.sec.otp.rollback.set (argN c 0 1 - 1) (raisedCounter u (argN c 0 1)) } u = p →
      (vSecRollback.act c u).1.hush = p.2.hush := fun p hp => by
    rw [raisedCounter] at hp
    obtain ⟨b, w⟩ := p
    cases b with
    | false =>
      simp only [vSecRollback, hp, answer]
      exact boxNow_hush ..
    | true =>
      simp only [vSecRollback, hp, okWith]
      exact secNote_hush ..
  rw [hact _ rfl, hwrite]

/-- An accepted SEC.ROLLBACK_COMMIT names one of the three counters (R576). -/
theorem rollback_named (h : Accepts vSecRollback c s) : 1 ≤ argN c 0 1 ∧ argN c 0 1 ≤ 3 := by
  have hgood := h.clear (x := badArg (argN c 0 1 == 0 || 3 < argN c 0 1)) (by simp [vSecRollback]) (fun h0 => absurd h0 (by decide : BAD_ARG ≠ 0))
  have hboth : ¬argN c 0 1 = 0 ∧ argN c 0 1 ≤ 3 := by simpa [badArg] using hgood
  omega

/-- SEC.ROLLBACK_COMMIT raises one counter and lowers none (R576). -/
theorem does_secRollbackCommit (h : Accepts vSecRollback c s) (hlen : s.sec.otp.rollback.length = 3) : Does (.secRollbackCommit c) s fun t =>
    (s.sec.otp.dead = [] → rollbackOf t (argN c 0 1) =
      max (rollbackOf s (argN c 0 1)) (min 128 (s.boot.runSecVersion.getD (argN c 0 1 - 1) 0))) ∧
    (∀ i < 128, bitAt (s.sec.otp.rollback.getD (argN c 0 1 - 1) 0) i = true → bitAt (t.sec.otp.rollback.getD (argN c 0 1 - 1) 0) i = true) ∧
    (∀ j, j ≠ argN c 0 1 - 1 → t.sec.otp.rollback.getD j 0 = s.sec.otp.rollback.getD j 0) ∧
    ({ t with sec := { t.sec with otp := { t.sec.otp with rollback := s.sec.otp.rollback } } } : State).hush = s.hush := by
  obtain ⟨hlo, hhi⟩ := rollback_named h
  refine does_of_act h rfl rfl fun k j t ht => ?_
  have hact := ht.trans (vSecRollback_hush _)
  have hsec : t.sec = { s.sec with otp := committedOtp s (argN c 0 1) } := sec_of_hush hact
  rw [hsec]
  refine ⟨fun hdead => ?_, fun i _ hi => ?_, fun n hn => rollbackReach_set_ne hn _, ?_⟩
  · have hreach : rollbackReach s.sec.otp (s.sec.otp.rollback.set (argN c 0 1 - 1) (raisedCounter s (argN c 0 1))) =
        s.sec.otp.rollback.set (argN c 0 1 - 1) (raisedCounter s (argN c 0 1)) := by rw [rollbackReach, hdead]; rfl
    have hcount := popcount_raiseCounter (s.boot.runSecVersion.getD (argN c 0 1 - 1) 0) 128 (s.sec.otp.rollback.getD (argN c 0 1 - 1) 0)
    have hself : (s.sec.otp.rollback.set (argN c 0 1 - 1) (raisedCounter s (argN c 0 1))).getD (argN c 0 1 - 1) 0 = raisedCounter s (argN c 0 1) := by
      rw [List.getD_eq_getElem?_getD, List.getElem?_set_self (by omega)]
      rfl
    rw [rollbackOf, hsec]
    simp only [committedOtp, hreach, hself]
    rw [raisedCounter, hcount, rollbackOf]
    omega
  · exact rollbackReach_set_keeps (by omega) hi (raiseCounter_keeps _ _ _ hi)
  · exact (hush_update hact (fun x => { x with sec := { s.sec with otp := { committedOtp s (argN c 0 1) with rollback := s.sec.otp.rollback } } }) fun _ => rfl).trans rfl

end

/-! ### Keys (R571, R588) -/

theorem keyAuth_congr {s t : State} (h : s.sec = t.sec) (a : Nat) (b : Bytes) : keyAuth s a b = keyAuth t a b := by
  unfold keyAuth
  rw [h]

section
variable {c : Cmd} {s : State} {b : Bytes} {a : Nat}

/-- A signed request whose OTP field can be written. -/
def keyMay (a : Nat) (b : Bytes) (o : OtpSt) : Bool :=
  !((a = 1 && numAt b 5 1 < 2 && filled (o.ownerHash.getD (numAt b 5 1) [])) ||
    (a = 2 && !(List.range 4).any fun k => k != numAt b 5 1 && vendorUsable o k)) &&
  !((a = 2 && 3 < numAt b 5 1) || ((a = 1 || a = 4) && 1 < numAt b 5 1))

/-- The security core after a SEC.KEY request. -/
def keyedSec (x : SecSt) (a : Nat) (b : Bytes) (auth may : Bool) : SecSt :=
  { x with otp := if auth = true ∧ may = true then keyApply a b x.otp else x.otp, authFails := if auth = true then x.authFails else (x.authFails + 1) % 2 ^ 32 }

/-- A write of OTP in which every bit takes. -/
theorem otpWrite_live {s : State} (hdead : s.sec.otp.dead = []) (new : OtpSt) : otpWrite new s = (true, { s with sec := { s.sec with otp := new } }) := by
  have hreach : otpReach s.sec.otp new = new := by
    unfold otpReach
    rw [hdead]
    rfl
  simp only [otpWrite, hreach, decide_true]
  rfl

theorem vSecKey_hush (ha : 1 ≤ a ∧ a ≤ 4) {u : State} (hdead : (kennelNote (argN c 0 6) 160 u).sec.otp.dead = [])
    (hotp : u.sec.otp = (kennelNote (argN c 0 6) 160 u).sec.otp) (hsrc : srcBad u (argN c 0 6) 160 = false)
    (hreq : keyRequest u c a = some b) : ((vSecKey a).act c u).1.hush = ({ kennelNote (argN c 0 6) 160 u with
      sec := keyedSec (kennelNote (argN c 0 6) 160 u).sec a b (keyAuth (kennelNote (argN c 0 6) 160 u) a b) (keyMay a b u.sec.otp) } : State).hush := by
  have hrange : (decide (a = 0) || decide (4 < a)) = false := by
    rw [Bool.or_eq_false_iff, decide_eq_false_iff_not, decide_eq_false_iff_not]
    omega
  simp only [vSecKey, hsrc, hreq, Bool.false_eq_true, if_false, hrange, Bool.false_or]
  generalize kennelNote (argN c 0 6) 160 u = w at hdead hotp ⊢
  cases hauth : keyAuth w a b with
  | false => exact authFail_hush ..
  | true =>
    have hmay : ∀ x y : Bool, keyMay a b u.sec.otp = (!x && !y) → (x = true ∨ y = true) → keyedSec w.sec a b true (keyMay a b u.sec.otp) = w.sec := by
      intro x y hxy hor
      have hno : keyMay a b u.sec.otp = false := by rcases hor with rfl | rfl <;> simp [hxy]
      rw [keyedSec, if_neg (by simp [hno]), if_pos rfl]
    rw [if_neg (by decide)]
    split
    case isTrue hset =>
      rw [hmay _ _ rfl (.inl hset)]
      rfl
    case isFalse hfree =>
      split
      case isTrue hbad =>
        rw [hmay _ _ rfl (.inr hbad)]
        rfl
      case isFalse hgood =>
        have hyes : keyMay a b u.sec.otp = true := by
          rw [keyMay, Bool.eq_false_iff.mpr hfree, Bool.eq_false_iff.mpr hgood]
          rfl
        have hkeyed : keyedSec w.sec a b true (keyMay a b u.sec.otp) = { w.sec with otp := keyApply a b u.sec.otp } := by
          rw [keyedSec, if_pos ⟨rfl, hyes⟩, if_pos rfl, hotp]
        rw [otpWrite_live hdead, hkeyed]
        exact secNote_hush ..

/-- A SEC.KEY request (R588). -/
theorem does_secKey {i : Instr} (ha : 1 ≤ a ∧ a ≤ 4) (h : Accepts (vSecKey a) c s) (hi : exec i s = settle s (runVerb (vSecKey a) c s))
    (hsrc : srcBad (begun (vSecKey a) c s) (argN c 0 6) 160 = false) (hreq : keyRequest (begun (vSecKey a) c s) c a = some b) (hdead : s.sec.otp.dead = []) :
    Does i s fun t => t.sec = keyedSec s.sec a b (keyAuth s a b) (keyMay a b s.sec.otp) ∧ ({ t with sec := s.sec, banks := s.banks } : State).hush = s.hush := by
  obtain ⟨hsec, -, -⟩ := noted_reads (v := vSecKey a) (c := c) (s := s) rfl (argN c 0 6) 160
  have hbegun : (begun (vSecKey a) c s).sec = s.sec := by
    obtain ⟨k, j, hb⟩ := begun_frame (v := vSecKey a) (c := c) (s := s) rfl
    rw [hb]
  have hact := vSecKey_hush (u := begun (vSecKey a) c s) ha ((congrArg (fun x : SecSt => x.otp.dead) hsec).trans hdead)
    (congrArg SecSt.otp (hbegun.trans hsec.symm)) hsrc hreq
  refine does_secNoted h rfl hi hact fun t hu hframe => ⟨?_, hframe⟩
  change t.sec = keyedSec (noted (vSecKey a) c s (argN c 0 6) 160).sec a b (keyAuth (noted (vSecKey a) c s (argN c 0 6) 160) a b) _ at hu
  rw [hu, hsec, keyAuth_congr hsec, hbegun]

end

/-! What may be written by each ACTION. -/

section
variable (b : Bytes) (o : OtpSt)

theorem keyMay_enrolOwner : keyMay 1 b o = (decide (numAt b 5 1 < 2) && !filled (o.ownerHash.getD (numAt b 5 1) [])) := by
  by_cases hi : numAt b 5 1 < 2
  · simp [keyMay, hi, show numAt b 5 1 ≤ 1 by omega]
  · simp [keyMay, hi, show 1 < numAt b 5 1 by omega]

theorem keyMay_revokeVendor : keyMay 2 b o = (decide (numAt b 5 1 < 4) && (List.range 4).any fun k => k != numAt b 5 1 && vendorUsable o k) := by
  generalize hany : ((List.range 4).any fun k => k != numAt b 5 1 && vendorUsable o k) = x
  by_cases hi : numAt b 5 1 < 4
  · simp [keyMay, hany, hi, show numAt b 5 1 ≤ 3 by omega]
  · simp [keyMay, hany, hi, show 3 < numAt b 5 1 by omega]

theorem keyMay_setOwnerEnforce : keyMay 3 b o = true := by simp [keyMay]

theorem keyMay_revokeOwner : keyMay 4 b o = decide (numAt b 5 1 < 2) := by
  rw [Bool.eq_iff_iff, decide_eq_true_iff]
  simp [keyMay]

end

/-! ### Debug unlock (R581) -/

section
variable {c d : Cmd} {s : State} {b : Bytes}

theorem answers_secDebugChallenge {d : Cmd} (hd : d = withByte c 0 0) (h : Accepts vDebugChallenge d s) :
    Answers (.secDebugChallenge c) vDebugChallenge d s (padTo 32 (Config.challenge s.sec.challengeNo)) fun u =>
      { u with sec := { u.sec with challenge := some (padTo 32 (Config.challenge s.sec.challengeNo), s.cyc), challengeNo := u.sec.challengeNo + 1 } } := by
  subst hd
  exact answers_of_act h rfl rfl fun _ _ => rfl

theorem tokenOk_congr {s t : State} (h : s.sec = t.sec) (hcyc : s.cyc = t.cyc) (b : Bytes) : tokenOk s b = tokenOk t b := by
  unfold tokenOk since
  rw [h, hcyc]

/-- The security core unlocked by a token. -/
def SecSt.opened (x : SecSt) (b : Bytes) : SecSt := { x with unlocked := true, scope := BitVec.ofNat 8 (numAt b 4 1 % 8), challenge := none }

theorem vDebugToken_hush {u : State} (hsrc : srcBad u (argN d 8 6) 160 = false) (hread : kennelRead u (argN d 8 6) 160 = some b) :
    (vDebugToken.act d u).1.hush = ({ kennelNote (argN d 8 6) 160 u with
      sec := if tokenOk (kennelNote (argN d 8 6) 160 u) b = true then (kennelNote (argN d 8 6) 160 u).sec.opened b
        else (kennelNote (argN d 8 6) 160 u).sec.denied } : State).hush := by
  simp only [vDebugToken, hsrc, hread, Bool.false_eq_true, if_false]
  generalize kennelNote (argN d 8 6) 160 u = w
  cases hok : tokenOk w b with
  | false => exact authFail_hush ..
  | true => exact (raise_hush ..).trans (boxNow_hush ..)

/-- A token that was read (R581, R590). -/
theorem does_secDebugUnlockToken (hd : d = withByte c 0 1) (h : Accepts vDebugToken d s) (hsrc : srcBad (begun vDebugToken d s) (argN d 8 6) 160 = false)
    (hread : kennelRead (begun vDebugToken d s) (argN d 8 6) 160 = some b) : Does (.secDebugUnlockToken c) s fun t =>
      t.sec = (if tokenOk s b = true then s.sec.opened b else s.sec.denied) ∧ ({ t with sec := s.sec, banks := s.banks } : State).hush = s.hush := by
  obtain ⟨hsec, -, hcyc⟩ := noted_reads (v := vDebugToken) (c := d) (s := s) rfl (argN d 8 6) 160
  refine does_secNoted h rfl (by rw [hd]; rfl) (vDebugToken_hush hsrc hread) fun t hu hframe => ⟨?_, hframe⟩
  change t.sec = (if tokenOk (noted vDebugToken d s (argN d 8 6) 160) b = true then (noted vDebugToken d s (argN d 8 6) 160).sec.opened b
    else (noted vDebugToken d s (argN d 8 6) 160).sec.denied) at hu
  rw [hu, tokenOk_congr hsec hcyc, hsec]

/-- What a token that passes says (R581). -/
theorem tokenOk_facts (h : tokenOk s b = true) : numAt b 8 8 = s.sec.otp.serial.toNat ∧ numAt b 5 1 < 6 ∧ (4 ≤ numAt b 5 1 → numAt b 4 1 / 4 % 2 = 0) ∧
    ∃ q, s.sec.challenge = some q ∧ q.1 = bytesAt b 16 32 ∧ s.cyc - q.2 ≤ 60000000000 := by
  unfold tokenOk at h
  simp only [Bool.and_eq_true, beq_iff_eq, decide_eq_true_eq, Bool.not_eq_true', Bool.and_eq_false_iff, decide_eq_false_iff_not] at h
  obtain ⟨⟨⟨⟨⟨⟨-, hsigner⟩, -⟩, hserial⟩, hscope⟩, hchallenge⟩, -⟩ := h
  refine ⟨hserial, hsigner, fun howner => ?_, ?_⟩
  · have hbit := hscope.resolve_left (not_not.mpr howner)
    rw [bitAt, BitVec.getLsbD_ofNat] at hbit
    simpa [Nat.testBit, Nat.shiftRight_eq_div_pow, Nat.and_one_is_mod] using hbit
  · cases hq : s.sec.challenge with
    | none => simp [hq] at hchallenge
    | some q =>
      rw [hq, Option.any_some, Bool.and_eq_true, beq_iff_eq, decide_eq_true_eq] at hchallenge
      obtain ⟨hbytes, hage⟩ := hchallenge
      exact ⟨q, rfl, hbytes, hage⟩

theorem does_secDebugRelock (h : Accepts vDebugRelock (withByte c 0 2) s) : Does (.secDebugRelock c) s fun t =>
    t.sec = { s.sec with unlocked := false, scope := 0 } ∧ ({ t with sec := s.sec } : State).hush = s.hush := by
  refine does_secVerb (y := { s.sec with unlocked := false, scope := 0 }) h rfl rfl (fun u hsec => ?_) fun t hu hframe => ⟨hu, hframe⟩
  rw [← hsec]
  exact (raise_hush ..).trans (boxNow_hush ..)

end

/-- Settles O56, from what each verb of the security core leaves: its answer, the one field that it changes, and the records it raises. -/
theorem securityCommands : Obligations.SecurityCommands := by
  unfold Obligations.SecurityCommands
  intro c s
  refine ⟨fun h => ?_, answers_secCert, fun h b hacc hsrc hh hb => ?_, fun hnone => ?_, fun u hu hwf hlen hmax hmagic => ?_, does_secRollbackCommit,
    fun b h hsrc hreq hdead => ?_, fun b h hsrc hreq hdead => ?_, fun b h hsrc hreq hdead => ?_, fun b h hsrc hreq hdead => ?_,
    fun h => ⟨_, length_padTo .., answers_secDebugChallenge rfl h⟩, fun b h hsrc hread => does_secDebugUnlockToken rfl h hsrc hread,
    fun b hok => tokenOk_facts hok, does_secDebugRelock⟩
  · obtain ⟨hmagic, hserial, hboot, hnonce, hscope⟩ := report_fields s (bytesAt c.args 0 32) (length_bytesAt ..)
    exact ⟨_, _, length_padTo .., length_padTo .., hmagic, hserial, hboot, hnonce, fun _ => hscope, answers_secAttest h⟩
  · obtain ⟨t, hexec, hsec, hframe⟩ := does_secUpdate hacc hsrc hh hb
    have hzero := updateRefusal_eq_zero c s
    refine ⟨t, hexec, fun ⟨hpass, htaken⟩ => ?_, fun hnot => ?_, ?_, ?_, hframe⟩
    · rw [hsec, if_pos hpass, if_pos (hzero.mpr htaken)]
      exact ⟨rfl, fun a ha => (memGet_memZero ..).trans (if_neg (by omega))⟩
    · rw [hsec]
      split
      case isTrue hpass => rw [if_neg fun h0 => hnot ⟨hpass, hzero.mp h0⟩]; exact ⟨rfl, rfl⟩
      case isFalse => exact ⟨rfl, rfl⟩
    · rw [hsec]
      split
      case isTrue => split <;> rfl
      case isFalse => rfl
    · rw [hsec]
      split
      case isTrue => split <;> rfl
      case isFalse => rfl
  · refine exec_quiet (t := updateDone s) rfl ?_ rfl
    rw [updateDone, hnone]
  · obtain ⟨t, hexec, hsec, hframe⟩ := does_secUpdateDone hu
    have hflash : t.sec.flash = updatedFlash s.sec.flash u := by rw [hsec]
    refine ⟨t, hexec, by rw [hsec], by rw [hsec], fun a ha => ?_, fun n hn hend => ?_, slotSeq_updated hlen hwf hmagic hflash, hframe⟩
    · rw [hflash]
      exact updatedFlash_other hlen hmax ha
    · rw [hflash]
      exact updatedFlash_image hlen hwf hn hend
  · have hkey := does_secKey (i := .secKeyEnrolOwner c) (by decide) h rfl hsrc hreq hdead
    rwa [keyMay_enrolOwner] at hkey
  · have hkey := does_secKey (i := .secKeyRevokeVendor c) (by decide) h rfl hsrc hreq hdead
    rwa [keyMay_revokeVendor] at hkey
  · have hkey := does_secKey (i := .secKeySetOwnerEnforce c) (by decide) h rfl hsrc hreq hdead
    rwa [keyMay_setOwnerEnforce] at hkey
  · have hkey := does_secKey (i := .secKeyRevokeOwner c) (by decide) h rfl hsrc hreq hdead
    rwa [keyMay_revokeOwner] at hkey

end Sys2Proof.Machine
end

section
/-! The training of a bond that takes other lanes at its next L reset (R475, R500), and O58. -/
namespace Sys2Proof.Machine
open Sys2Proof

/-- What a command is said to leave holds of the state that it does leave. -/
theorem Does.of_next {i : Instr} {s u : State} {P : State → Prop} (h : Does i s P) (hu : exec i s = .next u) : P u := by
  obtain ⟨t, ht, hp⟩ := h
  exact Host.Outcome.next.inj (ht.symm.trans hu) ▸ hp

/-- A bond in training that selects no lane, and selects lane 0 from its next L reset on (R500). -/
def changingBond : BondSt :=
  { cfg := BitVec.ofNat 128 (31 + (31 <<< 5)), cfgNext := some (BitVec.ofNat 128 (0 + (31 <<< 5) + (1 <<< 16))), phase := .cap }

/-- A device whose bonds stand so, with every lane in training. -/
def changingState : State := { link := { bond := Vector.replicate 8 changingBond, lane := Vector.replicate 144 { state := .training } } }

/-- A good CAP block. -/
def goodCap : Bytes := ctlBlock 1 0 0 0 []

/-- Lane 0 is of bond 0 because of the configuration that waits, while the one in force selects no lane. -/
theorem changing_lanes : laneBond changingState 0 = some 0 ∧ bondLanes changingState 0 = [] ∧ ctlOk 1 goodCap = true := by decide +kernel

/-- The CAP counts on lane 0, which is not mapped by it; the bond goes on training. -/
theorem changing_cap : (vget (capTake 0 false goodCap changingState).link.bond 0).phase = .cap ∧ (capTake 0 false goodCap changingState).ev.raised = [] := by
  decide +kernel

/-- Refutes O58: a lane that a bond holds by its waiting configuration alone counts a CAP, and the bond does not end its step 2, although every
lane that its configuration in force selects is mapped (here it selects none). -/
theorem not_linkTraining : ¬ Obligations.LinkTraining := by
  unfold Obligations.LinkTraining
  intro h
  obtain ⟨-, -, -, -, -, -, -, -, -, -, -, -, -, hcap, -⟩ := h default changingState 0 0 goodCap
  obtain ⟨hbond, hlanes, hgood⟩ := changing_lanes
  obtain ⟨hphase, hraised⟩ := changing_cap
  obtain ⟨-, htake, -⟩ := hcap hbond rfl rfl
  have hstep : exec (.cap 0 goodCap) changingState = .next (capTake 0 false goodCap changingState) := exec_quiet rfl rfl hraised
  obtain ⟨-, -, -, -, hmapped, -⟩ := Does.of_next (htake hgood (by decide +kernel)) hstep
  have hend := hmapped.mpr (by
    intro k hk
    change k ∈ bondLanes changingState 0 at hk
    rw [hlanes] at hk
    exact absurd hk List.not_mem_nil)
  cases hphase.symm.trans hend

end Sys2Proof.Machine
end

section
/-! Markers on a lane that is not in use (R479), and O59. -/
namespace Sys2Proof.Machine
open Sys2Proof

/-- A bond in service on lane 0, whose other lane has left it. -/
def narrowBond : BondSt :=
  { cfg := BitVec.ofNat 128 (0 + (31 <<< 5) + (3 <<< 16) + (1 <<< 32) + (1 <<< 40)), phase := .up, mask := 1 }

/-- A device between the training of its store and READY with bond 0 in service so. -/
def narrowState : State :=
  { boot := { stage := 5, mainOn := true }
    link := { bond := (Vector.replicate 8 {}).set 0 narrowBond, lane := ((Vector.replicate 144 {}).set 0 { state := .inService }).set 1 { state := .left } } }

/-- A good ALIGN whose MARKER_COUNT is 0. -/
def goodAlign : Bytes := ctlBlock 6 1 0 0 []

/-- Lane 0 is the one lane in service, and its marker has the count of the ALIGN and arrived in the same cycle. -/
theorem narrow_lanes : laneBond narrowState 1 = some 0 ∧ ctlOk 6 goodAlign = true ∧ numAt goodAlign 4 4 = 0 ∧
    ((maskLanes narrowState 0 narrowBond.mask).filter fun k => k != 1 && (vget narrowState.link.lane k).state == .inService) = [0] := by decide +kernel

/-- The ALIGN on the lane that has left resets the bond: the one lane in service passes for skewed against all others. -/
theorem narrow_align : (vget (alignTake 1 goodAlign narrowState).link.bond 0).phase = .cap ∧ (alignTake 1 goodAlign narrowState).ev.raised = [] := by
  decide +kernel

/-- Refutes O59: where one lane alone is in service, an ALIGN on another lane of the bond with the same count and no skew at all resets the
bond, so that it does not stand as it was but for its marker. -/
theorem not_linkDelivery : ¬ Obligations.LinkDelivery := by
  unfold Obligations.LinkDelivery
  intro h
  obtain ⟨-, -, halign, -⟩ := h narrowState 0 1 goodAlign
  obtain ⟨hmine, hgood, hcount, hothers⟩ := narrow_lanes
  obtain ⟨hphase, hraised⟩ := narrow_align
  have hclose : ∀ k ∈ (maskLanes narrowState 0 narrowBond.mask).filter (fun k => k != 1 && (vget narrowState.link.lane k).state == .inService), k = 0 :=
    fun k hk => List.mem_singleton.mp (hothers ▸ hk)
  have hstep : exec (.align 1 goodAlign) narrowState = .next (alignTake 1 goodAlign narrowState) := exec_quiet rfl rfl hraised
  obtain ⟨-, hbond, -⟩ := Does.of_next (halign hmine rfl hgood rfl fun k hk => by
    rw [hclose k hk, hcount]
    decide +kernel) hstep
  cases hphase.symm.trans (congrArg BondSt.phase hbond)

end Sys2Proof.Machine
end
